-- ==== Sys2Proof/Word.lean ====
section
/-! DEFINITION. The word types of the model and the sparse map that the state uses. -/

namespace Sys2Proof

/-- One byte. -/
abbrev Byte := BitVec 8

/-- An association list: the form in which the state holds sparse tables. A key that is not
listed stands for the default that the reader of the table names. -/
abbrev AMap (κ α : Type) := List (κ × α)

/-- The value listed for a key. -/
def AMap.find {κ α : Type} [DecidableEq κ] (m : AMap κ α) (k : κ) : Option α :=
  match m with
  | [] => none
  | (k', v) :: rest => if k' = k then some v else AMap.find rest k

/-- The value listed for a key, or the default. -/
def AMap.getD {κ α : Type} [DecidableEq κ] (m : AMap κ α) (k : κ) (d : α) : α :=
  (AMap.find m k).getD d

/-- List a value for a key: in the key's place when it is listed, else at the end. -/
def AMap.put {κ α : Type} [DecidableEq κ] (m : AMap κ α) (k : κ) (v : α) : AMap κ α :=
  match m with
  | [] => [(k, v)]
  | (k', v') :: rest => if k' = k then (k, v) :: rest else (k', v') :: AMap.put rest k v

/-- Take a key off the list. -/
def AMap.del {κ α : Type} [DecidableEq κ] (m : AMap κ α) (k : κ) : AMap κ α :=
  m.filter (fun p => decide (p.1 ≠ k))

end Sys2Proof
end

