-- ==== Sys2Proof/Syntax.lean ====
section
/-! DEFINITION. The commands of the block: one constructor of `Instr` for each row of
spec/opcode_table.json, over the operand types that stand before it. An operand carries what comes
from outside the DK5 with the command: what a host wrote, what a link delivered, what a sensor
measured, and which of the outcomes that the spec gives to an error outside the model's reach (a
bit error, a training result) took place. -/

namespace Sys2Proof

/-- What the Cox meets at the indirect buffer of a mailbox command (R549): the bytes a DMA read
returns, whether that read succeeds, and how many bytes of a bulk reply the host accepts before its
DMA write fails (`none`: it does not fail). -/
structure IndBuf where
  data : List Byte
  readOk : Bool
  writeFail : Option Nat
  deriving DecidableEq, Repr

/-- One Unlor command as a function sends it: the function (0 is PF0, `n + 1` the virtual function of
slot `n`), the command slot, the header fields of R547 (the row fixes the opcode) and the inline
payload. -/
structure HostCmd where
  fn : Fin 65
  mb : Fin 16
  seq : BitVec 16
  handle : BitVec 16
  length : BitVec 16
  ind : Bool
  indAddr : BitVec 64
  indLen : BitVec 32
  /-- The RSV bits of the header: bits 127:97 in 30:0, bits 95:64 above them, bits 255:224 on top. -/
  rsv : BitVec 95
  /-- The 224 bytes after the header, little-endian. -/
  payload : BitVec 1792
  dma : IndBuf
  /-- Whether the host's writes come on the function's IDE stream (R509). -/
  ide : Bool
  deriving DecidableEq, Repr

/-- A 32-bit write that the host makes to BAR0: the word and whether it comes on the function's IDE stream (R509). -/
structure HostWord where
  word : BitVec 32
  ide : Bool
  deriving DecidableEq, Repr

/-- What a thermal sensor reports: its number and the temperature in degrees Celsius. -/
structure SensorReading where
  sensor : Fin 32
  temp : Nat
  deriving DecidableEq, Repr

/-- Where a raw register write arrives: BAR0 of a function, or the SMBus of the module. -/
inductive RegBus where
  | bar0 (fn : Fin 65) (ide : Bool)
  | smbus (pec : Option Byte)
  deriving DecidableEq, Repr

/-- How an SPDM message reaches the device: the DOE mailbox of a function, or a MGMT frame, through a port and from a node. -/
inductive SpdmPort where
  | doe (fn : Fin 65)
  | mgmt (port : Fin 32) (src : BitVec 18)
  deriving DecidableEq, Repr

/-- A core that runs job code: the stroke core context of a job slot on a die, or a rigger core. -/
inductive CoreId where
  | stroke (die : Fin 4) (slot : Fin 64)
  | rigger (r : Fin 64)
  deriving DecidableEq, Repr

/-- A task table entry: job slot, die and index (R184). -/
structure TaskRef where
  slot : Fin 64
  die : Fin 4
  index : BitVec 16
  deriving DecidableEq, Repr

/-- Operand fields of a vector instruction word (R134); the row fixes the opcode. -/
structure VFields where
  mask : BitVec 3
  mz : Bool
  td : BitVec 5
  ta : BitVec 5
  tb : BitVec 5
  tc : BitVec 5
  cs : BitVec 6
  imm : BitVec 26
  deriving DecidableEq, Repr

/-- A request at a memory controller or an Activation Store: for a job slot at a job virtual
address, or for no job at a device physical address; the task it runs for, when one does. -/
structure MemReq where
  slot : Option (Fin 64)
  die : Fin 4
  addr : Nat
  len : Nat
  task : Option TaskRef
  deriving DecidableEq, Repr

/-- What the stack's code finds in a sector (R284): nothing wrong, up to four bytes corrected, an
error beyond correction, or one of the two undetected cases with the tag and data produced. -/
inductive SectorEcc where
  | clean
  | corrected
  | uncorrectable
  | miscorrected (tag : BitVec 16) (data : List Byte)
  | undetected (tag : BitVec 16) (data : List Byte)
  deriving DecidableEq, Repr

/-- What the SECDED code of an Activation Store word finds (R290). -/
inductive WordErr where
  | clean
  | single
  | double
  | undetected (data : BitVec 64)
  deriving DecidableEq, Repr

/-- A VMT packet (R340): every header field but the opcode, which the row fixes, the payload and the authentication
tag. On a wire the payload stands as it travels (R341); the device's own units read and write it in the clear. -/
structure Packet where
  txc : BitVec 64
  jobId : BitVec 20
  dst : BitVec 18
  src : BitVec 18
  seq : BitVec 32
  time : BitVec 40
  va : BitVec 48
  ctr : BitVec 16
  length : BitVec 13
  vl : BitVec 3
  rsvA : BitVec 5
  poison : Bool
  sig : Bool
  fin : Bool
  sub : BitVec 4
  tryN : BitVec 5
  path : BitVec 2
  rsvB : BitVec 17
  ver : BitVec 4
  payload : List Byte
  tag : BitVec 128
  deriving DecidableEq, Repr

/-- The link shim of a frame (R380). -/
structure Shim where
  kind : BitVec 4
  vl : BitVec 3
  transit : Bool
  hop : BitVec 2
  ceEcho : Bool
  rsv : BitVec 21
  deriving DecidableEq, Repr

/-- What stands around the content of a frame: on a crew link (R381), on an uplink (R382), or a standard encapsulation by
its EtherType and, over UDP, its destination port (R387, R458). -/
inductive FrameHdr where
  | crew (dst src : BitVec 48) (ethertype : BitVec 16)
  /-- VLAN tag as PCP and VLAN ID, DSCP and ECN of the traffic class, whether an extension header follows, and whether the UDP
  checksum is right. -/
  | uplink (dst src : BitVec 48) (vlan : Option (BitVec 3 × BitVec 12)) (dscp : BitVec 6) (ecn : BitVec 2)
      (flow : BitVec 20) (hops : Byte) (ext : Bool) (srcIp dstIp : BitVec 128) (srcPort dstPort : BitVec 16) (sumOk : Bool)
  | standard (ethertype : BitVec 16) (udp : Option (BitVec 16))
  deriving DecidableEq, Repr

/-- A VMT frame that arrives on a port: what stands around it, the FEC codewords of it that were corrected and that could not
be (R408), whether its FCS holds, the shim and the packet. -/
structure Arrival where
  port : Fin 32
  hdr : FrameHdr
  fecCorrected : Nat
  fecBad : Nat
  fcsOk : Bool
  shim : Shim
  pkt : Packet
  deriving DecidableEq, Repr

/-- The content of a count message (R228, R229): its exchange, sequence and round, the values of its sender's descriptor that
every member shares (R225), and one count for each group of offers to the receiver's experts. -/
structure CountMsg where
  exch : BitVec 16
  step : BitVec 32
  round : BitVec 8
  shape : Nat
  counts : List Nat
  deriving DecidableEq, Repr

/-- The content of a grant message (R228, R230): beside what a count message has, the grant of each group, whether each expert
of the sender is full, and the total refused. -/
structure GrantMsg where
  exch : BitVec 16
  step : BitVec 32
  round : BitVec 8
  shape : Nat
  grants : List (Nat × Nat)
  deriving DecidableEq, Repr

/-- A partner's HELLO (R388), with its certificate chain and the outcome of the checks of it. -/
structure Hello where
  fabricId : BitVec 64
  node : BitVec 18
  nodeValid : Bool
  peerPort : BitVec 5
  nonce : BitVec 256
  ecdhKey : List Byte
  chain : List Byte
  chainOk : Bool
  deployed : Bool
  idKey : List Byte
  mac : BitVec 48
  deriving DecidableEq, Repr

/-- The content of a MGMT frame (R512) after its fields are split. -/
inductive MgmtBody where
  | unlor (opcode : BitVec 16) (c : HostCmd)
  | spdm (code : Byte) (msg : List Byte)
  | report (data : List Byte)
  | other (kind : Byte)
  deriving DecidableEq, Repr

/-- A MGMT frame (R512): the sender, the target, the counter, the time stamp and the tag as received. -/
structure MgmtFrame where
  src : BitVec 18
  dst : BitVec 18
  ctr : BitVec 64
  time : BitVec 64
  tag : BitVec 128
  body : MgmtBody
  deriving DecidableEq, Repr

/-- An IEEE 1588 message with the times the port stamps on it (R457). -/
structure TimeMsg where
  /-- messageType: for peer delay messages 2 is Pdelay_Req, 3 Pdelay_Resp, 10 Pdelay_Resp_Follow_Up. -/
  kind : BitVec 4
  domain : Byte
  /-- On an UPLINK: the IP address that the message comes from. -/
  srcIp : BitVec 128
  /-- A Sync that carries its own origin time. -/
  oneStep : Bool
  seqId : BitVec 16
  /-- Local time of arrival, in ticks of 2^-16. -/
  rx : Int
  /-- The time the message carries (origin, request receipt or response), in ticks of 2^-16. -/
  stamp : Int
  /-- correctionField in ticks of 2^-16. -/
  corr : Int
  deriving DecidableEq, Repr

/-- Why the module input was lost (R653). -/
inductive InputLoss where
  | under
  | over
  | current
  deriving DecidableEq, Repr

/-- One flash slot as the boot ROM finds it (R601 to R603). -/
structure FlashImage where
  valid : Bool
  sigOk : Bool
  svn : Byte
  version : BitVec 64
  major : Byte
  minMinor : Byte
  maxMinor : Byte
  digest : BitVec 384
  /-- The image has the hash that its header holds (R605). -/
  hashOk : Bool
  deriving DecidableEq, Repr

/-- What a cold boot meets outside: the strap voltage code, what was written to the boot flash from outside the device since
the last boot, the outcome of the boot-time tests and whether each copy of the health record can still be read. -/
structure BootEnv where
  refclkOk : Bool
  strapCode : Nat
  /-- An image that was put into flash slot A or B from outside; none where the slot holds what the device left there. -/
  slotA : Option FlashImage
  slotB : Option FlashImage
  stackTrainOk : Bool
  /-- Whether each copy of the health record is undamaged. -/
  healthA : Bool
  healthB : Bool
  /-- Resets that arrive during the option-loading phase, each within 1 s of the first (R598). -/
  restarts : Nat
  /-- Whether each flash slot can be read. -/
  readA : Bool
  readB : Bool
  /-- Boot-time self-test items that fail, by item number, and the stacks, lanes and sensors that
  they name (R637, R642). -/
  failedItems : List Nat
  failedStacks : List (Fin 20)
  failedLanes : List (Fin 64)
  failedEngines : List (Fin 68)
  failedSensors : List (Fin 32)
  deriving DecidableEq, Repr

/-- A unit that meets an error confined to it (R594); a Sparse Gather Engine has one context for each matrix
engine of its die (R250). -/
inductive BlockUnit where
  | matrix (eng : Fin 68)
  | vector (ve : Fin 64)
  | rigger (r : Fin 64)
  | stroke (die : Fin 4)
  | copy (die : Fin 4)
  | exchange (die : Fin 4)
  | gather (eng : Fin 68)
  | update (stack : Fin 20)
  /-- The parity-protected counts of a job's promises (R624). -/
  | counts (slot : Fin 64)
  deriving DecidableEq, Repr

/-- A TDISP request on a virtual function's interface (R509). -/
inductive TdispReq where
  | lock
  | start
  | stop
  | getState
  | getReport
  deriving DecidableEq, Repr

/-- A command: one constructor for each row of spec/opcode_table.json. -/
inductive Instr where
  /-- VERSION (R556). Unlor VERSION command negotiates the function's interface version within the host's range. -/
  | unlorVersion (c : HostCmd)
  /-- GET (R562). Unlor GET command reads one instance of a firmware object with its generation. -/
  | unlorGet (c : HostCmd)
  /-- SET (R564). Unlor SET command checks and writes a whole firmware object instance, raising its generation. -/
  | unlorSet (c : HostCmd)
  /-- SET_TIME (R453). A SET of OBJ_TIME whose set_time is not 0 steps global time, refused while a job is active. -/
  | setTime (c : HostCmd)
  /-- PMU_TRIGGER_ARM (R475). Writing arm in OBJ_PMU_TRIGGER arms or replaces the scope's trigger, firing at once with late set if at has passed. -/
  | pmuTriggerArm (c : HostCmd)
  /-- UNLOR_RESERVED_OPCODE (R553). A command with a reserved or unnegotiated opcode is refused with BAD_OPCODE. -/
  | unlorReservedOpcode (opcode : BitVec 16) (c : HostCmd)
  /-- JOB_CREATE (R559). JOB_CREATE takes an EMPTY slot to CREATED, raising its incarnation and returning the handle. -/
  | jobCreate (c : HostCmd)
  /-- JOB_ATTEST (R493). JOB_ATTEST returns a signed attestation report, with a fresh ephemeral key in CREATED. -/
  | jobAttest (c : HostCmd)
  /-- JOB_KEY (R497). JOB_KEY opens a sealed key bundle, installs the job's keys and takes the slot to KEYED. -/
  | jobKey (c : HostCmd)
  /-- JOB_READY (R559). JOB_READY takes a KEYED job to READY. -/
  | jobReady (c : HostCmd)
  /-- JOB_START (R559). JOB_START takes a READY job to RUNNING. -/
  | jobStart (c : HostCmd)
  /-- JOB_PAUSE (R559). JOB_PAUSE takes a RUNNING job to DRAINING and replies finally when it reaches PAUSED. -/
  | jobPause (c : HostCmd)
  /-- JOB_RESUME (R210). JOB_RESUME returns a PAUSED job to RUNNING, and release continues from the entries as they stand. -/
  | jobResume (c : HostCmd)
  /-- TASK_RESET (R211). TASK_RESET frees the job's WAITING, READY and FAULTED entries on the named dies. -/
  | taskReset (c : HostCmd)
  /-- JOB_SEAL (R333). JOB_SEAL raises the job's sealed_step and marks it valid. -/
  | jobSeal (c : HostCmd)
  /-- JOB_TEAR (R371). JOB_TEAR runs the teardown sequence, taking the job to TORN and destroying its keys. -/
  | jobTear (c : HostCmd)
  /-- JOB_FREE (R560). JOB_FREE takes a TORN slot to SCRUBBING and starts clearing its memory and state. -/
  | jobFree (c : HostCmd)
  /-- SCRUB_COMPLETE (R560). The slot's scrub ends, the slot returns to EMPTY and JOB_FREE writes its final reply. -/
  | scrubComplete (slot : Fin 64)
  /-- FRAME_GRANT (R569). FRAME_GRANT grants a range of free frames to a job. -/
  | frameGrant (c : HostCmd)
  /-- FRAME_REVOKE (R569). FRAME_REVOKE withdraws granted frames from a job and starts scrubbing them in ascending order. -/
  | frameRevoke (c : HostCmd)
  /-- FRAME_SCRUB_COMPLETE (R569). One revoked frame finishes its scrub and returns to the free pool. -/
  | frameScrubComplete (slot : Fin 64)
  /-- MAP (R275). MAP installs 2 MiB or 1 GiB page mappings with rights for a job. -/
  | jobMap (c : HostCmd)
  /-- UNMAP (R276). UNMAP removes pages and their translations and stream cache lines from every die. -/
  | jobUnmap (c : HostCmd)
  /-- AS_GRANT (R569). AS_GRANT sets a job's Activation Store page quota on each die. -/
  | asGrant (c : HostCmd)
  /-- ROUTE_LOAD (R570). ROUTE_LOAD checks and then replaces route table entries in ascending node order. -/
  | routeLoad (c : HostCmd)
  /-- LANE_SWAP (R409). LANE with op SWAP starts replacing a logical lane position of a CREW port with its spare. -/
  | laneSwap (c : HostCmd)
  /-- LANE_SWAP_BACK (R410). LANE with op SWAP_BACK swaps a recalibrated lane back by the same sequence. -/
  | laneSwapBack (c : HostCmd)
  /-- LANE_RETRAIN (R593). LANE with op RETRAIN resets one port alone and retrains it. -/
  | laneRetrain (c : HostCmd)
  /-- LINK_CLEAR (R391). LINK_CLEAR sets a port's damping penalty to 0, sending QUARANTINED or DAMPED ports to DOWN. -/
  | linkClear (c : HostCmd)
  /-- ME_FENCE_FENCE (R118). ME_FENCE with op FENCE requests fencing of a matrix engine by its health state. -/
  | meFenceFence (c : HostCmd)
  /-- ME_FENCE_RETURN (R611). ME_FENCE with op RETURN resets a FENCED engine alone and starts its built-in array test. -/
  | meFenceReturn (c : HostCmd)
  /-- ENGINE_TEST_DONE (R611). The returned engine's array test ends, making it spare, active or fenced again. -/
  | engineTestDone (eng : Fin 68) (pass : Bool)
  /-- LC_PROVISION (R485). LC_PROVISION fuses the operator key hash and takes a BLANK device to PROVISIONED. -/
  | lcProvision (c : HostCmd)
  /-- LC_DEPLOY (R485). LC_DEPLOY takes a PROVISIONED device with a management key to DEPLOYED. -/
  | lcDeploy (c : HostCmd)
  /-- LC_HOLD (R485). LC_HOLD takes a DEPLOYED device with every slot EMPTY back to PROVISIONED. -/
  | lcHold (c : HostCmd)
  /-- LC_RETIRE (R485). LC_RETIRE tears down every job and takes the device to RETIRED, emptying every key slot. -/
  | lcRetire (c : HostCmd)
  /-- OP_MGMT_KEY (R484). OP_MGMT_KEY installs the next management key and optionally promotes it to current. -/
  | opMgmtKey (c : HostCmd)
  /-- FW_COMMIT (R489). FW_COMMIT blows rollback fuses up to the running image's svn. -/
  | fwCommit (c : HostCmd)
  /-- DBG_OPEN (R532). DBG_OPEN checks a debug token and opens a D1, D2 or D3 session. -/
  | dbgOpen (c : HostCmd)
  /-- DBG_CLOSE (R533). DBG_CLOSE closes a D1, D3 or D2 session and extends register 5. -/
  | dbgClose (c : HostCmd)
  /-- PWR_SET_RUN (R527). PWR_SET RUN takes the device from P2 back to P0 or P1 and resumes release. -/
  | pwrSetRun (c : HostCmd)
  /-- PWR_SET_HOLD (R527). PWR_SET HOLD stops release and enters P2 once no task, routine or rigger program runs. -/
  | pwrSetHold (c : HostCmd)
  /-- PWR_HOLD_TIMEOUT (R527). wait_ms passes with work still running, so release resumes and PWR_SET replies TIMEOUT. -/
  | pwrHoldTimeout
  /-- PWR_SET_REST (R528). PWR_SET REST runs the entry sequence into P3. -/
  | pwrSetRest (c : HostCmd)
  /-- PWR_SET_OFF (R638). PWR_SET OFF runs the shutdown self-test, writes the health record and enters P4. -/
  | pwrSetOff (c : HostCmd)
  /-- FW_LOAD (R573). FW_LOAD writes an image chunk into the other flash slot, verifying the header on the final chunk. -/
  | fwLoad (c : HostCmd)
  /-- FW_CHANGEOVER (R575). FW_CHANGEOVER stops taking commands and starts a live changeover to the staged image. -/
  | fwChangeover (c : HostCmd)
  /-- CHANGEOVER_QUIESCED (R575). The last command taken before the changeover replies, and the old image writes its handoff. -/
  | changeoverQuiesced
  /-- QUIESCE_TIMEOUT (R575). quiesce_ms passes with a command still running, so the changeover is abandoned with TIMEOUT. -/
  | quiesceTimeout
  /-- CHANGEOVER_READY (R575). The incoming image reports ready; the Umpire finishes the swap and latched doorbells are taken. -/
  | changeoverReady
  /-- INCOMING_READY_TIMEOUT (R576). The incoming image refuses the handoff or is not ready in 200 ms, so the old image restarts. -/
  | incomingReadyTimeout (refused : Bool)
  /-- TALLY (R626). TALLY samples the selected conservation promises and writes tally records. -/
  | tally (c : HostCmd)
  /-- LOG_READ (R634). LOG_READ copies error log, event log or health record entries to the host, optionally clearing the error log. -/
  | logRead (c : HostCmd)
  /-- DEV_RESET (R583). DEV_RESET with kind WARM replies and schedules a warm reset. -/
  | devReset (c : HostCmd)
  /-- DEV_RESET_START (R587). 10 µs after the DEV_RESET reply the warm reset sequence starts. -/
  | devResetStart
  /-- MB_DOORBELL (R546). A write to MB_DB rings command slots, which the Cox takes in doorbell order. -/
  | mbDoorbell (fn : Fin 65) (bits : HostWord) (dma : List IndBuf)
  /-- MB_IRQ_CLEAR (R548). A W1C write to MB_IRQ clears reply interrupt bits. -/
  | mbIrqClear (fn : Fin 65) (bits : HostWord)
  /-- INT_CAUSE_CLEAR (R545). A W1C write to INT_CAUSE clears interrupt causes. -/
  | intCauseClear (fn : Fin 65) (bits : HostWord)
  /-- DB_SQ (R180). A DB_SQ write gives a submission ring's new tail, or is ignored with a DOORBELL record. -/
  | dbSq (slot : Fin 64) (die : Fin 4) (value : HostWord)
  /-- DB_EQ (R180). A DB_EQ write gives the event queue's new head and re-enables its interrupt vector. -/
  | dbEq (slot : Fin 64) (die : Fin 4) (value : HostWord)
  /-- REGISTER_WRITE (R542). A write to a BAR0 or SMBus register without its own row stores the value, or is counted when reserved. -/
  | registerWrite (bus : RegBus) (offset : Nat) (value : BitVec 32)
  /-- BAR2_READ (R544). A host read through BAR2 is translated, checked and decrypted from job memory. -/
  | bar2Read (slot : Fin 64) (offset len : Nat) (ide : Bool)
  /-- BAR2_WRITE (R544). A host write through BAR2 is translated, checked, encrypted and merged into job memory. -/
  | bar2Write (slot : Fin 64) (offset : Nat) (data : List Byte) (ide : Bool)
  /-- VF_FLR (R555). A function-level reset of a virtual function clears its mailboxes and tears down its job. -/
  | vfFlr (slot : Fin 64)
  /-- PF0_FLR (R586). A function-level reset of PF0 clears only PF0's mailbox state. -/
  | pf0Flr
  /-- PCIE_HOT_RESET (R584). A PCIe hot reset clears mailboxes, VF Enable, and tears down every job. -/
  | pcieHotReset
  /-- NUMVFS_LOWER (R541). Lowering NumVFs acts as a function-level reset on each non-EMPTY virtual function above it. -/
  | numvfsLower (n : Fin 65)
  /-- TDISP_LEAVE_RUN (R510). A TDISP interface leaving RUN closes BAR2, and entering ERROR tears down the job. -/
  | tdispLeaveRun (slot : Fin 64) (toError : Bool)
  /-- GET_VERSION (R491). SPDM GET_VERSION request answered over DOE or MGMT. -/
  | getVersion (src : SpdmPort) (msg : List Byte)
  /-- GET_CAPABILITIES (R491). SPDM GET_CAPABILITIES request answered. -/
  | getCapabilities (src : SpdmPort) (msg : List Byte)
  /-- NEGOTIATE_ALGORITHMS (R491). SPDM NEGOTIATE_ALGORITHMS request answered with P-384, SHA-384 and AES-256-GCM. -/
  | negotiateAlgorithms (src : SpdmPort) (msg : List Byte)
  /-- GET_DIGESTS (R491). SPDM GET_DIGESTS request answered. -/
  | getDigests (src : SpdmPort) (msg : List Byte)
  /-- GET_CERTIFICATE (R491). SPDM GET_CERTIFICATE returns the certificate chain of slot 0. -/
  | getCertificate (src : SpdmPort) (msg : List Byte)
  /-- CHALLENGE (R491). SPDM CHALLENGE request answered with the identity key. -/
  | spdmChallenge (src : SpdmPort) (msg : List Byte)
  /-- GET_MEASUREMENTS (R491). SPDM GET_MEASUREMENTS returns registers 1 to 6, signed. -/
  | getMeasurements (src : SpdmPort) (msg : List Byte)
  /-- KEY_EXCHANGE (R491). SPDM KEY_EXCHANGE opens a session in a free session key slot, or answers Busy. -/
  | keyExchange (src : SpdmPort) (msg : List Byte)
  /-- FINISH (R491). SPDM FINISH completes a secure session. -/
  | spdmFinish (src : SpdmPort) (session : Fin 4) (msg : List Byte)
  /-- END_SESSION (R491). SPDM END_SESSION ends a session and empties its key slot. -/
  | endSession (src : SpdmPort) (session : Fin 4) (msg : List Byte)
  /-- HEARTBEAT (R491). SPDM HEARTBEAT keeps a session alive. -/
  | spdmHeartbeat (src : SpdmPort) (session : Fin 4) (msg : List Byte)
  /-- SPDM_UNSUPPORTED_REQUEST (R491). Any other SPDM request is answered with ERROR UnsupportedRequest. -/
  | spdmUnsupportedRequest (src : SpdmPort) (code : Byte) (msg : List Byte)
  /-- ADMIT_DESCRIPTOR (R182). A die takes the next descriptor from a submission ring, checks its common area and admits or refuses it. -/
  | admitDescriptor (slot : Fin 64) (die : Fin 4)
  /-- DECREMENT (R185). A decrement with a task name and generation reaches a task table entry. -/
  | decrement (slot : Fin 64) (name : BitVec 18) (gen : BitVec 6)
  /-- TASK_RELEASE (R189). The scheduler validates a READY task's operand area and releases it to an executor. -/
  | taskRelease (slot : Fin 64) (die : Fin 4) (index : BitVec 16)
  /-- TASK_COMPLETE (R186). A task completes: writes made visible, scalars written back, successors acted on, entry freed. -/
  | taskComplete (slot : Fin 64) (die : Fin 4) (index : BitVec 16)
  /-- ROUTINE_START (R198). A released ROUTINE task starts on the job's stroke core context once it is idle. -/
  | routineStart (slot : Fin 64) (die : Fin 4)
  /-- RIGGER_PROGRAM_START (R207). A rigger program starts on a free rigger core within the job's rigger_max. -/
  | riggerProgramStart (slot : Fin 64) (die : Fin 4) (index : BitVec 16) (rig : Fin 64)
  /-- BUDGET_EXPIRY (R199). A routine or rigger program runs past its budget and faults with cause BUDGET. -/
  | budgetExpiry (core : CoreId)
  /-- WAIT_TIMEOUT (R197). A WAIT task's timeout passes before its counter reaches the threshold. -/
  | waitTimeout (slot : Fin 64) (die : Fin 4) (index : BitVec 16)
  /-- TSUBMIT (R201). Stroke core instruction that admits a descriptor from job memory and returns the status. -/
  | tsubmit (die : Fin 4) (slot : Fin 64) (rd rs1 : BitVec 5)
  /-- TPATCH (R200). Stroke core instruction that writes one operand word of a fillable WAITING task. -/
  | tpatch (die : Fin 4) (slot : Fin 64) (rs1 rs2 : BitVec 5)
  /-- TSKIP (R200). Stroke core instruction that sets the skip bit of a fillable WAITING task. -/
  | tskip (die : Fin 4) (slot : Fin 64) (rs1 : BitVec 5)
  /-- TREARM (R200). Stroke core instruction that adds to a WAITING task's count or returns a READY task to WAITING. -/
  | trearm (die : Fin 4) (slot : Fin 64) (rs1 rs2 : BitVec 5)
  /-- TDONE (R198). Instruction that ends a routine or rigger program with an exit value. -/
  | tdone (core : CoreId) (rs1 : BitVec 5)
  /-- SLD (R208). Rigger instruction copying bytes from job memory into scratch. -/
  | sld (rig : Fin 64) (rs1 rs2 : BitVec 5)
  /-- SST (R208). Rigger instruction copying bytes from scratch to job memory. -/
  | sst (rig : Fin 64) (rs1 rs2 : BitVec 5)
  /-- BLKQ (R208). Rigger instruction converting 32 binary32 values to a block by to_block under CSR 0x840. -/
  | blkq (rig : Fin 64) (rd rs1 rs2 : BitVec 5)
  /-- BLKX (R208). Rigger instruction converting a block to 32 binary32 values. -/
  | blkx (rig : Fin 64) (rs1 rs2 : BitVec 5)
  /-- SORTKV (R208). Rigger instruction performing a stable key-value sort in scratch. -/
  | sortkv (rig : Fin 64) (rs1 rs2 : BitVec 5)
  /-- HIST (R208). Rigger instruction building a histogram of u16 keys in scratch. -/
  | hist (rig : Fin 64) (rs1 rs2 : BitVec 5)
  /-- PSUM (R208). Rigger instruction replacing u32 values by exclusive prefix sums. -/
  | psum (rig : Fin 64) (rd rs1 rs2 : BitVec 5)
  /-- NNZB (R208). Rigger instruction counting non-zero exponent bytes. -/
  | nnzb (rig : Fin 64) (rd rs1 rs2 : BitVec 5)
  /-- LAPP (R208). Rigger instruction appending an entry to a scratch list if it has room. -/
  | lapp (rig : Fin 64) (rd rs1 rs2 : BitVec 5)
  /-- HPM_CSR_READ (R470). A core reads cycle, time or hpmcounter CSRs, getting lent counter values only where policy allows. -/
  | hpmCsrRead (core : CoreId) (csr : BitVec 12) (rd : BitVec 5)
  /-- RV64_INSTRUCTION (R202). Any other RISC-V instruction of a routine or rigger program, trapping as R203 gives. -/
  | rv64Instruction (core : CoreId)
  /-- MATRIX_UNIT_START (R82). A free matrix engine takes the next work unit of a task in unit order. -/
  | matrixUnitStart (slot : Fin 64) (die : Fin 4) (index : BitVec 16) (eng : Fin 68)
  /-- TILE_LOADED (R77). A tile buffer finishes loading, letting the pass that needs it start. -/
  | tileLoaded (eng : Fin 68)
  /-- UNIT_PASSES_END (R93). A unit's last pass ends and the output writer drains the bank into its outputs. -/
  | unitPassesEnd (eng : Fin 68)
  /-- KSPLIT_COMBINE (R101). When all K parts of a unit finish, the engine of part 0 combines them. -/
  | ksplitCombine (eng : Fin 68)
  /-- RESIDUE_CHECK_FAIL (R117). A residue check fails; the engine abandons and re-runs the unit, fencing on repeat or at 8 errors. -/
  | residueCheckFail (eng : Fin 68)
  /-- SPARE_TEST_DONE (R119). The spare's built-in array test ends and it becomes ACTIVE under the fenced number or FENCED. -/
  | spareTestDone (die : Fin 4) (pass : Bool)
  /-- VECTOR_INSTANCE_START (R133). A vector kernel instance starts on a free vector engine with a private copy of the scalars. -/
  | vectorInstanceStart (slot : Fin 64) (die : Fin 4) (index : BitVec 16) (ve : Fin 64)
  /-- PAIRED_INSTANCE_START (R151). A paired instance starts for a work unit with its unit scalars set. -/
  | pairedInstanceStart (ve : Fin 64)
  /-- LANDING_GROUP_LAND (R152). The output writer lands a group of 32 rows into the paired engine's tiles once space is released. -/
  | landingGroupLand (ve : Fin 64)
  /-- TLD (R143). Vector load of an array tile converted to binary32. -/
  | tld (ve : Fin 64) (f : VFields)
  /-- TST (R143). Vector store of a tile converted to the array's format. -/
  | tst (ve : Fin 64) (f : VFields)
  /-- TSTS (R146). Vector store of a tile to a stash entry. -/
  | tsts (ve : Fin 64) (f : VFields)
  /-- TMOV (R137). Vector tile move. -/
  | tmov (ve : Fin 64) (f : VFields)
  /-- TBCAST (R137). Vector broadcast of a scalar to every lane. -/
  | tbcast (ve : Fin 64) (f : VFields)
  /-- TROWB (R137). Vector broadcast of a column across rows. -/
  | trowb (ve : Fin 64) (f : VFields)
  /-- TCOLB (R137). Vector broadcast of a row across columns. -/
  | tcolb (ve : Fin 64) (f : VFields)
  /-- TADD (R137). Vector binary32 addition. -/
  | tadd (ve : Fin 64) (f : VFields)
  /-- TSUB (R137). Vector binary32 subtraction. -/
  | tsub (ve : Fin 64) (f : VFields)
  /-- TMUL (R137). Vector binary32 multiplication. -/
  | tmul (ve : Fin 64) (f : VFields)
  /-- TFMA (R137). Vector fused multiply-add. -/
  | tfma (ve : Fin 64) (f : VFields)
  /-- TMIN (R137). Vector minimum. -/
  | tmin (ve : Fin 64) (f : VFields)
  /-- TMAX (R137). Vector maximum. -/
  | tmax (ve : Fin 64) (f : VFields)
  /-- TDIV (R137). Vector correctly rounded division. -/
  | tdiv (ve : Fin 64) (f : VFields)
  /-- TSQRT (R137). Vector correctly rounded square root. -/
  | tsqrt (ve : Fin 64) (f : VFields)
  /-- TIADD (R137). Vector wrapping u32 addition. -/
  | tiadd (ve : Fin 64) (f : VFields)
  /-- TCMP (R137). Vector comparison writing a mask. -/
  | tcmp (ve : Fin 64) (f : VFields)
  /-- MOP (R137). Mask logic operation. -/
  | mop (ve : Fin 64) (f : VFields)
  /-- MPOP (R137). Count of active lanes of a mask into a scalar. -/
  | mpop (ve : Fin 64) (f : VFields)
  /-- TFUNC (R155). Vector evaluation of a function table. -/
  | tfunc (ve : Fin 64) (f : VFields)
  /-- TLDFT (R158). Load of a job function table into a job slot. -/
  | tldft (ve : Fin 64) (f : VFields)
  /-- TRSUM (R147). Vector row sum by the fixed pairwise tree. -/
  | trsum (ve : Fin 64) (f : VFields)
  /-- TRMAX (R147). Vector row maximum. -/
  | trmax (ve : Fin 64) (f : VFields)
  /-- TCSUM (R147). Vector column sum. -/
  | tcsum (ve : Fin 64) (f : VFields)
  /-- TCMAX (R147). Vector column maximum. -/
  | tcmax (ve : Fin 64) (f : VFields)
  /-- TCOMP (R148). Vector compress of active lanes to packed positions. -/
  | tcomp (ve : Fin 64) (f : VFields)
  /-- TEXPD (R149). Vector expand of packed positions into active lanes. -/
  | texpd (ve : Fin 64) (f : VFields)
  /-- TOPK (R161). Merge of a tile into the top-k state with column indices. -/
  | topk (ve : Fin 64) (f : VFields)
  /-- TOPKX (R161). Merge of a tile into the top-k state with indices from a tile. -/
  | topkx (ve : Fin 64) (f : VFields)
  /-- TOPKRD (R162). Read of the top k entries per row from the top-k state. -/
  | topkrd (ve : Fin 64) (f : VFields)
  /-- LWAIT (R153). Wait until a landing group has landed. -/
  | lwait (ve : Fin 64) (f : VFields)
  /-- LREL (R153). Release of a landing group's tiles to the writer. -/
  | lrel (ve : Fin 64) (f : VFields)
  /-- WOPEN (R166). Opens the watch record of a step. -/
  | wopen (ve : Fin 64) (f : VFields)
  /-- WLOSS (R166). Reports the step's loss to the open watch record. -/
  | wloss (ve : Fin 64) (f : VFields)
  /-- WCLOSE (R166). Closes the open watch record, returning the local verdict when judged. -/
  | wclose (ve : Fin 64) (f : VFields)
  /-- WVERD (R168). Sets the agreed verdict of a HELD watch and applies it. -/
  | wverd (ve : Fin 64) (f : VFields)
  /-- LOOP (R138). Runs the following instructions a counted number of times. -/
  | vLoop (ve : Fin 64) (f : VFields)
  /-- SADD (R137). Adds a sign-extended immediate to a scalar. -/
  | sadd (ve : Fin 64) (f : VFields)
  /-- END (R136). Ends a vector instance. -/
  | vEnd (ve : Fin 64) (f : VFields)
  /-- VECTOR_UNDEFINED_OPCODE (R138). An undefined vector opcode or reserved field ends the instance in fault with BAD_OPCODE. -/
  | vectorUndefinedOpcode (ve : Fin 64) (word : BitVec 64)
  /-- MEMORY_READ (R282). A memory controller decodes, corrects, tag-checks and decrypts a sector read. -/
  | memoryRead (r : MemReq) (ecc : SectorEcc)
  /-- MEMORY_WRITE (R285). A memory controller writes a sector whole, or merges a partial write by read-modify-write. -/
  | memoryWrite (r : MemReq) (data : List Byte) (ecc : SectorEcc)
  /-- AS_ACCESS (R290). An Activation Store access with SECDED correction or poison on a double-bit error. -/
  | asAccess (r : MemReq) (write : Option (List Byte)) (err : WordErr)
  /-- PREFETCH_FETCH (R293). A stream prefetcher fetches ahead into the job's stream cache pages when room allows. -/
  | prefetchFetch (die : Fin 4) (pf : Fin 64)
  /-- PATROL_SCRUB (R287). Patrol reads a sector, correcting or poisoning it. -/
  | patrolScrub (stack : Fin 20) (sector : Nat) (ecc : SectorEcc) (endOfPass : Bool)
  /-- STACK_RECALIBRATION (R622). Every 100 ms a stack interface recalibrates, holding its requests up to 1 µs. -/
  | stackRecalibration (stack : Fin 20) (ok : Bool)
  /-- MIGRATION_START (R615). Once no frame of the withdrawn range is granted, a FAILING stack becomes MIGRATING. -/
  | migrationStart (stack : Fin 20)
  /-- GRANULE_MIGRATE (R616). A granule is copied to its destination and switched in one step. -/
  | granuleMigrate (stack : Fin 20) (badSectors : List (Fin 64))
  /-- STASH_TILE_ARRIVE (R302). A tile for a retained entry arrives and is stored, discarded or drops the entry. -/
  | stashTileArrive (slot : Fin 64) (entry : Nat) (ti tj : Nat) (vals : List (BitVec 32))
  /-- SEGMENT_START (R328). The Copy Engine starts an UPDATE segment, claims its header and acts on its step tag. -/
  | segmentStart (slot : Fin 64) (die : Fin 4) (index : BitVec 16)
  /-- SUBTILE_UPDATE (R325). An Update Engine updates one sub-tile's masters, state and working copies. -/
  | subtileUpdate (slot : Fin 64) (die : Fin 4) (index : BitVec 16) (seg : Nat) (q : Fin 16)
  /-- INIT (R423). Collective INIT opens a bucket half and initialises its buffer for step s. -/
  | collInit (t : TaskRef)
  /-- REDUCE (R434). Collective REDUCE sends part entries as ACCUMULATE operations to their owners. -/
  | collReduce (t : TaskRef)
  /-- RING (R439). Collective RING adds own contributions and signals readiness to the predecessor. -/
  | collRing (t : TaskRef)
  /-- RING_STAGE_SEND (R439). After its wait is met, a ring member sends the next part to its successor. -/
  | ringStageSend (t : TaskRef)
  /-- CLOSE (R423). Collective CLOSE moves a bucket half to CLOSING and waits for count or deadline. -/
  | collClose (t : TaskRef)
  /-- BUCKET_DEADLINE (R425). A CLOSING half's deadline passes and it closes by DEADLINE. -/
  | bucketDeadline (slot : Fin 64) (desc : Nat) (half : Bool)
  /-- UPDATE (R327). Collective UPDATE reads its update descriptor and starts its segments. -/
  | collUpdate (t : TaskRef)
  /-- GATHER (R442). Collective GATHER loads shards into a GATHER retained entry. -/
  | collGather (t : TaskRef)
  /-- PERMUTE (R446). Collective PERMUTE starts its move entries in list order. -/
  | collPermute (t : TaskRef)
  /-- MOVE_ENTRY_START (R446). A move entry whose wait is met starts its MOVE, SAVE or RESTORE. -/
  | moveEntryStart (t : TaskRef) (entry : Nat)
  /-- DISPATCH (R221). Token exchange DISPATCH starts, building round-0 offers and sending count messages. -/
  | exDispatch (t : TaskRef)
  /-- COMBINE (R236). Token exchange COMBINE sends expert outputs home for weighted summing. -/
  | exCombine (t : TaskRef)
  /-- RDISPATCH (R238). Token exchange RDISPATCH sends output gradients to recorded landing rows. -/
  | exRdispatch (t : TaskRef)
  /-- RCOMBINE (R239). Token exchange RCOMBINE sends input gradients home and sums them. -/
  | exRcombine (t : TaskRef)
  /-- COUNT_MESSAGE (R229). A count message of a round arrives whole; with all of them, the member admits and sends grants. -/
  | countMessage (t : TaskRef) (src : BitVec 12) (m : CountMsg)
  /-- GRANT_MESSAGE (R230). A grant message arrives whole; with all of them, rows are sent and rounds continue or end. -/
  | grantMessage (t : TaskRef) (src : BitVec 12) (m : GrantMsg)
  /-- EXCH_DEADLINE (R244). An exchange's deadline passes with a message or row missing and the step faults with TIMEOUT. -/
  | exchDeadline (t : TaskRef)
  /-- COPY_PUT (R351). Copy task PUT cuts the source into STOREs on VL5. -/
  | copyPut (t : TaskRef)
  /-- COPY_GET (R351). Copy task GET cuts the range into LOADs on VL5. -/
  | copyGet (t : TaskRef)
  /-- COPY_ATOMIC (R351). Copy task ATOMIC sends one ATOMIC and writes the old value locally. -/
  | copyAtomic (t : TaskRef)
  /-- COPY_SIGNAL (R351). Copy task SIGNAL sends one SIGNAL on VL1. -/
  | copySignal (t : TaskRef)
  /-- COPY_FENCE (R352). Copy task FENCE waits until every covered request is answered. -/
  | copyFence (t : TaskRef)
  /-- FLOW_REQUEST_ISSUE (R337). A request waiting for room in its flow is given a sequence number and transmitted. -/
  | flowRequestIssue (slot : Fin 64) (peer : BitVec 18)
  /-- LOAD (R344). An arriving LOAD request is checked and served with a RESP. -/
  | vmtLoad (a : Arrival)
  /-- STORE (R344). An arriving STORE request is checked and applied, answered by ACK or REFUSE. -/
  | vmtStore (a : Arrival)
  /-- ATOMIC (R346). An arriving ATOMIC performs its indivisible operation and returns the old value. -/
  | vmtAtomic (a : Arrival)
  /-- ACCUMULATE (R313). An arriving ACCUMULATE adds its payload into the reduction buffer named by the window. -/
  | vmtAccumulate (a : Arrival)
  /-- SIGNAL (R344). An arriving SIGNAL adds 1 to an arrival counter. -/
  | vmtSignal (a : Arrival)
  /-- VMT_RESERVED_OPCODE (R343). A packet with a reserved opcode is refused with BAD_FIELD. -/
  | vmtReservedOpcode (opcode : Byte) (a : Arrival)
  /-- RESP (R352). A RESP arrives at the requester, answering a LOAD or ATOMIC. -/
  | vmtResp (a : Arrival)
  /-- REFUSE (R360). A REFUSE arrives at the requester, failing its request or scheduling a BUSY resend. -/
  | vmtRefuse (a : Arrival)
  /-- ACK (R364). An ACK arrives carrying a flow's receive state and noted answers. -/
  | vmtAck (a : Arrival)
  /-- ACK_SEND (R364). Within 1 µs of disposal a target sends an ACK for the flow. -/
  | ackSend (slot : Fin 64) (peer : BitVec 18)
  /-- RETRANSMIT_TIMEOUT (R365). A request unanswered for rto_us is retransmitted, moving paths after its retries. -/
  | retransmitTimeout (slot : Fin 64) (peer : BitVec 18) (seq : BitVec 32)
  /-- BUSY_RESEND (R369). After the BUSY backoff the request is sent again with the same sequence number. -/
  | busyResend (slot : Fin 64) (peer : BitVec 18) (seq : BitVec 32)
  /-- REPLY_CACHE_EXPIRY (R366). A reply cache entry is freed reply_hold_us after its answer was last sent. -/
  | replyCacheExpiry (slot : Fin 64) (peer : BitVec 18) (seq : BitVec 32)
  /-- HOLD_EXPIRY (R362). A fin request held for reply_hold_us is refused with BUSY and leaves the hold. -/
  | holdExpiry (slot : Fin 64) (peer : BitVec 18) (seq : BitVec 32)
  /-- PORT_SIGNAL_DETECT (R391). Signal on every lane takes a DOWN port to TRAINING. -/
  | portSignalDetect (port : Fin 32)
  /-- TRAINING_COMPLETE (R391). Link training completes, sending a CREW port to DISCOVERING or an UPLINK to UP. -/
  | trainingComplete (port : Fin 32)
  /-- TRAINING_TIMEOUT (R391). Training not complete in 1 s returns the port to DOWN. -/
  | trainingTimeout (port : Fin 32)
  /-- PORT_LOST (R391). A lane loses lock or a fault is received; the port goes DOWN with a penalty and its paths are withdrawn. -/
  | portLost (port : Fin 32)
  /-- PORT_SILENCE_TIMEOUT (R391). No frame for 1 ms on an UP or DEMOTED CREW port counts as a loss. -/
  | portSilenceTimeout (port : Fin 32)
  /-- HELLO_RECEIVE (R388). A partner's HELLO arrives and its chain, lifecycle and fabric_id are checked; PROOF is sent. -/
  | helloReceive (port : Fin 32) (h : Hello)
  /-- PROOF_RECEIVE (R388). A partner's PROOF is verified, the link key derived and the port enters UP or QUARANTINED. -/
  | proofReceive (port : Fin 32) (sig : List Byte)
  /-- HELLO_RESEND (R388). Every 1 ms without the partner's HELLO, HELLO is sent again. -/
  | helloResend (port : Fin 32)
  /-- DISCOVERY_TIMEOUT (R389). No HELLO or PROOF within the bound quarantines the port with reason TIMEOUT. -/
  | discoveryTimeout (port : Fin 32)
  /-- QUARANTINE_RETRY (R389). A quarantined port runs discovery again once per second. -/
  | quarantineRetry (port : Fin 32)
  /-- LLDP_TIMER (R387). Once per second an LLDP frame is sent on each enabled port. -/
  | lldpTimer (port : Fin 32)
  /-- LLDP_RECEIVE (R387). A received LLDP frame is recorded for the operator's view only. -/
  | lldpReceive (port : Fin 32) (tlvs : List Byte)
  /-- CREDIT_FRAME (R401). A received CREDIT frame updates the sender's credit counts. -/
  | creditFrame (port : Fin 32) (freed : List (BitVec 32))
  /-- CREDIT_FRAME_SEND (R401). A receiver sends a CREDIT frame on its freed-credit or periodic timers. -/
  | creditFrameSend (port : Fin 32)
  /-- CREDIT_STALL_TIMEOUT (R402). A virtual lane stalled for credit_timeout_us demotes the port. -/
  | creditStallTimeout (port : Fin 32) (vl : BitVec 3)
  /-- PROMOTE_TIMEOUT (R391). promote_ms without a stall returns a DEMOTED port to UP. -/
  | promoteTimeout (port : Fin 32)
  /-- DAMP_REUSE (R391). The decaying penalty falls below damp_reuse and a DAMPED port returns to DOWN. -/
  | dampReuse (port : Fin 32)
  /-- PFC_FRAME (R403). A received PFC pause frame pauses or releases a priority on an UPLINK. -/
  | pfcFrame (port : Fin 32) (prio : BitVec 3) (pause : Bool)
  /-- RELAY_FRAME (R397). A VMT frame for another node arriving on a relaying CREW port is forwarded cut-through or dropped. -/
  | relayFrame (a : Arrival) (opcode : Byte)
  /-- NEIGHBOR_SOLICITATION (R383). An ICMPv6 Neighbor Solicitation for the device's address is answered. -/
  | neighborSolicitation (port : Fin 32) (target : BitVec 128) (source : BitVec 128)
  /-- MGMT_FRAME (R512). A MGMT frame is authenticated under the management key and its command, SPDM message or report handled. -/
  | mgmtFrame (port : Fin 32) (m : MgmtFrame)
  /-- LINKCTL_SWAP (R409). A partner's SWAP request starts training of the spare lanes and an ACCEPT. -/
  | linkctlSwap (port : Fin 32) (pos : BitVec 3) (tag : BitVec 128)
  /-- LINKCTL_ACCEPT (R409). A partner's ACCEPT names the marker at which both ends switch. -/
  | linkctlAccept (port : Fin 32) (accept : Bool) (marker : Nat) (tag : BitVec 128)
  /-- SWAP_MARKER (R409). At the named alignment marker both ends move the lane position to the spare and resume. -/
  | swapMarker (port : Fin 32) (marker : Nat)
  /-- LANE_SWAP_TIMEOUT (R410). A swap bound passes or the partner refuses, and the port retrains without penalty. -/
  | laneSwapTimeout (port : Fin 32)
  /-- AUTO_SPARE_TRIGGER (R411). A lane's pre-FEC error ratio exceeds 1e-4 for 1 s, starting a swap if possible and raising an interrupt. -/
  | autoSpareTrigger (lane : Fin 64)
  /-- CONGESTION_DECAY (R395). Every 10 µs of global time path congestion penalties halve. -/
  | congestionDecay
  /-- SYNC_RECEIVE (R457). A Sync message arrives on up_port and is forwarded with residence time. -/
  | syncReceive (port : Fin 32) (m : TimeMsg)
  /-- FOLLOW_UP_RECEIVE (R453). A Follow_Up completes an offset measurement that slews, steps or refuses to step global time. -/
  | followUpReceive (port : Fin 32) (m : TimeMsg)
  /-- ANNOUNCE_RECEIVE (R457). An Announce message is accepted and forwarded. -/
  | announceReceive (port : Fin 32) (m : TimeMsg)
  /-- PDELAY_MESSAGE (R457). A peer delay message on a CREW port is answered or used to measure path delay. -/
  | pdelayMessage (port : Fin 32) (m : TimeMsg)
  /-- DELAY_RESP_RECEIVE (R457). A Delay_Resp from gm_ip completes an end-to-end delay measurement. -/
  | delayRespReceive (port : Fin 32) (m : TimeMsg)
  /-- SYNC_TRANSMIT (R457). Each sync interval a grandmaster sends two-step Sync and Follow_Up. -/
  | syncTransmit
  /-- SYNC_LOSS_TIMEOUT (R453). No Sync accepted for 16 intervals takes LOCKED time to FREE. -/
  | syncLossTimeout
  /-- BUOY_TIMER (R466). At every multiple of 2^30 ticks each stream writes a buoy record. -/
  | buoyTimer
  /-- TRIGGER_FIRE (R475). An armed trigger fires, snapshotting, freezing or thawing counters. -/
  | triggerFire (scope : Option (Fin 64))
  /-- DEBUG_EXPIRY (R533). Global time passes a session's not_after and it closes. -/
  | debugExpiry (d2 : Option (Fin 64))
  /-- POWER_MEASURE (R521). Every 10 µs the power manager measures input and sets floor and token budget. -/
  | powerMeasure (inputW : BitVec 16) (temps : List Nat)
  /-- DIVISOR_DECISION (R522). Every 100 µs the power manager chooses the ACLK divisor, forcing ÷12 when hot. -/
  | divisorDecision
  /-- DIVISOR_APPLY (R523). At the next pass boundary the divisor change takes effect and tokens are re-granted. -/
  | divisorApply
  /-- SMB_WAKE (R527). Writing 0xA5 to SMB_WAKE in P3 runs the exit sequence to P0. -/
  | smbWake
  /-- SMB_ALERT_CLEAR (R651). A W1C write to SMB_ALERT clears alert bits whose conditions no longer hold. -/
  | smbAlertClear (bits : Byte)
  /-- TAP_INSTRUCTION (R649). An IEEE 1149.1 instruction is loaded, acting within what the debug level allows. -/
  | tapInstruction (ir : Byte)
  /-- VIN_RISE (R654). VIN rises through 46 V and the module powers up to PWRGD. -/
  | vinRise (mv : Nat)
  /-- UNDERVOLTAGE_WARNING (R652). VIN below 47 V for 1 ms sets the undervoltage alert. -/
  | undervoltageWarning (mv : Nat)
  /-- INPUT_LOST (R653). VIN below 44 V, overvoltage or current trip releases PWRGD and enters P4. -/
  | inputLost (cause : InputLoss)
  /-- RST_N_ASSERT (R583). RST_N assertion starts a cold reset. -/
  | rstNAssert
  /-- RST_N_RELEASE (R587). Release of RST_N with REFCLK stable runs the cold release and measured boot. -/
  | rstNRelease (b : BootEnv)
  /-- WRST_N_ASSERT (R587). WRST_N assertion starts the warm reset sequence. -/
  | wrstNAssert
  /-- WRST_N_RELEASE (R587). Release of WRST_N lets the warm reset proceed past step 3. -/
  | wrstNRelease
  /-- COX_WATCHDOG_EXPIRY (R583). The Cox watchdog unserviced for 2 s causes a warm reset. -/
  | coxWatchdogExpiry (pc : BitVec 64)
  /-- CRITICAL_STATE_ERROR (R583). A parity error in critical state causes a warm reset. -/
  | criticalStateError (structure_ : Fin 5) (unit : Byte)
  /-- CLOCK_FAULT (R582). REFCLK out of range for 10 µs or PLL out of lock causes an Umpire security reset. -/
  | clockFault (refclkLost : Bool) (b : BootEnv)
  /-- UMPIRE_SECURITY_RESET (R583). A key store error, voltage fault or failed self-check causes a security reset. -/
  | umpireSecurityReset (b : BootEnv)
  /-- THERMAL_TRIP (R583). A junction at 115 °C turns the core rails off and holds the device. -/
  | thermalTrip (temp : SensorReading)
  /-- THERMAL_HOLD_END (R586). Every die at 60 °C or less ends the thermal hold and the module drops to P4 standby. -/
  | thermalHoldEnd
  /-- COX_BLOCK_RESET (R594). After an error confined to a unit, the Cox faults its task and resets the unit alone. -/
  | coxBlockReset (u : BlockUnit)
  /-- BACKGROUND_WORK_END (R552). The background work of a command that replied ACCEPTED ends and the command writes its final reply with the same seq. -/
  | backgroundWorkEnd (fn : Fin 65) (mb : Fin 16)
  /-- REFCLK_STABLE (R654). REFCLK becomes stable for 100 µs after RST_N and PWRGD are already released, or returns after a clock fault, and the cold release starts. -/
  | refclkStable (b : BootEnv)
  /-- NUMVFS_RAISE (R541). A configuration write sets VF Enable or raises NumVFs, enabling virtual functions whose slots may then be created. -/
  | numvfsRaise (n : Fin 65)
  /-- IDE_KM_REQUEST (R509). An IDE_KM message over an SPDM secure session programs or activates the keys of a virtual function's IDE selective stream. -/
  | ideKmRequest (session : Fin 4) (slot : Fin 64) (activate : Bool) (key : BitVec 256)
  /-- TDISP_REQUEST (R509). A TDISP message over a secure session moves a virtual function's interface between CONFIG_UNLOCKED, CONFIG_LOCKED and RUN. -/
  | tdispRequest (session : Fin 4) (slot : Fin 64) (req : TdispReq)
  /-- DELAY_REQUEST_TRANSMIT (R457). A device sends its periodic Pdelay_Req on each CREW port, or Delay_Req toward gm_ip, to measure path delay. -/
  | delayRequestTransmit (port : Fin 32)
  deriving DecidableEq, Repr

end Sys2Proof
end

