-- ==== Sys2Proof/Decode.lean ====
section
/-! DEFINITION. Decoding. The block has no instruction decoder: spec/opcode_table.json gives no row
any bits, so no word spells a command. (The vector and RISC-V instruction words that the device's
own engines fetch are decoded in Machine/Vector.lean and Machine/Riscv.lean.) -/

namespace Sys2Proof

/-- The command that a word spells by the table's bits: no row of the table gives bits. -/
def decodeTableWord (_nbits _w : Nat) : Option Instr := none

end Sys2Proof
end

