-- ==== Sys2Proof/Config.lean ====
section
/-! DEFINITION. What the spec leaves to an implementation or to physics, as constants with no body:
nothing in Lean can evaluate them, so a claim about a state that holds one of their values is a claim
about every value. Each is named in notes/assumptions. -/

namespace Sys2Proof.Config

/-- Fresh random bits (nonces, ephemeral keys): the n-th draw. -/
opaque random : Nat → BitVec 384

/-- A result the spec leaves open, drawn for the n-th time. -/
opaque freeValue : Nat → BitVec 64

/-- SHA-384 of a byte string. -/
opaque sha384 : List Byte → BitVec 384

/-- HMAC or HKDF output under a key and an input string. -/
opaque kdf : List Byte → List Byte → BitVec 256

/-- The public key of a P-384 private scalar. -/
opaque ecPublic : BitVec 384 → List Byte

/-- The ECDH shared secret of a private scalar and a public key. -/
opaque ecdh : BitVec 384 → List Byte → List Byte

/-- The 96 bytes of an ECDSA P-384 signature of a message under a private scalar. -/
opaque ecSign : BitVec 384 → List Byte → List Byte

/-- Whether a P-384 signature over a message verifies under a public key. -/
opaque ecVerify : List Byte → List Byte → List Byte → Bool

/-- HKDF-SHA-384 of a salt, a key and an input string, of a number of bytes. -/
opaque hkdf : List Byte → List Byte → List Byte → Nat → List Byte

/-- HMAC-SHA-384 of a byte string under a key. -/
opaque hmac : List Byte → List Byte → BitVec 384

/-- Whether 96 bytes are a point of P-384. -/
opaque onCurve : List Byte → Bool

/-- Hash-selected public keys of the fuses: the Falruine debug key. -/
opaque falruineDebugKey : List Byte

/-- AES-256-GCM decryption under a key and nonce of a ciphertext. -/
opaque gcmOpen : BitVec 256 → BitVec 96 → List Byte → List Byte

/-- AES-256-GCM tag under a key, a nonce, additional data and a ciphertext. -/
opaque gcmTag : BitVec 256 → BitVec 96 → List Byte → List Byte → BitVec 128

/-- Byte of the AES-256-CTR key stream under which AES-256-GCM encrypts byte `i` of a text, under a key and a nonce (R341). -/
opaque gcmStream : BitVec 256 → BitVec 96 → Nat → BitVec 8

/-- AES-256-XTS of one 64-byte data unit under a memory key and a tweak (R281): a permutation of what the unit
holds, as any block encryption is. -/
opaque xts : BitVec 512 → BitVec 46 → Equiv.Perm (BitVec 512)

/-- Which RS(80, 70) over GF(2^8) the stacks use (R278): the number of the primitive polynomial of the field, and the power of
its root at which the ten roots of the generator start. The spec names the code and neither of the two. -/
opaque rsField : Nat
opaque rsRoot : Nat

/-- Falruine's signing public key, in the Umpire's ROM. -/
opaque falruineKey : List Byte

/-- The 256-bit secret that a module leaves manufacture with (R486). -/
opaque deviceSecret : BitVec 256

/-- The device identity private scalar that the Umpire derives from the device secret (R486). -/
opaque identityKey : BitVec 256 → BitVec 384

/-- The key under which the health record's mac is made, derived from the device secret (R640). -/
opaque healthKey : BitVec 256 → BitVec 384

/-- The certificate chain in the boot flash: the device's certificate binds a public key to a serial, and the intermediate's
follows (R486). -/
opaque certChain : BitVec 64 → List Byte → List Byte

/-- SHA-384 of the Falruine root public key, in the Umpire's ROM (R486). -/
opaque rootKeyHash : BitVec 384

/-- What an instruction code of the test port does under D3 (R530, R649), modulo 8: 0 a scan, 1 and 2 halt and resume of the
stroke cores and riggers, 3 and 4 halt and resume of the Cox, 5 a fuse write, others BYPASS. The spec opens the instruction set
and gives no codes. -/
opaque tapCode : BitVec 8 → Nat

/-- A built-in function table (slot 0 to 11), its derivative when the flag is set, at a binary32
argument (R155): the spec bounds the error and does not state the bits. -/
opaque functionTable : Nat → Bool → BitVec 32 → BitVec 32

/-- binary32 of an element `m × 2^e` of a block format whose magnitude is 2^128 or more, as E = 254 allows: R73 calls
the conversion exact and no binary32 value is that large. -/
opaque beyondF32 : Int → Int → BitVec 32

/-- The 8 bytes of a tile's index entry in the first pages of a retained entry, less its raw flag (R300): the spec
gives its size and that flag, and not its layout. Arguments: the tile's place in the job's memory and its bytes. -/
opaque tileIndex : Nat → Nat → BitVec 63

/-- Magnitude from which a built-in table returns its limit (R156: "for large |x|"; the spec does not say how large), by
slot: the model takes it as finite. -/
opaque limitFrom : Nat → BitVec 31

/-- Where a member of an exchange group holds what another member writes: the spec does not say how a
source learns it. Arguments: node, die, exch_id, local expert number, and which address (0 the message
area; base + 2 the exponent plane and base + 1 the element plane of the array, 0 the receive map, of
the planes 4, 8, 12 and 16: landing rows, backward landing rows, staging rows, backward staging rows). -/
opaque peerAddress : Nat → Nat → Nat → Nat → Nat → BitVec 48

/-- Damping penalty left of a penalty after a fraction of a half-life (R391): the spec gives the
half-life and no rounding. Arguments: the penalty, ticks into the half-life, ticks of the half-life. -/
opaque decayFraction : Nat → Nat → Nat → Nat

/-- Instruction code of IDCODE on the test port (R649): the spec gives none. -/
opaque idcodeIr : BitVec 8

/-- The tag with incarnation 0 that firmware's own sectors carry, less 1024 and in units of 1024 (R280): the
spec reserves these tags and does not say which firmware uses. -/
opaque firmwareTag : BitVec 16

/-- Whether a quotient that is not whole is rounded up, where the spec states no rounding: of the numerator of an
offset in nanoseconds, of a floor in half watts. -/
opaque roundsUp : Int → Bool

/-- Calibration tables of a Cox image (R622), by its digest: 0 SerDes transmit presets, 1 temperature sensor trims, 2 voltage
monitor trims, 3 the strap converter's trim, 4 stack PHY trims. The spec gives their layout nowhere. -/
opaque calibration : BitVec 384 → Nat → List Byte

/-- Measurement of an image that the spec does not lay out, by image version. -/
opaque imageDigest : BitVec 64 → BitVec 384

end Sys2Proof.Config
end

