-- ==== Sys2Proof/Machine/Num.lean ====
section
/-! DEFINITION. Exact dyadic numbers, round-to-nearest-even and the floating-point encodings
(spec/02_number_formats.md). -/

namespace Sys2Proof.Machine

/-- Bits `hi:lo` of a natural number taken as a little-endian field. -/
def fld (v : Nat) (hi lo : Nat) : Nat := (v >>> lo) % 2 ^ (hi + 1 - lo)

/-- One bit of a natural number. -/
def bitAt (v i : Nat) : Bool := v.testBit i

/-- Replace bits `hi:lo` of `v` by `x`. -/
def setFld (v : Nat) (hi lo : Nat) (x : Nat) : Nat :=
  v - (fld v hi lo) <<< lo + (x % 2 ^ (hi + 1 - lo)) <<< lo

/-- Round a value down to a multiple of `a`. -/
def alignDown (v a : Nat) : Nat := v - v % a

/-- `v` rounded up to a multiple of `a`. -/
def alignUp (v a : Nat) : Nat := (v + a - 1) / a * a

/-- Least whole number not below `a / b`. -/
def ceilDiv (a b : Nat) : Nat := (a + b - 1) / b

/-- Little-endian number of a byte list (R3). -/
def leNat : List Byte → Nat
  | [] => 0
  | b :: rest => b.toNat + 256 * leNat rest

/-- `n` little-endian bytes of a number (R3). -/
def leBytes : Nat → Nat → List Byte
  | 0, _ => []
  | n + 1, v => BitVec.ofNat 8 v :: leBytes n (v / 256)

/-- Two's complement reading of the low `w` bits. -/
def toSigned (w v : Nat) : Int :=
  let u := v % 2 ^ w
  if u < 2 ^ (w - 1) then u else (u : Int) - (2 ^ w : Nat)

/-- Two's complement pattern of an integer in `w` bits. -/
def ofSigned (w : Nat) (x : Int) : Nat := (x % ((2 ^ w : Nat) : Int)).toNat

/-- Clamp an integer, telling whether it moved (the clamp of R48). -/
def clampInt (x lo hi : Int) : Int × Bool :=
  if x < lo then (lo, true) else if hi < x then (hi, true) else (x, false)

/-- Add with saturation at `cap`. -/
def satAdd (cap a b : Nat) : Nat := min cap (a + b)

/-- `rne_shift`: shift right by `n` with round-to-nearest-even (00_scope, "Pseudocode"). -/
def rneShift (x : Int) (n : Nat) : Int :=
  let d : Int := ((2 ^ n : Nat) : Int)
  let q := x / d
  let r := x % d
  if 2 * r < d then q
  else if d < 2 * r then q + 1
  else if q % 2 = 0 then q else q + 1

/-- An exact dyadic rational `m × 2^e`. -/
structure Dy where
  m : Int
  e : Int
  deriving DecidableEq, Repr

/-- Exact zero. -/
def Dy.zero : Dy := ⟨0, 0⟩

/-- The integer `x` as a dyadic number. -/
def Dy.ofInt (x : Int) : Dy := ⟨x, 0⟩

/-- Mantissa of `d` at exponent `e'`, exact when `e' ≤ d.e`. -/
def Dy.manAt (d : Dy) (e' : Int) : Int := d.m * ((2 ^ (d.e - e').toNat : Nat) : Int)

/-- Exact sum. -/
def Dy.add (a b : Dy) : Dy :=
  if a.m = 0 then b
  else if b.m = 0 then a
  else
    let e := min a.e b.e
    ⟨a.manAt e + b.manAt e, e⟩

/-- Exact negation. -/
def Dy.neg (a : Dy) : Dy := ⟨-a.m, a.e⟩

/-- Exact difference. -/
def Dy.sub (a b : Dy) : Dy := a.add b.neg

/-- Exact product. -/
def Dy.mul (a b : Dy) : Dy := ⟨a.m * b.m, a.e + b.e⟩

/-- Exact product with a power of two. -/
def Dy.scale (a : Dy) (k : Int) : Dy := ⟨a.m, a.e + k⟩

/-- Magnitude. -/
def Dy.abs (a : Dy) : Dy := ⟨(a.m.natAbs : Int), a.e⟩

/-- Sign of a dyadic number as an integer. -/
def Dy.sgn (a : Dy) : Int := a.m.sign

/-- Exact comparison `a < b`. -/
def Dy.lt (a b : Dy) : Bool := decide ((a.sub b).m < 0)

/-- Exact comparison `a ≤ b`. -/
def Dy.le (a b : Dy) : Bool := decide ((a.sub b).m ≤ 0)

/-- Exact equality of values. -/
def Dy.eqv (a b : Dy) : Bool := decide ((a.sub b).m = 0)

/-- The larger of two values. -/
def Dy.max (a b : Dy) : Dy := if a.lt b then b else a

/-- `floor_log2` of a non-zero magnitude. -/
def Dy.floorLog2 (a : Dy) : Int := (Nat.log2 a.m.natAbs : Int) + a.e

/-- `rne(v × 2^k)`: the nearest integer, ties to even. -/
def Dy.rneScale (a : Dy) (k : Int) : Int :=
  let e := a.e + k
  if 0 ≤ e then a.m * ((2 ^ e.toNat : Nat) : Int) else rneShift a.m (-e).toNat

/-- `floor(v × 2^k)`. -/
def Dy.floorScale (a : Dy) (k : Int) : Int :=
  let e := a.e + k
  if 0 ≤ e then a.m * ((2 ^ e.toNat : Nat) : Int) else a.m / ((2 ^ (-e).toNat : Nat) : Int)

/-- A value as a reader of a number format sees it: a NaN, an infinity, a signed zero or an
exact finite value. -/
inductive Val where
  | nan
  | inf (neg : Bool)
  | zero (neg : Bool)
  | fin (d : Dy)
  deriving DecidableEq, Repr

/-- The finite value, with every non-finite one read as 0. -/
def Val.dy : Val → Dy
  | .fin d => d
  | _ => Dy.zero

/-- Build a value from an exact one; an exact zero is `+0`. -/
def Val.ofDy (d : Dy) : Val := if d.m = 0 then .zero false else .fin d

/-- NaN or an infinity. -/
def Val.nonfinite : Val → Bool
  | .nan => true
  | .inf _ => true
  | _ => false

/-- Sign bit of a value. -/
def Val.negative : Val → Bool
  | .nan => false
  | .inf n => n
  | .zero n => n
  | .fin d => decide (d.m < 0)

/-- The parameters of an IEEE 754 binary format: total width, precision with the hidden bit and
the exponent of the smallest subnormal. -/
structure FloatFmt where
  width : Nat
  prec : Nat
  eSub : Int
  deriving DecidableEq, Repr

/-- binary32 (R29, R71). -/
def fmtF32 : FloatFmt := ⟨32, 24, -149⟩
/-- bfloat16 (R29). -/
def fmtBF16 : FloatFmt := ⟨16, 8, -133⟩
/-- binary16 (R29). -/
def fmtFP16 : FloatFmt := ⟨16, 11, -24⟩

/-- Bits of the stored significand. -/
def FloatFmt.fracBits (f : FloatFmt) : Nat := f.prec - 1

/-- Pattern of +infinity. -/
def FloatFmt.infBits (f : FloatFmt) : Nat := 2 ^ (f.width - 1) - 2 ^ (f.prec - 1)

/-- The canonical quiet NaN (R33). -/
def FloatFmt.nanBits (f : FloatFmt) : Nat := f.infBits + 2 ^ (f.prec - 2)

/-- Largest finite magnitude (R74). -/
def FloatFmt.maxBits (f : FloatFmt) : Nat := f.infBits - 1

/-- Read a pattern (R73: exact). -/
def FloatFmt.decode (f : FloatFmt) (b : Nat) : Val :=
  let neg := b.testBit (f.width - 1)
  let mag := b % 2 ^ (f.width - 1)
  if f.infBits < mag then .nan
  else if mag = f.infBits then .inf neg
  else if mag = 0 then .zero neg
  else
    let be := mag / 2 ^ (f.prec - 1)
    let fr := mag % 2 ^ (f.prec - 1)
    let d : Dy := if be = 0 then ⟨fr, f.eSub⟩
      else ⟨(fr + 2 ^ (f.prec - 1) : Nat), f.eSub + (be : Int) - 1⟩
    .fin (if neg then d.neg else d)

/-- Magnitude pattern of a non-zero exact value rounded to nearest even with no upper bound on the
exponent: a result at or above `infBits` has left the format's range. -/
def FloatFmt.roundMag (f : FloatFmt) (d : Dy) : Nat :=
  let l := d.floorLog2
  let q := max (l - ((f.prec : Int) - 1)) f.eSub
  let n := (d.abs.rneScale (-q)).toNat
  (q - f.eSub).toNat * 2 ^ (f.prec - 1) + n

/-- Sign bit of a pattern. -/
def FloatFmt.signBits (f : FloatFmt) (neg : Bool) : Nat := if neg then 2 ^ (f.width - 1) else 0

/-- IEEE 754 rounding: past the largest finite magnitude the result is an infinity (R71). -/
def FloatFmt.encode (f : FloatFmt) : Val → Nat
  | .nan => f.nanBits
  | .inf n => f.infBits + f.signBits n
  | .zero n => f.signBits n
  | .fin d => if d.m = 0 then 0 else min (f.roundMag d) f.infBits + f.signBits (decide (d.m < 0))

/-- Rounding of a conversion (R74): past the largest finite magnitude the result is that magnitude,
and the conversion is counted. -/
def FloatFmt.encodeSat (f : FloatFmt) : Val → Nat × Bool
  | .nan => (f.nanBits, false)
  | .inf n => (f.infBits + f.signBits n, false)
  | .zero n => (f.signBits n, false)
  | .fin d =>
    if d.m = 0 then (0, false)
    else
      let r := f.roundMag d
      let s := f.signBits (decide (d.m < 0))
      if f.maxBits < r then (f.maxBits + s, true) else (r + s, false)

/-- A binary32 pattern. -/
abbrev F32 := BitVec 32

/-- Read binary32. -/
def f32val (x : F32) : Val := fmtF32.decode x.toNat

/-- Round to binary32 as IEEE 754 does (R71). -/
def f32of (v : Val) : F32 := BitVec.ofNat 32 (fmtF32.encode v)

/-- Canonical binary32 NaN. -/
def f32nan : F32 := 0x7FC00000#32
/-- binary32 1.0. -/
def f32one : F32 := 0x3F800000#32
/-- binary32 −infinity. -/
def f32ninf : F32 := 0xFF800000#32

/-- IEEE 754 sum, before rounding. -/
def Val.add : Val → Val → Val
  | .nan, _ => .nan
  | _, .nan => .nan
  | .inf a, .inf b => if a = b then .inf a else .nan
  | .inf a, _ => .inf a
  | _, .inf b => .inf b
  | .zero a, .zero b => .zero (a && b)
  | .zero _, .fin d => .fin d
  | .fin d, .zero _ => .fin d
  | .fin a, .fin b => Val.ofDy (a.add b)

/-- Sign flip. -/
def Val.neg : Val → Val
  | .nan => .nan
  | .inf a => .inf (!a)
  | .zero a => .zero (!a)
  | .fin d => .fin d.neg

/-- IEEE 754 product, before rounding. -/
def Val.mul : Val → Val → Val
  | .nan, _ => .nan
  | _, .nan => .nan
  | .inf _, .zero _ => .nan
  | .zero _, .inf _ => .nan
  | .fin a, .fin b => .fin (a.mul b)
  | a, b =>
    let s := xor a.negative b.negative
    match a, b with
    | .inf _, _ => .inf s
    | _, .inf _ => .inf s
    | _, _ => .zero s

/-- A value after one rounding to binary32, kept as a value. -/
def Val.round32 (v : Val) : Val := f32val (f32of v)

/-- binary32 sum (R71). -/
def f32add (a b : F32) : F32 := f32of ((f32val a).add (f32val b))
/-- binary32 difference (R71). -/
def f32sub (a b : F32) : F32 := f32of ((f32val a).add (f32val b).neg)
/-- binary32 product (R71). -/
def f32mul (a b : F32) : F32 := f32of ((f32val a).mul (f32val b))
/-- Fused multiply-add with one rounding (R71). -/
def f32fma (a b c : F32) : F32 := f32of (((f32val a).mul (f32val b)).add (f32val c))

/-- Quotient of two non-zero exact values with enough bits, and a sticky bit, that one rounding to
binary32 is the correct rounding of the true quotient. -/
def Dy.divSticky (a b : Dy) : Dy :=
  let na := a.m.natAbs
  let nb := b.m.natAbs
  let k := 32 + Nat.log2 nb
  let num := na <<< k
  let q := num / nb
  let st := if num % nb = 0 then 0 else 1
  let mag : Int := ((2 * q + st : Nat) : Int)
  ⟨if (a.m < 0) = (b.m < 0) then mag else -mag, a.e - b.e - (k : Int) - 1⟩

/-- Correctly rounded binary32 quotient (R71). -/
def f32div (a b : F32) : F32 :=
  let va := f32val a
  let vb := f32val b
  let s := xor va.negative vb.negative
  f32of (match va, vb with
    | .nan, _ => .nan
    | _, .nan => .nan
    | .inf _, .inf _ => .nan
    | .inf _, _ => .inf s
    | _, .inf _ => .zero s
    | .zero _, .zero _ => .nan
    | .zero _, .fin _ => .zero s
    | .fin _, .zero _ => .inf s
    | .fin x, .fin y => .fin (x.divSticky y))

/-- Integer square root by bits, `i` bits left to try. -/
def isqrtBits (n : Nat) : Nat → Nat → Nat
  | 0, r => r
  | i + 1, r =>
    let r' := r + 2 ^ i
    isqrtBits n i (if r' * r' ≤ n then r' else r)

/-- Square root of a positive exact value with a sticky bit. -/
def Dy.sqrtSticky (a : Dy) : Dy :=
  let k := 64 + (if (a.e - 64) % 2 = 0 then 0 else 1)
  let n := a.m.natAbs <<< k
  let r := isqrtBits n (Nat.log2 n / 2 + 1) 0
  let st := if r * r = n then 0 else 1
  ⟨((2 * r + st : Nat) : Int), (a.e - (k : Int)) / 2 - 1⟩

/-- Correctly rounded binary32 square root (R71). -/
def f32sqrt (a : F32) : F32 :=
  f32of (match f32val a with
    | .nan => .nan
    | .zero n => .zero n
    | .inf n => if n then .nan else .inf false
    | .fin d => if d.m < 0 then .nan else .fin d.sqrtSticky)

/-- Ordered comparison of two values: `none` when either is a NaN. -/
def Val.cmp : Val → Val → Option Ordering
  | .nan, _ => none
  | _, .nan => none
  | .inf a, .inf b => some (if a = b then .eq else if a then .lt else .gt)
  | .inf a, _ => some (if a then .lt else .gt)
  | _, .inf b => some (if b then .gt else .lt)
  | a, b =>
    let d := (a.dy.sub b.dy).m
    some (if d < 0 then .lt else if d = 0 then .eq else .gt)

/-- `a < b` in binary32, false with a NaN. -/
def f32lt (a b : F32) : Bool := (f32val a).cmp (f32val b) == some .lt
/-- `a ≤ b` in binary32, false with a NaN. -/
def f32le (a b : F32) : Bool :=
  match (f32val a).cmp (f32val b) with
  | some .lt => true
  | some .eq => true
  | _ => false
/-- `a = b` in binary32, false with a NaN. -/
def f32eq (a b : F32) : Bool := (f32val a).cmp (f32val b) == some .eq

/-- Whether a binary32 pattern is a NaN. -/
def f32isNaN (a : F32) : Bool := f32val a == .nan

/-- Whether a binary32 pattern is a NaN or an infinity. -/
def f32nonfinite (a : F32) : Bool := (f32val a).nonfinite

/-- An unsigned integer rounded to binary32. -/
def f32ofNat (n : Nat) : F32 := f32of (Val.ofDy ⟨n, 0⟩)

/-- A signed integer rounded to binary32. -/
def f32ofInt (n : Int) : F32 := f32of (Val.ofDy ⟨n, 0⟩)

end Sys2Proof.Machine
end

