-- ==== Sys2Proof/Machine/Flags.lean ====
section
/-! DEFINITION. The two counts a job slot keeps of its conversions (spec/02_number_formats.md R48):
saturations and non-finite blocks. Every conversion of the model answers its counts beside its
value. -/

namespace Sys2Proof.Machine

/-- Counts of one operation: clamped elements and blocks (or conversions) with a non-finite value. -/
structure Cnt where
  sat : Nat
  nonf : Nat
  deriving DecidableEq, Repr

/-- No counts. -/
def Cnt.none : Cnt := ⟨0, 0⟩

/-- Every count made is added, and none is lost (R48). -/
def Cnt.add (a b : Cnt) : Cnt := ⟨a.sat + b.sat, a.nonf + b.nonf⟩

/-- One saturation when `b` holds. -/
def Cnt.satIf (b : Bool) : Cnt := ⟨if b then 1 else 0, 0⟩

/-- One non-finite count when `b` holds. -/
def Cnt.nonfIf (b : Bool) : Cnt := ⟨0, if b then 1 else 0⟩

/-- Counts of a list of operations. -/
def Cnt.sum (l : List Cnt) : Cnt := l.foldl Cnt.add Cnt.none

end Sys2Proof.Machine
end

