-- ==== Sys2Proof/Machine/Operands.lean ====
section
/-! DEFINITION. Operand forms: the number formats, the CONV word, blocks, their conversions, EA40,
AC32 and VOTE2 (spec/02_number_formats.md). -/

namespace Sys2Proof.Machine

/-! ### Formats and the CONV word -/

/-- Format codes (R29). -/
def fBS8 : Nat := 0
def fBU8 : Nat := 1
def fBS4 : Nat := 2
def fBU4 : Nat := 3
def fBS16 : Nat := 4
def fAC32 : Nat := 5
def fEA40 : Nat := 6
def fVOTE2 : Nat := 7
def fF32 : Nat := 8
def fBF16 : Nat := 9
def fFP16 : Nat := 10

/-- The formats of 32-element blocks with an exponent plane. -/
def isBlockFmt (f : Nat) : Bool := decide (f ≤ 4)

/-- BS8, BU8, BS4 or BU4: the formats of a native matrix operand (R45). -/
def isNativeFmt (f : Nat) : Bool := decide (f ≤ 3)

/-- F32, BF16 or FP16. -/
def isFloatFmt (f : Nat) : Bool := decide (8 ≤ f ∧ f ≤ 10)

/-- Formats whose elements carry a sign. -/
def fmtSigned (f : Nat) : Bool := !(f == fBU8 || f == fBU4)

/-- Bias of the block exponent (R29). -/
def fmtBias (f : Nat) : Int :=
  match f with
  | 0 => 133
  | 1 => 133
  | 2 => 130
  | 3 => 130
  | 4 => 141
  | _ => 157

/-- Smallest element (R46). -/
def fmtQmin (f : Nat) : Int :=
  match f with
  | 0 => -128
  | 1 => 0
  | 2 => -8
  | 3 => 0
  | 4 => -32768
  | _ => -2147483648

/-- Largest element (R46). -/
def fmtQmax (f : Nat) : Int :=
  match f with
  | 0 => 127
  | 1 => 255
  | 2 => 7
  | 3 => 15
  | 4 => 32767
  | _ => 2147483647

/-- Offset of the automatic exponent (R46). -/
def fmtOffset (f : Nat) : Int :=
  match f with
  | 0 => 127
  | 1 => 126
  | 2 => 128
  | 3 => 127
  | _ => 127

/-- Bits an element takes in its plane. -/
def fmtBits (f : Nat) : Nat :=
  match f with
  | 0 => 8
  | 1 => 8
  | 2 => 4
  | 3 => 4
  | 4 => 16
  | 5 => 32
  | 6 => 48
  | 7 => 2
  | 8 => 32
  | 9 => 16
  | 10 => 16
  | _ => 8

/-- Floating-point parameters of a float format. -/
def fmtFloat (f : Nat) : FloatFmt :=
  match f with
  | 8 => fmtF32
  | 9 => fmtBF16
  | _ => fmtFP16

/-- Fields of the CONV word (R43). -/
def convFmt (c : Nat) : Nat := fld c 19 16
def convAxis (c : Nat) : Nat := fld c 15 15
def convMode (c : Nat) : Nat := fld c 14 13
def convPieces (c : Nat) : Nat := fld c 12 11
def convFixedExp (c : Nat) : Nat := fld c 7 0

/-- The fixed exponent of mode FIXED, `none` in mode AUTO. -/
def convFixed (c : Nat) : Option Nat := if convMode c = 1 then some (convFixedExp c) else none

/-- The checks of R44 on one CONV word; `written` says whether the array is written. -/
def convOk (c : Nat) (written : Bool) : Bool :=
  decide (convFmt c ≤ 10) &&
  !(written && decide (2 ≤ convMode c)) &&
  decide (convPieces c ≠ 3) &&
  (decide (convPieces c = 0) || convFmt c == fBS8 || convFmt c == fF32 || convFmt c == fBF16) &&
  !(written && convMode c == 1 && (convFixedExp c == 0 || convFixedExp c == 255)) &&
  !(convAxis c == 1 && (isFloatFmt (convFmt c) || convFmt c == fEA40 || convFmt c == fVOTE2)) &&
  fld c 31 20 == 0 && fld c 10 8 == 0

/-- The three cases of R45. -/
inductive ProductCase where
  | native
  | split (pieces : Nat)
  | dk4
  deriving DecidableEq, Repr

/-- Which case two operand CONV words fall into, if any (R45). -/
def productCase (a w : Nat) : Option ProductCase :=
  let fa := convFmt a
  let fw := convFmt w
  let pa := convPieces a
  let pw := convPieces w
  let splitFmt := fun f => f == fBS8 || f == fF32 || f == fBF16
  if isNativeFmt fa && isNativeFmt fw && pa == 0 && pw == 0 then some .native
  else if pa == pw && pa != 0 && splitFmt fa && splitFmt fw then some (.split (pa + 1))
  else if isFloatFmt fa && isFloatFmt fw && pa == 0 && pw == 0 then some .dk4
  else none

/-! ### Reading and writing blocks -/

/-- Value of element `q` of a block with exponent `e` (R26, R32). -/
def blockVal (f e : Nat) (q : Int) : Val :=
  if e = 0 then .zero false
  else if e = 255 then
    if q = 1 then .inf false
    else if q = -1 && fmtSigned f then .inf true
    else .nan
  else Val.ofDy ⟨q, (e : Int) - fmtBias f⟩

/-- Code written for an input element in a block with E = 255 (R32). -/
def nonfiniteCode (f : Nat) (v : Val) : Int :=
  match v with
  | .nan => if fmtSigned f then fmtQmin f else fmtQmax f
  | .inf false => 1
  | .inf true => if fmtSigned f then -1 else fmtQmax f
  | _ => 0

/-- `auto_exp` of R46, on a magnitude. -/
def autoExp (m : Dy) (f : Nat) : Nat :=
  if m.m = 0 then 0
  else
    let e := m.floorLog2 + fmtOffset f
    let e := if fmtQmax f < m.rneScale (fmtBias f - e) then e + 1 else e
    (max 1 (min e 254)).toNat

/-- A block: its exponent and its elements. -/
structure Block where
  e : Nat
  q : List Int
  deriving DecidableEq, Repr

/-- The largest magnitude that AUTO sizes the exponent by. -/
def blockMax (f : Nat) (xs : List Val) : Dy :=
  xs.foldl (fun m v => m.max (if fmtSigned f then v.dy.abs else if v.dy.m < 0 then Dy.zero else v.dy)) Dy.zero

/-- One element of a finite conversion, with its clamp (R46). -/
def toElem (f : Nat) (e : Int) (v : Val) : Int × Bool :=
  let d := v.dy
  if !fmtSigned f && decide (d.m < 0) then (0, true)
  else clampInt (d.rneScale (fmtBias f - e)) (fmtQmin f) (fmtQmax f)

/-- `to_block` of R46: `fixed` is the exponent of mode FIXED, `none` is mode AUTO. -/
def toBlock (xs : List Val) (f : Nat) (fixed : Option Nat) : Block × Cnt :=
  if xs.any Val.nonfinite then (⟨255, xs.map (nonfiniteCode f)⟩, ⟨0, 1⟩)
  else
    let e : Nat := match fixed with
      | some e => e
      | none => autoExp (blockMax f xs) f
    let ts := xs.map (toElem f (e : Int))
    let q := ts.map Prod.fst
    let c : Cnt := ⟨(ts.filter Prod.snd).length, 0⟩
    (⟨if q.all (· == 0) then 0 else e, q⟩, c)

/-- Values of the elements of a block. -/
def blockVals (f : Nat) (b : Block) : List Val := b.q.map (blockVal f b.e)

/-- Widening of R31 between block formats, when the pair is one it lists: the exact factor. -/
def widenFactor (src dst : Nat) : Option Int :=
  match src, dst with
  | 2, 0 => some 8
  | 0, 4 => some 256
  | 4, 5 => some 65536
  | 3, 1 => some 8
  | _, _ => none

/-- A change of block format: the widening of R31, or `to_block` in AUTO (R49). Codes of a
non-finite block are formed again in the target format. -/
def convertBlock (src dst : Nat) (b : Block) (fixed : Option Nat) : Block × Cnt :=
  if src = dst then (b, Cnt.none)
  else match widenFactor src dst with
    | some k =>
      if b.e = 255 then (⟨255, b.q.map (fun q => if q = 0 then 0 else nonfiniteCode dst (blockVal src 255 q))⟩, Cnt.none)
      else (⟨b.e, b.q.map (· * k)⟩, Cnt.none)
    | none => toBlock (blockVals src b) dst fixed

/-- `split_cut` of R59 into `n` pieces: the shared exponent, the pieces and the counts. -/
def splitCut (xs : List Val) (n : Nat) : Nat × List (List Int) × Cnt :=
  let (b, c0) := toBlock xs fBS8 none
  if b.e = 0 || b.e = 255 then (b.e, b.q :: List.replicate (n - 1) (List.replicate xs.length 0), c0)
  else
    let r0 := List.zipWith (fun (v : Val) (q : Int) => v.dy.sub ⟨q, (b.e : Int) - 133⟩) xs b.q
    let go := (List.range (n - 1)).foldl
      (fun (st : List (List Int) × List Dy × Cnt) (i : Nat) =>
        let p : Int := (i : Int) + 1
        let ts := st.2.1.map (fun r => clampInt (r.rneScale (133 + 7 * p - (b.e : Int))) (-128) 127)
        let qp := ts.map Prod.fst
        let r' := List.zipWith (fun (r : Dy) (q : Int) => r.sub ⟨q, (b.e : Int) - 133 - 7 * p⟩) st.2.1 qp
        (st.1 ++ [qp], r', st.2.2.add ⟨(ts.filter Prod.snd).length, 0⟩))
      ([], r0, c0)
    (b.e, b.q :: go.1, go.2.2)

/-! ### EA40 -/

/-- An EA40 element (R50): significand and exponent; `x = 0` is zero, `x = 255` holds a code. -/
structure EA40 where
  s : Int
  x : Nat
  deriving DecidableEq, Repr

/-- Zero. -/
def EA40.zero : EA40 := ⟨0, 0⟩

/-- The EA40 NaN (R41). -/
def EA40.nan : EA40 := ⟨-(2 ^ 39), 255⟩

/-- Value of an EA40 element (R41, R50). -/
def EA40.val (a : EA40) : Val :=
  if a.x = 0 then .zero false
  else if a.x = 255 then
    if a.s = 1 then .inf false else if a.s = -1 then .inf true else .nan
  else Val.ofDy ⟨a.s, (a.x : Int) - 166⟩

/-- `ea40_round` of R50, with its saturation. -/
def ea40Round (v : Dy) : EA40 × Bool :=
  if v.m = 0 then (EA40.zero, false)
  else
    let x := max 1 (v.floorLog2 + 128)
    let s := v.rneScale (166 - x)
    let (s, x) := if s.natAbs = 2 ^ 39 then (s / 2, x + 1) else (s, x)
    if 254 < x then (⟨v.sgn * (2 ^ 39 - 1), 254⟩, true)
    else if s = 0 then (EA40.zero, false)
    else (⟨s, x.toNat⟩, false)

/-- Round any value into EA40. -/
def ea40OfVal (v : Val) : EA40 × Bool :=
  match v with
  | .nan => (EA40.nan, false)
  | .inf n => (⟨if n then -1 else 1, 255⟩, false)
  | .zero _ => (EA40.zero, false)
  | .fin d => ea40Round d

/-- Exact sum of the products of two equally long integer lists. -/
def dot : List Int → List Int → Int
  | a :: as, b :: bs => a * b + dot as bs
  | _, _ => 0

/-- One block pair of `product_element` (R51, R53, R54): `shift` is `7·(i + j)`. -/
def eaPair (acc : EA40) (ea ew : Nat) (qa qw : List Int) (shift : Int) : EA40 × Bool :=
  if ea = 0 || ew = 0 then (acc, false)
  else if ea = 255 || ew = 255 then (EA40.nan, false)
  else if acc.x = 255 then (acc, false)
  else ea40Round (acc.val.dy.add ⟨dot qa qw, (ea : Int) + (ew : Int) - 266 - shift⟩)

/-- The piece pairs of a product in their order (R51, R61). -/
def passOrder (pieces : Nat) : List (Nat × Nat) :=
  match pieces with
  | 2 => [(1, 0), (0, 1), (0, 0)]
  | 3 => [(2, 0), (1, 1), (0, 2), (1, 0), (0, 1), (0, 0)]
  | _ => [(0, 0)]

/-- Exact product of two element values (R67, R68). -/
def Val.mulExact (a b : Val) : Val := a.mul b

/-- One group of 32 products on the DK4 path (R67, R68). -/
def eaGroup (acc : EA40) (as bs : List Val) : EA40 × Bool :=
  let ps := List.zipWith Val.mulExact as bs
  let nan := acc.val == .nan || ps.any (· == .nan)
  let pinf := acc.val == .inf false || ps.any (· == .inf false)
  let ninf := acc.val == .inf true || ps.any (· == .inf true)
  if nan || (pinf && ninf) then (EA40.nan, false)
  else if pinf then (⟨1, 255⟩, false)
  else if ninf then (⟨-1, 255⟩, false)
  else
    let sum := ps.foldl (fun s p => s.add p.dy) Dy.zero
    ea40Round (acc.val.dy.add sum)

/-- Sum of two EA40 elements with one rounding (the combination of K parts, R101). -/
def eaAdd (a b : EA40) : EA40 × Bool :=
  match a.val.add b.val with
  | .nan => (EA40.nan, false)
  | .inf n => (⟨if n then -1 else 1, 255⟩, false)
  | .zero _ => (EA40.zero, false)
  | .fin d => ea40Round d

/-- The six bytes of a spilled EA40 element (R41). -/
def EA40.bytes (a : EA40) : List Byte := leBytes 5 (ofSigned 40 a.s) ++ [BitVec.ofNat 8 a.x]

/-- Read a spilled EA40 element (R41). -/
def EA40.ofBytes (bs : List Byte) : EA40 :=
  ⟨toSigned 40 (leNat (bs.take 5)), leNat (bs.drop 5) % 256⟩

/-! ### AC32 -/

/-- An AC32 block: exponent, lifted bit and 32 accumulators (R40, R63). -/
structure AC32 where
  e : Nat
  lifted : Bool
  q : List Int
  deriving DecidableEq, Repr

/-- Largest magnitude of a finite AC32 accumulator. -/
def ac32Max : Int := 2147483647

/-- `shift_in` of R63. -/
def shiftIn (q : Int) (d : Int) : Int :=
  let n := 16 + d
  if 0 ≤ n then q * ((2 ^ n.toNat : Nat) : Int) else rneShift q (-n).toNat

/-- What one element contributes where a sum meets a non-finite block (R66): a code-0 element and
every finite element act as a finite value. -/
def mergeVal (f e : Nat) (q : Int) : Val :=
  if e = 255 then (if q = 0 then .zero false else blockVal f 255 q) else .zero false

/-- Result element of `merge_nonfinite` (R66). -/
def mergeElem (a b : Val) : Int :=
  match a, b with
  | .nan, _ => -2147483648
  | _, .nan => -2147483648
  | .inf x, .inf y => if x = y then (if x then -1 else 1) else -2147483648
  | .inf x, _ => if x then -1 else 1
  | _, .inf y => if y then -1 else 1
  | _, _ => 0

/-- `merge_nonfinite` of R66 of an AC32 block with a block of format `f`. -/
def mergeNonfinite (acc : AC32) (f : Nat) (c : Block) : AC32 :=
  { acc with
    e := 255
    q := List.zipWith (fun a b => mergeElem (mergeVal fAC32 acc.e a) (mergeVal f c.e b)) acc.q c.q }

/-- Whether an AC32 block holds a non-zero accumulator. -/
def AC32.nonzero (a : AC32) : Bool := a.q.any (· != 0)

/-- Answer of an accumulation: the block, the elements clamped and the lifts counted. -/
structure AccRes where
  blk : AC32
  sat : Nat
  lifts : Nat
  deriving DecidableEq, Repr

/-- The end of `ac32_add` and `ac32_merge`: the exact sums at exponent `ea`, with one more lift when
one leaves the range, or the clamp at 254 (R63). -/
def ac32Finish (s : List Int) (ea : Nat) (lifted : Bool) (held : Bool) (lifts : Nat) : AccRes :=
  if s.any (fun v => decide (ac32Max < (v.natAbs : Int))) then
    if ea = 254 then
      let ts := s.map (fun v => clampInt v (-ac32Max) ac32Max)
      ⟨⟨ea, lifted, ts.map Prod.fst⟩, (ts.filter Prod.snd).length, lifts⟩
    else
      ⟨⟨ea + 1, lifted || held, s.map (fun v => rneShift v 1)⟩, 0, lifts + (if held then 1 else 0)⟩
  else ⟨⟨ea, lifted, s⟩, 0, lifts⟩

/-- `ac32_add` of R63: a BS16 block into an AC32 block. -/
def ac32Add (acc : AC32) (c : Block) : AccRes :=
  if c.e = 0 then ⟨acc, 0, 0⟩
  else if c.e = 255 || acc.e = 255 then ⟨mergeNonfinite acc fBS16 c, 0, 0⟩
  else
    let ea := max acc.e 1
    let up := decide (ea < c.e)
    let lift1 := up && acc.nonzero
    let q := if up then acc.q.map (fun v => rneShift v (c.e - ea)) else acc.q
    let ea' := max ea c.e
    let s := List.zipWith (fun v x => v + shiftIn x ((c.e : Int) - (ea' : Int))) q c.q
    ac32Finish s ea' (acc.lifted || lift1) (q.any (· != 0)) (if lift1 then 1 else 0)

/-! ### VOTE2 -/

/-- Vote of a two-bit code, and whether the code is malformed (R42). -/
def voteOf (b : Nat) : Int × Bool :=
  match b with
  | 1 => (1, false)
  | 3 => (-1, false)
  | 2 => (0, true)
  | _ => (0, false)

/-- Two-bit code of a vote (R42). -/
def voteCode (v : Int) : Nat := if v = 1 then 1 else if v = -1 then 3 else 0

/-- The 32 two-bit codes of 8 bytes of VOTE2: vote `k` in bits `2k+1:2k` of the little-endian
number, which is R42's place (R42). -/
def voteCodes (bs : List Byte) : List Nat :=
  (List.range 32).map (fun k => fld (leNat bs) (2 * k + 1) (2 * k))

end Sys2Proof.Machine
end

