-- ==== Sys2Proof/Machine/TypesDev.lean ====
section
/-! DEFINITION. Parts of the state: global time, traces and counters (spec/13_time_and_counters.md),
keys, lifecycle and debug (spec/14_secrecy.md, spec/15_power_debug_security.md), power, reset
(spec/17_reset_clocks_straps.md), logs and health (spec/18_service_selftest_conservation.md), the
module (spec/19_module_electrical.md) and the memory stacks (spec/08_memory.md). -/

namespace Sys2Proof.Machine

/-! ### Memory -/

/-- A page mapping of a job (R275): first address, page size, first frame and rights. -/
structure Page where
  va : Nat
  big : Bool
  frame : Nat
  r : Bool
  w : Bool
  deriving DecidableEq, Repr

/-- Metadata of a sector of stack memory (R279). A sector that is not listed is scrubbed: tag 0,
zero set (R283). -/
structure SectorMeta where
  tag : BitVec 16
  zero : Bool
  poison : Bool
  deriving DecidableEq, Repr

/-- Whom a stream serves: operand A or B of a matrix engine, for the entry that it runs or, ahead, for the next one (R291),
or a vector engine, a rigger core or a die's Copy Engine whose misses were sequential (R292). -/
inductive StreamUser where
  | operand (eng : Fin 68) (a ahead : Bool)
  | vector (v : Fin 64)
  | rigger (r : Fin 64)
  | copy (die : Fin 4)
  deriving DecidableEq, Repr

/-- A stream that a prefetcher follows (R291, R292): the task and the unit that it serves, its rows by base, stride, count and
bytes, the numbers of its rows where they do not follow one another (R249), those of the exponent plane, the next row to fetch, the sectors fetched that their consumer has not read, and, for a
detected stream, the sectors that its unit has read elsewhere since it last read one of the stream's. -/
structure Prefetch where
  task : TaskRef
  user : StreamUser
  base : Nat
  stride : Nat
  len : Nat
  expBase : Nat
  expStride : Nat
  expLen : Nat
  count : Nat
  rows : List Nat
  next : Nat
  held : List Nat
  idle : Nat
  deriving DecidableEq, Repr

/-- The misses of a unit that have been sequential so far (R292): job slot, last sector missed and how many. -/
structure MissRun where
  slot : Fin 64
  sector : Nat
  run : Nat
  deriving DecidableEq, Repr

/-- A line of the stream cache: job slot, consuming die and sector address (R293). -/
structure CacheLine where
  slot : Fin 64
  die : Fin 4
  sector : Nat
  deriving DecidableEq, Repr

/-- The calibration tables of a Cox image (R622). -/
structure CalibTables where
  serdes : List Byte
  sensor : List Byte
  monitor : List Byte
  strap : List Byte
  stackPhy : List Byte
  deriving DecidableEq, Repr

/-- Calibration (R622): the tables that the Cox has loaded, and those in effect in each port, in the sensors, the monitors
and the strap converter, and in each stack. An empty table stands for the fused factory values alone. -/
structure Calib where
  loaded : CalibTables
  ports : Vector (List Byte) 32
  sensor : List Byte
  monitor : List Byte
  strap : List Byte
  memStacks : Vector (List Byte) 20
  deriving DecidableEq, Repr

/-- State of a stack (R618). -/
inductive StackState where
  | ok
  | failing
  | migrating
  | retired
  deriving DecidableEq, Repr

/-- A memory stack: its state, the granules switched by a migration, its counters (R472), the
sectors corrected in the patrol pass that runs and the times of failed recalibrations (R613). -/
structure Stack where
  st : StackState
  moved : Nat
  corrected : BitVec 32
  poisoned : BitVec 32
  tagMismatch : BitVec 32
  patrols : BitVec 32
  passCorrected : Nat
  calFails : List Nat
  /-- Malformed votes that the Accumulate Unit met (R42). -/
  malformed : BitVec 32
  /-- Whether the stack has been reported as failing (R619). -/
  reported : Bool
  deriving DecidableEq, Repr

/-! ### Time, traces, counters -/

/-- State of global time (R453). -/
inductive ClockState where
  | unset
  | free
  | locked
  deriving DecidableEq, Repr

/-- Global time's machinery beside the count: the RO fields of OBJ_TIME and the protocol state. -/
structure TimeSt where
  st : ClockState
  offsetNs : Int
  pathNs : Nat
  stepsRefused : BitVec 32
  lockLosses : BitVec 32
  msgsDropped : BitVec 32
  /-- Global time at which the last Sync was accepted. -/
  lastSync : Nat
  /-- A Sync that awaits its Follow_Up: sequence, local time of arrival and correction, in ticks of
  2^-16. -/
  sync : Option (BitVec 16 × Int × Int)
  /-- Offset that the slew still has to remove, in ticks of 2^-16. -/
  slew : Int
  /-- Sequence of the messages the device originates. -/
  seq : BitVec 16
  delaySent : Option (BitVec 16 × Int)
  /-- Arrival less origin of the last Sync of up_port, corrected, in ticks of 2^-16. -/
  syncDiff : Int
  deriving DecidableEq, Repr

/-- A record that waits in a die's trace unit (R464, R465): time, kind and payload, its slot and its die. -/
structure TraceRec where
  time : Nat
  kind : Nat
  slot : Nat
  die : Nat
  payload : Nat
  deriving DecidableEq, Repr

/-- A trace stream (R463 to R466): records written, records lost, records lost since the last buoy,
whether the next record must be a buoy, and the records that wait to be written, at most 256. -/
structure Stream where
  wr : BitVec 32
  lost : BitVec 32
  lostBuoy : BitVec 32
  needBuoy : Bool
  queue : List TraceRec
  deriving DecidableEq, Repr

/-- A programmable counter (R467, R468). -/
structure PmuCtr where
  enable : Bool
  event : BitVec 10
  umask : BitVec 16
  lent : Bool
  slot : Fin 64
  count : BitVec 48
  tally : BitVec 16
  tallySat : Bool
  snap : BitVec 64
  frozen : Bool
  deriving DecidableEq, Repr

/-- A trigger (R474). -/
structure Trigger where
  armed : Bool
  late : Bool
  unlocked : Bool
  firedAt : BitVec 64
  at_ : BitVec 64
  action : BitVec 2
  deriving DecidableEq, Repr

/-- Counters of a port (R472). -/
structure PortErr where
  fecCorrected : BitVec 64
  fecUncorrectable : BitVec 64
  framesRx : BitVec 64
  framesTx : BitVec 64
  dropped : BitVec 64
  deriving DecidableEq, Repr

/-- Counters of the VMT receiver (R472). -/
structure VmtErr where
  notMine : BitVec 32
  badHdr : BitVec 32
  noJob : BitVec 32
  tagFail : BitVec 32
  staleTime : BitVec 32
  relayDrop : BitVec 32
  tornDrop : BitVec 32
  beyondWindow : BitVec 32
  /-- Frames of R390 and R512 that failed their check. -/
  mgmtDrop : BitVec 32
  deriving DecidableEq, Repr

/-! ### Logs -/

/-- A record of the error log or the event log (R631). -/
structure LogRec where
  time : Nat
  seq : BitVec 32
  code : Byte
  slot : Option (Fin 64)
  unit : BitVec 16
  detail : Nat
  deriving DecidableEq, Repr

/-- The two logs (R629, R630). -/
structure Logs where
  first : List LogRec
  ring : List LogRec
  lost : BitVec 32
  seq : BitVec 32
  rsvWrites : BitVec 32
  dpaAccesses : BitVec 32
  ignored : BitVec 32
  events : List LogRec
  eventSeq : BitVec 32
  overwritten : BitVec 32
  deriving DecidableEq, Repr

/-- Fields of the health record that no other part of the state holds (R640). -/
structure Health where
  valid : Bool
  seq : BitVec 64
  written : BitVec 64
  /-- Engine entries as last written: logical number and state (R123). -/
  me : List (Byte × BitVec 4)
  memStacks : List (BitVec 2)
  tempExcl : BitVec 32
  holdCause : BitVec 4
  resetCause : BitVec 4
  stTime : BitVec 64
  stRun : BitVec 16
  stPass : BitVec 16
  laneFail : BitVec 64
  asSlice : BitVec 8
  boots : BitVec 32
  restarts : BitVec 4
  clean : Bool
  /-- Stacks that failed item 7 of the last shutdown self-test, which become FAILING at the next boot (R642). -/
  item7 : List (Fin 20)
  deriving DecidableEq, Repr

/-! ### Keys, lifecycle, debug -/

/-- Lifecycle state, in the encoding of R494. -/
inductive Lifecycle where
  | blank
  | provisioned
  | deployed
  | retired
  deriving DecidableEq, Repr

/-- A filled job key slot (R483, R495); its txc stands with the job's transport state. -/
structure JobKeys where
  memKey : BitVec 512
  fabKey : BitVec 256
  jobId : BitVec 20
  minSvn : Byte
  hostLock : Bool
  authOnly : Bool
  surviveWarm : Bool
  deriving DecidableEq, Repr

/-- An ephemeral key pair with the last report it went into (R493, R496). -/
structure Ephemeral where
  scalar : BitVec 384
  nonce : List Byte
  report : List Byte
  deriving DecidableEq, Repr

/-- An SPDM session (R483, R491). -/
structure SpdmSession where
  src : SpdmPort
  key : BitVec 256
  finished : Bool
  deriving DecidableEq, Repr

/-- TDISP interface states (R509). -/
inductive Tdisp where
  | unlocked
  | locked
  | run
  | error
  deriving DecidableEq, Repr

/-- An IDE selective stream (R509): its key, and whether it is active. -/
structure IdeStream where
  key : BitVec 256
  active : Bool
  deriving DecidableEq, Repr

/-- An open D1 or D3 session (R530): level, signer and expiry (0: never). -/
structure DebugSession where
  level : BitVec 2
  signer : BitVec 2
  notAfter : BitVec 64
  deriving DecidableEq, Repr

/-- The Umpire: fuses, key store, measurements, sessions, debug, and the key tables that it loads into the engines. -/
structure Security where
  lifecycle : Lifecycle
  /-- The 256-bit secret of the fuse bank, and the identity key that each boot derives from it (R486). -/
  deviceSecret : BitVec 256
  identity : Option (BitVec 384)
  /-- Hash of the operator key in the fuses, and the signature of the lifecycle record in the boot flash (R485). -/
  opKeyHash : Option (BitVec 384)
  lcRecord : List Byte
  serial : BitVec 64
  moduleB : Bool
  stepping : BitVec 4
  rollback : Byte
  macBase : BitVec 48
  opKey : Option (List Byte)
  jobKeys : Vector (Option JobKeys) 64
  mgmtKey : Option (BitVec 256)
  mgmtNext : Option (BitVec 256)
  coxKey : Option (BitVec 384)
  /-- Slots 72 to 79, filled during a changeover with the incoming image's keys. -/
  spareKeys : Vector (Option (BitVec 384)) 8
  /-- Memory keys by slot in the key table of each memory controller, and fabric keys in the packet engines of X0 and X1
  (R501). -/
  memTables : Vector (Vector (Option (BitVec 512)) 64) 20
  pktTables : Vector (Vector (Option (BitVec 256)) 64) 2
  eph : Vector (Option Ephemeral) 64
  devEph : Option Ephemeral
  meas : Vector (BitVec 384) 6
  sessions : Vector (Option SpdmSession) 4
  mgmtHigh : AMap Nat (BitVec 64)
  mgmtSent : BitVec 64
  tdisp : Vector Tdisp 64
  ide : Vector (Option IdeStream) 64
  /-- Virtual functions whose BAR2 an interface that left RUN has closed (R510). -/
  closed : BitVec 64
  nonce : BitVec 256
  debug : Option DebugSession
  d2 : Vector (Option (BitVec 64)) 64
  deriving DecidableEq, Repr

/-! ### Power, reset, module -/

/-- A unit that takes power tokens (R520). -/
inductive TokenUnit where
  | matrix (eng : Fin 68)
  | vector (ve : Fin 64)
  deriving DecidableEq, Repr

/-- Modes of the device's power: running (P0 or P1), P2, P3, P4 (R518). -/
inductive PowerMode where
  | run
  | hold
  | rest
  | off
  deriving DecidableEq, Repr

/-- The power manager (R518 to R525). -/
structure Power where
  mode : PowerMode
  /-- Divisor: 0 is ÷6, 1 is ÷8, 2 is ÷12. -/
  aclk : BitVec 2
  /-- A decided divisor that waits for the pass boundary (R523). -/
  pending : Option (BitVec 2)
  inputW : BitVec 16
  floorW : BitVec 16
  budget : BitVec 16
  holders : List (TokenUnit × Nat)
  waiting : List TokenUnit
  granted : Nat
  returned : Nat
  /-- Consecutive decisions that called for a smaller divisor (R522). -/
  lowerCalls : Nat
  hotDies : BitVec 4
  /-- Global time since which the input has exceeded 1.05 × limit_w (R522). -/
  overSince : Option Nat
  /-- Release stopped by a power command under way (R527). -/
  stopping : Bool
  /-- Steps of the entry into P3 that have been made, while it runs, and whether a wake came meanwhile (R528, R529). -/
  entry : Option Nat
  wake : Bool
  /-- The Activation Store slice that the shutdown self-test has saved (R638): its cells, by address. -/
  slice : Option (List Host.Cell)
  deriving DecidableEq, Repr

/-- Where the reset controller stands (R587, R597 to R599, R606). -/
inductive BootPhase where
  | running
  /-- RST_N asserted, or a release that waits for REFCLK or PWRGD. -/
  | held
  /-- A boot from PCIe waits for its image; the minor PF0 negotiated with the loader. -/
  | loader
  | hold (cause : BitVec 4)
  | warm
  | thermal
  | off
  deriving DecidableEq, Repr

/-- A reset of a function that comes while a warm reset runs and acts after it (R590). -/
inductive LateReset where
  | vf (slot : Fin 64)
  | pf0
  | hot
  deriving DecidableEq, Repr

/-- Reset controller, strap and pins (R583 to R601). -/
structure ResetSt where
  phase : BootPhase
  profile : Fin 16
  rstLow : Bool
  wrstLow : Bool
  refclkOk : Bool
  /-- Time at which a DEV_RESET starts its reset. -/
  devResetAt : Option Nat
  lastCause : BitVec 4
  bootPcie : Bool
  /-- Resets of functions that wait for the end of a warm reset, in the order in which they came (R590). -/
  late : List LateReset
  /-- Time on REFCLK in ticks, when RST_N was asserted, and the option-loading restarts since the count was cleared (R598,
  R599). -/
  refTicks : Nat
  rstSince : Nat
  restarts : List Nat
  deriving DecidableEq, Repr

/-- The module's input and sideband port (R646 to R655). -/
structure ModuleSt where
  vinMv : Nat
  vinValid : Bool
  pwrgd : Bool
  pinW : BitVec 16
  tempC : Byte
  alert : Byte
  alertMask : Byte
  currentTrip : Bool
  underWarn : Bool
  deriving DecidableEq, Repr

end Sys2Proof.Machine
end

