-- ==== Sys2Proof/Machine/TypesFabric.lean ====
section
/-! DEFINITION. Parts of the state: the flows of the transport (spec/10_fabric_transport.md) and the
ports (spec/11_ports_discovery_routing.md). -/

namespace Sys2Proof.Machine

/-- Where the answer of a request goes. -/
inductive ReqDest where
  | none
  /-- LOAD data lands at a job virtual address. -/
  | land (va : Nat)
  /-- LOAD data lands in a retained entry: descriptor address, part number. -/
  | entry (addr part : Nat)
  /-- The old value of an ATOMIC is written at a job virtual address. -/
  | old (va : Nat)
  deriving DecidableEq, Repr

/-- One request of a flow at its source. -/
structure TxReq where
  opcode : Byte
  sub : BitVec 4
  vl : BitVec 3
  va : BitVec 48
  ctr : BitVec 16
  sig : Bool
  fin : Bool
  len : Nat
  payload : List Byte
  /-- Where a retransmission reads the payload again (R353). -/
  source : Option Nat
  die : Fin 4
  task : Option TaskRef
  /-- Position in the task's order of issue. -/
  pos : Nat
  dest : ReqDest
  deriving DecidableEq, Repr

/-- An unanswered request (R337, R365, R369): its path is 4 while it has had none, and `sent` tells whether a packet of it
was sent. `charge` is the path whose transmissions it is making, which a replacement path may carry, `onPath` how many of
them it has made, and `spent` the paths that have had theirs. `txPaths` lists the paths of its transmissions by their try. -/
structure Outstanding where
  seq : BitVec 32
  req : TxReq
  tryN : Nat
  path : Nat
  charge : Nat
  onPath : Nat
  spent : List Nat
  txPaths : AMap Nat Nat
  sent : Bool
  lastTx : Nat
  busyCount : Nat
  busySince : Nat
  busyUntil : Option Nat
  deriving DecidableEq, Repr

/-- The flow state with one peer, both directions (R339). -/
structure Flow where
  txNext : BitVec 32
  out : List Outstanding
  waiting : List TxReq
  rxW : BitVec 32
  disposed : List (BitVec 32)
  unnoted : List (BitVec 32)
  /-- Sequence numbers of the ATOMICs among the latest 4,096 requests sent. -/
  atomics : List (BitVec 32)
  /-- Sequence numbers of answers received that the next ACK notes. -/
  notes : List (BitVec 32)
  /-- I/O die at which the last packet of the peer arrived, and its ECN mark to echo. -/
  ioDie : Bool
  ceEcho : Bool
  ackDue : Bool
  deriving DecidableEq, Repr

/-- Key of a reply cache entry (R366). -/
structure CacheKey where
  slot : Fin 64
  peer : BitVec 18
  seq : BitVec 32
  deriving DecidableEq, Repr

/-- Answer kept in the reply cache: an old value, or a refusal code. -/
inductive CachedAnswer where
  | old (v : BitVec 64)
  | refuse (code : Byte)
  deriving DecidableEq, Repr

/-- A reply cache entry. -/
structure CacheEntry where
  ans : CachedAnswer
  sentAt : Nat
  deriving DecidableEq, Repr

/-- Where an accepted request acts: its address in the job, for an ACCUMULATE the buffer and the byte of
its plane, and the number of the window that admitted it (R357, R360). -/
structure Place where
  va : Nat
  buf : Nat
  off : Nat
  win : Nat
  deriving DecidableEq, Repr

/-- A held fin request (R362), with what its checks found. -/
structure Held where
  opcode : Byte
  arr : Arrival
  place : Place
  since : Nat
  deriving DecidableEq, Repr

/-- Counters of OBJ_JOB_VMT (R374). -/
structure VmtCounts where
  unreachable : BitVec 32
  stale : BitVec 32
  busy : BitVec 32
  refusedIn : BitVec 32
  refusedOut : BitVec 32
  dup : BitVec 32
  retransmits : BitVec 32
  pathSwitches : BitVec 32
  deriving DecidableEq, Repr

/-- The transport state of a job. -/
structure JobVmt where
  flows : AMap (BitVec 18) Flow
  counts : VmtCounts
  txc : BitVec 64
  jobId : Option (BitVec 20)
  reported : List (BitVec 18)
  deriving DecidableEq, Repr

/-- Port states (R391, in the order of R392's encoding). -/
inductive PortState where
  | disabled
  | down
  | training
  | discovering
  | up
  | demoted
  | quarantined
  | damped
  deriving DecidableEq, Repr

/-- A lane swap in progress (R409). -/
structure Swap where
  pos : BitVec 3
  back : Bool
  accepted : Bool
  marker : Nat
  deadline : Nat
  deriving DecidableEq, Repr

/-- Kinds of frames other than VMT that the device sends: DISC (R388), LINKCTL (R409), CREDIT (R401), MGMT (R370, R511),
LLDP (R387), Neighbor Advertisements (R383), PFC (R403) and time messages (R457). -/
inductive FrameKind where
  | hello
  | proof
  | swap
  | accept
  | credit
  | mgmtReply
  | unreachable
  | lldp
  | advert
  | pfc
  | sync
  | followUp
  | announce
  | pdelayReq
  | pdelayResp
  | pdelayRespFollowUp
  | delayReq
  deriving DecidableEq, Repr

/-- What a frame carries behind its shim: a packet of the device's own for a job slot, which is stamped and sealed when its
transmission starts (R340, R460); a packet that the device relays as it came; or another content, with the node and the path
that it goes to where it goes to a node. -/
inductive FrameBody where
  | own (slot : Fin 64) (opcode : Byte) (pkt : Packet)
  | vmt (opcode : Byte) (pkt : Packet)
  | other (kind : FrameKind) (data : List Nat) (dst : BitVec 18) (path : Nat)
  deriving DecidableEq, Repr

/-- A frame that waits at a port for credits or for its pause to end. -/
structure QueuedFrame where
  shim : Shim
  body : FrameBody
  bytes : Nat
  /-- Receive credits that the frame holds while it waits: port, index and number. -/
  held : Option (Fin 32 × Fin 16 × Nat)
  /-- Whether it ends with an FCS that cannot match (R398). -/
  badFcs : Bool
  deriving DecidableEq, Repr

/-- A port and its partner. -/
structure Port where
  st : PortState
  reason : BitVec 4
  peerKey : BitVec 64
  peerKeyFull : List Byte
  peerNode : BitVec 18
  peerValid : Bool
  peerPort : BitVec 5
  peerMac : BitVec 48
  authFail : BitVec 16
  flaps : BitVec 16
  stalls : BitVec 16
  penalty : Nat
  penaltyAt : Nat
  subValid : Bool
  subPos : BitVec 3
  subLane : BitVec 6
  swap : Option Swap
  /-- HELLO received in this discovery, HELLO as last sent, our nonce and ephemeral scalar, HELLOs sent, start time. -/
  hello : Option Hello
  helloSent : List Byte
  nonce : BitVec 256
  eph : BitVec 384
  tries : Nat
  since : Nat
  linkKey : Option (BitVec 256)
  lldp : List Byte
  /-- Times of the control frames accepted in the last second, and of the tag failures of the last millisecond. -/
  ctlTimes : List Nat
  authTimes : List Nat
  queue : List QueuedFrame
  /-- Turn of the weighted round robin among VL1, VL3, VL4 and VL5, and frames left to it (R399). -/
  rrTurn : Fin 4
  rrLeft : Nat
  /-- Credits: sent and returned, per virtual lane and class (index 2·vl + class). -/
  credSent : Vector (BitVec 32) 16
  credBack : Vector (BitVec 32) 16
  /-- Credits of frames received, and freed. -/
  credHeld : Vector (BitVec 32) 16
  credFreed : Vector (BitVec 32) 16
  /-- Credits of every frame that arrived, those of dropped frames among them (R404). -/
  credIn : Vector (BitVec 32) 16
  paused : BitVec 8
  /-- UPLINK: bytes that received frames hold in the buffer, per virtual lane, and the priorities that the port has paused
  (R403). -/
  rxFill : Vector Nat 8
  pausing : BitVec 8
  /-- Peer delay of the time protocol, in ticks of 2^-16. -/
  pathDelay : Int
  delaySent : Option (BitVec 16 × Int)
  /-- After a Pdelay_Resp, until its Follow_Up: the sequence, and arrival less request less turnaround so
  far, in ticks of 2^-16. -/
  delayResp : Option (BitVec 16 × Int)
  deriving DecidableEq, Repr

/-- The route tables of the I/O dies (R393) and the congestion penalties (R395). -/
structure Routes where
  x0 : AMap Nat (BitVec 128)
  x1 : AMap Nat (BitVec 128)
  /-- Keyed by (X1?, node, path). -/
  congestion : AMap (Bool × Nat × Nat) Nat
  deriving DecidableEq, Repr

end Sys2Proof.Machine
end

