-- ==== Sys2Proof/Machine/TypesHost.lean ====
section
/-! DEFINITION. Parts of the state: the host interface, the Cox's mailboxes and firmware objects
(spec/16_host_mailbox.md), and what the block sends outside. -/

namespace Sys2Proof.Machine

/-- What BAR0 of a function holds, and the version the function negotiated (R542 to R556). -/
structure HostFn where
  /-- Command slots 0 to 15, 256 bytes each as a little-endian number. -/
  cmd : Vector (BitVec 2048) 16
  /-- Reply slots 0 to 15. -/
  reply : Vector (BitVec 2048) 16
  busy : BitVec 16
  irq : BitVec 16
  irqMask : BitVec 16
  /-- MB_ERR[31:16] and MB_ERR[15:0]. -/
  dbIgnored : BitVec 16
  rsvWrites : BitVec 16
  intCause : BitVec 32
  intMask : BitVec 32
  /-- MSI-X table of 16-byte entries and the pending bits. -/
  msix : Vector (BitVec 128) 6
  msixPending : BitVec 6
  /-- Negotiated minor of major 5, when one is. -/
  version : Option (BitVec 8)
  deriving DecidableEq, Repr

/-- A firmware object instance: its object ID, its owner (0 for device scope, `n + 1` for job slot
`n`) and its sub-index. -/
structure ObjKey where
  id : BitVec 16
  owner : Fin 65
  sub : BitVec 16
  deriving DecidableEq, Repr

/-- The stored (RW) bits of an instance and its generation (R563). -/
structure ObjInst where
  bits : Nat
  gen : BitVec 32
  deriving DecidableEq, Repr

/-- Background work of a command that has replied ACCEPTED (R552). -/
inductive BgWork where
  | pause (slot : Fin 64)
  | free (slot : Fin 64)
  | revoke (slot : Fin 64)
  /-- A lane swap that LANE started (R409). -/
  | lane (port : Fin 32)
  /-- A fence that ME_FENCE asked for (R118), and the test of a returned engine (R611). -/
  | fence (eng : Fin 68)
  | engineTest (eng : Fin 68)
  | fwCommit
  /-- PWR_SET HOLD, or OFF while it waits for running work: the target and the end of wait_ms. -/
  | power (target : BitVec 2) (deadline : Nat)
  | changeover
  /-- Records sampled and sent: how the DMA went, bytes, records, local records that do not balance (R626). -/
  | tally (status : BitVec 8) (bytes count broken : Nat)
  /-- The entry into P3 (R528), until its reply; and the shutdown self-test (R638), with the step that runs next. -/
  | rest
  | shutdown (step : Nat)
  /-- ROUTE_LOAD while its entries are replaced in ascending node order (R570): entries, first node, how many, the I/O dies
  and how many are replaced. -/
  | routes (bulk first n dies done : Nat)
  /-- A SET of a window whose held requests were checked against the old entry (R359): it has no ACCEPTED
  reply. -/
  | window (slot : Fin 64) (sub : BitVec 16)
  /-- The whole effect was made when the command was accepted. -/
  | made
  deriving DecidableEq, Repr

/-- A command marked A between its ACCEPTED and its final reply. `mgmt` is the port and the source of
a command that came in a MGMT frame (R511). -/
structure BgCmd where
  fn : Fin 65
  mb : Fin 16
  seq : BitVec 16
  opcode : BitVec 16
  handle : BitVec 16
  indLen : Nat
  indAddr : BitVec 64
  payload : Nat
  dma : IndBuf
  mgmt : Option (Fin 32 × BitVec 18)
  work : BgWork
  deriving DecidableEq, Repr

/-- A doorbell bit latched during a changeover (R575). -/
structure Latched where
  fn : Fin 65
  mb : Fin 16
  dma : IndBuf
  deriving DecidableEq, Repr

/-- An SPDM, IDE_KM or TDISP request that waits for a changeover (R577). -/
inductive SpdmReq where
  | plain (src : SpdmPort) (code : Byte) (session : Fin 4) (msg : List Byte)
  | ide (session : Fin 4) (slot : Fin 64) (activate : Bool) (key : BitVec 256)
  | tdisp (session : Fin 4) (slot : Fin 64) (req : TdispReq)
  deriving DecidableEq, Repr

/-- Phase of a live changeover (R575). -/
inductive ChangePhase where
  | quiesce
  | incoming
  deriving DecidableEq, Repr

/-- A changeover in progress. -/
structure Changeover where
  phase : ChangePhase
  deadline : Nat
  latched : List Latched
  /-- Accepted MGMT frames that wait, at most 64, and requests on DOE. -/
  mgmt : List (Fin 32 × MgmtFrame)
  spdm : List SpdmReq
  deriving DecidableEq, Repr

/-- A flash slot of the Cox image, or the place of a boot from PCIe (R573, R606): the image it holds, the
bytes of a load under way and its size, and whether the image in it is staged. -/
structure FlashSlot where
  image : FlashImage
  bytes : List Byte
  loadTotal : Nat
  loading : Bool
  staged : Bool
  deriving DecidableEq, Repr

/-- The Cox: running commands, changeover and images. -/
structure Cox where
  running : List BgCmd
  change : Option Changeover
  /-- The image the device runs, and the flash slot it was booted from. -/
  image : FlashImage
  bootSlot : Bool
  flash : Vector FlashSlot 2
  /-- The image that the loader of a boot from PCIe takes. -/
  reserve : FlashSlot
  /-- Whether the Cox takes commands (it runs, outside resets, P3 and P4). -/
  alive : Bool
  /-- Whether a D3 session holds the Cox halted (R530), and the doorbells that were rung meanwhile. -/
  halted : Bool
  rung : List Latched
  deriving DecidableEq, Repr

/-- How a read of BAR2 is answered: with data, poisoned or not, with Completer Abort (R544), or as an Unsupported
Request (R509). -/
inductive Completion where
  | data (bytes : List Byte) (poison : Bool)
  | abort
  | unsupported
  deriving DecidableEq, Repr

/-- What the block sends outside, in the order in which it sends it. -/
inductive OutEvent where
  /-- A VMT frame, its packet as it travels; and whether its FCS matches (R398). -/
  | vmt (port : Fin 32) (hdr : FrameHdr) (shim : Shim) (opcode : Byte) (pkt : Packet) (fcsOk : Bool)
  /-- A frame of another kind, with the fields of its content. -/
  | frame (port : Fin 32) (hdr : FrameHdr) (kind : FrameKind) (data : List Nat)
  /-- An interrupt and a DMA write of a function, and whether they travel on its IDE stream (R509). -/
  | msix (fn : Fin 65) (vector : Nat) (ide : Bool)
  | dmaWrite (fn : Fin 65) (addr : BitVec 64) (data : List Byte) (ide : Bool)
  | bar2 (slot : Fin 64) (reply : Completion)
  | memory (data : List Byte) (poison : Bool)
  | spdm (src : SpdmPort) (data : List Byte)
  | smbus (data : List Byte)
  | jtag (ir : Byte) (data : Nat)
  deriving DecidableEq, Repr

end Sys2Proof.Machine
end

