-- ==== Sys2Proof/Machine/TypesTask.lean ====
section
/-! DEFINITION. Parts of the state: task tables, rings, contexts and rigger cores
(spec/05_tasks_stroke_riggers.md). -/

namespace Sys2Proof.Machine

/-- Requests of a task that are not yet answered, and the failure whose request came earliest
(R352): its position in the task's order of issue and the status. -/
structure Track where
  left : Nat
  issued : Nat
  fail : Option (Nat × BitVec 8)
  deriving DecidableEq, Repr

/-- An offer of an assignment (R221): token, slot, candidate number and expert. -/
structure Offer where
  token : Nat
  slot : Nat
  cand : Nat
  expert : Nat
  deriving DecidableEq, Repr

/-- How an assignment ended (R220): its own expert, and its entry of plane AS. -/
structure Assign where
  token : Nat
  slot : Nat
  own : Nat
  row : Nat
  cand : Nat
  round : Nat
  status : Nat
  expert : Nat
  deriving DecidableEq, Repr

/-- An expert of the endpoint during a DISPATCH (R221, R234). -/
structure ExLocal where
  gid : Nat
  lnum : Nat
  room : Nat
  next : Nat
  routed : Nat
  refused : Nat
  movedIn : Nat
  dropped : Nat
  moved : Nat
  deriving DecidableEq, Repr

/-- A running token exchange: its phase (0 counts awaited, 1 grants awaited, 2 closing counts awaited,
3 rows), the round, the endpoint's offers of the round and its ended assignments, the next candidate
of each token, its experts, the experts known to be full and the rows sent. -/
structure ExchSt where
  phase : Nat
  round : Nat
  offers : List Offer
  ended : List Assign
  ptr : AMap Nat Nat
  locals : List ExLocal
  full : List Nat
  rows : Nat
  deriving DecidableEq, Repr

/-- A message of a token exchange that has arrived whole (R228, R229): a count message, a grant
message or, after the last round, a closing count message. `shape` holds the values of its sender's descriptor that every
member shares (R225). -/
structure ExMsg where
  exch : Nat
  seq : Nat
  round : Nat
  src : Nat
  grant : Bool
  shape : Nat
  vals : List (Nat × Nat)
  deriving DecidableEq, Repr

/-- What a RUNNING task is doing. -/
inductive Run where
  | idle
  /-- Matrix task (R82): the next unit in unit order, finished units, all units, the first units of
  the groups that were returned (R119, R121), and the fault with which the units that had not started ended (R102). -/
  | matrix (next done total : Nat) (back : List Nat) (fail : Option (BitVec 8 × Nat))
  /-- Vector kernel (R133): instances started and ended, the scalars read at release, and the
  scalars written back by the ended instances. -/
  | vector (next done total : Nat) (cs : List (BitVec 64)) (back : List (Nat × BitVec 64))
  /-- Copy task: its requests; a FENCE lists the flows and last sequence numbers it covers. -/
  | copy (t : Track)
  | fence (covered : List (Fin 64 × BitVec 18 × BitVec 32))
  /-- Collective step. -/
  | coll (t : Track) (stage : Nat) (aux : List Nat)
  /-- Token exchange. -/
  | exch (t : Track) (x : ExchSt)
  | wait (ctr : Nat) (threshold : BitVec 32) (deadline : Option Nat)
  | routine
  /-- A rigger program: the core it runs on, once it has one. -/
  | rigger (r : Option (Fin 64))
  deriving DecidableEq, Repr

/-- State of a task table entry (R173). -/
inductive EState where
  | free (early : Nat)
  | waiting (count : Nat)
  | ready (stamp : Nat)
  | running
  | faulted
  deriving DecidableEq, Repr

/-- One entry of a die's task table, within a job's quota: its next generation, its state and, while
it is occupied, its descriptor (R172 to R174). -/
structure Entry where
  next : BitVec 6
  st : EState
  desc : Nat
  run : Run
  /-- Number of the watch record that was open when the task was released (R165). -/
  watchRec : Option Nat
  /-- Records that release read, by job address (R189). -/
  caps : AMap Nat Nat
  /-- Retained entries that the task reads, by descriptor address (R302). -/
  reads : List Nat
  /-- When the task became READY, kept while it runs: a matrix task competes for engines by it (R190, R191). -/
  stamp : Nat := 0
  deriving DecidableEq, Repr

/-- State of a barrier tag (R193). -/
inductive TagState where
  | idle
  | fwd
  | sealed
  | bwd
  deriving DecidableEq, Repr

/-- One barrier tag of a job: state, live FWD and BWD tasks, seals. -/
structure Tag where
  st : TagState
  liveF : Nat
  liveB : Nat
  seals : Nat
  deriving DecidableEq, Repr

/-- What the stroke core context of a job runs or will run: the routine of a ROUTINE task, or the
recompute routine for a held task and the absent entry it names (R198, R205). -/
inductive RoutineJob where
  | task (index : Nat)
  | recompute (index : Nat) (gen : BitVec 6) (entry : Nat)
  deriving DecidableEq, Repr

/-- Registers of a core that runs job code. -/
structure CoreRegs where
  x : Vector (BitVec 64) 32
  pc : BitVec 64
  /-- Address held by LR, when a reservation is held. -/
  resv : Option Nat
  /-- Whether a debug session holds the core halted (R530). -/
  halted : Bool
  deriving DecidableEq, Repr

/-- A job on one die: its task table entries, its rings, its stroke core context and its scalars. -/
structure JobDie where
  entries : AMap Nat Entry
  sqTail : BitVec 32
  sqHead : BitVec 32
  evqTail : BitVec 32
  evqHead : BitVec 32
  evqLost : BitVec 16
  lostSince : BitVec 16
  /-- Whether the event queue's vector may fire (R545). -/
  evqArmed : Bool
  /-- Executor time used, in ticks (R191), and since when the Copy Engine and the Token Exchange
  Engine of the die serve the job. -/
  use : Nat
  copySince : Option Nat
  exchSince : Option Nat
  regs : CoreRegs
  routine : Option RoutineJob
  budget : Nat
  queue : List RoutineJob
  /-- Messages of token exchanges that have arrived (R229). -/
  msgs : List ExMsg
  /-- The DISPATCH that last started under each exch_id, with what its release read: placement and arrays of the exchange
  until its RCOMBINE (R240). -/
  exchanges : AMap Nat Entry
  cs : Vector (BitVec 64) 64
  deriving DecidableEq, Repr

/-- The machinery of a job's tasks. -/
structure JobTasks where
  dies : Vector JobDie 4
  tags : Vector Tag 64
  deriving DecidableEq, Repr

/-- A rigger core (R206). -/
structure Rigger where
  regs : CoreRegs
  f : Vector (BitVec 32) 32
  fcsr : BitVec 8
  conv : BitVec 32
  /-- Scratch bytes that are not 0. -/
  scratch : AMap Nat Byte
  /-- Job slot whose contents the core holds, and the task it runs. -/
  slot : Option (Fin 64)
  task : Option TaskRef
  since : Nat
  /-- Cycles the program may still run. -/
  budget : Nat
  deriving DecidableEq, Repr

end Sys2Proof.Machine
end

