-- ==== Sys2Proof/Machine/TypesUnit.lean ====
section
/-! DEFINITION. Parts of the state: matrix engines (spec/03_matrix_engines.md), vector engines and
the watch (spec/04_vector_engines.md), retained entries (spec/08_memory.md) and update counts
(spec/09_update_in_stack.md). -/

namespace Sys2Proof.Machine

/-! ### Matrix engines -/

/-- One block of an operand as the feed hands it to the array (R30, R59, R79): the exponent, the 8-bit elements of
one piece and, on the DK4 path, the values. -/
structure FedBlock where
  e : Nat
  q : List Int
  vals : List Val
  deriving DecidableEq, Repr

/-- A tile buffer that is wholly loaded (R77): which of the unit's loads it holds, and the stationary tile of B as
columns of blocks along the reduction axis (R76). -/
structure TileBuf where
  load : Nat
  cols : List (List FedBlock)
  deriving DecidableEq, Repr

/-- A work unit that an engine holds, and what the engine holds for it: its task, its number in unit order, the K tiles
that it loads and passes (R111), the loads and the passes made, the tile buffers (R77), its accumulator bank in
row-major order (R81), whether its passes have ended, whether it waits for the other K parts (R101), whether it is a
re-run (R117), the state of its paired instance (0 not started, 1 running, 2 ended) and the order table entries read
at its start (R259). -/
structure MatUnit where
  task : TaskRef
  unit : Nat
  tiles : List Nat
  loaded : Nat
  passes : Nat
  bufs : List TileBuf
  bank : List EA40
  ended : Bool
  waitParts : Bool
  rerun : Bool
  pair : Nat
  ents : List Nat
  deriving DecidableEq, Repr

/-- A physical matrix engine: its health entry (R123), the slot whose task it runs, the units that it holds, at most one
for each of its two banks, of which only the last may still make passes (R81), a fence that waits for the end of its
units (R118), whether the test of TESTING is that of a returned engine (R611), the logical number that an engine under
test stands in for (R119), since when it works for the slot, and the task that it is bound to until that task ends (R22). -/
structure Engine where
  logical : Byte
  st : BitVec 4
  err : Byte
  slot : Option (Fin 64)
  units : List MatUnit
  fence : Bool
  returned : Bool
  standIn : Option Nat
  since : Nat
  bound : Option TaskRef
  deriving DecidableEq, Repr

/-! ### Vector engines -/

/-- The values of a tile register: 2,048 lanes in row-major order (R126). -/
abbrev Tile := List (BitVec 32)

/-- A running LOOP (R138): instructions left of the body, passes left, first instruction and
length. -/
structure LoopSt where
  start : Nat
  len : Nat
  left : Nat
  deriving DecidableEq, Repr

/-- An instance on a vector engine (R133, R151). -/
structure VecInst where
  task : TaskRef
  instance_ : Nat
  /-- Address of the first instruction, number of instructions, index of the next one. -/
  base : Nat
  count : Nat
  pc : Nat
  loop : Option LoopSt
  cs : Vector (BitVec 64) 64
  /-- Paired instance: unit, first landing tile, landing tiles, groups landed and released. -/
  paired : Bool
  unit : Nat
  landBase : Nat
  landCnt : Nat
  landed : Nat
  released : Nat
  groups : Nat
  /-- Output rows of the unit that still wait to land, as binary32 rows of 256. -/
  outRows : List (List (BitVec 32))
  /-- The unit's passes have ended, so its rows can land. -/
  drained : Bool
  /-- Array descriptors read so far, by the cs value that named them (R141). -/
  descs : AMap Nat Nat
  /-- The instance waits for its watch to close (R166). -/
  closing : Bool
  closeCs : BitVec 6
  deriving DecidableEq, Repr

/-- A job function table (R157, R158). -/
structure FuncTable where
  words : List (BitVec 32)
  deriving DecidableEq, Repr

/-- A vector engine: registers that are not 0, the slot whose data it may hold, its instance and the task that it is bound to
until that task ends (R22). -/
structure VecEng where
  tiles : AMap Nat Tile
  masks : AMap Nat (BitVec 2048)
  /-- Top-k state: for each of 32 rows 16 pairs of score and index (R160). -/
  topk : List (List (BitVec 32 × BitVec 32))
  tables : AMap Nat FuncTable
  slot : Option (Fin 64)
  inst : Option VecInst
  since : Nat
  bound : Option TaskRef
  deriving DecidableEq, Repr

/-! ### Watch -/

/-- States of a job's watch (R166). -/
inductive WatchSt where
  | idle
  | opened
  | closing
  | held
  deriving DecidableEq, Repr

/-- A watch record (R170). -/
structure WatchRec where
  closeTime : Nat
  step : BitVec 64
  mean : BitVec 32
  var : BitVec 32
  loss : BitVec 32
  nonfinite : BitVec 32
  sat : BitVec 32
  accepted : BitVec 16
  dropped : BitVec 16
  lossReported : Bool
  lossNonfinite : Bool
  spike : Bool
  satFired : Bool
  nonfiniteFired : Bool
  verdict : BitVec 2
  raised : Bool
  deriving DecidableEq, Repr

/-- The watch of a job: state, number of the record that is open or was last opened, that record,
the between-steps tally, the running statistics, whether the last verdict dropped UPD tasks, the
local verdict of a HELD watch and the last closed record. -/
structure Watch where
  st : WatchSt
  recNo : Nat
  cur : WatchRec
  tally : Cnt
  n : Nat
  mu : BitVec 32
  var : BitVec 32
  dropping : Bool
  localV : BitVec 2
  last : WatchRec
  /-- Configuration taken at WOPEN (R163). -/
  cfg : Nat
  deriving DecidableEq, Repr

/-! ### Retained entries -/

/-- States of a live retained entry; an entry that is not listed is EMPTY (R302). -/
inductive EntrySt where
  | writing
  | held
  | spilled
  | absent
  deriving DecidableEq, Repr

/-- Where a tile of a retained entry stands in its pool (R300): job address, bytes and whether it is raw. -/
structure TilePlace where
  addr : Nat
  size : Nat
  raw : Bool
  deriving DecidableEq, Repr

/-- A retained entry (R295 to R302). -/
structure REntry where
  st : EntrySt
  gather : Bool
  spill : Bool
  /-- Stored tiles by (row tile, column tile). -/
  tiles : AMap (Nat × Nat) TilePlace
  /-- Pages of its pool that the entry holds, in the order in which it took them. -/
  pages : List Nat
  /-- Bytes left in the page that is being filled. -/
  room : Nat
  reads : Nat
  writer : Option TaskRef
  time : Nat
  /-- The entry's descriptor and its fallback array's, as its writer's release read them. -/
  desc : Nat
  fb : Nat
  deriving DecidableEq, Repr

/-- The retained entries of a job and the counters of OBJ_JOB_STASH (R298). -/
structure Stash where
  entries : AMap Nat REntry
  regathers : BitVec 32
  absentFound : BitVec 32
  spills : BitVec 32
  tilesDropped : BitVec 32
  entriesDropped : BitVec 32
  rawTiles : BitVec 32
  compTiles : BitVec 32
  stashPeak : BitVec 24
  stashUsed : BitVec 24
  gatherUsed : BitVec 24
  deriving DecidableEq, Repr

/-! ### Update counts -/

/-- OBJ_JOB_UPD (R334). -/
structure UpdCounts where
  sealedStep : BitVec 64
  sealedValid : Bool
  segsApplied : BitVec 32
  segsSkipped : BitVec 32
  subtilesSkipped : BitVec 32
  tagErrors : BitVec 32
  mastersNonfinite : BitVec 32
  mastersClipped : BitVec 32
  gradNonfinite : BitVec 32
  lifts : BitVec 32
  voteSat : BitVec 32
  late : BitVec 32
  deriving DecidableEq, Repr

/-- A segment claim (R328): job slot, address of the segment descriptor and the task that holds it. -/
structure Claim where
  slot : Fin 64
  header : Nat
  task : TaskRef
  deriving DecidableEq, Repr

/-! ### Buckets -/

/-- What the DK5 keeps of one half of a bucket that an INIT has opened, beside the status in job
memory (R420 to R425): its buffer's descriptor, the die that opened it, the CLOSE that waits and the
deadline of the first CLOSE. -/
structure BucketHalf where
  buf : Nat
  die : Fin 4
  closer : Option TaskRef
  deadline : Option Nat
  deriving DecidableEq, Repr

/-! ### Conservation totals -/

/-- Running totals of a job's promises that no other count holds (R623): requests, assignments, rows,
contributions, increments, and dependences per die. -/
structure Totals where
  reqSent : Nat
  reqApplied : Nat
  reqRefused : Nat
  reqFailed : Nat
  offered : Nat
  landed : Nat
  dropped : Nat
  rowsSent : Nat
  rowsLanded : Nat
  produced : Nat
  accumulated : Nat
  carried : Nat
  contribDropped : Nat
  increments : Nat
  signals : Nat
  depIn : Vector Nat 4
  depOut : Vector Nat 4
  /-- Contributions refused for want of a flow slot and counted as dropped, by source and sequence number: every later
  transmission of one is refused afresh (R339) and is no new operation (R432). -/
  noSlot : List (BitVec 18 × BitVec 32)
  deriving DecidableEq, Repr

end Sys2Proof.Machine
end

