-- ==== Sys2Proof/Machine/State.lean ====
section
/-! DEFINITION. The state of the block as plain data, its reset value, and the reasons a step can
stop. INVENTORY.md lists every piece with the rule that names it. -/

namespace Sys2Proof.Machine

/-- Job states (R558, in the order of the encoding). -/
inductive JobState where
  | empty
  | created
  | keyed
  | ready
  | running
  | draining
  | paused
  | torn
  | scrubbing
  deriving DecidableEq, Repr

/-- A job slot's control state and its memory (R557 to R561, R275, R288). -/
structure JobCtl where
  st : JobState
  incarnation : BitVec 10
  since : Nat
  tearCause : BitVec 4
  /-- Granted frames as runs (first, count), ascending and apart. -/
  grants : List (Nat × Nat)
  /-- Revoked frames that wait for their scrub (R569). -/
  revoking : List (Nat × Nat)
  /-- What the returns of the slot's instances to their reset values have added to every generation
  (R560, R563). -/
  genBase : BitVec 32
  pages : List Page
  asQuota : Vector Nat 4
  /-- Activation Store pages of the device that the job holds, per die: its activation pages in
  aperture order, and its stream cache pages. -/
  asAct : Vector (List Nat) 4
  asCache : Vector (List Nat) 4
  /-- Host accesses refused (R544, R509). -/
  hostErrors : Nat
  /-- Saturation and non-finite counts (R48). -/
  counts : Cnt
  trigger : Trigger
  streams : Vector Stream 4
  deriving DecidableEq, Repr

/-- One job slot. -/
structure Job where
  ctl : JobCtl
  tasks : JobTasks
  vmt : JobVmt
  stash : Stash
  watch : Watch
  upd : UpdCounts
  totals : Totals
  /-- Halves of buckets that an INIT has opened, by bucket descriptor and half (R423). -/
  buckets : AMap (Nat × Bool) BucketHalf
  /-- Byte ranges that STOREs of token exchanges have written and no operation has used yet (R241). -/
  landed : List (Nat × Nat)
  deriving DecidableEq, Repr

/-- What the device keeps for the transport beside the jobs (R362, R366, R368). -/
structure Fabric where
  ports : Vector Port 32
  routes : Routes
  cache : AMap CacheKey CacheEntry
  hold : List Held
  /-- Global time until which a lost reply cache makes duplicates STALE. -/
  staleUntil : Nat
  /-- VMT packets are accepted (R587). -/
  accepting : Bool
  portErr : Vector PortErr 32
  vmtErr : VmtErr
  deriving DecidableEq, Repr

/-- The stacks, the Activation Stores and what follows streams (R270 to R294). Memory is a list of
cells in canonical form, keyed by device physical address: strictly rising, and no cell of value 0,
which is what an unlisted address reads as (R283, R289). -/
structure Mem where
  cells : List Host.Cell
  sectors : AMap Nat SectorMeta
  /-- Activation Store words with a double-bit error, by address / 8. -/
  asBad : List Nat
  memStacks : Vector Stack 20
  prefetch : Vector (Vector (Option Prefetch) 64) 4
  misses : AMap StreamUser MissRun
  lines : List CacheLine
  deriving DecidableEq, Repr

/-- Time, traces and counters of the device (R452 to R477). -/
structure Clock where
  /-- Global time in ticks. -/
  now : Nat
  /-- Cycle counter of the dies (the four run together, R467). -/
  cycles : Nat
  t : TimeSt
  streams : Vector Stream 4
  pmu : Vector PmuCtr 32
  trigger : Trigger
  /-- Multiple of 2^30 ticks for which the last buoys were written (R466). -/
  buoys : Nat
  deriving DecidableEq, Repr

/-- Reasons a step stops with a fault: none of the block's commands does. -/
inductive Fault where
  /-- An access to an address outside the tables of the state: raised by no meaning; the model's
  operations answer what the spec gives such an access (safe). -/
  | badAddress
  deriving DecidableEq, Repr

/-- Reasons a command is refused by the model. -/
inductive Refusal where
  /-- The command's meaning has not been written (safe). -/
  | notModelled (mnemonic : String)
  /-- An IEEE 1149.1 instruction beyond IDCODE and BYPASS under D3 (R530): raised by no meaning, since TAP_INSTRUCTION takes
  what a code does from a constant of Config (safe). -/
  | testPortUnspecified
  deriving DecidableEq, Repr

/-- The state of the block. -/
structure State where
  /-- Commands that wait, first in first out. -/
  pending : List Instr
  host : Vector HostFn 65
  /-- NumVFs with VF Enable set; 0 while VF Enable is clear (R541). -/
  numVfs : Nat
  /-- Bytes of BAR2 of every virtual function: a power of two from 1 GiB to 256 TiB that configuration software chooses
  (R540). -/
  bar2Size : Nat
  cox : Cox
  objs : AMap ObjKey ObjInst
  jobs : Vector Job 64
  mem : Mem
  fabric : Fabric
  rigs : Vector Rigger 64
  engines : Vector Engine 68
  ves : Vector VecEng 64
  /-- Segment claims of UPDATE tasks (R328). -/
  claims : List Claim
  clock : Clock
  logs : Logs
  health : Health
  /-- The two copies of the health record in the boot flash (R640). -/
  healthFlash : Vector Health 2
  sec : Security
  power : Power
  /-- Calibration tables (R622). -/
  calib : Calib
  rst : ResetSt
  board : ModuleSt
  out : List OutEvent
  /-- Draws made of the free values of Config: the model's own field. -/
  fresh : Nat
  /-- Events that made a task READY so far: the model's own field, for the order of R190. -/
  stamps : Nat
  deriving DecidableEq, Repr

/-! ### Reset values -/

/-- BAR0 of a function after reset (R542). Each entry of the MSI-X table is masked, as in the PCIe standard whose layout
the table has (PRESUMED, notes/assumptions/4). -/
def HostFn.reset : HostFn :=
  { cmd := Vector.replicate 16 0, reply := Vector.replicate 16 0, busy := 0, irq := 0,
    irqMask := 0xFFFF, dbIgnored := 0, rsvWrites := 0, intCause := 0, intMask := 0xFFFFFFFF,
    msix := Vector.replicate 6 (1#128 <<< 96), msixPending := 0, version := none }

/-- No calibration table: the fused factory values (R622). -/
def CalibTables.factory : CalibTables := { serdes := [], sensor := [], monitor := [], strap := [], stackPhy := [] }
/-- The tables of the image with a digest (R622). -/
def CalibTables.ofImage (digest : BitVec 384) : CalibTables :=
  let t := Config.calibration digest
  { serdes := t 0, sensor := t 1, monitor := t 2, strap := t 3, stackPhy := t 4 }
/-- Calibration before an image has loaded any table. -/
def Calib.reset : Calib :=
  { loaded := CalibTables.factory, ports := Vector.replicate 32 [], sensor := [], monitor := [], strap := [], memStacks := Vector.replicate 20 [] }

/-- A flash image that is not there. -/
def FlashImage.none : FlashImage :=
  { valid := false, sigOk := false, svn := 0, version := 0, major := 0, minMinor := 0, maxMinor := 0,
    digest := 0, hashOk := false }

/-- The signed image a module ships with (R660), at interface version 5.2; its version, security
version and hash are the model's own values (DESIGN CHOICE, notes/assumptions/3). -/
def FlashImage.shipped : FlashImage :=
  { valid := true, sigOk := true, svn := 0, version := 0x0005000200000000, major := 5, minMinor := 0,
    maxMinor := 2, digest := 0, hashOk := true }

/-- A flash slot that holds an image and no load. -/
def FlashSlot.holding (i : FlashImage) : FlashSlot :=
  { image := i, bytes := [], loadTotal := 0, loading := false, staged := false }

/-- The Cox after boot from slot A. -/
def Cox.reset : Cox :=
  { running := [], change := none, image := FlashImage.shipped, bootSlot := false,
    flash := Vector.replicate 2 (FlashSlot.holding FlashImage.shipped), reserve := FlashSlot.holding FlashImage.none, alive := true, halted := false, rung := [] }

/-- Cleared core registers. -/
def CoreRegs.reset : CoreRegs := { x := Vector.replicate 32 0, pc := 0, resv := none, halted := false }

/-- A job on a die before it exists. -/
def JobDie.reset : JobDie :=
  { entries := [], sqTail := 0, sqHead := 0, evqTail := 0, evqHead := 0, evqLost := 0, lostSince := 0,
    evqArmed := true, use := 0, copySince := none, exchSince := none, regs := CoreRegs.reset, routine := none, budget := 0, queue := [], msgs := [], exchanges := [],
    cs := Vector.replicate 64 0 }

/-- An IDLE barrier tag. -/
def Tag.reset : Tag := { st := .idle, liveF := 0, liveB := 0, seals := 0 }

/-- Task machinery of a job slot after reset. -/
def JobTasks.reset : JobTasks :=
  { dies := Vector.replicate 4 JobDie.reset, tags := Vector.replicate 64 Tag.reset }

/-- Cleared counters of OBJ_JOB_VMT. -/
def VmtCounts.reset : VmtCounts :=
  { unreachable := 0, stale := 0, busy := 0, refusedIn := 0, refusedOut := 0, dup := 0,
    retransmits := 0, pathSwitches := 0 }

/-- Transport state of a job slot after reset. -/
def JobVmt.reset : JobVmt :=
  { flows := [], counts := VmtCounts.reset, txc := 0, jobId := none, reported := [] }

/-- A stream that is not enabled. -/
def Stream.reset : Stream := { wr := 0, lost := 0, lostBuoy := 0, needBuoy := true, queue := [] }

/-- A trigger that was never armed. -/
def Trigger.reset : Trigger :=
  { armed := false, late := false, unlocked := false, firedAt := 0, at_ := 0, action := 0 }

/-- An EMPTY job slot. -/
def JobCtl.reset : JobCtl :=
  { st := .empty, incarnation := 0, since := 0, tearCause := 0, grants := [], revoking := [], genBase := 0, pages := [],
    asQuota := Vector.replicate 4 0, asAct := Vector.replicate 4 [], asCache := Vector.replicate 4 [],
    hostErrors := 0, counts := Cnt.none, trigger := Trigger.reset,
    streams := Vector.replicate 4 Stream.reset }

/-- No retained entry. -/
def Stash.reset : Stash :=
  { entries := [], regathers := 0, absentFound := 0, spills := 0, tilesDropped := 0,
    entriesDropped := 0, rawTiles := 0, compTiles := 0, stashPeak := 0, stashUsed := 0, gatherUsed := 0 }

/-- An empty watch record (R170). -/
def WatchRec.reset : WatchRec :=
  { closeTime := 0, step := 0, mean := 0, var := 0, loss := 0, nonfinite := 0, sat := 0, accepted := 0,
    dropped := 0, lossReported := false, lossNonfinite := false, spike := false, satFired := false,
    nonfiniteFired := false, verdict := 0, raised := false }

/-- An IDLE watch with no statistics. -/
def Watch.reset : Watch :=
  { st := .idle, recNo := 0, cur := WatchRec.reset, tally := Cnt.none, n := 0, mu := 0, var := 0,
    dropping := false, localV := 0, last := WatchRec.reset, cfg := 0 }

/-- Cleared update counts. -/
def UpdCounts.reset : UpdCounts :=
  { sealedStep := 0, sealedValid := false, segsApplied := 0, segsSkipped := 0, subtilesSkipped := 0,
    tagErrors := 0, mastersNonfinite := 0, mastersClipped := 0, gradNonfinite := 0, lifts := 0,
    voteSat := 0, late := 0 }

/-- Totals at job creation. -/
def Totals.reset : Totals :=
  { reqSent := 0, reqApplied := 0, reqRefused := 0, reqFailed := 0, offered := 0, landed := 0,
    dropped := 0, rowsSent := 0, rowsLanded := 0, produced := 0, accumulated := 0, carried := 0,
    contribDropped := 0, increments := 0, signals := 0, depIn := Vector.replicate 4 0,
    depOut := Vector.replicate 4 0, noSlot := [] }

/-- A job slot after reset. -/
def Job.reset : Job :=
  { ctl := JobCtl.reset, tasks := JobTasks.reset, vmt := JobVmt.reset, stash := Stash.reset,
    watch := Watch.reset, upd := UpdCounts.reset, totals := Totals.reset, buckets := [], landed := [] }

/-- A port before anything has happened on it. -/
def Port.reset : Port :=
  { st := .disabled, reason := 0, peerKey := 0, peerKeyFull := [], peerNode := 0, peerValid := false,
    peerPort := 0, peerMac := 0, authFail := 0, flaps := 0, stalls := 0, penalty := 0, penaltyAt := 0,
    subValid := false, subPos := 0, subLane := 0, swap := none, hello := none, nonce := 0, eph := 0,
    helloSent := [], tries := 0, since := 0, linkKey := none, lldp := [], ctlTimes := [], authTimes := [],
    queue := [], rrTurn := 3, rrLeft := 0, credSent := Vector.replicate 16 0, credBack := Vector.replicate 16 0,
    credHeld := Vector.replicate 16 0, credFreed := Vector.replicate 16 0, credIn := Vector.replicate 16 0, paused := 0,
    rxFill := Vector.replicate 8 0, pausing := 0, pathDelay := 0,
    delaySent := none, delayResp := none }

/-- A port that the port map makes CREW, UPLINK or SPARE (R391). -/
def Port.down : Port := { Port.reset with st := .down }

/-- The ports after a boot with the map of profile 0, CREW16 (R602): P0 to P24 are in use. -/
def portsReset : Vector Port 32 := Vector.ofFn (fun (p : Fin 32) => if p.val ≤ 24 then Port.down else Port.reset)

/-- Cleared port counters. -/
def PortErr.reset : PortErr :=
  { fecCorrected := 0, fecUncorrectable := 0, framesRx := 0, framesTx := 0, dropped := 0 }

/-- Cleared receiver counters. -/
def VmtErr.reset : VmtErr :=
  { notMine := 0, badHdr := 0, noJob := 0, tagFail := 0, staleTime := 0, relayDrop := 0,
    tornDrop := 0, beyondWindow := 0, mgmtDrop := 0 }

/-- The transport of the device after boot. -/
def Fabric.reset : Fabric :=
  { ports := portsReset, routes := { x0 := [], x1 := [], congestion := [] }, cache := [], hold := [],
    staleUntil := 0, accepting := true, portErr := Vector.replicate 32 PortErr.reset,
    vmtErr := VmtErr.reset }

/-- A stack in service. -/
def Stack.reset : Stack :=
  { st := .ok, moved := 0, corrected := 0, poisoned := 0, tagMismatch := 0, patrols := 0,
    passCorrected := 0, calFails := [], malformed := 0, reported := false }

/-- Memory after the scrub of R585: every sector scrubbed, Activation Stores zeroed. -/
def Mem.reset : Mem :=
  { cells := [], sectors := [], asBad := [], memStacks := Vector.replicate 20 Stack.reset,
    prefetch := Vector.replicate 4 (Vector.replicate 64 none), misses := [], lines := [] }

/-- A rigger core with cleared registers and scratch. -/
def Rigger.reset : Rigger :=
  { regs := CoreRegs.reset, f := Vector.replicate 32 0, fcsr := 0, conv := 0, scratch := [],
    slot := none, task := none, since := 0, budget := 0 }

/-- A matrix engine with its health entry and no unit (R123). -/
def Engine.idle (logical : Byte) (st : BitVec 4) : Engine :=
  { logical := logical, st := st, err := 0, slot := none, units := [], fence := false, returned := false, standIn := none, since := 0, bound := none }

/-- The engines when no valid health record exists (R123): 0 to 63 ACTIVE under their own numbers,
the spares idle. -/
def enginesReset : Vector Engine 68 :=
  Vector.ofFn (fun (k : Fin 68) => if k.val < 64 then Engine.idle (BitVec.ofNat 8 k.val) 0 else Engine.idle 0xFF 1)

/-- A vector engine with cleared registers. -/
def VecEng.reset : VecEng :=
  { tiles := [], masks := [], topk := [], tables := [], slot := none, inst := none, since := 0, bound := none }

/-- A counter that is not lent and counts nothing (R468). -/
def PmuCtr.reset : PmuCtr :=
  { enable := false, event := 0, umask := 0, lent := false, slot := 0, count := 0, tally := 0,
    tallySat := false, snap := 0, frozen := false }

/-- Global time 0, UNSET (R453). -/
def Clock.reset : Clock :=
  { now := 0, cycles := 0,
    t := { st := .unset, offsetNs := 0, pathNs := 0, stepsRefused := 0, lockLosses := 0,
           msgsDropped := 0, lastSync := 0, sync := none, slew := 0, seq := 0, delaySent := none,
           syncDiff := 0 },
    streams := Vector.replicate 4 Stream.reset, pmu := Vector.replicate 32 PmuCtr.reset,
    trigger := Trigger.reset, buoys := 0 }

/-- Empty logs but for the RESET event of the power-on (R636). -/
def Logs.reset : Logs :=
  { first := [], ring := [], lost := 0, seq := 0, rsvWrites := 0, dpaAccesses := 0, ignored := 0,
    events := [{ time := 0, seq := 0, code := 0x01, slot := none, unit := 1, detail := 0 }],
    eventSeq := 1, overwritten := 0 }

/-- Engine entries of a fresh health record: engines 0 to 63 ACTIVE under their own numbers, the
spares idle (R123). -/
def healthEngines : List (Byte × BitVec 4) :=
  (List.range 64).map (fun k => (BitVec.ofNat 8 k, 0)) ++ List.replicate 4 (0xFF, 1)

/-- The fresh health record that the first boot writes when no copy is valid (R640). -/
def Health.reset : Health :=
  { valid := true, seq := 1, written := 0, me := healthEngines, memStacks := List.replicate 20 0,
    tempExcl := 0, holdCause := 0, resetCause := 1, stTime := 0, stRun := 0, stPass := 0,
    laneFail := 0, asSlice := 0, boots := 1, restarts := 0, clean := false, item7 := [] }

/-- A measurement register extended with data (R490). -/
def extendReg (m : BitVec 384) (data : List Byte) : BitVec 384 := Config.sha384 (leBytes 48 m.toNat ++ data)

/-- Measurement registers after a boot (R487, R490). What stands for the ROM version with the fuse
configuration and for the function tables is a constant of Config; the bytes of the rest are laid out
as the model chooses (DESIGN CHOICE, notes/assumptions/25). -/
def bootMeas (lifecycle : Nat) (image : BitVec 384) (profile source : Nat) : Vector (BitVec 384) 6 :=
  #v[extendReg 0 (leBytes 48 (Config.imageDigest 1).toNat ++ leBytes 1 lifecycle), extendReg 0 (leBytes 48 image.toNat),
     extendReg 0 (leBytes 1 profile ++ leBytes 1 source), extendReg 0 (leBytes 48 (Config.imageDigest 4).toNat), 0, 0]

/-- The Cox sealing key: from the device secret and measurement register 2 (R483). -/
def coxSeal (secret : BitVec 256) (reg2 : BitVec 384) : BitVec 384 := Config.sha384 (leBytes 32 secret.toNat ++ leBytes 48 reg2.toNat)

/-- The Umpire after the first boot of a module as it ships (R660): BLANK, rollback counter 0, D0. The secret is the
constant that manufacture has put into the fuses (DESIGN CHOICE, notes/assumptions/36). -/
def Security.reset : Security :=
  { lifecycle := .blank, deviceSecret := Config.deviceSecret, identity := some (Config.identityKey Config.deviceSecret),
    opKeyHash := none, lcRecord := [], serial := 0, moduleB := false, stepping := 1, rollback := 0, macBase := 0,
    opKey := none, jobKeys := Vector.replicate 64 none, mgmtKey := none, mgmtNext := none,
    coxKey := some (coxSeal Config.deviceSecret (bootMeas 0 0 0 0)[1]), spareKeys := Vector.replicate 8 none,
    memTables := Vector.replicate 20 (Vector.replicate 64 none), pktTables := Vector.replicate 2 (Vector.replicate 64 none), eph := Vector.replicate 64 none,
    devEph := none,
    meas := bootMeas 0 0 0 0,
    sessions := Vector.replicate 4 none, mgmtHigh := [], mgmtSent := 0,
    tdisp := Vector.replicate 64 .unlocked, ide := Vector.replicate 64 none, closed := 0,
    nonce := (Config.random 0).setWidth 256, debug := none, d2 := Vector.replicate 64 none }

/-- P0 with no token held (R525). -/
def Power.reset : Power :=
  { mode := .run, aclk := 0, pending := none, inputW := 0, floorW := 0, budget := 0, holders := [],
    waiting := [], granted := 0, returned := 0, lowerCalls := 0, hotDies := 0, overSince := none,
    stopping := false, entry := none, wake := false, slice := none }

/-- Boot completed from flash slot A with profile 0 and every pin inactive. -/
def ResetSt.reset : ResetSt :=
  { phase := .running, profile := 0, rstLow := false, wrstLow := false, refclkOk := true,
    devResetAt := none, lastCause := 1, bootPcie := false, late := [], refTicks := 0, rstSince := 0, restarts := [] }

/-- The module at its nominal input with PWRGD released (R652, R655). -/
def ModuleSt.reset : ModuleSt :=
  { vinMv := 54000, vinValid := true, pwrgd := true, pinW := 0, tempC := 0, alert := 0,
    alertMask := 0, currentTrip := false, underWarn := false }

/-- The block right after a power-on reset of a module as it ships, at the end of the cold release
(R587 step 11): profile 0, booted from flash slot A, mailboxes accept VERSION. -/
def State.reset : State :=
  { pending := [], host := Vector.replicate 65 HostFn.reset, numVfs := 0, bar2Size := 2 ^ 36, cox := Cox.reset, objs := [],
    jobs := Vector.replicate 64 Job.reset, mem := Mem.reset, fabric := Fabric.reset,
    rigs := Vector.replicate 64 Rigger.reset, engines := enginesReset,
    ves := Vector.replicate 64 VecEng.reset, claims := [], clock := Clock.reset, logs := Logs.reset,
    health := Health.reset, healthFlash := #v[Health.reset, { Health.reset with valid := false, seq := 0 }], sec := Security.reset, power := Power.reset,
    calib := { Calib.reset with loaded := CalibTables.ofImage FlashImage.shipped.digest }, rst := ResetSt.reset,
    board := ModuleSt.reset, out := [], fresh := 1, stamps := 0 }

end Sys2Proof.Machine
end

