-- ==== Sys2Proof/Machine/Descriptors.lean ====
section
/-! DEFINITION. Fields of task descriptors (spec/05_tasks_stroke_riggers.md R171 to R176), of the operand area of matrix
tasks (spec/03_matrix_engines.md R89 to R105) and of sparse operands (spec/07_sparse_operands.md R251, R254). -/

namespace Sys2Proof.Machine

/-! ### Descriptor fields (R174) -/

def dOvfBase (d : Nat) : Nat := fld d 511 464
def dOvfCount (d : Nat) : Nat := fld d 463 448
def dSucc (d k : Nat) : Nat := fld d (192 + 32 * k + 31) (192 + 32 * k)
def dDepCount (d : Nat) : Nat := fld d 191 176
def dGen (d : Nat) : BitVec 6 := BitVec.ofNat 6 (fld d 175 170)
def dIndex (d : Nat) : Nat := fld d 167 152
def dSlot (d : Nat) : Nat := fld d 149 144
def dTag (d : Nat) : Fin 64 := Fin.ofNat 64 (fld d 143 138)
def dPhase (d : Nat) : Nat := fld d 137 136
def dPrio (d : Nat) : Nat := fld d 135 132
def dOpcode (d : Nat) : Nat := fld d 131 128
def dSkip (d : Nat) : Bool := bitAt d 116
def dSeal (d : Nat) : Bool := bitAt d 115
def dFillable (d : Nat) : Bool := bitAt d 114
def dNotify (d : Nat) : Bool := bitAt d 113
def dCookie (d : Nat) : Nat := fld d 95 32
/-- 64-bit word `w` of a descriptor. -/
def dWord (d w : Nat) : Nat := fld d (64 * w + 63) (64 * w)

/-- RSV bits of the common area are 0 (R174). -/
def dRsvOk (d : Nat) : Bool :=
  fld d 169 168 == 0 && fld d 151 150 == 0 && fld d 127 117 == 0 && fld d 112 96 == 0 && fld d 31 0 == 0

/-- Kind of a successor entry, and whether its fixed bits are 0 (R176). -/
def succKind (x : Nat) : Nat := fld x 31 30
def succOk (x : Nat) : Bool :=
  match succKind x with
  | 0 => fld x 29 0 == 0
  | 1 => fld x 23 18 == 0
  | 2 => fld x 29 16 == 0
  | _ => false

/-- Operation and descriptor address of a collective step (R417). -/
def cOp (d : Nat) : Nat := fld d 899 896
def cDesc (d : Nat) : Nat := fld d 863 816

/-- Name of a task (R171). -/
def taskName (t : TaskRef) : Nat := t.die.val * 65536 + t.index.toNat

/-- Task reference of a name of a job. -/
def refOf (slot : Fin 64) (name : Nat) : TaskRef := ⟨slot, Fin.ofNat 4 (name / 65536), BitVec.ofNat 16 name⟩

/-- A record that the release of a task read, by its job address (R189). -/
def capOf (e : Entry) (k : Nat) : Nat := e.caps.getD k 0

/-! ### The operand area (R89, R90, R92, R104) -/

def mAcc (d : Nat) : Nat := fld d 991 928
def mSparse (d : Nat) : Bool := bitAt d 925
def mAccIn (d : Nat) : Bool := bitAt d 924
/-- Number of K parts, `s` of R100. -/
def mSplit (d : Nat) : Nat := fld d 923 920 + 1
def mEngMax (d : Nat) : Nat := fld d 916 912
/-- Scale exponent of the output writer. -/
def mShift (d : Nat) : Int := toSigned 8 (fld d 887 880)
def mKind1 (d : Nat) : Nat := fld d 867 866
def mKind0 (d : Nat) : Nat := fld d 865 864
def mK (d : Nat) : Nat := fld d 855 832
def mN (d : Nat) : Nat := fld d 823 800
def mM (d : Nat) : Nat := fld d 791 768
def mOut1 (d : Nat) : Nat := fld d 767 704
def mOut0 (d : Nat) : Nat := fld d 703 640
def mB (d : Nat) : Nat := fld d 639 576
def mA (d : Nat) : Nat := fld d 575 512
def mTable (d : Nat) : Nat := fld d 815 768
def mCount (d : Nat) : Nat := fld d 844 832

/-- Place of a grouped table among a task's captured records. -/
def tableKey (a : Nat) : Nat := 2 ^ 67 + a
/-- Entry `i` of a grouped table (R105). -/
def tableEntry (tab i : Nat) : Nat := fld tab (512 * i + 511) (512 * i)
def teSkip (e : Nat) : Bool := bitAt e 96
def teK (e : Nat) : Nat := fld e 95 72
def teN (e : Nat) : Nat := fld e 71 48
def teM (e : Nat) : Nat := fld e 47 24
def teTag (e : Nat) : Nat := fld e 23 0
def teO1Exp (e : Nat) : Nat := fld e 511 464
def teO1 (e : Nat) : Nat := fld e 463 416
def teO0Exp (e : Nat) : Nat := fld e 415 368
def teO0 (e : Nat) : Nat := fld e 367 320
def teBExp (e : Nat) : Nat := fld e 319 272
def teB (e : Nat) : Nat := fld e 271 224
def teAExp (e : Nat) : Nat := fld e 223 176
def teA (e : Nat) : Nat := fld e 175 128

/-- Fields of a sparse operand descriptor (R251) and of an order table entry (R254). -/
def spArr (d : Nat) : Nat := fld d 511 448
def spRecs (d : Nat) : Nat := fld d 432 416
def spMerge (d : Nat) : Nat := fld d 399 352
def spSolo (d : Nat) : Nat := fld d 336 320
def spMain (d : Nat) : Nat := fld d 295 272
def spOrd (d : Nat) : Nat := fld d 255 208
def orPidx (e : Nat) : Nat := fld e 127 112
def orCnt (e : Nat) : Nat := fld e 111 104
def orSlice (e : Nat) : Nat := fld e 103 96
def orHi (e : Nat) : Nat := fld e 82 64
def orLo (e : Nat) : Nat := fld e 50 32
def orRow (e : Nat) : Nat := fld e 23 0

end Sys2Proof.Machine
end

