-- ==== Sys2Proof/Machine/Ops.lean ====
section
/-! DEFINITION. Named operations over the state: lenses, logs and interrupts, firmware objects,
memory and job access. -/

namespace Sys2Proof.Machine

/-! ### Lenses -/

/-- Change one element of a vector. -/
def vmod {α : Type} {n : Nat} (v : Vector α n) (i : Fin n) (f : α → α) : Vector α n := v.set i (f v[i])

/-- Change one job slot. -/
def modJob (slot : Fin 64) (f : Job → Job) (s : State) : State := { s with jobs := vmod s.jobs slot f }

/-- Change a slot's control state. -/
def modCtl (slot : Fin 64) (f : JobCtl → JobCtl) (s : State) : State :=
  modJob slot (fun j => { j with ctl := f j.ctl }) s

/-- Change a slot's transport state. -/
def modVmt (slot : Fin 64) (f : JobVmt → JobVmt) (s : State) : State :=
  modJob slot (fun j => { j with vmt := f j.vmt }) s

/-- Change a slot's tasks. -/
def modTasks (slot : Fin 64) (f : JobTasks → JobTasks) (s : State) : State :=
  modJob slot (fun j => { j with tasks := f j.tasks }) s

/-- Change a slot on one die. -/
def modDie (slot : Fin 64) (die : Fin 4) (f : JobDie → JobDie) (s : State) : State :=
  modTasks slot (fun t => { t with dies := vmod t.dies die f }) s

/-- Change a function's BAR0. -/
def modHost (fn : Fin 65) (f : HostFn → HostFn) (s : State) : State := { s with host := vmod s.host fn f }

/-- Change a port. -/
def modPort (p : Fin 32) (f : Port → Port) (s : State) : State :=
  { s with fabric := { s.fabric with ports := vmod s.fabric.ports p f } }

/-- Change a port's counters. -/
def modPortErr (p : Fin 32) (f : PortErr → PortErr) (s : State) : State :=
  { s with fabric := { s.fabric with portErr := vmod s.fabric.portErr p f } }

/-- Change the VMT receiver's counters. -/
def modVmtErr (f : VmtErr → VmtErr) (s : State) : State :=
  { s with fabric := { s.fabric with vmtErr := f s.fabric.vmtErr } }

/-- Change the calibration. -/
def modCalib (f : Calib → Calib) (s : State) : State := { s with calib := f s.calib }

/-- Change a stack. -/
def modStack (k : Fin 20) (f : Stack → Stack) (s : State) : State :=
  { s with mem := { s.mem with memStacks := vmod s.mem.memStacks k f } }

/-- Change a rigger core. -/
def modRig (r : Fin 64) (f : Rigger → Rigger) (s : State) : State := { s with rigs := vmod s.rigs r f }

/-- A job slot's control state. -/
def ctl (s : State) (slot : Fin 64) : JobCtl := s.jobs[slot].ctl

/-- A job slot's state. -/
def jobSt (s : State) (slot : Fin 64) : JobState := s.jobs[slot].ctl.st

/-- A job on a die. -/
def jobDie (s : State) (slot : Fin 64) (die : Fin 4) : JobDie := s.jobs[slot].tasks.dies[die]

/-- A saturating 32-bit count. -/
def satInc (c : BitVec 32) (n : Nat) : BitVec 32 := BitVec.ofNat 32 (min (2 ^ 32 - 1) (c.toNat + n))

/-- A saturating 16-bit count. -/
def satInc16 (c : BitVec 16) (n : Nat) : BitVec 16 := BitVec.ofNat 16 (min 65535 (c.toNat + n))

/-- Add an event to what the block sends outside. -/
def emit (e : OutEvent) (s : State) : State := { s with out := s.out ++ [e] }

/-- Draw a free value: the index to apply a constant of Config to. -/
def draw (s : State) : Nat × State := (s.fresh, { s with fresh := s.fresh + 1 })

/-- Apply an effect for each element of a list, in order. -/
def forEach {α : Type} (l : List α) (f : α → State → State) (s : State) : State := l.foldl (fun st a => f a st) s

/-- All job slots, dies, ports and functions in ascending order. -/
def allSlots : List (Fin 64) := List.finRange 64
def allDies : List (Fin 4) := List.finRange 4
def allPorts : List (Fin 32) := List.finRange 32
def allFns : List (Fin 65) := List.finRange 65

/-- The virtual function of a slot. -/
def vfOf (slot : Fin 64) : Fin 65 := slot.succ

/-- PF0. -/
def pf0 : Fin 65 := 0

/-- The slot of a virtual function. -/
def slotOfFn (fn : Fin 65) : Option (Fin 64) :=
  if h : fn = 0 then none else some (fn.pred h)

/-! ### Runs of frames -/

/-- Whether a frame lies in a list of runs. -/
def inRuns (rs : List (Nat × Nat)) (f : Nat) : Bool := rs.any (fun r => decide (r.1 ≤ f ∧ f < r.1 + r.2))

/-- Whether two runs meet. -/
def runsMeet (a b : Nat × Nat) : Bool := decide (a.1 < b.1 + b.2 ∧ b.1 < a.1 + a.2)

/-- Frames in a list of runs. -/
def runsCount (rs : List (Nat × Nat)) : Nat := (rs.map Prod.snd).foldl (· + ·) 0

/-- Remove the run `first, count` from a list of runs. -/
def runsRemove (rs : List (Nat × Nat)) (first count : Nat) : List (Nat × Nat) :=
  rs.flatMap (fun r =>
    let lo := max r.1 first
    let hi := min (r.1 + r.2) (first + count)
    if hi ≤ lo then [r]
    else
      (if r.1 < lo then [(r.1, lo - r.1)] else []) ++
      (if hi < r.1 + r.2 then [(hi, r.1 + r.2 - hi)] else []))

/-- Insert a run that meets no other, keeping the list ascending. -/
def runsInsert (rs : List (Nat × Nat)) (r : Nat × Nat) : List (Nat × Nat) :=
  match rs with
  | [] => [r]
  | a :: rest => if r.1 < a.1 then r :: a :: rest else a :: runsInsert rest r

/-- Frames of a run that lie in a list of runs. -/
def runsOverlap (rs : List (Nat × Nat)) (first count : Nat) : Nat :=
  (rs.map (fun r => min (r.1 + r.2) (first + count) - max r.1 first)).foldl (· + ·) 0

/-! ### Interrupts, logs and event records -/

/-- The job of a virtual function locks its host path (R509). -/
def fnLocked (s : State) (fn : Fin 65) : Bool :=
  match slotOfFn fn with
  | some i => (match s.sec.jobKeys[i] with | some k => k.hostLock | none => false)
  | none => false

/-- Whether a function's DMA can travel: where the host path is locked, on its IDE stream alone (R509). -/
def dmaOpen (s : State) (fn : Fin 65) : Bool :=
  !fnLocked s fn || (match slotOfFn fn with
    | some i => (match s.sec.ide[i] with | some x => x.active | none => false)
    | none => true)

/-- Send an interrupt; without the stream that it must travel on none leaves (R509; DEDUCED, notes/assumptions/30). -/
def sendMsix (fn : Fin 65) (v : Nat) (s : State) : State := if dmaOpen s fn then emit (.msix fn v (fnLocked s fn)) s else s

/-- Fire an MSI-X vector, or set its pending bit while its table entry is masked (R542). -/
def fireVector (fn : Fin 65) (v : Fin 6) (s : State) : State :=
  if s.host[fn].msix[v].getLsbD 96 then
    modHost fn (fun h => { h with msixPending := h.msixPending ||| (1#6 <<< v.val) }) s
  else sendMsix fn v.val s

/-- Raise a cause of vector 1 (R545). -/
def raiseCause (fn : Fin 65) (c : Nat) (s : State) : State :=
  let s := modHost fn (fun h => { h with intCause := h.intCause ||| (1#32 <<< c) }) s
  if s.host[fn].intMask.getLsbD c then s else fireVector fn 1 s

/-- Put a record into the error log: the first 128 stay, the latest 128 form the ring (R629). -/
def Logs.addError (l : Logs) (r : LogRec) : Logs :=
  let l := { l with seq := l.seq + 1 }
  if l.first.length < 128 then { l with first := l.first ++ [r] }
  else if l.ring.length < 128 then { l with ring := l.ring ++ [r] }
  else { l with ring := l.ring.drop 1 ++ [r], lost := l.lost + 1 }

/-- Write an error log record and raise cause 0 on PF0 (R631, R545). -/
def logError (code : Byte) (slot : Option (Fin 64)) (unit : Nat) (detail : Nat) (s : State) : State :=
  let r : LogRec := { time := s.clock.now, seq := s.logs.seq, code := code, slot := slot, unit := BitVec.ofNat 16 unit, detail := detail }
  raiseCause pf0 0 { s with logs := s.logs.addError r }

/-- Write an event log record: a ring of 8,192 (R630). -/
def logEvent (code : Byte) (slot : Option (Fin 64)) (unit : Nat) (detail : Nat) (s : State) : State :=
  let l := s.logs
  let r : LogRec := { time := s.clock.now, seq := l.eventSeq, code := code, slot := slot, unit := BitVec.ofNat 16 unit, detail := detail }
  let l := { l with eventSeq := l.eventSeq + 1 }
  let l := if l.events.length < 8192 then { l with events := l.events ++ [r] }
    else { l with events := l.events.drop 1 ++ [r], overwritten := l.overwritten + 1 }
  { s with logs := l }

/-- Count an RSV write (R4, R629). -/
def countRsvWrite (s : State) : State := { s with logs := { s.logs with rsvWrites := s.logs.rsvWrites + 1 } }

/-- Count an ignored doorbell or submission (R180, R212, R629). -/
def countIgnored (s : State) : State := { s with logs := { s.logs with ignored := s.logs.ignored + 1 } }

/-- Count an access to a reserved DPA (R270, R629). -/
def countDpa (s : State) : State := { s with logs := { s.logs with dpaAccesses := s.logs.dpaAccesses + 1 } }

/-! ### Status codes (R6) -/

def stOK : BitVec 8 := 0x00
def stACCEPTED : BitVec 8 := 0x01
def stBUSY : BitVec 8 := 0x02
def stBAD_OPCODE : BitVec 8 := 0x03
def stBAD_LENGTH : BitVec 8 := 0x04
def stBAD_FIELD : BitVec 8 := 0x05
def stBOUND : BitVec 8 := 0x06
def stSTATE : BitVec 8 := 0x07
def stDENIED : BitVec 8 := 0x08
def stNO_RESOURCE : BitVec 8 := 0x09
def stVERSION : BitVec 8 := 0x0A
def stTORN : BitVec 8 := 0x0B
def stTIMEOUT : BitVec 8 := 0x0C
def stUNREACHABLE : BitVec 8 := 0x0D
def stINTEGRITY : BitVec 8 := 0x0E
def stINTERNAL : BitVec 8 := 0x0F

/-! ### Firmware objects -/

/-- Power limit of a profile (R526, R601). -/
def profileClass (p : Fin 16) : Nat :=
  match p.val with
  | 0 => 0 | 1 => 0 | 2 => 1 | 3 => 2 | 4 => 0 | 5 => 0 | 6 => 1 | 7 => 2 | 8 => 0 | 9 => 0 | _ => 3

/-- Power limit of a class in W (R526). -/
def classLimit (c : Nat) : Nat :=
  match c with
  | 0 => 3000 | 1 => 2700 | 2 => 2400 | _ => 2000

/-- Port maps of the profiles (R601). -/
inductive PortMapKind where
  | crew16
  | uplink8
  | allOff
  deriving DecidableEq, Repr

/-- Port map of a profile (R601). -/
def profileMap (p : Fin 16) : PortMapKind :=
  match p.val with
  | 4 => .uplink8 | 5 => .uplink8 | 6 => .uplink8 | 7 => .uplink8 | 9 => .uplink8 | 15 => .uplink8
  | 10 => .allOff | 11 => .allOff | 12 => .allOff | 13 => .allOff
  | _ => .crew16

/-- A CREW entry of two lanes, medium CR, relaying (R602). -/
def crewEntry (lane : Nat) : Nat := lane + 1 <<< 8 + 1 <<< 15

/-- An UPLINK entry of `w` (1: four lanes, 2: eight), medium optical. -/
def uplinkEntry (lane w : Nat) : Nat := lane + 2 <<< 8 + w <<< 10 + 2 <<< 12

/-- A SPARE entry that serves a port. -/
def spareEntry (lane serves : Nat) : Nat := lane + 3 <<< 8 + serves <<< 32

/-- The typical crew map (11_ports_discovery_routing, "A typical crew port map"). -/
def crew16Entry (p : Nat) : Nat :=
  if p ≤ 2 then crewEntry (2 * p)
  else if p ≤ 6 then crewEntry (32 + 2 * (p - 3))
  else if p = 7 then crewEntry 6
  else if p ≤ 11 then crewEntry (40 + 2 * (p - 8))
  else if p ≤ 14 then crewEntry (8 + 2 * (p - 12))
  else if p ≤ 18 then uplinkEntry (16 + 4 * (p - 15)) 1
  else if p ≤ 22 then uplinkEntry (48 + 4 * (p - 19)) 1
  else if p = 23 then spareEntry 14 0
  else if p = 24 then spareEntry 15 14
  else 0

/-- OBJ_PORT_MAP entry of port `p` after a cold reset (R602). -/
def portMapReset (prof : Fin 16) (p : Nat) : Nat :=
  match profileMap prof with
  | .crew16 => crew16Entry p
  | .uplink8 => if p < 8 then uplinkEntry (8 * p) 2 else 0
  | .allOff => 0

/-- Object IDs (R564). -/
def oDEVICE_INFO : BitVec 16 := 0x0001
def oME_HEALTH : BitVec 16 := 0x0002
def oDEBUG : BitVec 16 := 0x0003
def oPOWER : BitVec 16 := 0x0004
def oJOB_STATUS : BitVec 16 := 0x0010
def oJOB_POLICY : BitVec 16 := 0x0011
def oJOB_SCHED : BitVec 16 := 0x0012
def oJOB_RING : BitVec 16 := 0x0013
def oJOB_SCALARS : BitVec 16 := 0x0014
def oWATCH_CFG : BitVec 16 := 0x0015
def oWATCH_REC : BitVec 16 := 0x0016
def oJOB_AS : BitVec 16 := 0x0017
def oJOB_STASH : BitVec 16 := 0x0018
def oJOB_UPD_GROUPS : BitVec 16 := 0x0019
def oJOB_UPD : BitVec 16 := 0x001A
def oJOB_WINDOW : BitVec 16 := 0x001B
def oJOB_VMT : BitVec 16 := 0x001C
def oJOB_HOSTWIN : BitVec 16 := 0x001D
def oMEM_CFG : BitVec 16 := 0x0020
def oVMT_CFG : BitVec 16 := 0x0030
def oPORT_MAP : BitVec 16 := 0x0031
def oFABRIC_NODE : BitVec 16 := 0x0032
def oPORT_STATUS : BitVec 16 := 0x0033
def oLINK_CFG : BitVec 16 := 0x0034
def oTIME : BitVec 16 := 0x0040
def oTRACE : BitVec 16 := 0x0041
def oPMU_CTR : BitVec 16 := 0x0042
def oPMU_TRIGGER : BitVec 16 := 0x0043
def oDEV_ERRCNT : BitVec 16 := 0x0044

/-- DSCP and PFC defaults of OBJ_LINK_CFG (R405), VL0 in the lowest field. -/
def dscpReset : Nat := 0x30 + 0x1A <<< 6 + 0x1A <<< 12 + 0x1A <<< 18 + 0x1A <<< 24 + 0x1A <<< 30 + 0x2E <<< 36
def pfcReset : Nat := 6 + 3 <<< 3 + 3 <<< 6 + 3 <<< 9 + 3 <<< 12 + 3 <<< 15 + 7 <<< 18

/-- RW bits of an instance at its cold reset value, from the object's field table. -/
def objReset (prof : Fin 16) (macBase : BitVec 48) (k : ObjKey) : Nat :=
  if k.id = oPOWER then classLimit (profileClass prof) <<< 36 + 0x78 <<< 28
  else if k.id = oJOB_POLICY then 2
  else if k.id = oJOB_SCHED then 0x0400 <<< 192 + 1 <<< 144
  else if k.id = oWATCH_CFG then 0x40400000 <<< 64 + 0x10 <<< 48 + 3 <<< 36
  else if k.id = oJOB_VMT then 0x0A <<< 176
  else if k.id = oMEM_CFG then 0x18
  else if k.id = oVMT_CFG then 0x08 <<< 56 + 7 <<< 53 + 0x03E8 <<< 32 + 0x0800 <<< 16 + 0x07D0
  else if k.id = oPORT_MAP then portMapReset prof k.sub.toNat
  else if k.id = oFABRIC_NODE then macBase.toNat <<< 272 + 0xC0F5 <<< 256 + 0x88B5 <<< 240
  else if k.id = oLINK_CFG then
    dscpReset <<< 208 + pfcReset <<< 184 + 0x1111 <<< 168 + 0x64 <<< 152 + 0x64 <<< 136 +
    0x0BB8 <<< 120 + 0x02EE <<< 104 + 0x1E <<< 96 + 0x08 <<< 88 + 0x07D0 <<< 72 + 0x03E8 <<< 56
  else if k.id = oTIME then 0x3E8 <<< 320 + 0xC <<< 244
  else 0

/-- Stored bits of an instance. -/
def objBits (s : State) (k : ObjKey) : Nat :=
  match s.objs.find k with
  | some i => i.bits
  | none => objReset s.rst.profile s.sec.macBase k

/-- Generation of an instance (R563). -/
def objGen (s : State) (k : ObjKey) : BitVec 32 :=
  (match s.objs.find k with
    | some i => i.gen
    | none => 0) +
  (match slotOfFn k.owner with
    | some i => (ctl s i).genBase
    | none => 0)

/-- Store bits in an instance and raise its generation by 1 (R563). -/
def objPut (k : ObjKey) (bits : Nat) (s : State) : State :=
  { s with objs := s.objs.put k { bits := bits, gen := (match s.objs.find k with | some i => i.gen | none => 0) + 1 } }

/-- Return an instance to its reset value and raise its generation (R563). -/
def objClear (k : ObjKey) (s : State) : State := objPut k (objReset s.rst.profile s.sec.macBase k) s

/-- Key of a device-scope instance. -/
def devKey (id : BitVec 16) (sub : Nat) : ObjKey := ⟨id, 0, BitVec.ofNat 16 sub⟩

/-- Key of a job-scope instance. -/
def jobKey (id : BitVec 16) (slot : Fin 64) (sub : Nat) : ObjKey := ⟨id, slot.succ, BitVec.ofNat 16 sub⟩

/-- A field of a device-scope object. -/
def devFld (s : State) (id : BitVec 16) (sub hi lo : Nat) : Nat := fld (objBits s (devKey id sub)) hi lo

/-- A field of a job-scope object. -/
def jobFld (s : State) (id : BitVec 16) (slot : Fin 64) (sub hi lo : Nat) : Nat :=
  fld (objBits s (jobKey id slot sub)) hi lo

/-- Node ID of the device, when one is assigned (R385). -/
def ownNode (s : State) : BitVec 18 := BitVec.ofNat 18 (devFld s oFABRIC_NODE 0 239 222)
def nodeValid (s : State) : Bool := devFld s oFABRIC_NODE 0 0 0 == 1

/-- Task table entries of a job on a die (R192). -/
def quotaOf (s : State) (slot : Fin 64) (die : Fin 4) : Nat :=
  jobFld s oJOB_SCHED slot 0 (32 * die.val + 16) (32 * die.val)

/-- Counters of a job on this device (R374). -/
def ctrCount (s : State) (slot : Fin 64) : Nat := jobFld s oJOB_VMT slot 0 207 191
def ctrBase (s : State) (slot : Fin 64) : Nat := jobFld s oJOB_VMT slot 0 255 208

/-! ### Job states -/

/-- Encoding of a job state (R558). -/
def JobState.code : JobState → Nat
  | .empty => 0
  | .created => 1
  | .keyed => 2
  | .ready => 3
  | .running => 4
  | .draining => 5
  | .paused => 6
  | .torn => 7
  | .scrubbing => 8

/-- KEYED, READY, RUNNING, DRAINING or PAUSED: the job is active (R453). -/
def JobState.active : JobState → Bool
  | .keyed => true
  | .ready => true
  | .running => true
  | .draining => true
  | .paused => true
  | _ => false

/-- Whether any job is active (R453). -/
def anyActive (s : State) : Bool := allSlots.any (fun i => (jobSt s i).active)

/-- Move a job slot to a state: its time of change, the JOB event and the interrupts of R545. -/
def setJob (slot : Fin 64) (st : JobState) (s : State) : State :=
  let old := jobSt s slot
  let s := modCtl slot (fun c => { c with st := st, since := s.clock.now }) s
  let s := logEvent 0x0B (some slot) st.code (ctl s slot).tearCause.toNat s
  match st with
  | .paused => raiseCause pf0 6 (if old = .draining then raiseCause (vfOf slot) 0 s else s)
  | .torn => raiseCause pf0 6 (raiseCause (vfOf slot) 1 s)
  | _ => s

/-- Job tag of a slot (R280, R557). -/
def jobTag (s : State) (slot : Fin 64) : BitVec 16 :=
  BitVec.ofNat 16 (slot.val * 1024 + (ctl s slot).incarnation.toNat)

/-! ### Programmable counters (R467 to R471) -/

/-- Add to one counter, with its wrap tally. -/
def PmuCtr.add (c : PmuCtr) (n : Nat) : PmuCtr :=
  let v := c.count.toNat + n
  let t := c.tally.toNat + v / 2 ^ 48
  { c with
    count := BitVec.ofNat 48 v
    tally := BitVec.ofNat 16 (min 65535 t)
    tallySat := c.tallySat || decide (65535 ≤ t) }

/-- Whether a counter counts an event of a slot: a lent counter counts its slot's events only. -/
def PmuCtr.counts (c : PmuCtr) (slot : Option (Fin 64)) (event : Nat) (bit : Nat) : Bool :=
  c.enable && !c.frozen && c.event.toNat == event && (!c.lent || slot == some c.slot) &&
  ((event != 0x050 && event != 0x040) || c.umask.getLsbD bit)

/-- Count `n` units of an event on a die. -/
def pmuCount (die : Fin 4) (slot : Option (Fin 64)) (event bit n : Nat) (s : State) : State :=
  { s with clock := { s.clock with
      pmu := Vector.ofFn (fun (i : Fin 32) =>
        let c := s.clock.pmu[i]
        if i.val / 8 = die.val && c.counts slot event bit then c.add n else c) } }

/-! ### Trace streams (R463 to R466) -/

/-- Whether a stream writes records of a class (R463). -/
def traceOn (cfg cls : Nat) : Bool := fld cfg 0 0 == 1 && bitAt (fld cfg 39 32) cls

/-- Set the stream of a scope on a die. -/
def setStream (scope : Option (Fin 64)) (die : Fin 4) (f : Stream → Stream) (s : State) : State :=
  match scope with
  | some i => modCtl i (fun c => { c with streams := vmod c.streams die f }) s
  | none => { s with clock := { s.clock with streams := vmod s.clock.streams die f } }

/-- The stream of a scope on a die. -/
def getStream (s : State) (scope : Option (Fin 64)) (die : Fin 4) : Stream :=
  match scope with
  | some i => (ctl s i).streams[die]
  | none => s.clock.streams[die]

/-- Configuration of the stream of a scope on a die. -/
def traceCfg (s : State) (scope : Option (Fin 64)) (die : Fin 4) : Nat :=
  match scope with
  | some i => objBits s (jobKey oTRACE i die.val)
  | none => objBits s (devKey oTRACE die.val)

/-- A record is not written: it counts, and the next one is a buoy (R464, R466). -/
def Stream.lose (t : Stream) : Stream := { t with lost := satInc t.lost 1, lostBuoy := satInc t.lostBuoy 1, needBuoy := true }

/-- Put a record into the queue of its stream, which holds 256 (R464). A buoy that finds it full never counts toward lost
(R466). -/
def Stream.push (r : TraceRec) (t : Stream) : Stream :=
  if t.queue.length < 256 then { t with queue := t.queue ++ [r] }
  else if r.kind = 1 then { t with needBuoy := true }
  else t.lose

/-- A record for the stream of a scope on a die. -/
def queueTrace (scope : Option (Fin 64)) (die : Fin 4) (kind payload : Nat) (s : State) : State :=
  setStream scope die (Stream.push ⟨s.clock.now, kind, (match scope with | some k => k.val | none => 0), die.val, payload⟩) s

/-- Queue a buoy (R466): the full global time; the rest of its payload is known when it is written. -/
def writeBuoy (scope : Option (Fin 64)) (die : Fin 4) (s : State) : State :=
  queueTrace scope die 0x01 ((s.clock.now % 2 ^ 64) <<< 128) s

/-- A record for a stream whose class is enabled; in P3 the streams are stopped (R476). -/
def trace (scope : Option (Fin 64)) (die : Fin 4) (cls kind payload : Nat) (s : State) : State :=
  if traceOn (traceCfg s scope die) cls && s.power.mode != .rest then queueTrace scope die kind payload s else s

/-- A record of the operator's stream on every die. -/
def traceDev (cls kind payload : Nat) (s : State) : State :=
  forEach allDies (fun d st => trace none d cls kind payload st) s

/-- A MEM record in the operator's stream of a stack's die: 0 a corrected sector, 1 a poisoned one, 2 a tag mismatch. -/
def traceMem (what : Nat) (k : Fin 20) (dpa : Nat) (s : State) : State :=
  trace none (Fin.ofNat 4 (k.val / 5)) 6 0x48 ((dpa % 2 ^ 52) <<< 64 + what <<< 8 + k.val) s

/-! ### The code of a sector (R278) -/

/-- The primitive polynomials of degree 8 over GF(2). -/
def gfPolys : List Nat :=
  [0x11D, 0x12B, 0x12D, 0x14D, 0x15F, 0x163, 0x165, 0x169, 0x171, 0x187, 0x18D, 0x1A9, 0x1C3, 0x1CF, 0x1E7, 0x1F5]

/-- Product in GF(2^8) under a polynomial, from `n` bits of the second factor on. -/
def gfMulBits (poly a b : Nat) : Nat → Nat → Nat
  | 0, acc => acc
  | n + 1, acc =>
    let twice := if acc.testBit 7 then (2 * acc) ^^^ poly else 2 * acc
    gfMulBits poly a b n (if b.testBit n then twice ^^^ a else twice)

/-- Product in GF(2^8). -/
def gfMul (poly a b : Nat) : Nat := gfMulBits poly a b 8 0

/-- Powers of the root 2. -/
def gfPow (poly : Nat) : Nat → Nat
  | 0 => 1
  | n + 1 => gfMul poly 2 (gfPow poly n)

/-- Product of a polynomial, coefficients from the highest degree down, with x + r. -/
def gfTimesRoot (poly r : Nat) (g : List Nat) : List Nat :=
  List.zipWith (· ^^^ ·) (g ++ [0]) (0 :: g.map (gfMul poly r))

/-- Generator of RS(80, 70): the product of x + 2^k over ten consecutive powers. -/
def rsGen (poly first : Nat) : List Nat := (List.range 10).foldl (fun g i => gfTimesRoot poly (gfPow poly (first + i)) g) [1]

/-- One symbol of a division by the generator: the remainder so far takes it in. -/
def rsStep (poly : Nat) (gen : List Nat) (rem : List Nat) (b : Nat) : List Nat :=
  let f := rem.headD 0 ^^^ b
  List.zipWith (· ^^^ ·) (rem.drop 1 ++ [0]) ((gen.drop 1).map (gfMul poly f))

/-- The 10 check bytes of RS(80, 70) over the 70 bytes of a sector's ciphertext and metadata (R278). -/
def rsCheck (body : List Byte) : List Byte :=
  let poly := gfPolys.getD (Config.rsField % 16) 0x11D
  let gen := rsGen poly (Config.rsRoot % 255)
  ((body.map BitVec.toNat).foldl (rsStep poly gen) (List.replicate 10 0)).map (BitVec.ofNat 8)

/-! ### Memory -/

/-- Byte at an address: an unlisted one reads as 0. -/
def cellGet (m : List Host.Cell) (a : Nat) : Byte :=
  match m with
  | [] => 0
  | c :: rest => if c.1 = a then c.2 else cellGet rest a

/-- Write a byte, keeping the canonical form. -/
def cellPut (m : List Host.Cell) (a : Nat) (b : Byte) : List Host.Cell :=
  match m with
  | [] => if b = 0 then [] else [(a, b)]
  | c :: rest =>
    if a < c.1 then (if b = 0 then c :: rest else (a, b) :: c :: rest)
    else if a = c.1 then (if b = 0 then rest else (a, b) :: rest)
    else c :: cellPut rest a b

/-- Write bytes at ascending addresses. -/
def cellPuts (m : List Host.Cell) (a : Nat) : List Byte → List Host.Cell
  | [] => m
  | b :: rest => cellPuts (cellPut m a b) (a + 1) rest

/-- Make a range of addresses read as 0. -/
def cellClear (m : List Host.Cell) (lo n : Nat) : List Host.Cell :=
  m.filter (fun c => !(decide (lo ≤ c.1 ∧ c.1 < lo + n)))

/-- Read `n` bytes. -/
def cellGets (m : List Host.Cell) (a : Nat) : Nat → List Byte
  | 0 => []
  | n + 1 => cellGet m a :: cellGets m (a + 1) n

/-- Canonical form of a cell list: strictly rising addresses, no zero byte. -/
def cellsOkFrom (lo : Nat) : List Host.Cell → Bool
  | [] => true
  | c :: rest => decide (lo ≤ c.1) && c.2 != 0 && cellsOkFrom (c.1 + 1) rest

/-- Memory is in canonical form. -/
def Mem.wf (m : Mem) : Bool := cellsOkFrom 0 m.cells

/-- First address of the Activation Stores (R270). -/
def asBase : Nat := 0xF000000000000

/-- DPA of a byte of an Activation Store page of a die. -/
def asDpa (die : Fin 4) (page off : Nat) : Nat := asBase + die.val * 0x10000000 + page * 65536 + off

/-- Bands and bytes of stack memory (R271). -/
def bandCount (s : State) : Nat := if s.sec.moduleB then 48 else 64
def bandBytes : Nat := 20 * 2 ^ 30
def stackBytes (s : State) : Nat := bandCount s * bandBytes
def frameBytes : Nat := 2097152
/-- Frames of stack memory and frames that can ever be granted (R565). -/
def totalFrames (s : State) : Nat := bandCount s * 10240
def grantableBase (s : State) : Nat := totalFrames s - 32

/-- First frame and number of frames of the range that a retirement withdraws (R614). -/
def withdrawnFirst (s : State) : Nat := if s.sec.moduleB then 466912 else 622560
def withdrawnCount (s : State) : Nat := grantableBase s - withdrawnFirst s

/-- Whether a stack is FAILING, MIGRATING or RETIRED (R619). -/
def anyStackBad (s : State) : Bool := (List.finRange 20).any (fun k => s.mem.memStacks[k].st ≠ .ok)

/-- Frames that can be granted now (R614). -/
def grantable (s : State) : Nat := if anyStackBad s then withdrawnFirst s else grantableBase s

/-- Mode of a band: true for DIE (R272). -/
def bandDie (s : State) (b : Nat) : Bool := devFld s oMEM_CFG 0 (32 + 32 * b + 1) (32 + 32 * b) == 1

/-- `decode` of R271: stack number and byte offset in the stack. -/
def decodeDpa (s : State) (dpa : Nat) : Fin 20 × Nat :=
  let b := dpa / bandBytes
  let off := dpa % bandBytes
  if bandDie s b then
    let n := off / (5 * 2 ^ 30)
    let g := (off % (5 * 2 ^ 30)) / 4096
    (Fin.ofNat 20 (5 * n + g % 5), b * 2 ^ 30 + g / 5 * 4096 + dpa % 4096)
  else
    let g := off / 4096
    (Fin.ofNat 20 (g % 20), b * 2 ^ 30 + g / 20 * 4096 + dpa % 4096)

/-- DPA of a 4 KiB granule of a stack, by its place in the stack: the inverse of `decode` (R271). -/
def granuleDpa (s : State) (k : Fin 20) (j : Nat) : Nat :=
  let b := j / 262144
  let row := j % 262144
  if bandDie s b then b * bandBytes + k.val / 5 * (5 * 2 ^ 30) + (row * 5 + k.val % 5) * 4096
  else b * bandBytes + (row * 20 + k.val) * 4096

/-- Whether a DPA lies in the withdrawn range (R614). -/
def withdrawn (s : State) (dpa : Nat) : Bool :=
  decide (withdrawnFirst s * frameBytes ≤ dpa ∧ dpa < grantableBase s * frameBytes)

/-- Granules of a stack that its migration moves, in ascending stack offset (R615): their DPAs. -/
def movedGranules (s : State) (k : Fin 20) : List Nat :=
  ((List.range (bandCount s * 262144)).map (granuleDpa s k)).filter (fun d => !withdrawn s d)

/-- Granules of the withdrawn range that do not lie on a stack, in ascending DPA (R615). -/
def destGranules (s : State) (k : Fin 20) : List Nat :=
  ((List.range (withdrawnCount s * 512)).map (fun i => withdrawnFirst s * frameBytes + 4096 * i)).filter
    (fun d => (decodeDpa s d).1 != k)

/-- Stack that serves a DPA: that of a switched granule's destination (R616, R617), else that of `decode`. -/
def servedBy (s : State) (dpa : Nat) : Fin 20 :=
  let k := (decodeDpa s dpa).1
  let st := s.mem.memStacks[k]
  let i := (movedGranules s k).idxOf (dpa / 4096 * 4096)
  let switched := match st.st with
    | .retired => !withdrawn s dpa
    | .migrating => !withdrawn s dpa && decide (i < st.moved)
    | _ => false
  if switched then (decodeDpa s ((destGranules s k).getD i 0)).1 else k

/-- Metadata of the sector that holds a stack address. -/
def sectorMeta (s : State) (dpa : Nat) : SectorMeta :=
  s.mem.sectors.getD (dpa / 64) { tag := 0, zero := true, poison := false }

/-- Outcome of a memory access for a job. -/
inductive MStat where
  | ok
  | bound
  | integrity
  deriving DecidableEq, Repr

/-- Status code of an access outcome. -/
def MStat.code : MStat → BitVec 8
  | .ok => stOK
  | .bound => stBOUND
  | .integrity => stINTEGRITY

/-- Combine outcomes: the first failure stands. -/
def MStat.and (a b : MStat) : MStat := if a = .ok then b else a

/-- Bytes of a page (R275). -/
def Page.bytes (p : Page) : Nat := if p.big then 2 ^ 30 else frameBytes

/-- Translate a job address to a DPA, checking the rights of the page (R274, R277). -/
def translate (s : State) (slot : Fin 64) (va : Nat) (needR needW : Bool) : Option Nat :=
  if 2 ^ 48 ≤ va then none
  else if 0xFFF000000000 ≤ va then
    let die : Fin 4 := Fin.ofNat 4 (fld va 35 34)
    match (ctl s slot).asAct[die][fld va 33 16]? with
    | some pg => some (asDpa die pg (fld va 15 0))
    | none => none
  else
    match (ctl s slot).pages.find? (fun p => decide (p.va ≤ va ∧ va < p.va + p.bytes)) with
    | some p => if (!needR || p.r) && (!needW || p.w) then some (p.frame * frameBytes + (va - p.va)) else none
    | none => none

/-- The parts of a range that lie in one 64-byte sector each: first address and length. -/
def chunks (va len : Nat) : List (Nat × Nat) :=
  if len = 0 then []
  else
    let k0 := va / 64
    let k1 := (va + len - 1) / 64
    (List.range (k1 - k0 + 1)).map (fun i =>
      let lo := max va (64 * (k0 + i))
      let hi := min (va + len) (64 * (k0 + i + 1))
      (lo, hi - lo))

/-- Whether every byte of a range is mapped with the rights asked for. -/
def mapped (s : State) (slot : Fin 64) (va len : Nat) (needR needW : Bool) : Bool :=
  (chunks va len).all (fun c => (translate s slot c.1 needR needW).isSome)

/-- Whether a DPA lies in an Activation Store. -/
def isAs (dpa : Nat) : Bool := decide (asBase ≤ dpa)

/-- A read for a job: its data (zeros where poisoned) and its outcome. -/
structure Rd where
  data : List Byte
  st : MStat
  deriving DecidableEq, Repr

/-- Tweak of a sector: DPA[51:6] (R281). -/
def sectorTweak (dpa : Nat) : BitVec 46 := BitVec.ofNat 46 (dpa / 64)

/-- Memory key under which a sector of a tag is encrypted: that of the job in the tag's slot, as the key table of the
sector's memory controller holds it (R281, R501). Sectors of firmware's own tags, and of a slot that holds no key, stand in the
clear (notes/assumptions/56). -/
def tagKey (s : State) (dpa : Nat) (tag : BitVec 16) : Option (BitVec 512) :=
  if tag.toNat % 1024 = 0 then none else s.sec.memTables[servedBy s dpa][(Fin.ofNat 64 (tag.toNat / 1024) : Fin 64)]

/-- The 64 data bytes of a sector as they are stored. -/
def sectorStored (s : State) (dpa : Nat) : BitVec 512 := BitVec.ofNat 512 (leNat (cellGets s.mem.cells (dpa / 64 * 64) 64))

/-- `n` bytes of a sector from a DPA on, as the memory controller decrypts them for a tag (R281 to R283). -/
def sectorData (s : State) (tag : BitVec 16) (dpa n : Nat) : List Byte :=
  match tagKey s dpa tag with
  | none => cellGets s.mem.cells dpa n
  | some k =>
    if (sectorMeta s dpa).zero then List.replicate n 0
    else ((leBytes 64 ((Config.xts k (sectorTweak dpa)).symm (sectorStored s dpa)).toNat).drop (dpa % 64)).take n

/-- The 48-bit metadata of a sector (R279). -/
def SectorMeta.bits (m : SectorMeta) : Nat := (if m.zero then 2 ^ 17 else 0) + (if m.poison then 2 ^ 16 else 0) + m.tag.toNat

/-- The 80 bytes of a sector as the stack holds them (R278): data, metadata and check bytes. -/
def sectorImage (s : State) (dpa : Nat) : List Byte :=
  let body := leBytes 64 (sectorStored s dpa).toNat ++ leBytes 6 (sectorMeta s dpa).bits
  body ++ rsCheck body

/-- Tag mismatch of a sector for a tag (R282): a scrubbed sector matches every job (R283). -/
def tagMismatch (s : State) (tag : BitVec 16) (dpa : Nat) : Bool :=
  let m := sectorMeta s dpa
  !isAs dpa && m.tag != tag && !(m.tag == 0 && m.zero)

/-- Words of an Activation Store that hold a double-bit error, of those that a range touches (R290). -/
def asBadWords (s : State) (dpa n : Nat) : List Nat :=
  ((List.range ((dpa + n - 1) / 8 - dpa / 8 + 1)).map (· + dpa / 8)).filter (fun w => s.mem.asBad.contains w)

/-- Read one part of a sector at a DPA under a job tag: the data, and whether it is poison. -/
def readPart (s : State) (tag : BitVec 16) (dpa n : Nat) : List Byte × Bool :=
  if isAs dpa then
    if (asBadWords s dpa n).isEmpty then (cellGets s.mem.cells dpa n, false) else (List.replicate n 0, true)
  else if (sectorMeta s dpa).poison || tagMismatch s tag dpa then (List.replicate n 0, true)
  else (sectorData s tag dpa n, false)

/-- Count a tag mismatch on the stack of an address, with its MEM record (R287, R466, R472). -/
def countMismatch (tag : BitVec 16) (dpa : Nat) (s : State) : State :=
  if tagMismatch s tag dpa then
    traceMem 2 (servedBy s dpa) dpa (modStack (servedBy s dpa) (fun k => { k with tagMismatch := satInc k.tagMismatch 1 }) s)
  else s

/-- Error log record of a word with a double-bit error that an access meets (R290, R632). -/
def logAsWord (w : Nat) (s : State) : State :=
  logError 0x02 none ((8 * w - asBase) / 0x10000000) ((8 * w - asBase) % 0x10000000) s

/-- What the controllers record of a read of one part of a sector (R287, R290). -/
def notePart (tag : BitVec 16) (dpa n : Nat) (s : State) : State :=
  if isAs dpa then forEach (asBadWords s dpa n) logAsWord s else countMismatch tag dpa s

/-- What the controllers record of reads of ranges of a job's addresses, each sector once. -/
def noteReads (slot : Fin 64) (rs : List (Nat × Nat)) (s : State) : State :=
  let tag := jobTag s slot
  let parts := (rs.flatMap (fun r => chunks r.1 r.2)).foldl
    (fun (acc : List (Nat × Nat)) c => if acc.any (fun a => a.1 / 64 == c.1 / 64 && !isAs ((translate s slot a.1 true false).getD 0))
      then acc else acc ++ [c]) []
  forEach parts (fun c st =>
    match translate s slot c.1 true false with
    | some d => notePart tag d c.2 st
    | none => st) s

/-- What a job reads at a range of its addresses, without the counts. -/
def peek (s : State) (slot : Fin 64) (va len : Nat) : Rd :=
  let tag := jobTag s slot
  if !mapped s slot va len true false then ⟨[], .bound⟩
  else
    let parts := (chunks va len).map (fun c => readPart s tag ((translate s slot c.1 true false).getD 0) c.2)
    ⟨parts.flatMap Prod.fst, if parts.any Prod.snd then .integrity else .ok⟩

/-- Outcome of a read of a range that is to be written too: both rights are asked for. -/
def peekRw (s : State) (slot : Fin 64) (va len : Nat) : MStat :=
  if mapped s slot va len true true then (peek s slot va len).st else .bound

/-- Read a range of a job's addresses (R277, R282, R285): a read that returns poison is recorded as its cause asks. -/
def jobRead (s : State) (slot : Fin 64) (va len : Nat) : Rd × State :=
  let r := peek s slot va len
  (r, if r.st = .integrity then noteReads slot [(va, len)] s else s)

/-- Read an unsigned little-endian number. -/
def jobNat (s : State) (slot : Fin 64) (va len : Nat) : Nat × MStat :=
  let r := peek s slot va len
  (leNat r.data, r.st)

/-- Remove every stream cache copy of the sector that holds a DPA, of whichever job (R293). -/
def dropCopies (dpa : Nat) (s : State) : State :=
  { s with mem := { s.mem with
      lines := s.mem.lines.filter (fun l => !((translate s l.slot (64 * l.sector) false false).map (· / 64) == some (dpa / 64))) } }

/-- What follows a write of a job's sector: every stream cache copy of it is removed (R293), and a
reservation that a stroke core context of the job holds in it is lost. -/
def dropLines (slot : Fin 64) (sector : Nat) (s : State) : State :=
  modTasks slot (fun t => { t with
    dies := t.dies.map (fun d => { d with
      regs := { d.regs with
        resv := match d.regs.resv with
          | some a => if a / 64 = sector then none else some a
          | none => none } }) })
  { s with mem := { s.mem with lines := s.mem.lines.filter (fun l => !(l.slot == slot && l.sector == sector)) } }

/-- Store bytes at a DPA of stack memory under a tag. -/
def putSector (dpa : Nat) (bs : List Byte) (m : SectorMeta) (s : State) : State :=
  { s with mem := { s.mem with cells := cellPuts s.mem.cells dpa bs, sectors := s.mem.sectors.put (dpa / 64) m } }

/-- Words of an Activation Store wholly covered by a write. -/
def wholeWords (dpa n : Nat) : List Nat :=
  ((List.range ((dpa + n - 1) / 8 - dpa / 8 + 1)).map (· + dpa / 8)).filter
    (fun w => decide (dpa ≤ 8 * w ∧ 8 * w + 8 ≤ dpa + n))

/-- Store bytes of a sector for a tag (R281, R283, R286): they are merged into what the tag's job reads there, and the
whole is encrypted. -/
def storePart (tag : BitVec 16) (dpa : Nat) (bs : List Byte) (s : State) : State :=
  let m : SectorMeta := { tag := tag, zero := false, poison := false }
  match tagKey s dpa tag with
  | none => putSector dpa bs m s
  | some k =>
    let old := sectorData s tag (dpa / 64 * 64) 64
    let new := old.take (dpa % 64) ++ bs ++ old.drop (dpa % 64 + bs.length)
    putSector (dpa / 64 * 64) (leBytes 64 (Config.xts k (sectorTweak dpa) (BitVec.ofNat 512 (leNat new))).toNat) m s

/-- Write one part of a sector for a job at a DPA (R285, R286, R290). -/
def writePart (tag : BitVec 16) (dpa : Nat) (bs : List Byte) (s : State) : State × MStat :=
  let n := bs.length
  if isAs dpa then
    let whole := wholeWords dpa n
    let torn := (asBadWords s dpa n).filter (fun w => !whole.contains w)
    if torn.isEmpty then
      ({ s with mem := { s.mem with
          cells := cellPuts s.mem.cells dpa bs,
          asBad := s.mem.asBad.filter (fun w => !whole.contains w) } }, .ok)
    else (forEach torn logAsWord s, .integrity)
  else
    if n = 64 then (storePart tag dpa bs s, .ok)
    else if (sectorMeta s dpa).poison || tagMismatch s tag dpa then (countMismatch tag dpa s, .integrity)
    else (storePart tag dpa bs s, .ok)

/-- Die of the stack that serves a DPA. -/
def dpaDie (s : State) (dpa : Nat) : Fin 4 := Fin.ofNat 4 ((servedBy s dpa).val / 5)

/-- Stack sectors that a write covers, counted on the die of the first one's stack, and those of them that it covers in part,
which are read and written (R286, R471). -/
def countWrites (slot : Fin 64) (va n : Nat) (s : State) : State :=
  let cs := (chunks va n).filterMap (fun c => match translate s slot c.1 false true with
    | some d => if isAs d then none else some (d, c.2)
    | none => none)
  match cs with
  | [] => s
  | c :: _ =>
    let part := (cs.filter (fun x => decide (x.2 < 64))).length
    pmuCount (dpaDie s c.1) (some slot) 0x042 0 part (pmuCount (dpaDie s c.1) (some slot) 0x041 0 (ceilDiv cs.length 2) s)

/-- Write a range of a job's addresses, sector by sector: a sector that refuses the write leaves the
others standing (R344). -/
def jobWrite (slot : Fin 64) (va : Nat) (bs : List Byte) (s : State) : State × MStat :=
  if !mapped s slot va bs.length false true then (s, .bound)
  else
    let tag := jobTag s slot
    (chunks va bs.length).foldl (fun (acc : State × MStat) c =>
      let part := (bs.drop (c.1 - va)).take c.2
      let r := writePart tag ((translate s slot c.1 false true).getD 0) part acc.1
      (dropLines slot (c.1 / 64) r.1, acc.2.and r.2)) (countWrites slot va bs.length s, .ok)

/-- Outcome that a write of `n` bytes of a job's memory would have: it does not depend on the bytes. -/
def writeStat (s : State) (slot : Fin 64) (va n : Nat) : MStat := (jobWrite slot va (List.replicate n 0) s).2

/-- Poison every sector (or Activation Store word) that a range of a job's addresses covers, as a
poisoned response does (R351). -/
def jobPoison (slot : Fin 64) (va len : Nat) (s : State) : State :=
  let tag := jobTag s slot
  forEach (chunks va len) (fun c st =>
    match translate st slot c.1 false true with
    | none => st
    | some d =>
      if isAs d then
        let ws := (List.range ((d + c.2 - 1) / 8 - d / 8 + 1)).map (· + d / 8)
        { st with mem := { st.mem with asBad := st.mem.asBad ++ ws.filter (fun w => !st.mem.asBad.contains w) } }
      else
        dropLines slot (c.1 / 64)
          { st with mem := { st.mem with
              sectors := st.mem.sectors.put (d / 64) { (sectorMeta st d) with tag := tag, zero := false, poison := true } } }) s

/-- An indivisible read-modify-write of `n` bytes of a job's memory (R286): the old value. -/
def jobRmw (slot : Fin 64) (va n : Nat) (f : Nat → Nat) (s : State) : Nat × MStat × State :=
  if !mapped s slot va n true true then (0, .bound, s)
  else
    let r := jobRead s slot va n
    match r.1.st with
    | .ok =>
      let old := leNat r.1.data
      let w := jobWrite slot va (leBytes n (f old)) r.2
      (old, w.2, w.1)
    | e => (0, e, r.2)

/-- Scrub a run of frames to zero sectors (R283, R560). -/
def scrubFrames (r : Nat × Nat) (s : State) : State :=
  let lo := r.1 * frameBytes
  let n := r.2 * frameBytes
  { s with mem := { s.mem with
      cells := cellClear s.mem.cells lo n,
      sectors := s.mem.sectors.filter (fun p => !(decide (lo / 64 ≤ p.1 ∧ p.1 < (lo + n) / 64))) } }

/-- Zero an Activation Store page (R289). -/
def zeroAsPage (die : Fin 4) (pg : Nat) (s : State) : State :=
  let lo := asDpa die pg 0
  { s with mem := { s.mem with
      cells := cellClear s.mem.cells lo 65536,
      asBad := s.mem.asBad.filter (fun w => !(decide (lo / 8 ≤ w ∧ w < (lo + 65536) / 8))) } }

/-- Activation Store pages of a die that jobs hold. -/
def asHeld (s : State) (die : Fin 4) : List Nat :=
  allSlots.flatMap (fun i => (ctl s i).asAct[die] ++ (ctl s i).asCache[die])

/-- The lowest free Activation Store pages of a die, `n` of them (notes/assumptions/6). -/
def asFree (s : State) (die : Fin 4) (n : Nat) : List Nat :=
  let held := asHeld s die
  ((List.range 3072).filter (fun p => !held.contains p)).take n

/-! ### Arrival counters and counts -/

/-- Add 1 to an arrival counter of a job (R354, R356): the outcome of the access. -/
def addCounter (slot : Fin 64) (n : Nat) (s : State) : State × MStat :=
  let r := jobRmw slot (ctrBase s slot + 4 * n) 4 (fun v => (v + 1) % 2 ^ 32) s
  (r.2.2, r.2.1)

/-! ### The device's identity (R486) -/

/-- The certificate chain in the boot flash: its certificate binds the public identity key, the same at every boot, to the serial
(R486). -/
def ownChain (s : State) : List Byte := Config.certChain s.sec.serial (Config.ecPublic (Config.identityKey s.sec.deviceSecret))

/-- The identity key of a device that attests itself to a partner: it passes discovery in DEPLOYED only (R485). -/
def ownSigner (s : State) : Option (BitVec 384) := if s.sec.lifecycle = .deployed then s.sec.identity else none

/-! ### Power and clock facts -/

/-- The memory stacks and the cores of the dies run: not in P3 or P4, and not while a reset holds them (R518, R581, R587). -/
def coresRun (s : State) : Bool := (s.power.mode = .run || s.power.mode = .hold) && s.rst.phase = .running

/-- The engines run: in P0 or P1, outside a reset and outside the entry into P3 (R518, R528, R587). -/
def inP0P1 (s : State) : Bool := s.power.mode = .run && s.rst.phase = .running && s.power.entry.isNone

/-- Whether the scheduler may release at all (R519, R527). -/
def releaseAllowed (s : State) : Bool := inP0P1 s && !s.power.stopping

/-- Ticks of a microsecond count. -/
def usTicks (us : Nat) : Nat := us * 800

end Sys2Proof.Machine
end

