-- ==== Sys2Proof/Machine/Frames.lean ====
section
/-! DEFINITION. Packets and frames: their layout and sealing (spec/10_fabric_transport.md R340, R341;
spec/11_ports_discovery_routing.md R380 to R385), the ports that send them, credits, pauses and arbitration (R399 to R405). -/

namespace Sys2Proof.Machine

/-! ### Port entries (R377) -/

def portEntry (s : State) (p : Fin 32) : Nat := objBits s (devKey oPORT_MAP p.val)
/-- 0 OFF, 1 CREW, 2 UPLINK, 3 SPARE. -/
def pKind (e : Nat) : Nat := fld e 9 8
def pFirstLane (e : Nat) : Nat := fld e 5 0
/-- Lanes of a port; a SPARE has one. -/
def pLanes (e : Nat) : Nat := if pKind e = 3 then 1 else 2 * 2 ^ fld e 11 10
def pRelay (e : Nat) : Bool := bitAt e 15
def pAutoSpare (e : Nat) : Bool := bitAt e 14
def pServes (e : Nat) : Nat := fld e 36 32
def pVlan (e : Nat) : Nat := fld e 75 64
def pGateway (e : Nat) : Nat := fld e 127 80
def isCrew (s : State) (p : Fin 32) : Bool := pKind (portEntry s p) == 1
def isUplink (s : State) (p : Fin 32) : Bool := pKind (portEntry s p) == 2

/-- I/O die of a port: true is X1 (R376). -/
def ioDie (s : State) (p : Fin 32) : Bool := decide (32 ≤ pFirstLane (portEntry s p))

/-- I/O die whose table a compute die uses (R393). -/
def dieTable (die : Fin 4) : Bool := decide (2 ≤ die.val)

/-- UP or DEMOTED. -/
def PortState.live (p : PortState) : Bool :=
  match p with
  | .up => true
  | .demoted => true
  | _ => false

/-- Encoding of a port state (R392). -/
def PortState.code : PortState → Nat
  | .disabled => 0
  | .down => 1
  | .training => 2
  | .discovering => 3
  | .up => 4
  | .demoted => 5
  | .quarantined => 6
  | .damped => 7

def port (s : State) (p : Fin 32) : Port := s.fabric.ports[p]

/-! ### Packets (R340, R341) -/

/-- A packet with every field 0. -/
def Packet.zero : Packet :=
  { txc := 0, jobId := 0, dst := 0, src := 0, seq := 0, time := 0, va := 0, ctr := 0, length := 0, vl := 0,
    rsvA := 0, poison := false, sig := false, fin := false, sub := 0, tryN := 0, path := 0, rsvB := 0, ver := 1,
    payload := [], tag := 0 }

/-- Opcodes of packets (R343). -/
def opLOAD : Byte := 0x01
def opSTORE : Byte := 0x02
def opATOMIC : Byte := 0x03
def opACCUMULATE : Byte := 0x04
def opSIGNAL : Byte := 0x05
def opRESP : Byte := 0x10
def opREFUSE : Byte := 0x11
def opACK : Byte := 0x12

/-- The header of a packet of an opcode as a 320-bit number (R340). -/
def packetHeader (op : Byte) (p : Packet) : Nat :=
  p.txc.toNat <<< 256 + p.jobId.toNat <<< 236 + p.dst.toNat <<< 218 + p.src.toNat <<< 200 + p.seq.toNat <<< 168 +
  p.time.toNat <<< 128 + p.va.toNat <<< 80 + p.ctr.toNat <<< 64 + p.length.toNat <<< 51 + p.vl.toNat <<< 48 + op.toNat <<< 40 +
  p.rsvA.toNat <<< 35 + p.poison.toNat <<< 34 + p.sig.toNat <<< 33 + p.fin.toNat <<< 32 + p.sub.toNat <<< 28 +
  p.tryN.toNat <<< 23 + p.path.toNat <<< 21 + p.rsvB.toNat <<< 4 + p.ver.toNat

/-- The 40 header bytes of a packet, byte 0 first. -/
def headerBytes (op : Byte) (p : Packet) : List Byte := leBytes 40 (packetHeader op p)

/-- A packet as it stands on a wire: header, payload, tag. -/
def packetBytes (op : Byte) (p : Packet) : List Byte := headerBytes op p ++ p.payload ++ leBytes 16 p.tag.toNat

/-- The 96-bit nonce of a transmit count and a source node (R341). -/
def nonceOf (txc : BitVec 64) (src : BitVec 18) : BitVec 96 := BitVec.ofNat 96 (src.toNat <<< 64 + txc.toNat)

/-- AES-256-GCM encryption, which is its own inverse: the text under the key stream of a key and a nonce. -/
def gcmXor (key : BitVec 256) (nonce : BitVec 96) (bs : List Byte) : List Byte :=
  bs.mapIdx (fun i b => b ^^^ Config.gcmStream key nonce i)

/-- A payload as it travels, from the one in the clear, and back: in mode AUTH it travels in the clear (R341). -/
def cryptPayload (k : JobKeys) (p : Packet) : List Byte :=
  if k.authOnly then p.payload else gcmXor k.fabKey (nonceOf p.txc p.src) p.payload

/-- The tag of a packet whose payload stands as it travels (R341): a payload that travels in the clear is additional data
after the header (DESIGN CHOICE, notes/assumptions/49). -/
def tagFor (k : JobKeys) (op : Byte) (p : Packet) : BitVec 128 :=
  if k.authOnly then Config.gcmTag k.fabKey (nonceOf p.txc p.src) (headerBytes op p ++ p.payload) []
  else Config.gcmTag k.fabKey (nonceOf p.txc p.src) (headerBytes op p) p.payload

/-- A packet as it is sent under a job's fabric key. -/
def sealPacket (k : JobKeys) (op : Byte) (p : Packet) : Packet :=
  let p := { p with payload := cryptPayload k p }
  { p with tag := tagFor k op p }

/-- Whether the tag of a packet that arrived holds. -/
def tagHolds (k : JobKeys) (op : Byte) (p : Packet) : Bool := p.tag == tagFor k op p

/-- A packet that arrived, its payload in the clear. -/
def openPacket (k : JobKeys) (p : Packet) : Packet := { p with payload := cryptPayload k p }

/-! ### Frames as bytes (R380 to R383) -/

/-- A number as `n` bytes, most significant first. -/
def beBytes (n v : Nat) : List Byte := (leBytes n v).reverse

/-- The link shim as a number (R380). -/
def shimBits (h : Shim) : Nat :=
  h.kind.toNat <<< 28 + h.vl.toNat <<< 25 + h.transit.toNat <<< 24 + h.hop.toNat <<< 22 + h.ceEcho.toNat <<< 21 + h.rsv.toNat

/-- Sum of a byte string's 16-bit words, most significant byte first. -/
def wordSum : List Byte → Nat
  | [] => 0
  | [a] => 256 * a.toNat
  | a :: b :: rest => 256 * a.toNat + b.toNat + wordSum rest

/-- The one's complement sum of a number of 16-bit words' sum. -/
def onesSum (n : Nat) : Nat :=
  let a := n % 65536 + n / 65536
  a % 65536 + a / 65536

/-- The UDP checksum over IPv6 of a datagram whose header carries 0 in its place. -/
def udpSum (src dst : BitVec 128) (datagram : List Byte) : Nat :=
  let c := 65535 - onesSum (wordSum (beBytes 16 src.toNat ++ beBytes 16 dst.toNat ++ beBytes 4 datagram.length ++ beBytes 4 17 ++ datagram))
  if c = 0 then 65535 else c

/-- A UDP datagram with its checksum. -/
def udpBytes (srcIp dstIp : BitVec 128) (srcPort dstPort : BitVec 16) (content : List Byte) : List Byte :=
  let ports := beBytes 2 srcPort.toNat ++ beBytes 2 dstPort.toNat ++ beBytes 2 (8 + content.length)
  ports ++ beBytes 2 (udpSum srcIp dstIp (ports ++ [0, 0] ++ content)) ++ content

/-- A frame up to its FCS: what stands around a content, in order (R381, R382). -/
def frameAround (h : FrameHdr) (content : List Byte) : List Byte :=
  match h with
  | .crew dst src ty => beBytes 6 dst.toNat ++ beBytes 6 src.toNat ++ beBytes 2 ty.toNat ++ content
  | .uplink dst src vlan dscp ecn flow hops _ srcIp dstIp sp dp _ =>
    beBytes 6 dst.toNat ++ beBytes 6 src.toNat ++
    (match vlan with
      | some v => beBytes 2 0x8100 ++ beBytes 2 (v.1.toNat <<< 13 + v.2.toNat)
      | none => []) ++
    beBytes 2 0x86DD ++
    beBytes 4 (6 <<< 28 + dscp.toNat <<< 22 + ecn.toNat <<< 20 + flow.toNat) ++ beBytes 2 (8 + content.length) ++ [17, hops] ++
    beBytes 16 srcIp.toNat ++ beBytes 16 dstIp.toNat ++ udpBytes srcIp dstIp sp dp content
  | .standard ty _ => beBytes 2 ty.toNat ++ content

/-- One bit of the CRC-32 of IEEE 802.3. -/
def crcBit (c : BitVec 32) : BitVec 32 := if c.getLsbD 0 then (c >>> 1) ^^^ 0xEDB88320 else c >>> 1

/-- The FCS of a frame (IEEE 802.3). -/
def fcsOf (bs : List Byte) : BitVec 32 :=
  ~~~(bs.foldl (fun c b => crcBit (crcBit (crcBit (crcBit (crcBit (crcBit (crcBit (crcBit (c ^^^ b.setWidth 32))))))))) 0xFFFFFFFF)

/-- A VMT frame as it stands on a link: a frame whose FCS cannot match ends with the complement of its FCS (R398). -/
def vmtFrame (h : FrameHdr) (shim : Shim) (op : Byte) (p : Packet) (fcsOk : Bool) : List Byte :=
  let body := frameAround h (leBytes 4 (shimBits shim) ++ packetBytes op p)
  body ++ leBytes 4 (if fcsOk then fcsOf body else ~~~(fcsOf body)).toNat

/-! ### What stands around a frame of this device (R381, R382, R385) -/

/-- The IPv6 address of a node (R385). -/
def nodeAddress (s : State) (n : BitVec 18) : BitVec 128 :=
  BitVec.ofNat 128 (devFld s oFABRIC_NODE 0 447 384 <<< 64 + devFld s oFABRIC_NODE 0 383 338 <<< 18 + n.toNat)

/-- The MAC address of a port. -/
def portMac (s : State) (p : Fin 32) : BitVec 48 := BitVec.ofNat 48 (devFld s oFABRIC_NODE 0 319 272 + p.val)

/-- PFC priority of a virtual lane (R403, R405). -/
def pfcPri (s : State) (vl : BitVec 3) : Nat := devFld s oLINK_CFG 0 (184 + 3 * vl.toNat + 2) (184 + 3 * vl.toNat)

/-- DSCP of a virtual lane (R382, R405). -/
def dscpOf (s : State) (vl : BitVec 3) : Nat := devFld s oLINK_CFG 0 (208 + 6 * vl.toNat + 5) (208 + 6 * vl.toNat)

/-- What stands around a frame with a shim that goes to a node on a path: `disc` for a DISC frame's group address. -/
def hdrTo (s : State) (p : Fin 32) (vl : BitVec 3) (disc : Bool) (dst : BitVec 18) (path : Nat) : FrameHdr :=
  let e := portEntry s p
  if isUplink s p then
    let sp := 49152 + 4 * (dst.toNat % 4096) + path
    .uplink (BitVec.ofNat 48 (pGateway e)) (portMac s p)
      (if pVlan e = 0 then none else some (BitVec.ofNat 3 (pfcPri s vl), BitVec.ofNat 12 (pVlan e)))
      (BitVec.ofNat 6 (dscpOf s vl)) 2 (BitVec.ofNat 20 sp) 64 false (nodeAddress s (ownNode s)) (nodeAddress s dst)
      (BitVec.ofNat 16 sp) (BitVec.ofNat 16 (devFld s oFABRIC_NODE 0 271 256)) true
  else .crew (if disc then 0x0180C200000E else (port s p).peerMac) (portMac s p) (BitVec.ofNat 16 (devFld s oFABRIC_NODE 0 255 240))

/-- Type of a kind of frame in the shim (R380); 0: it carries none. -/
def FrameKind.shimType : FrameKind → Nat
  | .credit => 2
  | .hello => 3
  | .proof => 3
  | .swap => 4
  | .accept => 4
  | .mgmtReply => 5
  | .unreachable => 5
  | _ => 0

/-- Time messages (R458): their UDP port on an uplink. -/
def FrameKind.timePort : FrameKind → Option Nat
  | .sync => some 319
  | .pdelayReq => some 319
  | .pdelayResp => some 319
  | .delayReq => some 319
  | .followUp => some 320
  | .announce => some 320
  | .pdelayRespFollowUp => some 320
  | _ => none

/-- Virtual lane of a kind of frame (R399). -/
def FrameKind.vl (k : FrameKind) : BitVec 3 := if k.timePort.isSome then 6 else 0

/-- Whether a kind of frame belongs to a virtual lane; LLDP, Neighbor Advertisements and PFC do not. -/
def FrameKind.laned (k : FrameKind) : Bool := k.shimType != 0 || k.timePort.isSome

/-- What stands around a frame of another kind. -/
def hdrOther (s : State) (p : Fin 32) (k : FrameKind) (dst : BitVec 18) (path : Nat) : FrameHdr :=
  if k.shimType ≠ 0 then hdrTo s p 0 (k.shimType == 3) dst path
  else
    match k.timePort with
    | some n => if isUplink s p then .standard 0x86DD (some (BitVec.ofNat 16 n)) else .standard 0x88F7 none
    | none => .standard (match k with | .lldp => 0x88CC | .pfc => 0x8808 | _ => 0x86DD) none

/-- What stands around a frame. -/
def hdrOf (s : State) (p : Fin 32) (f : QueuedFrame) : FrameHdr :=
  match f.body with
  | .own _ _ pkt => hdrTo s p f.shim.vl false pkt.dst pkt.path.toNat
  | .vmt _ pkt => hdrTo s p f.shim.vl false pkt.dst pkt.path.toNat
  | .other k _ dst path => hdrOther s p k dst path

/-- Whether an arriving frame stands in what its port takes (R381, R383): on an uplink its own address, no extension header,
udp_port and a right checksum; on a crew link the EtherType of its frames. -/
def hdrTakes (s : State) (p : Fin 32) (h : FrameHdr) : Bool :=
  match h with
  | .crew _ _ ty => !isUplink s p && ty.toNat == devFld s oFABRIC_NODE 0 255 240
  | .uplink _ _ _ _ _ _ _ ext _ dstIp _ dp sumOk =>
    isUplink s p && !ext && dstIp == nodeAddress s (ownNode s) && dp.toNat == devFld s oFABRIC_NODE 0 271 256 && sumOk
  | .standard _ _ => false

/-- The ECN CE mark of an arriving frame (R395). -/
def arrivalCe (a : Arrival) : Bool :=
  match a.hdr with
  | .uplink _ _ _ _ ecn _ _ _ _ _ _ _ _ => ecn == 3
  | _ => false

/-! ### Sizes and credits (R383, R400, R401) -/

/-- Bytes of a frame with a shim and `n` bytes behind it. -/
def shimFrame (e n : Nat) : Nat := if pKind e = 2 then 70 + n + (if pVlan e = 0 then 0 else 4) else 22 + n

/-- Bytes of a VMT frame with a payload of `n` bytes. -/
def frameSize (e n : Nat) : Nat := shimFrame e (56 + n)

/-- Bytes of the content of a frame of another kind. The layouts of DISC, LINKCTL and MGMT are the model's
(notes/assumptions/17), the lengths of time messages those of IEEE 1588 (PRESUMED, notes/assumptions/17). -/
def FrameKind.content (k : FrameKind) (fields : Nat) : Nat :=
  match k with
  | .hello => fields
  | .proof => fields
  | .swap => 8 * (fields - 1) + 16
  | .accept => 8 * (fields - 1) + 16
  | .credit => 4 * fields
  | .mgmtReply => 48 + (fields - 5)
  | .unreachable => 48 + (fields - 5)
  | .announce => 64
  | .pdelayReq => 54
  | .pdelayResp => 54
  | .pdelayRespFollowUp => 54
  | .lldp => 46
  | .advert => 72
  | .pfc => 46
  | _ => 44

/-- Bytes of a frame of another kind whose content has a number of fields. -/
def otherSize (e : Nat) (k : FrameKind) (fields : Nat) : Nat :=
  if k.shimType ≠ 0 then shimFrame e (k.content fields)
  else if k.timePort.isSome && pKind e == 2 then 66 + k.content fields
  else 18 + k.content fields

/-- Index of a virtual lane and class. -/
def creditIdx (vl : BitVec 3) (transit : Bool) : Fin 16 := Fin.ofNat 16 (2 * vl.toNat + if transit then 1 else 0)

/-- Credits of a virtual lane and class of a port (R400). -/
def creditGrant (e : Nat) (vl : BitVec 3) : Nat :=
  if vl = 0 || vl = 6 then 64 else if vl = 7 then 0 else (2048 * pLanes e - 128) / 10

/-- Credits a frame takes. -/
def frameCredits (bytes : Nat) : Nat := ceilDiv bytes 64

/-- Whether a frame belongs to a virtual lane, and so waits for its credits or its pause. -/
def QueuedFrame.laned (f : QueuedFrame) : Bool :=
  match f.body with
  | .own _ _ _ => true
  | .vmt _ _ => true
  | .other k _ _ _ => k.laned

/-- Whether a port has too few credits for a frame (R402). -/
def short (s : State) (p : Fin 32) (f : QueuedFrame) : Bool :=
  let q := port s p
  let i := creditIdx f.shim.vl f.shim.transit
  isCrew s p && f.laned && decide (creditGrant (portEntry s p) f.shim.vl < (q.credSent[i] - q.credBack[i]).toNat + frameCredits f.bytes)

/-- Whether the PFC priority of a virtual lane is paused (R403). -/
def lanePaused (s : State) (p : Fin 32) (vl : BitVec 3) : Bool := isUplink s p && (port s p).paused.getLsbD (pfcPri s vl)

/-- Steps 3 and 4 of a lane swap run: no frame is sent (R409). -/
def swapping (s : State) (p : Fin 32) : Bool := match (port s p).swap with | some w => w.accepted | none => false

/-- Whether a port can send a frame now. -/
def canSend (s : State) (p : Fin 32) (f : QueuedFrame) : Bool :=
  (port s p).st.live && !swapping s p && !short s p f && !(f.laned && lanePaused s p f.shim.vl)

/-- Free the receive credits that a waiting frame held. -/
def freeHeld (f : QueuedFrame) (s : State) : State :=
  match f.held with
  | none => s
  | some (p, i, n) => modPort p (fun q => { q with
      credHeld := vmod q.credHeld i (fun c => c - BitVec.ofNat 32 n), credFreed := vmod q.credFreed i (fun c => c + BitVec.ofNat 32 n) }) s

/-- Keys of a job with the fabric key as the packet engine of an I/O die holds it (R501). -/
def packetKeys (s : State) (x1 : Bool) (slot : Fin 64) : Option JobKeys :=
  match s.sec.jobKeys[slot], s.sec.pktTables[if x1 then (1 : Fin 2) else 0][slot] with
  | some k, some f => some { k with fabKey := f }
  | _, _ => none

/-- A packet of a job at the start of its transmission: it has the next transmit count and the time of this tick (R340, R341,
R460). -/
def stampNow (slot : Fin 64) (pkt : Packet) (s : State) : Packet :=
  { pkt with txc := s.jobs[slot].vmt.txc, time := BitVec.ofNat 40 s.clock.now }

/-- Send a frame out of a port: it is counted. A packet of the device's own is stamped and sealed now; one whose job has lost
its key meanwhile is not sent. -/
def emitFrame (p : Fin 32) (f : QueuedFrame) (s : State) : State :=
  let go := modPortErr p (fun e => { e with framesTx := e.framesTx + 1 })
  match f.body with
  | .own slot op pkt =>
    (match packetKeys s (ioDie s p) slot with
      | none => s
      | some k =>
        emit (.vmt p (hdrOf s p f) f.shim op (sealPacket k op (stampNow slot pkt s)) (!f.badFcs))
          (modVmt slot (fun v => { v with txc := v.txc + 1 }) (go s)))
  | .vmt op pkt => emit (.vmt p (hdrOf s p f) f.shim op pkt (!f.badFcs)) (go s)
  | .other k data dst path => emit (.frame p (hdrOther s p k dst path) k data) (go s)

/-- Put a frame on the wire: it takes its credits. -/
def putFrame (p : Fin 32) (f : QueuedFrame) (s : State) : State :=
  let i := creditIdx f.shim.vl f.shim.transit
  let s := if isCrew s p && f.laned then
      modPort p (fun q => { q with credSent := vmod q.credSent i (fun c => c + BitVec.ofNat 32 (frameCredits f.bytes)) }) s
    else s
  freeHeld f (emitFrame p f s)

/-! ### Arbitration (R399) -/

/-- The frames that are first in their virtual lane and class: one that waits holds back those behind it. -/
def firstFrames (q : List QueuedFrame) : List QueuedFrame :=
  (q.foldl (fun (acc : List QueuedFrame × List (Fin 16)) f =>
    let i := creditIdx f.shim.vl f.shim.transit
    if !f.laned then (acc.1 ++ [f], acc.2)
    else if acc.2.contains i then acc
    else (acc.1 ++ [f], i :: acc.2)) ([], [])).1

/-- Rank of a virtual lane in egress arbitration. -/
def vlRank (vl : BitVec 3) : Nat := if vl = 6 then 0 else if vl = 0 then 1 else if vl = 2 then 2 else 3

/-- The lanes of the weighted round robin, in order of their weights. -/
def rrLane (k : Fin 4) : BitVec 3 := if k = 0 then 1 else BitVec.ofNat 3 (k.val + 2)

/-- Weight of a lane of the round robin (R405). -/
def rrWeight (s : State) (k : Fin 4) : Nat := devFld s oLINK_CFG 0 (168 + 4 * k.val + 3) (168 + 4 * k.val)

/-- The turns that the round robin tries, with the frames left to each: the running turn, then the others and itself anew.
A weight counts frames (DESIGN CHOICE, notes/assumptions/49). -/
def rrTurns (s : State) (p : Fin 32) : List (Fin 4 × Nat) :=
  let q := port s p
  (if q.rrLeft = 0 then [] else [(q.rrTurn, q.rrLeft)]) ++
    [q.rrTurn + 1, q.rrTurn + 2, q.rrTurn + 3, q.rrTurn].map (fun k => (k, rrWeight s k))

/-- The frame that a port sends next, with the turn of the round robin and the frames left to it. -/
def nextFrame (s : State) (p : Fin 32) : Option (QueuedFrame × Fin 4 × Nat) :=
  let q := port s p
  let fs := (firstFrames q.queue).filter (canSend s p)
  match [0, 1, 2].findSome? (fun k => fs.find? (fun f => vlRank f.shim.vl == k)) with
  | some f => some (f, q.rrTurn, q.rrLeft)
  | none => (rrTurns s p).findSome? (fun t => (fs.find? (fun f => f.shim.vl == rrLane t.1)).map (fun f => (f, t.1, t.2 - 1)))

/-- Send the waiting frames of a port that it can send, at most a number of them. -/
def drainN (p : Fin 32) : Nat → State → State
  | 0, s => s
  | n + 1, s =>
    match nextFrame s p with
    | none => s
    | some (f, turn, left) =>
      drainN p n (putFrame p f (modPort p (fun q => { q with queue := q.queue.erase f, rrTurn := turn, rrLeft := left }) s))

/-- Send the waiting frames of a port that it can send. -/
def drainPort (p : Fin 32) (s : State) : State := drainN p (port s p).queue.length s

/-- Queue a frame at a port and send what can be sent. -/
def enqueue (p : Fin 32) (f : QueuedFrame) (s : State) : State :=
  drainPort p (modPort p (fun q => { q with queue := q.queue ++ [f] }) s)

/-- Discard the frames that wait at a port (R396). -/
def flushQueue (p : Fin 32) (s : State) : State :=
  let fs := (port s p).queue
  forEach fs freeHeld (modPort p (fun q => { q with queue := [] }) s)

/-- A frame of another kind than VMT. -/
def otherFrame (s : State) (p : Fin 32) (k : FrameKind) (data : List Nat) (dst : BitVec 18) (path : Nat) : QueuedFrame :=
  { shim := { kind := BitVec.ofNat 4 k.shimType, vl := k.vl, transit := false, hop := 0, ceEcho := false, rsv := 0 }
    body := .other k data dst path, bytes := otherSize (portEntry s p) k data.length, held := none, badFcs := false }

/-- Send a frame of another kind than VMT to a node on a path: on a port that is not UP or DEMOTED, which gives no credits, it
leaves at once. -/
def sendTo (p : Fin 32) (k : FrameKind) (data : List Nat) (dst : BitVec 18) (path : Nat) (s : State) : State :=
  let f := otherFrame s p k data dst path
  if (port s p).st.live then enqueue p f s else emitFrame p f s

/-- Send a frame of another kind than VMT to the partner of a port. -/
def sendOther (p : Fin 32) (k : FrameKind) (data : List Nat) (s : State) : State := sendTo p k data 0 0 s

/-- Bytes as numbers. -/
def nats (bs : List Byte) : List Nat := bs.map BitVec.toNat

/-- The tag of a MGMT frame under a management key, with the nonce of R341: the target, the source, the send counter and the time
are additional data. The order of the fields is the model's (notes/assumptions/17). -/
def mgmtTag (key : BitVec 256) (dst src : BitVec 18) (ctr : BitVec 64) (time : Nat) (body : List Byte) : BitVec 128 :=
  Config.gcmTag key (nonceOf ctr src) ([dst.toNat, src.toNat, ctr.toNat, time].flatMap (leBytes 8)) body

/-- The content of a MGMT frame to a node (R511): the nodes, the send counter, the time, a body, and the tag under the current
management key. -/
def mgmtContent (s : State) (dst : BitVec 18) (body : List Byte) : List Nat :=
  let n := s.sec.mgmtSent
  let tag := match s.sec.mgmtKey with
    | some k => (mgmtTag k dst (ownNode s) n s.clock.now body).toNat
    | none => 0
  [dst.toNat, (ownNode s).toNat, n.toNat, s.clock.now] ++ nats body ++ [tag]

/-- Send a MGMT frame out of a port to a node on a path: it takes the next send counter. None is sent without a current
management key (R511), nor to a partner that has not passed discovery (R513). -/
def sendMgmtOn (p : Fin 32) (k : FrameKind) (dst : BitVec 18) (path : Nat) (body : List Byte) (s : State) : State :=
  if s.sec.mgmtKey.isNone || !(port s p).st.live then s
  else sendTo p k (mgmtContent s dst body) dst path { s with sec := { s.sec with mgmtSent := s.sec.mgmtSent + 1 } }

/-- A frame dropped on receipt (R472). -/
def dropFrame (p : Fin 32) (s : State) : State := modPortErr p (fun e => { e with dropped := e.dropped + 1 }) s

/-- A frame received (R472). -/
def countRx (p : Fin 32) (s : State) : State := modPortErr p (fun e => { e with framesRx := e.framesRx + 1 }) s

/-- The receive credits of a frame of `bytes` bytes are freed as the device has consumed it (R401). -/
def freeRx (p : Fin 32) (vl : BitVec 3) (transit : Bool) (bytes : Nat) (s : State) : State :=
  if isCrew s p && (port s p).st.live then
    modPort p (fun q => { q with
      credIn := vmod q.credIn (creditIdx vl transit) (fun c => c + BitVec.ofNat 32 (frameCredits bytes))
      credFreed := vmod q.credFreed (creditIdx vl transit) (fun c => c + BitVec.ofNat 32 (frameCredits bytes)) }) s
  else s

/-- A received frame of another kind than VMT is consumed. -/
def consumeFrame (p : Fin 32) (k : FrameKind) (fields : Nat) (s : State) : State :=
  freeRx p k.vl false (otherSize (portEntry s p) k fields) s

/-! ### Priority flow control (R403) -/

/-- Bytes of the buffer of an UPLINK that a virtual lane may fill. The spec gives shares to CREW ports only: the same shares
stand here (DESIGN CHOICE, notes/assumptions/49). -/
def laneShare (e : Nat) (vl : BitVec 3) : Nat := 64 * (if vl = 0 || vl = 6 then 64 else 2 * creditGrant e vl)

/-- Virtual lanes of a PFC priority. -/
def prioLanes (s : State) (prio : Nat) : List (Fin 8) := (List.finRange 8).filter (fun v => pfcPri s (BitVec.ofNat 3 v.val) == prio)

/-- Pause a priority at 75 % of the share of its lanes, and release it at 50 %. -/
def pfcCheck (p : Fin 32) (prio : Nat) (s : State) : State :=
  let ls := prioLanes s prio
  let fill := (ls.map (fun v => (port s p).rxFill[v])).foldl (· + ·) 0
  let share := (ls.map (fun v => laneShare (portEntry s p) (BitVec.ofNat 3 v.val))).foldl (· + ·) 0
  let bit : BitVec 8 := 1 <<< prio
  let on := (port s p).pausing.getLsbD prio
  if !on && decide (0 < share ∧ 3 * share ≤ 4 * fill) then
    sendOther p .pfc [prio, 1] (modPort p (fun q => { q with pausing := q.pausing ||| bit }) s)
  else if on && decide (2 * fill ≤ share) then
    sendOther p .pfc [prio, 0] (modPort p (fun q => { q with pausing := q.pausing &&& ~~~bit }) s)
  else s

/-- The receive buffer of an UPLINK is worked off: no byte is left in it, and the priorities that it had paused are released.
How fast a frame leaves the buffer is no rule: the model empties it with a tick (DESIGN CHOICE, notes/assumptions/49). -/
def drainRx (p : Fin 32) (s : State) : State :=
  if (port s p).rxFill.toList.all (· == 0) then s
  else
    forEach (List.range 8) (fun k st => pfcCheck p k st) (modPort p (fun q => { q with rxFill := Vector.replicate 8 0 }) s)

/-- The bytes that a virtual lane holds in the receive buffer of an UPLINK change. -/
def rxFillTo (p : Fin 32) (vl : BitVec 3) (f : Nat → Nat) (s : State) : State :=
  if isUplink s p then
    pfcCheck p (pfcPri s vl) (modPort p (fun q => { q with rxFill := vmod q.rxFill (Fin.ofNat 8 vl.toNat) f }) s)
  else s

end Sys2Proof.Machine
end

