-- ==== Sys2Proof/Machine/HostOps.lean ====
section
/-! DEFINITION. Replies of the Cox and trace records (spec/16_host_mailbox.md R548, R552;
spec/13_time_and_counters.md R463 to R466). -/

namespace Sys2Proof.Machine

/-! ### Replies -/

/-- What a reply says beside the fields it copies from its command (R548). -/
structure ReplyBody where
  status : BitVec 8
  detail : Nat
  indDone : Nat
  length : Nat
  payload : Nat
  deriving DecidableEq, Repr

/-- A reply without payload. -/
def ReplyBody.of (status : BitVec 8) : ReplyBody := ⟨status, 0, 0, 0, 0⟩

/-- A refusal that names the offending byte of the command slot (R548). -/
def ReplyBody.at_ (status : BitVec 8) (off : Nat) : ReplyBody := ⟨status, off, 0, 0, 0⟩

/-- An OK reply with an inline payload. -/
def ReplyBody.data (len payload : Nat) : ReplyBody := ⟨stOK, 0, 0, len, payload⟩

/-- job_state of a reply for a handle: 0xFF when it names no job (R548, R558). -/
def replyJobState (s : State) (handle : BitVec 16) : Nat :=
  let slot : Fin 64 := Fin.ofNat 64 (handle.toNat / 1024)
  if handle = 0 then 0xFF
  else if (ctl s slot).incarnation.toNat = handle.toNat % 1024 && jobSt s slot ≠ .empty then (jobSt s slot).code
  else if (ctl s slot).incarnation.toNat = handle.toNat % 1024 then 0
  else 0xFF

/-- The 256 bytes of a reply (R548). -/
def replyImage (s : State) (opcode seq handle : BitVec 16) (b : ReplyBody) : BitVec 2048 :=
  BitVec.ofNat 2048 (opcode.toNat + seq.toNat <<< 16 + b.length <<< 32 + handle.toNat <<< 48 +
    b.status.toNat <<< 64 + replyJobState s handle <<< 80 + b.indDone <<< 96 + b.detail <<< 128 +
    (s.clock.now % 2 ^ 64) <<< 192 + b.payload <<< 256)

/-- Write a reply: the slot, then the bit of MB_IRQ; a final reply clears MB_BUSY in the same step
(R548), and vector 0 fires unless masked (R545). -/
def writeReply (fn : Fin 65) (mb : Fin 16) (img : BitVec 2048) (final : Bool) (s : State) : State :=
  let s := modHost fn (fun h => { h with
    reply := h.reply.set mb img
    irq := h.irq ||| (1#16 <<< mb.val)
    busy := if final then h.busy &&& ~~~(1#16 <<< mb.val) else h.busy }) s
  if s.host[fn].irqMask.getLsbD mb.val then s else fireVector fn 0 s

/-- Send a reply in a MGMT frame through the port that the command came from (R511). -/
def mgmtReply (p : Fin 32) (dst : BitVec 18) (img : BitVec 2048) (s : State) : State :=
  sendMgmtOn p .mgmtReply dst 0 (leBytes 256 img.toNat) s

/-- A reply goes where its command came from. -/
def answer (fn : Fin 65) (mb : Fin 16) (mgmt : Option (Fin 32 × BitVec 18)) (img : BitVec 2048) (final : Bool) (s : State) : State :=
  match mgmt with
  | some m => mgmtReply m.1 m.2 img s
  | none => writeReply fn mb img final s

/-- Final reply of a running command, which leaves the list of running commands (R552). -/
def finishBg (c : BgCmd) (b : ReplyBody) (s : State) : State :=
  let s := { s with cox := { s.cox with running := s.cox.running.filter (fun d => !(d == c)) } }
  answer c.fn c.mb c.mgmt (replyImage s c.opcode c.seq c.handle b) true s

/-- Final replies of every running command that a test picks, in order. -/
def finishAll (p : BgCmd → Bool) (b : ReplyBody) (s : State) : State :=
  forEach (s.cox.running.filter p) (fun c st => finishBg c b st) s

/-- The job slot that a running command works for (R554). -/
def BgCmd.slot (c : BgCmd) : Option (Fin 64) :=
  match c.work with
  | .pause i => some i
  | .free i => some i
  | .revoke i => some i
  | .window i _ => some i
  | .tally _ _ _ _ => slotOfFn c.fn
  | _ => if c.handle = 0 then none else some (Fin.ofNat 64 (c.handle.toNat / 1024))

/-! ### Trace streams -/

/-- The 32 bytes of a trace record (R465). -/
def traceRecord (now kind pass slot die payload : Nat) : Nat :=
  (now % 2 ^ 32) <<< 224 + kind <<< 216 + (pass % 256) <<< 208 + slot <<< 202 + die <<< 200 + payload % 2 ^ 192

/-- Records of a ring (R463). -/
def traceSize (cfg : Nat) : Nat := 256 * 2 ^ fld cfg 11 8

/-- Write one record at the stream's index: into job memory, or by DMA for the operator's stream, where the host may fail the
write, which is a free value (R463, R464). -/
def putTrace (scope : Option (Fin 64)) (die : Fin 4) (r : TraceRec) (s : State) : State × Bool :=
  let cfg := traceCfg s scope die
  let st := getStream s scope die
  let size := traceSize cfg
  let i := st.wr.toNat
  let addr := fld cfg 255 192 + 32 * (i % size)
  let bytes := leBytes 32 (traceRecord r.time r.kind (i / size) r.slot r.die r.payload)
  match scope with
  | some k =>
    let w := jobWrite k addr bytes s
    if w.2 = .ok then (setStream scope die (fun t => { t with wr := t.wr + 1 }) w.1, true)
    else (w.1, false)
  | none =>
    let d := draw s
    if (Config.freeValue d.1).getLsbD 0 then (d.2, false)
    else (setStream scope die (fun t => { t with wr := t.wr + 1 }) (emit (.dmaWrite pf0 (BitVec.ofNat 64 addr) bytes false) d.2), true)

/-- A buoy with what is known when it is written: the records lost since the last one, and its index (R466). -/
def buoyRec (t : Stream) (r : TraceRec) : TraceRec := { r with payload := r.payload + t.lostBuoy.toNat <<< 96 + t.wr.toNat <<< 64 }

/-- Write a buoy of a stream (R466): it never counts toward lost, and one that cannot be written stays due. -/
def putBuoy (scope : Option (Fin 64)) (die : Fin 4) (r : TraceRec) (s : State) : State :=
  let w := putTrace scope die (buoyRec (getStream s scope die) r) s
  setStream scope die (fun t => if w.2 then { t with needBuoy := false, lostBuoy := 0 } else { t with needBuoy := true }) w.1

/-- Write a record that waited, behind a buoy when one is due; a record whose write faults is lost (R464, R466). -/
def drainRec (scope : Option (Fin 64)) (die : Fin 4) (r : TraceRec) (s : State) : State :=
  if r.kind = 1 then putBuoy scope die r s
  else
    let s := if (getStream s scope die).needBuoy then putBuoy scope die { r with time := s.clock.now, kind := 1, payload := (s.clock.now % 2 ^ 64) <<< 128 } s else s
    let w := putTrace scope die r s
    if w.2 then w.1 else setStream scope die Stream.lose w.1

/-- Write the records that wait in a stream, in order. -/
def drainStream (scope : Option (Fin 64)) (die : Fin 4) (s : State) : State :=
  match (getStream s scope die).queue with
  | [] => s
  | q => forEach q (drainRec scope die) (setStream scope die (fun t => { t with queue := [] }) s)

/-- Write the records that wait in every stream: the trace units do so with a tick (DESIGN CHOICE, notes/assumptions/2). -/
def drainTraces (s : State) : State :=
  forEach (none :: allSlots.map some) (fun sc st => forEach allDies (fun d st => drainStream sc d st) st) s

end Sys2Proof.Machine
end

