-- ==== Sys2Proof/Machine/Arrays.lean ====
section
/-! DEFINITION. Arrays in job memory: descriptors, layout, reading and writing elements and blocks
(spec/02_number_formats.md R34 to R41, spec/03_matrix_engines.md R86). -/

namespace Sys2Proof.Machine

/-- An array as its 32-byte descriptor names it (R86). -/
structure Arr where
  elem : Nat
  exp : Nat
  conv : Nat
  rows : Nat
  cols : Nat
  trans : Bool
  deriving DecidableEq, Repr

/-- Split an array descriptor (R86). -/
def arrOf (d : Nat) : Arr :=
  { elem := fld d 47 0, exp := fld d 111 64, conv := fld d 159 128, rows := fld d 183 160,
    cols := fld d 215 192, trans := bitAt d 224 }

/-- RSV fields of an array descriptor are 0. -/
def arrRsvOk (d : Nat) : Bool :=
  fld d 255 225 == 0 && fld d 223 216 == 0 && fld d 191 184 == 0 && fld d 127 112 == 0 && fld d 63 48 == 0

def Arr.fmt (a : Arr) : Nat := convFmt a.conv
def Arr.axis (a : Arr) : Nat := convAxis a.conv
/-- Pieces stored in element planes of their own: 1 to 3 for BS8, one for every other format, whose pieces field says how
the operand feed cuts it (R39, R45). -/
def Arr.pieces (a : Arr) : Nat := if a.fmt == fBS8 then convPieces a.conv + 1 else 1

/-- Formats with an exponent or header plane. -/
def Arr.blocked (a : Arr) : Bool := decide (a.fmt ≤ 5)

/-- Whether an element plane pads its columns (R35); VOTE2 packs 32 votes in 8 bytes of a row. -/
def Arr.colsP (a : Arr) : Nat :=
  if (a.blocked && a.axis == 0) || a.fmt == fVOTE2 then alignUp a.cols 32 else a.cols

/-- Rows of the element plane, padded for axis 1 (R36). -/
def Arr.rowsP (a : Arr) : Nat := if a.blocked && a.axis == 1 then alignUp a.rows 32 else a.rows

/-- Bytes of one element plane. -/
def Arr.planeBytes (a : Arr) : Nat := ceilDiv (a.rowsP * a.colsP * fmtBits a.fmt) 8

/-- Bytes of the exponent or header plane. -/
def Arr.expBytes (a : Arr) : Nat :=
  if a.blocked then (a.rowsP * a.colsP / 32) * (if a.fmt == fAC32 then 2 else 1) else 0

/-- Address of the element plane of a piece (R39). -/
def Arr.plane (a : Arr) (piece : Nat) : Nat := a.elem + piece * alignUp a.planeBytes 64

/-- Bytes the whole element side takes, pieces included. -/
def Arr.elemBytes (a : Arr) : Nat :=
  if a.pieces = 1 then a.planeBytes
  else (a.pieces - 1) * alignUp a.planeBytes 64 + a.planeBytes

/-- Index of the block that holds element `(r, c)` in the exponent plane (R35, R36). -/
def Arr.blockIdx (a : Arr) (r c : Nat) : Nat :=
  if a.axis = 0 then r * (a.colsP / 32) + c / 32 else (r / 32) * a.cols + c

/-- Cells of block `b` of line `i`: a row for axis 0, a column for axis 1. -/
def Arr.cell (a : Arr) (i b k : Nat) : Nat × Nat :=
  if a.axis = 0 then (i, 32 * b + k) else (32 * b + k, i)

/-- Pattern of element `(r, c)` of a piece. -/
def arrBits (s : State) (slot : Fin 64) (a : Arr) (piece r c : Nat) : Nat × MStat :=
  let i := r * a.colsP + c
  let w := fmtBits a.fmt
  if w < 8 then
    let per := 8 / w
    let x := jobNat s slot (a.plane piece + i / per) 1
    (fld x.1 (w * (i % per) + w - 1) (w * (i % per)), x.2)
  else jobNat s slot (a.plane piece + i * (w / 8)) (w / 8)

/-- Integer of an element pattern of a block format. -/
def elemInt (f v : Nat) : Int :=
  if f == fBU8 || f == fBU4 then (v : Int) else toSigned (fmtBits f) v

/-- Exponent byte of the block that holds `(r, c)`. -/
def arrExp (s : State) (slot : Fin 64) (a : Arr) (r c : Nat) : Nat × MStat :=
  if a.fmt == fAC32 then
    let x := jobNat s slot (a.exp + 2 * a.blockIdx r c) 2
    (x.1 % 256, x.2)
  else jobNat s slot (a.exp + a.blockIdx r c) 1

/-- Value of an element whose pieces are `qs`, in a block of exponent `e`: the sum of the pieces of a split array, of
which piece 0 holds the code of a non-finite element (R59). -/
def piecesVal (f e : Nat) (qs : List Int) : Val :=
  if e = 0 ∨ e = 255 ∨ qs.length ≤ 1 then blockVal f e (qs.getD 0 0)
  else Val.ofDy ((List.zip (List.range qs.length) qs).foldl (fun s p => s.add ⟨p.2, (e : Int) - 133 - 7 * (p.1 : Int)⟩) Dy.zero)

/-- Value of element `(r, c)` of an array in any format but VOTE2. That a vector load takes the sum of the pieces of a
split array is DEDUCED from R59 (notes/assumptions/46). -/
def arrVal (s : State) (slot : Fin 64) (a : Arr) (r c : Nat) : Val × MStat :=
  if isFloatFmt a.fmt then let x := arrBits s slot a 0 r c; ((fmtFloat a.fmt).decode x.1, x.2)
  else if a.fmt == fEA40 then let x := arrBits s slot a 0 r c; ((EA40.ofBytes (leBytes 6 x.1)).val, x.2)
  else
    let xs := (List.range a.pieces).map (fun p => arrBits s slot a p r c)
    let e := arrExp s slot a r c
    (piecesVal a.fmt e.1 (xs.map (fun x => elemInt a.fmt x.1)), (xs.foldl (fun m x => m.and x.2) MStat.ok).and e.2)

/-- A value as binary32 (R73). At E = 254 an element of a block format may be 2^128 or more in magnitude, which the
spec calls exact and binary32 cannot hold: that value is free (notes/assumptions/46). -/
def loadF32 (v : Val) : F32 :=
  match v with
  | .fin d => if fmtF32.maxBits < fmtF32.roundMag d ∧ d.m ≠ 0 then Config.beyondF32 d.m d.e else f32of v
  | v => f32of v

/-- Block `b` of line `i` of a piece, as stored (R37). -/
def arrBlock (s : State) (slot : Fin 64) (a : Arr) (piece i b : Nat) : Block × MStat :=
  let qs := (List.range 32).map (fun k =>
    let rc := a.cell i b k
    arrBits s slot a piece rc.1 rc.2)
  let rc := a.cell i b 0
  let e := arrExp s slot a rc.1 rc.2
  (⟨e.1, qs.map (fun x => elemInt a.fmt x.1)⟩, (qs.foldl (fun m x => m.and x.2) MStat.ok).and e.2)

/-- Write element pattern `(r, c)` of a piece; a 4-bit or 2-bit element is merged into its byte. -/
def putBits (slot : Fin 64) (a : Arr) (piece r c v : Nat) (s : State) : State × MStat :=
  let i := r * a.colsP + c
  let w := fmtBits a.fmt
  if w < 8 then
    let per := 8 / w
    let x := jobRmw slot (a.plane piece + i / per) 1 (fun o => setFld o (w * (i % per) + w - 1) (w * (i % per)) v) s
    (x.2.2, x.2.1)
  else jobWrite slot (a.plane piece + i * (w / 8)) (leBytes (w / 8) v) s

/-- Thread a write through a list, keeping the first failure. -/
def writeAll {α : Type} (l : List α) (f : α → State → State × MStat) (s : State) : State × MStat :=
  l.foldl (fun acc x => let r := f x acc.1; (r.1, acc.2.and r.2)) (s, .ok)

/-- Write block `b` of line `i` of a piece: those of its elements that `inside` names, and its exponent with piece 0. -/
def putBlockIn (slot : Fin 64) (a : Arr) (inside : Nat × Nat → Bool) (piece i b : Nat) (blk : Block) (s : State) : State × MStat :=
  let r := writeAll ((List.zip (List.range 32) blk.q).filter (fun p => inside (a.cell i b p.1))) (fun p st =>
    let rc := a.cell i b p.1
    putBits slot a piece rc.1 rc.2 (ofSigned (fmtBits a.fmt) p.2) st) s
  if piece = 0 then
    let rc := a.cell i b 0
    let w := jobWrite slot (a.exp + a.blockIdx rc.1 rc.2) (leBytes 1 blk.e) r.1
    (w.1, r.2.and w.2)
  else r

/-- Write block `b` of line `i` of a piece whole. -/
def putBlock (slot : Fin 64) (a : Arr) (piece i b : Nat) (blk : Block) (s : State) : State × MStat :=
  putBlockIn slot a (fun _ => true) piece i b blk s

/-- Write 32 values as block `b` of line `i`, converted by the array's own CONV word: `to_block`, or
`split_cut` for a split array (R46, R93, R94). Only the cells that `inside` names are written. -/
def putValsIn (slot : Fin 64) (a : Arr) (inside : Nat × Nat → Bool) (i b : Nat) (xs : List Val) (s : State) : State × MStat × Cnt :=
  if a.pieces = 1 then
    let c := toBlock xs a.fmt (convFixed a.conv)
    let r := putBlockIn slot a inside 0 i b c.1 s
    (r.1, r.2, c.2)
  else
    let c := splitCut xs a.pieces
    let r := writeAll (List.zip (List.range a.pieces) c.2.1) (fun p st => putBlockIn slot a inside p.1 i b ⟨c.1, p.2⟩ st) s
    (r.1, r.2, c.2.2)

/-- Write 32 values as a whole block. -/
def putVals (slot : Fin 64) (a : Arr) (i b : Nat) (xs : List Val) (s : State) : State × MStat × Cnt :=
  putValsIn slot a (fun _ => true) i b xs s

/-- Write one value at `(r, c)` of a float or EA40 array (R74, R93). -/
def putVal (slot : Fin 64) (a : Arr) (r c : Nat) (v : Val) (s : State) : State × MStat × Cnt :=
  if a.fmt == fEA40 then
    let e := ea40OfVal v
    let w := putBits slot a 0 r c (leNat e.1.bytes) s
    (w.1, w.2, Cnt.satIf e.2)
  else
    let e := (fmtFloat a.fmt).encodeSat v
    let w := putBits slot a 0 r c e.1 s
    (w.1, w.2, Cnt.satIf e.2)

/-- Write the part of an array that lies in `rows` rows from `r0` and `cols` columns from `c0`, block by
block or element by element. A block's cells outside that part are written as 0: for the padding R37 and R95 say so;
for stored columns between N and the end of its last block, in an array wider than N, it is a DESIGN CHOICE
(notes/assumptions/45). -/
def putPart (slot : Fin 64) (a : Arr) (r0 rows c0 cols : Nat) (val : Nat → Nat → Val) (s : State) : State × MStat × Cnt :=
  let at_ := fun (r c : Nat) => if r0 ≤ r ∧ r < r0 + rows ∧ c0 ≤ c ∧ c < c0 + cols then val r c else .zero false
  let step := fun (acc : State × MStat × Cnt) (x : State × MStat × Cnt) => (x.1, acc.2.1.and x.2.1, acc.2.2.add x.2.2)
  if rows = 0 ∨ cols = 0 then (s, .ok, Cnt.none)
  else if a.blocked then
    let lines := if a.axis = 0 then (r0, rows) else (c0, cols)
    let cells := if a.axis = 0 then (c0, cols) else (r0, rows)
    let b0 := cells.1 / 32
    let bn := (cells.1 + cells.2 - 1) / 32 + 1 - b0
    (List.range lines.2).foldl (fun acc i => (List.range bn).foldl (fun acc b =>
      let xs := (List.range 32).map (fun k => let rc := a.cell (lines.1 + i) (b0 + b) k; at_ rc.1 rc.2)
      step acc (putVals slot a (lines.1 + i) (b0 + b) xs acc.1)) acc) (s, .ok, Cnt.none)
  else
    (List.range rows).foldl (fun acc i => (List.range cols).foldl (fun acc j =>
      step acc (putVal slot a (r0 + i) (c0 + j) (val (r0 + i) (c0 + j)) acc.1)) acc) (s, .ok, Cnt.none)

/-- Bytes that hold element `(r, c)` of a piece. -/
def Arr.elemRange (a : Arr) (piece r c : Nat) : Nat × Nat :=
  let i := (r * a.colsP + c) * fmtBits a.fmt
  (a.plane piece + i / 8, ceilDiv (fmtBits a.fmt) 8)

/-- Bytes that hold the exponent of the block of `(r, c)`. -/
def Arr.expRange (a : Arr) (r c : Nat) : Nat × Nat :=
  if a.fmt = fAC32 then (a.exp + 2 * a.blockIdx r c, 2) else (a.exp + a.blockIdx r c, 1)

/-- Bytes that an element's pieces and its exponent take. -/
def Arr.valRanges (a : Arr) (r c : Nat) : List (Nat × Nat) :=
  (List.range a.pieces).map (fun p => a.elemRange p r c) ++ (if a.blocked then [a.expRange r c] else [])

/-- Bytes of the elements and of the exponent of the block that begins at `(r, c)`, in every piece. -/
def Arr.blockRanges (a : Arr) (r c : Nat) : List (Nat × Nat) :=
  let cell := fun k => if a.axis = 0 then (r, c + k) else (r + k, c)
  a.expRange r c :: (List.range a.pieces).flatMap (fun p => (List.range 32).map (fun k => a.elemRange p (cell k).1 (cell k).2))

/-- Whether two byte ranges meet. -/
def rangesMeet (a b : Nat × Nat) : Bool := decide (0 < a.2 ∧ 0 < b.2 ∧ a.1 < b.1 + b.2 ∧ b.1 < a.1 + a.2)

/-- Byte ranges of an array. -/
def Arr.ranges (a : Arr) : List (Nat × Nat) := [(a.elem, a.elemBytes), (a.exp, a.expBytes)]

/-- Whether two arrays share a byte. -/
def Arr.overlaps (a b : Arr) : Bool := a.ranges.any (fun x => b.ranges.any (rangesMeet x))

/-- Whether an array is wholly mapped with the rights asked for. -/
def Arr.isMapped (s : State) (slot : Fin 64) (a : Arr) (r w : Bool) : Bool :=
  a.ranges.all (fun x => mapped s slot x.1 x.2 r w)

/-- Read a descriptor record of `n` bytes. -/
def readDesc (s : State) (slot : Fin 64) (va n : Nat) : Nat × MStat := jobNat s slot va n

end Sys2Proof.Machine
end

