-- ==== Sys2Proof/Machine/Stash.lean ====
section
/-! DEFINITION. Retained entries: the stash and the gather cache (spec/08_memory.md R295 to R305). -/

namespace Sys2Proof.Machine

/-- Change a job's retained entries. -/
def modStash (slot : Fin 64) (f : Stash → Stash) (s : State) : State :=
  modJob slot (fun j => { j with stash := f j.stash }) s

/-- Fields of an entry descriptor (R296). -/
def eFb (d : Nat) : Nat := fld d 511 448
def eConv (d : Nat) : Nat := fld d 447 416
def eCols (d : Nat) : Nat := fld d 407 384
def eRows (d : Nat) : Nat := fld d 375 352
def eReads (d : Nat) : Nat := fld d 351 344
def eTrans (d : Nat) : Bool := bitAt d 340
def eComp (d : Nat) : Nat := fld d 339 338
def eKind (d : Nat) : Nat := fld d 337 336
def eLabel (d : Nat) : Nat := fld d 335 320

/-- The checks of R297 on an entry descriptor at an address. -/
def entryDescOk (addr d : Nat) : Bool :=
  addr % 64 == 0 && fld d 415 408 == 0 && fld d 383 376 == 0 && fld d 343 341 == 0 && fld d 319 256 == 0 &&
  decide (eKind d ≤ 1) && decide (eComp d ≤ 1) && convOk (eConv d) true && decide (convFmt (eConv d) ≤ 4) &&
  convPieces (eConv d) == 0 && decide (1 ≤ eRows d) && decide (1 ≤ eCols d) &&
  (if eKind d == 0 then eFb d == 0 else eFb d != 0)

/-- The checks of R44, R86 and R661 on the descriptor of a GATHER entry's fallback array, which the entry's writer writes. -/
def fallbackOk (s : State) (slot : Fin 64) (d : Nat) : Bool :=
  eKind d == 0 ||
    (let x := readDesc s slot (eFb d) 32
     let a := arrOf x.1
     eFb d % 32 == 0 && x.2 == .ok && arrRsvOk x.1 && convOk a.conv true && a.elem % 64 == 0 && (!a.blocked || a.exp % 64 == 0))

/-- The array that an entry stands for; its planes are not addressed (R300). -/
def entryArr (d : Nat) : Arr :=
  { elem := 0, exp := 0, conv := eConv d, rows := eRows d, cols := eCols d, trans := eTrans d }

/-- Tiles of an entry: 32 rows by 64 columns each (R300). -/
def entryTiles (d : Nat) : Nat := ceilDiv (eRows d) 32 * ceilDiv (eCols d) 64

/-- Bytes of a block in an entry's stored format. -/
def entryBlockBytes (d : Nat) : Nat := 32 * fmtBits (convFmt (eConv d)) / 8 + 1

/-- Bytes of a raw tile (R300). -/
def entryRaw (d : Nat) : Nat := 64 * entryBlockBytes d

/-- Pages of an entry's tile index: 8 bytes for each tile (08_memory, "Example: a stash that fills"). -/
def entryIndexPages (d : Nat) : Nat := ceilDiv (8 * entryTiles d) 65536

/-- Pages that hold every tile raw, the index included. -/
def entryRawPages (d : Nat) : Nat := ceilDiv (entryTiles d) (65536 / entryRaw d) + entryIndexPages d

/-- Pool sizes and bases of a job (R298). -/
def stashPages (s : State) (slot : Fin 64) : Nat := jobFld s oJOB_STASH slot 0 215 192
def gatherPages (s : State) (slot : Fin 64) : Nat := jobFld s oJOB_STASH slot 0 239 216
def stashBase (s : State) (slot : Fin 64) : Nat := jobFld s oJOB_STASH slot 0 111 64
def gatherBase (s : State) (slot : Fin 64) : Nat := jobFld s oJOB_STASH slot 0 159 112

/-- Live entries of a job: every entry that is not EMPTY (R295). -/
def liveEntries (s : State) (slot : Fin 64) : Nat := s.jobs[slot].stash.entries.length

/-- Pages of a pool that entries hold (R305). -/
def poolHeld (s : State) (slot : Fin 64) (gather : Bool) : List Nat :=
  (s.jobs[slot].stash.entries.filter (fun p => p.2.gather == gather)).flatMap (fun p => p.2.pages)

/-- The lowest free pages of a pool of `size` pages, `n` of them, when it has that many: which free page an entry is
given is a DESIGN CHOICE (notes/assumptions/47). -/
def poolTake (held : List Nat) (size n : Nat) : Option (List Nat) :=
  let free := ((List.range (min size (held.length + n))).filter (fun p => !held.contains p)).take n
  if free.length = n then some free else none

/-- Address of byte `off` of a page of an entry's pool. -/
def poolAddr (s : State) (slot : Fin 64) (gather : Bool) (page off : Nat) : Nat :=
  (if gather then gatherBase s slot else stashBase s slot) + 65536 * page + off

/-- Encoding of an entry's state (R296). -/
def EntrySt.code : EntrySt → Nat
  | .writing => 1
  | .held => 2
  | .spilled => 3
  | .absent => 4

/-- Bytes that an entry's stored tiles take, their headers included (R296). -/
def REntry.bytes (e : REntry) : Nat := (e.tiles.map (fun p => p.2.size)).foldl (· + ·) 0

/-- Status mirror of an entry (R296). -/
def entryMirror (e : Option REntry) (now : Nat) : Nat :=
  match e with
  | none => (now % 2 ^ 64) <<< 192
  | some e => (e.time % 2 ^ 64) <<< 192 + e.tiles.length <<< 160 + (e.bytes % 2 ^ 32) <<< 128 +
      (e.pages.length % 2 ^ 24) <<< 104 + (if e.spill then 8 else 0) + e.st.code

/-- Put an entry in its place, or take it off the list, and write the status mirror (R296). -/
def setEntry (slot : Fin 64) (addr : Nat) (e : Option REntry) (s : State) : State :=
  let s := modStash slot (fun t => { t with entries := match e with | some x => t.entries.put addr x | none => t.entries.del addr }) s
  (jobWrite slot addr (leBytes 32 (entryMirror e s.clock.now)) s).1

/-- Give an entry's pages back to its pool (R304). -/
def freePages (slot : Fin 64) (e : REntry) (s : State) : State :=
  modStash slot (fun t =>
    if e.gather then { t with gatherUsed := BitVec.ofNat 24 (t.gatherUsed.toNat - e.pages.length) }
    else { t with stashUsed := BitVec.ofNat 24 (t.stashUsed.toNat - e.pages.length) }) s

/-- Take stash pages: the highest use is kept in stash_peak (R298). -/
def takeStash (slot : Fin 64) (n : Nat) (s : State) : State :=
  modStash slot (fun t =>
    let u := t.stashUsed.toNat + n
    { t with stashUsed := BitVec.ofNat 24 u, stashPeak := BitVec.ofNat 24 (max t.stashPeak.toNat u) }) s

/-- Count an ACT entry that became ABSENT (R298, R302). -/
def countDrop (slot : Fin 64) (tiles : Nat) (s : State) : State :=
  modStash slot (fun t => { t with entriesDropped := satInc t.entriesDropped 1, tilesDropped := satInc t.tilesDropped tiles }) s

/-- An entry that a writer opens. -/
def REntry.opened (gather : Bool) (w : TaskRef) (now d fb : Nat) : REntry :=
  { st := .writing, gather := gather, spill := false, tiles := [], pages := [], room := 0, reads := 0, writer := some w,
    time := now, desc := d, fb := fb }

/-- An entry that became ABSENT: it holds no page and no tile. -/
def REntry.gone (e : REntry) (now : Nat) : REntry :=
  { e with st := .absent, spill := false, tiles := [], pages := [], room := 0, time := now, writer := none }

/-- An entry becomes ABSENT: its pages are freed, and an ACT entry is counted (R298, R302). -/
def dropEntry (slot : Fin 64) (addr : Nat) (e : REntry) (s : State) : State :=
  let s := freePages slot e s
  let s := if e.gather then s else countDrop slot (entryTiles e.desc) s
  setEntry slot addr (some (e.gone s.clock.now)) s

/-- Another GATHER writer opens with the same fb_desc: SPILLED entries there become ABSENT (R302). -/
def dropSpilled (slot : Fin 64) (addr fb : Nat) (s : State) : State :=
  forEach s.jobs[slot].stash.entries (fun p st =>
    if p.1 ≠ addr && p.2.st == .spilled && eFb p.2.desc == fb then setEntry slot p.1 (some (p.2.gone st.clock.now)) st else st) s

/-- Open an entry in WRITING for a writer, from a state without pages (R302). -/
def openFresh (slot : Fin 64) (addr d fb : Nat) (w : TaskRef) (s : State) : State :=
  if eKind d = 1 then
    let s := dropSpilled slot addr (eFb d) s
    let e := REntry.opened true w s.clock.now d fb
    match poolTake (poolHeld s slot true) (gatherPages s slot) (entryRawPages d) with
    | some ps =>
      let s := modStash slot (fun t => { t with gatherUsed := BitVec.ofNat 24 (t.gatherUsed.toNat + ps.length) }) s
      setEntry slot addr (some { e with pages := ps }) s
    | none =>
      let s := modStash slot (fun t => { t with spills := satInc t.spills 1 }) s
      setEntry slot addr (some { e with spill := true }) s
  else setEntry slot addr (some (REntry.opened false w s.clock.now d fb)) s

/-- A writer of an entry is released (R302): `none`, or the refusal's code. -/
def openWriter (slot : Fin 64) (addr : Nat) (w : TaskRef) (s : State) : State × Option (BitVec 8) :=
  let d := (readDesc s slot addr 64).1
  let fb := if eKind d = 1 then (readDesc s slot (eFb d) 32).1 else 0
  match s.jobs[slot].stash.entries.find addr with
  | none =>
    if 8192 ≤ liveEntries s slot then
      (dropEntry slot addr (REntry.opened (eKind d = 1) w s.clock.now d fb) s, none)
    else (openFresh slot addr d fb w s, none)
  | some e =>
    match e.st with
    | .writing => if e.writer = some w then (s, none) else (s, some stSTATE)
    | .absent => if 8192 ≤ liveEntries s slot then (s, none) else (openFresh slot addr d fb w s, none)
    | _ => (openFresh slot addr d fb w (setEntry slot addr (some { e with pages := [] }) (freePages slot e s)), none)

/-! ### Tiles -/

/-- Bytes of a block's elements in an entry's stored format. -/
def entryElemBytes (d : Nat) : Nat := 32 * fmtBits (convFmt (eConv d)) / 8

/-- Stored bytes of a tile, and whether it is raw: compressed when that is strictly smaller (R300). -/
def tileBytes (d : Nat) (blocks : List Block) : Nat × Bool :=
  let n := (blocks.filter (fun b => b.e != 0)).length
  let c := 8 + n * entryBlockBytes d
  if eComp d = 1 && decide (c < entryRaw d) then (c, false) else (entryRaw d, true)

/-- Line and block number within the entry's array of block `b` of tile `(ti, tj)`, in the layout of
R34 to R38 for a 32 by 64 array. -/
def tileBlockPos (axis ti tj b : Nat) : Nat × Nat :=
  if axis = 0 then (32 * ti + b / 2, 2 * tj + b % 2) else (64 * tj + b, ti)

/-- A raw tile at an address as an array: elements first, then exponents (R300). -/
def rawTile (d addr : Nat) : Arr :=
  { elem := addr, exp := addr + 64 * entryElemBytes d, conv := eConv d, rows := 32, cols := 64, trans := false }

/-- The `n` blocks of a compressed tile as an array, a block to a row: they follow the 8-byte header (R300). -/
def packedTile (d addr n : Nat) : Arr :=
  { elem := addr + 8, exp := addr + 8 + n * entryElemBytes d, conv := convFmt (eConv d) <<< 16, rows := n, cols := 32, trans := false }

/-- Header of a compressed tile: bit b is set when block b's exponent is not 0 (R300). -/
def tileMask (blocks : List Block) : Nat :=
  ((List.zip (List.range 64) blocks).map (fun p => if p.2.e = 0 then 0 else 2 ^ p.1)).foldl (· + ·) 0

/-- Blocks below `n` that a header lists. -/
def maskCount (m n : Nat) : Nat := ((List.range n).filter (fun b => m.testBit b)).length

/-- Write a tile's blocks at its place (R300). -/
def writeTile (slot : Fin 64) (d : Nat) (p : TilePlace) (blocks : List Block) (s : State) : State × MStat :=
  if p.raw then
    writeAll (List.zip (List.range 64) blocks) (fun b st =>
      let pos := tileBlockPos (convAxis (eConv d)) 0 0 b.1
      putBlock slot (rawTile d p.addr) 0 pos.1 pos.2 b.2 st) s
  else
    let live := blocks.filter (fun b => b.e != 0)
    let h := jobWrite slot p.addr (leBytes 8 (tileMask blocks)) s
    let r := writeAll (List.zip (List.range live.length) live) (fun b st =>
      putBlock slot (packedTile d p.addr live.length) 0 b.1 0 b.2 st) h.1
    (r.1, h.2.and r.2)

/-- A block that an entry does not store. -/
def zeroBlock : Block := ⟨0, List.replicate 32 0⟩

/-- Block `b` of a tile, read at its place; an elided block is all-zero (R301). -/
def readTile (s : State) (slot : Fin 64) (d : Nat) (p : TilePlace) (b : Nat) : Block × MStat :=
  if p.raw then
    let pos := tileBlockPos (convAxis (eConv d)) 0 0 b
    arrBlock s slot (rawTile d p.addr) 0 pos.1 pos.2
  else
    let m := jobNat s slot p.addr 8
    if m.2 ≠ .ok then (zeroBlock, m.2)
    else if m.1.testBit b then arrBlock s slot (packedTile d p.addr (maskCount m.1 64)) 0 (maskCount m.1 b) 0
    else (zeroBlock, .ok)

/-- Whether a block of an entry's array lies in its fallback array. -/
def inFallback (fb : Arr) (axis : Nat) (pos : Nat × Nat) : Bool :=
  if axis = 0 then decide (pos.1 < fb.rowsP ∧ 32 * pos.2 < fb.colsP) else decide (pos.1 < fb.cols ∧ 32 * pos.2 < fb.rowsP)

/-- The fallback array of an entry: its planes and shape are those of fb_desc, and it holds the entry's stored form
(R296, R302). -/
def fallbackArr (e : REntry) : Arr := { arrOf e.fb with conv := eConv e.desc }

/-- Write a spilled entry's tile into its fallback array (R302). -/
def spillTile (slot : Fin 64) (e : REntry) (ti tj : Nat) (blocks : List Block) (s : State) : State × MStat :=
  let axis := convAxis (eConv e.desc)
  writeAll (List.zip (List.range 64) blocks) (fun p st =>
    let pos := tileBlockPos axis ti tj p.1
    if inFallback (fallbackArr e) axis pos then putBlock slot (fallbackArr e) 0 pos.1 pos.2 p.2 st else (st, .ok)) s

/-- Count a stored tile (R298). -/
def countTile (slot : Fin 64) (raw : Bool) (s : State) : State :=
  modStash slot (fun t => if raw then { t with rawTiles := satInc t.rawTiles 1 } else { t with compTiles := satInc t.compTiles 1 }) s

/-- Number of a tile in its entry's index, in row-major order (notes/assumptions/47). -/
def tileNumber (d ti tj : Nat) : Nat := ti * ceilDiv (eCols d) 64 + tj

/-- Where a tile of `size` bytes of an ACT entry goes: over the tile that it replaces when it fits there, else next in
the page that is being filled, else into a new page, before which the entry's first tile takes the index pages. The
entry with its pages, and the address; `none` when the pool has no page (R302, R304). -/
def placeAct (s : State) (slot : Fin 64) (e : REntry) (ti tj size : Nat) : Option (REntry × Nat) :=
  let old := e.tiles.find (ti, tj)
  match old with
  | some p => if size ≤ p.size then some (e, p.addr) else grow
  | none => grow
where
  grow : Option (REntry × Nat) :=
    if size ≤ e.room then
      some ({ e with room := e.room - size }, poolAddr s slot false (e.pages.getLastD 0) (65536 - e.room))
    else
      let n := (if e.pages = [] then entryIndexPages e.desc else 0) + 1
      (poolTake (poolHeld s slot false) (stashPages s slot) n).map (fun ps =>
        ({ e with pages := e.pages ++ ps, room := 65536 - size }, poolAddr s slot false (ps.getLastD 0) 0))

/-- Where a tile goes: an entry with reserved pages has a place for each tile (R302). -/
def placeTile (s : State) (slot : Fin 64) (e : REntry) (ti tj size : Nat) : Option (REntry × Nat) :=
  if e.spill then some (e, 0)
  else if e.gather then
    let per := 65536 / entryRaw e.desc
    let k := tileNumber e.desc ti tj
    some (e, poolAddr s slot true (e.pages.getD (entryIndexPages e.desc + k / per) 0) (k % per * entryRaw e.desc))
  else placeAct s slot e ti tj size

/-- A tile's index entry: its raw flag, and where and how large the tile is, in a layout that the spec does not give (R300,
notes/assumptions/47). -/
def tileIndexBits (p : TilePlace) : Nat := (if p.raw then 2 ^ 63 else 0) + (Config.tileIndex p.addr p.size).toNat

/-- Write a tile's index entry in the entry's first pages (R300). -/
def writeIndex (slot : Fin 64) (e : REntry) (ti tj : Nat) (p : TilePlace) (s : State) : State × MStat :=
  let k := tileNumber e.desc ti tj
  jobWrite slot (poolAddr s slot e.gather (e.pages.getD (k / 8192) 0) (8 * (k % 8192)))
    (leBytes 8 (tileIndexBits p)) s

/-- Store a tile at its place, with its index entry, or in the fallback array of a spilled entry. -/
def storeTileAt (slot : Fin 64) (e : REntry) (ti tj : Nat) (p : TilePlace) (blocks : List Block) (s : State) : State × MStat :=
  if e.spill then spillTile slot e ti tj blocks s
  else
    let w := writeTile slot e.desc p blocks s
    let x := writeIndex slot e ti tj p w.1
    (x.1, w.2.and x.2)

/-- A tile of an entry arrives from a writer as its 64 blocks in the stored form (R302); the last one moves the entry to HELD
or SPILLED, and a tile that the writer writes again later still replaces the earlier one. A write that cannot be made is the
writer's fault (R124). -/
def tileArrive (t : TaskRef) (addr ti tj : Nat) (blocks : List Block) (s : State) : State × MStat :=
  let slot := t.slot
  match s.jobs[slot].stash.entries.find addr with
  | none => (s, .ok)
  | some e =>
    if e.st = .absent || e.writer ≠ some t then (s, .ok)
    else
      let tb := if e.spill then (entryRaw e.desc, true) else tileBytes e.desc blocks
      match placeTile s slot e ti tj tb.1 with
      | none => (dropEntry slot addr e s, .ok)
      | some (e', a) =>
        let p : TilePlace := ⟨a, tb.1, tb.2⟩
        let s := if e.gather then s else takeStash slot (e'.pages.length - e.pages.length) s
        let w := storeTileAt slot e' ti tj p blocks s
        let tiles := e'.tiles.put (ti, tj) p
        let full := tiles.length = entryTiles e.desc
        (setEntry slot addr (some { e' with
            tiles := tiles
            st := if full then (if e.spill then .spilled else .held) else .writing
            time := if full && e.st = .writing then s.clock.now else e.time }) (countTile slot tb.2 w.1), w.2)

/-- A writer ends: entries it leaves with tiles missing become ABSENT (R302). -/
def writerEnds (t : TaskRef) (s : State) : State :=
  forEach (s.jobs[t.slot].stash.entries.filter (fun p => p.2.writer == some t)) (fun p st =>
    if p.2.st = .writing then dropEntry t.slot p.1 p.2 st
    else modStash t.slot (fun k => { k with entries := k.entries.put p.1 { p.2 with writer := none } }) st) s

/-- What the release of a reader finds (R302). -/
inductive ReadCheck where
  | ok
  | refused
  | absent
  deriving DecidableEq, Repr

/-- The release of a reader of an entry: an ABSENT one is counted (R303). -/
def readerCheck (slot : Fin 64) (addr : Nat) (s : State) : State × ReadCheck :=
  match s.jobs[slot].stash.entries.find addr with
  | none => (s, .refused)
  | some e =>
    match e.st with
    | .writing => (s, .refused)
    | .absent =>
      (modStash slot (fun t => if e.gather then { t with regathers := satInc t.regathers 1 }
        else { t with absentFound := satInc t.absentFound 1 }) s, .absent)
    | _ => (s, .ok)

/-- A reader of an entry completes (R302). -/
def readerDone (slot : Fin 64) (addr : Nat) (s : State) : State :=
  match s.jobs[slot].stash.entries.find addr with
  | none => s
  | some e =>
    if (e.st = .held ∨ e.st = .spilled) ∧ eReads e.desc ≠ 0 then
      if e.reads + 1 = eReads e.desc then setEntry slot addr none (freePages slot e s)
      else setEntry slot addr (some { e with reads := e.reads + 1 }) s
    else s

/-- Tile of an entry that holds block `b` of line `i`, and the block's number in it (R300). -/
def tileOfBlock (axis i b : Nat) : (Nat × Nat) × Nat :=
  if axis = 0 then ((i / 32, b / 2), 2 * (i % 32) + b % 2) else ((b, i / 64), i % 64)

/-- Block `b` of line `i` of an entry as stored (R301): a SPILLED entry is read from its fallback array (R302). -/
def entryBlock (s : State) (slot : Fin 64) (addr i b : Nat) : Block × MStat :=
  match s.jobs[slot].stash.entries.find addr with
  | none => (zeroBlock, .ok)
  | some e =>
    let axis := convAxis (eConv e.desc)
    if e.spill then
      if inFallback (fallbackArr e) axis (i, b) then arrBlock s slot (fallbackArr e) 0 i b else (zeroBlock, .ok)
    else
      let k := tileOfBlock axis i b
      match e.tiles.find k.1 with
      | some p => readTile s slot e.desc p k.2
      | none => (zeroBlock, .ok)

/-- Bytes that a read of block `b` of line `i` of an entry touches. -/
def entryRanges (s : State) (slot : Fin 64) (addr i b : Nat) : List (Nat × Nat) :=
  match s.jobs[slot].stash.entries.find addr with
  | none => []
  | some e =>
    let axis := convAxis (eConv e.desc)
    if e.spill then
      (List.range 32).flatMap (fun k => let rc := (fallbackArr e).cell i b k; (fallbackArr e).valRanges rc.1 rc.2)
    else match e.tiles.find (tileOfBlock axis i b).1 with
      | some p => [(p.addr, p.size)]
      | none => []

/-- Bytes that a retained entry takes: its stored tiles, or its fallback array (R300, R302). -/
def entryBytes (s : State) (slot : Fin 64) (addr : Nat) : List (Nat × Nat) :=
  match s.jobs[slot].stash.entries.find addr with
  | none => []
  | some e => if e.spill then (fallbackArr e).ranges else e.tiles.map (fun p => (p.2.addr, p.2.size))

/-- Bytes that a read of element `k` of a block of a stored tile takes: the element and the block's exponent, and the header of a
compressed tile (R300). -/
def tileElemRanges (s : State) (slot : Fin 64) (d : Nat) (p : TilePlace) (b k : Nat) : List (Nat × Nat) :=
  let at_ := fun (a : Arr) (pos : Nat × Nat) => let rc := a.cell pos.1 pos.2 k; a.valRanges rc.1 rc.2
  if p.raw then at_ (rawTile d p.addr) (tileBlockPos (convAxis (eConv d)) 0 0 b)
  else
    let m := (jobNat s slot p.addr 8).1
    (p.addr, 8) :: (if m.testBit b then at_ (packedTile d p.addr (maskCount m 64)) (maskCount m b, 0) else [])

/-- Bytes that a read of element `(r, c)` of an entry takes (R129). -/
def entryElemRanges (s : State) (slot : Fin 64) (addr d r c : Nat) : List (Nat × Nat) :=
  match s.jobs[slot].stash.entries.find addr with
  | none => []
  | some e =>
    let axis := convAxis (eConv d)
    let pos := if axis = 0 then (r, c / 32) else (c, r / 32)
    if e.spill then if inFallback (fallbackArr e) axis pos then (fallbackArr e).valRanges r c else []
    else
      let k := tileOfBlock axis pos.1 pos.2
      match e.tiles.find k.1 with
      | some p => tileElemRanges s slot e.desc p k.2 (if axis = 0 then c % 32 else r % 32)
      | none => []

/-- Value of element `(r, c)` of an entry, with the status of the bytes that it takes (R129). -/
def entryVal (s : State) (slot : Fin 64) (addr d r c : Nat) : Val × MStat :=
  let x := if convAxis (eConv d) = 0 then entryBlock s slot addr r (c / 32) else entryBlock s slot addr c (r / 32)
  (blockVal (convFmt (eConv d)) x.1.e (x.1.q.getD (if convAxis (eConv d) = 0 then c % 32 else r % 32) 0),
   (entryElemRanges s slot addr d r c).foldl (fun m q => m.and (peek s slot q.1 q.2).st) MStat.ok)

/-- Convert a 32 by 64 tile of values into the 64 blocks of an entry (R299). -/
def tileBlocks (d : Nat) (vals : Nat → Nat → Val) : List Block × Cnt :=
  let f := convFmt (eConv d)
  let bs := (List.range 64).map (fun b =>
    toBlock ((List.range 32).map (fun k =>
      if convAxis (eConv d) = 0 then vals (b / 2) (32 * (b % 2) + k) else vals k b)) f (convFixed (eConv d)))
  (bs.map Prod.fst, Cnt.sum (bs.map Prod.snd))

end Sys2Proof.Machine
end

