-- ==== Sys2Proof/Machine/MatrixShape.lean ====
section
/-! DEFINITION. The products of matrix tasks, their operands and their work units (spec/03_matrix_engines.md R78 to R108,
spec/07_sparse_operands.md R255 to R258). -/

namespace Sys2Proof.Machine

/-! ### Operands -/

/-- An operand: an array, or a retained entry by its address and descriptor (R295). -/
structure Opnd where
  arr : Arr
  entry : Option (Nat × Nat)
  deriving DecidableEq, Repr

/-- An operand by the address in its field (R295). -/
def opndOf (e : Entry) (a : Nat) : Opnd :=
  if a % 2 = 1 then
    let d := capOf e (a - 1)
    ⟨entryArr d, some (a - 1, d)⟩
  else ⟨arrOf (capOf e a), none⟩

/-- Whether an operand is stored along the reduction axis: A with trans 0 and B with trans 1 are rows of
reduction elements (R83). -/
def kAlongRow (isA trans : Bool) : Bool := isA != trans

/-- Block `b` along the reduction axis of line `i` of an operand. -/
def opndBlock (s : State) (slot : Fin 64) (o : Opnd) (piece i b : Nat) : Block × MStat :=
  match o.entry with
  | some (a, _) => entryBlock s slot a i b
  | none => arrBlock s slot o.arr piece i b

/-- Value of reduction element `k` of line `i` of a floating-point operand. -/
def opndVal (s : State) (slot : Fin 64) (o : Opnd) (isA : Bool) (i k : Nat) : Val × MStat :=
  if kAlongRow isA o.arr.trans then arrVal s slot o.arr i k else arrVal s slot o.arr k i

/-- A block of a line as the engine is fed: exponent, pieces of 8-bit elements, and the counts of a cut
(R30, R59, R60, R79). Elements at or above K enter as 0. -/
structure Feed where
  e : Nat
  qs : List (List Int)
  vals : List Val
  st : MStat
  cnt : Cnt
  deriving DecidableEq, Repr

/-- Elements of a block that lie below K. -/
def below (k b : Nat) (q : List Int) : List Int :=
  (List.zip (List.range q.length) q).map (fun p => if 32 * b + p.1 < k then p.2 else 0)

/-- Feed block `b` of line `i` of an operand of a product of reduction length `k`. -/
def feed (s : State) (slot : Fin 64) (o : Opnd) (isA : Bool) (case : ProductCase) (k i b : Nat) : Feed :=
  let f := o.arr.fmt
  let grp := (List.range 32).map (fun j =>
    if 32 * b + j < k then opndVal s slot o isA i (32 * b + j) else (.zero false, MStat.ok))
  let gst := grp.foldl (fun m x => m.and x.2) MStat.ok
  match case with
  | .native =>
    let x := opndBlock s slot o 0 i b
    let q := if f == fBS4 || f == fBU4 then x.1.q.map (· * 8) else x.1.q
    ⟨x.1.e, [below k b q], [], x.2, Cnt.none⟩
  | .split n =>
    if f == fBS8 then
      let xs := (List.range n).map (fun p => opndBlock s slot o p i b)
      ⟨((xs.head?).map (·.1.e)).getD 0, xs.map (fun x => below k b x.1.q), [], xs.foldl (fun m x => m.and x.2) MStat.ok, Cnt.none⟩
    else
      let c := splitCut (grp.map Prod.fst) n
      ⟨c.1, c.2.1, [], gst, c.2.2⟩
  | .dk4 => ⟨1, [], grp.map Prod.fst, gst, Cnt.none⟩

/-! ### Shapes and work units (R78, R79, R82, R100, R107, R257) -/

/-- One product of a task. -/
structure MShape where
  m : Nat
  n : Nat
  k : Nat
  tag : Nat
  a : Opnd
  b : Opnd
  o0 : Arr
  o1 : Arr
  acc : Option Arr
  deriving DecidableEq, Repr

/-- An array of a grouped entry: the template's conv, trans and cols, the entry's planes (R104, R105). -/
def Arr.at_ (t : Arr) (elem exp rows : Nat) : Arr := { t with elem := elem, exp := exp, rows := rows }

/-- Rows that a role's stored array needs (R87). -/
def roleRows (isA trans : Bool) (mn k : Nat) : Nat := if kAlongRow isA trans then mn else k
/-- Columns that a role's stored array needs (R87). -/
def roleCols (isA trans : Bool) (mn k : Nat) : Nat := if kAlongRow isA trans then k else mn

/-- Entry `i` of a grouped task as a product. -/
def groupedShape (e : Entry) (i : Nat) : MShape :=
  let d := e.desc
  let x := tableEntry (capOf e (tableKey (mTable d))) i
  let t := fun a => arrOf (capOf e a)
  let a := t (mA d)
  let b := t (mB d)
  { m := teM x, n := teN x, k := teK x, tag := teTag x
    a := ⟨a.at_ (teA x) (teAExp x) (roleRows true a.trans (teM x) (teK x)), none⟩
    b := ⟨b.at_ (teB x) (teBExp x) (roleRows false b.trans (teN x) (teK x)), none⟩
    o0 := (t (mOut0 d)).at_ (teO0 x) (teO0Exp x) (teM x)
    o1 := (t (mOut1 d)).at_ (teO1 x) (teO1Exp x) (teM x)
    acc := none }

/-- The product of a matrix task. -/
def plainShape (e : Entry) : MShape :=
  let d := e.desc
  { m := mM d, n := mN d, k := mK d, tag := 0
    a := if mSparse d then ⟨arrOf (capOf e (spArr (capOf e (mA d)))), none⟩ else opndOf e (mA d)
    b := opndOf e (mB d), o0 := arrOf (capOf e (mOut0 d)), o1 := arrOf (capOf e (mOut1 d))
    acc := if mAccIn d then some (arrOf (capOf e (mAcc d))) else none }

/-- Whether a product forms anything (R91, R107). -/
def MShape.live (x : MShape) : Bool := decide (0 < x.m ∧ 0 < x.n ∧ 0 < x.k)

/-- The products of a task in the order of their entries. -/
def shapesOf (e : Entry) : List MShape :=
  if dOpcode e.desc = 2 then
    ((List.range (mCount e.desc)).filter (fun i => !teSkip (tableEntry (capOf e (tableKey (mTable e.desc))) i))).map (groupedShape e)
      |>.filter MShape.live
  else [plainShape e].filter MShape.live

/-- Whether a task's rows come from an order table (R255). -/
def ordered (e : Entry) : Bool := dOpcode e.desc == 1 && mSparse e.desc && spOrd (capOf e (mA e.desc)) != 0

/-- Chunks of `m` rows (R78): first row and rows. -/
def chunksOf (m : Nat) : List (Nat × Nat) :=
  let c := ceilDiv m 512
  let t := 32 * ceilDiv (ceilDiv m c) 32
  if m = 0 then [] else (List.range c).map (fun i => (i * t, if i + 1 = c then m - (c - 1) * t else t))

/-- N tiles: first column and columns (R79). -/
def nTiles (n : Nat) : List (Nat × Nat) := (List.range (ceilDiv n 256)).map (fun j => (256 * j, min 256 (n - 256 * j)))

/-- K tiles (R79). -/
def kTiles (k : Nat) : Nat := ceilDiv k 256

/-- The parts that hold a tile, as ranges of K tiles (R100). -/
def kParts (k s : Nat) : List (Nat × Nat) :=
  ((List.range s).map (fun p => (p * kTiles k / s, (p + 1) * kTiles k / s))).filter (fun r => decide (r.1 < r.2))

/-- A work unit (R78, R257): its product, its first row or order table entry and their number, its
columns, its part, and whether it is a solo unit. -/
structure WorkUnit where
  shape : MShape
  first : Nat
  count : Nat
  n0 : Nat
  cols : Nat
  part : Nat
  parts : Nat
  k0 : Nat
  k1 : Nat
  solo : Bool
  deriving DecidableEq, Repr

/-- Units of a product over `rows` rows or main entries. -/
def shapeUnits (x : MShape) (rows split : Nat) : List WorkUnit :=
  let ps := kParts x.k split
  (chunksOf rows).flatMap (fun c => (nTiles x.n).flatMap (fun t => (List.zip (List.range ps.length) ps).map (fun p =>
    { shape := x, first := c.1, count := c.2, n0 := t.1, cols := t.2, part := p.1, parts := ps.length,
      k0 := p.2.1, k1 := p.2.2, solo := false })))

/-- Solo units of a product: one for each entry and N tile. -/
def soloUnits (x : MShape) (main solo : Nat) : List WorkUnit :=
  (List.range solo).flatMap (fun i => (nTiles x.n).map (fun t =>
    { shape := x, first := main + i, count := 1, n0 := t.1, cols := t.2, part := 0, parts := 1,
      k0 := 0, k1 := kTiles x.k, solo := true }))

/-- The work units of a task in unit order (R82, R108, R257). -/
def unitsOf (e : Entry) : List WorkUnit :=
  let split := mSplit e.desc
  if ordered e then
    let d := capOf e (mA e.desc)
    (shapesOf e).flatMap (fun x => shapeUnits x (spMain d) split ++ soloUnits x (spMain d) (spSolo d))
  else (shapesOf e).flatMap (fun x => shapeUnits x x.m split)

/-- Rows of a unit as the engine takes them: row, first and last block of its range (R255). -/
def unitRows (e : Entry) (w : WorkUnit) (ents : List Nat) : List (Nat × Nat × Nat) :=
  if ordered e then ents.map (fun x => (orRow x, orLo x, orHi x))
  else (List.range w.count).map (fun i => (w.first + i, 0, ceilDiv w.shape.k 32 - 1))

/-! ### What a unit computes (R51, R53, R54, R67, R68, R80) -/

/-- Case of a product (R45). -/
def caseOf (x : MShape) : ProductCase := (productCase x.a.arr.conv x.b.arr.conv).getD .native

/-- Blocks of a K tile below K. -/
def tileBlks (k t : Nat) : List Nat := ((List.range 8).map (fun j => 8 * t + j)).filter (fun b => decide (32 * b < k))

/-- Loads of B for one K tile, by the piece that each holds (R114). -/
def loadPieces : ProductCase → List Nat
  | .split 2 => [0, 1]
  | .split _ => [0, 1, 2, 0, 1]
  | _ => [0]

/-- Passes over one K tile: the piece of A, the piece of B and the load that holds that piece of B (R51, R114). -/
def passPlan : ProductCase → List (Nat × Nat × Nat)
  | .split 2 => [(1, 0, 0), (0, 1, 1), (0, 0, 0)]
  | .split _ => [(2, 0, 0), (1, 1, 1), (0, 2, 2), (1, 0, 3), (0, 1, 4), (0, 0, 3)]
  | _ => [(0, 0, 0)]

/-- `product_element` of R51 over a range of K tiles, from an initial accumulator, with its saturations: what the
passes of a unit come to (R80). -/
def productElem (case : ProductCase) (k k0 k1 : Nat) (a b : Nat → Feed) (use : Nat → Bool) (acc : EA40) : EA40 × Nat :=
  let zero : Feed := ⟨0, [], [], .ok, Cnt.none⟩
  let tiles := (List.range (k1 - k0)).map (fun i => k0 + i)
  match case with
  | .dk4 =>
    (tiles.flatMap (tileBlks k)).foldl (fun st n =>
      let r := eaGroup st.1 (a n).vals (b n).vals
      (r.1, st.2 + if r.2 then 1 else 0)) (acc, 0)
  | c =>
    let pieces := match c with | .split n => n | _ => 1
    tiles.foldl (fun st t => (passOrder pieces).foldl (fun st ij => (tileBlks k t).foldl (fun st n =>
      let x := if use n then a n else zero
      let y := b n
      let r := eaPair st.1 x.e y.e (x.qs.getD ij.1 []) (y.qs.getD ij.2 []) ((7 * (ij.1 + ij.2) : Nat) : Int)
      (r.1, st.2 + if r.2 then 1 else 0)) st) st) (acc, 0)


/-- The next unit of a task's pool: a returned group first, then in unit order (R82, R121). -/
def nextUnit (r : Run) : Option Nat :=
  match r with
  | .matrix n _ tot back _ =>
    match back with
    | b :: rest => some (rest.foldl min b)
    | [] => if n < tot then some n else none
  | _ => none

/-- Number that records carry for a unit: the tag of its grouped entry (R105). -/
def unitTag (e : Entry) (u : Nat) : Nat := match (unitsOf e)[u]? with | some w => w.shape.tag | none => 0

end Sys2Proof.Machine
end

