-- ==== Sys2Proof/Machine/Streams.lean ====
section
/-! DEFINITION. Stream prefetchers and the stream cache (spec/08_memory.md R277, R291 to R294). -/

namespace Sys2Proof.Machine

/-- Rows of one tile of an array in stack memory, from `(r, c)` on, `rows` by `cols`. -/
structure TileRows where
  arr : Arr
  r : Nat
  c : Nat
  rows : Nat
  cols : Nat
  deriving DecidableEq, Repr

/-- Whether a job address lies in stack memory that the job may read. -/
def inStack (s : State) (slot : Fin 64) (va : Nat) : Bool :=
  match translate s slot va true false with
  | some d => !isAs d
  | none => false

/-- Whether a job may read an address. -/
def readable (s : State) (slot : Fin 64) (va : Nat) : Bool := (translate s slot va true false).isSome

/-- The stream of a tile of an operand (R291). -/
def streamOf (t : TaskRef) (eng : Fin 68) (opA ahead : Bool) (x : TileRows) : Prefetch :=
  let a := x.arr
  let w := fmtBits a.fmt
  { task := t, user := .operand eng opA ahead
    base := a.plane 0 + (x.r * a.colsP + x.c) * w / 8, stride := a.colsP * w / 8, len := ceilDiv (x.cols * w) 8
    expBase := a.exp + a.blockIdx x.r x.c
    expStride := if a.axis = 0 then a.colsP / 32 else 0
    expLen := if !a.blocked then 0 else if a.axis = 0 then ceilDiv x.cols 32 else x.cols
    count := x.rows, rows := [], next := 0, held := [], idle := 0 }

/-- The stream of bytes that are no rows of an array, sector by sector in their order: those of the tiles of a retained entry,
and of the blocks that the Sparse Gather Engine delivers (R249). -/
def sectorStream (t : TaskRef) (eng : Fin 68) (opA ahead : Bool) (rs : List (Nat × Nat)) : Prefetch :=
  let xs := (rs.flatMap (fun r => (chunks r.1 r.2).map (fun c => c.1 / 64))).eraseDups
  { task := t, user := .operand eng opA ahead, base := 0, stride := 64, len := 64, expBase := 0, expStride := 0, expLen := 0
    count := xs.length, rows := xs, next := 0, held := [], idle := 0 }

/-- The stream of a unit whose misses are sequential, from a sector on: a sector to a row (R292). -/
def detectedStream (t : TaskRef) (u : StreamUser) (sector : Nat) : Prefetch :=
  { task := t, user := u, base := 64 * sector, stride := 64, len := 64, expBase := 0, expStride := 0, expLen := 0
    count := 2 ^ 42 - sector, rows := [], next := 0, held := [], idle := 0 }

/-- Prefetchers of a die in use for a job. -/
def streamsOf (s : State) (slot : Fin 64) (die : Fin 4) : List Prefetch :=
  (s.mem.prefetch[die].toList.filterMap id).filter (fun p => p.task.slot == slot)

/-- Stream cache pages that a stream uses: 1,024 lines to a page, and one from its start on. -/
def Prefetch.pages (p : Prefetch) : Nat := max 1 (ceilDiv p.held.length 1024)

/-- Whether a job has a stream cache page of a die that none of its streams uses. -/
def cachePageFree (s : State) (slot : Fin 64) (die : Fin 4) (ps : List Prefetch) : Bool :=
  decide ((ps.map Prefetch.pages).foldl (· + ·) 0 < (ctl s slot).asCache[die].length)

/-- Place of a stream: the prefetcher that already serves its user, or the lowest free one while the job has a free stream
cache page (R294). -/
def streamPlace (s : State) (p : Prefetch) : Option (Fin 64) :=
  let v := s.mem.prefetch[p.task.die]
  match (List.finRange 64).find? (fun k => match v[k] with | some q => q.task == p.task && q.user == p.user | none => false) with
  | some k => some k
  | none =>
    if cachePageFree s p.task.slot p.task.die (streamsOf s p.task.slot p.task.die) then (List.finRange 64).find? (fun k => v[k].isNone)
    else none

/-- Put a stream in a prefetcher, or clear it. -/
def setPrefetch (die : Fin 4) (k : Fin 64) (p : Option Prefetch) (s : State) : State :=
  { s with mem := { s.mem with prefetch := vmod s.mem.prefetch die (fun v => v.set k p) } }

/-- Remove lines of a job from the stream cache of a die. -/
def freeLines (slot : Fin 64) (die : Fin 4) (sectors : List Nat) (s : State) : State :=
  { s with mem := { s.mem with
      lines := s.mem.lines.filter (fun l => !(l.slot == slot && l.die == die && sectors.contains l.sector)) } }

/-- Give a unit a prefetcher for a stream, or count the shortfall (R291, R294). A stream that it replaces gives up its
lines. -/
def openStream (p : Prefetch) (s : State) : State :=
  match streamPlace s p with
  | some k =>
    let s := match s.mem.prefetch[p.task.die][k] with
      | some q => freeLines q.task.slot p.task.die q.held s
      | none => s
    setPrefetch p.task.die k (some p) s
  | none => pmuCount p.task.die (some p.task.slot) 0x044 0 1 s

/-- End a stream, with what it fetched. -/
def endStream (die : Fin 4) (k : Fin 64) (s : State) : State :=
  match s.mem.prefetch[die][k] with
  | some p => setPrefetch die k none (freeLines p.task.slot die p.held s)
  | none => s

/-- The prefetchers of a task that `u` names are returned, with what they fetched (R294). -/
def returnStreamsOf (t : TaskRef) (u : StreamUser → Bool) (s : State) : State :=
  forEach (List.finRange 64) (fun k st =>
    match st.mem.prefetch[t.die][k] with
    | some p => if p.task == t && u p.user then endStream t.die k st else st
    | none => st) s

/-- The prefetchers of a task are returned (R294). -/
def returnStreams (t : TaskRef) (s : State) : State := returnStreamsOf t (fun _ => true) s

/-- Stack sectors that a unit of a die reads for a job, local and remote ones (R471). -/
def countReads (slot : Fin 64) (die : Fin 4) (xs : List Nat) (s : State) : State :=
  let near := xs.filter (fun x => match translate s slot (64 * x) true false with | some d => dpaDie s d == die | none => false)
  pmuCount die (some slot) 0x040 1 (ceilDiv (xs.length - near.length) 2) (pmuCount die (some slot) 0x040 0 (ceilDiv near.length 2) s)

/-- A consumer reads bytes of its stream: the lines are free again (R293, R306). -/
def consume (t : TaskRef) (u : StreamUser) (rs : List (Nat × Nat)) (s : State) : State :=
  forEach (List.finRange 64) (fun k st =>
    match st.mem.prefetch[t.die][k] with
    | some p =>
      if p.task == t && p.user == u then
        let done := p.held.filter (fun x => rs.any (fun r => decide (r.1 < 64 * x + 64 ∧ 64 * x < r.1 + r.2)))
        setPrefetch t.die k (some { p with held := p.held.filter (fun x => !done.contains x), idle := 0 })
          (pmuCount t.die (some t.slot) 0x045 0 (ceilDiv done.length 2) (freeLines t.slot t.die done st))
      else st
    | none => st) s

/-- Number of a stream's next row. -/
def Prefetch.row (p : Prefetch) : Nat := p.rows.getD p.next p.next

/-- Sectors of a stream's next row. -/
def rowSectors (p : Prefetch) : List Nat :=
  (((chunks (p.base + p.stride * p.row) p.len) ++ (chunks (p.expBase + p.expStride * p.row) p.expLen)).map (fun c => c.1 / 64)).eraseDups

/-- Those of a stream's next row that the job does not hold on the die yet. -/
def newSectors (s : State) (die : Fin 4) (p : Prefetch) : List Nat :=
  (rowSectors p).filter (fun x => !s.mem.lines.any (fun l => l.slot == p.task.slot && l.die == die && l.sector == x))

/-- Sectors that a stream may hold ahead of its consumer: 4 pages of them, or 32 for a detected stream (R292, R293). -/
def Prefetch.depth (p : Prefetch) : Nat := match p.user with | .operand _ _ _ => 4096 | _ => 32

/-- Whether a stream's next row fits: within its depth, and within the job's stream cache pages (R293). -/
def rowFits (s : State) (die : Fin 4) (p q : Prefetch) : Bool :=
  decide (q.held.length ≤ p.depth) &&
  decide (q.pages + (((streamsOf s p.task.slot die).erase p).map Prefetch.pages).foldl (· + ·) 0 ≤ (ctl s p.task.slot).asCache[die].length)

/-- PREFETCH_FETCH: a stream's next row lands in the job's stream cache pages (R293). A row that meets an unmapped or
unreadable page stops the stream, without a record (R277); one that does not fit waits for the consumer (R306). A sector in
the Activation Store needs no line (notes/assumptions/47). A sector that the memory controller answers with poison is recorded
as any read of it (R282, R287, R290), and no line holds it. -/
def doPrefetch (die : Fin 4) (k : Fin 64) (s : State) : State :=
  match s.mem.prefetch[die][k] with
  | none => s
  | some p =>
    let slot := p.task.slot
    if p.count ≤ p.next then s
    else if !(rowSectors p).all (fun x => readable s slot (64 * x)) then setPrefetch die k (some { p with count := p.next }) s
    else
      let all := (newSectors s die p).filter (fun x => inStack s slot (64 * x))
      let bad := all.filter (fun x => (peek s slot (64 * x) 64).st = .integrity)
      let new := all.filter (fun x => !bad.contains x)
      let q := { p with next := p.next + 1, held := p.held ++ new }
      if !rowFits s die p q then s
      else
        let s := countReads slot die all s
        let s := noteReads slot (bad.map (fun x => (64 * x, 64))) (setPrefetch die k (some q) s)
        { s with mem := { s.mem with lines := s.mem.lines ++ new.map (fun x => ⟨slot, die, x⟩) } }

/-! ### Detected streams (R292) -/

/-- The prefetcher that follows a unit's detected stream for a task. -/
def detectedOf (s : State) (t : TaskRef) (u : StreamUser) : Option (Fin 64 × Prefetch) :=
  (List.finRange 64).findSome? (fun k => match s.mem.prefetch[t.die][k] with
    | some p => if p.task = t ∧ p.user = u then some (k, p) else none
    | none => none)

/-- A unit's read of a sector for a task meets its detected stream for that task: the sector is consumed, or the stream ends after 64 sectors without
a read of one of its own. -/
def meetStream (t : TaskRef) (u : StreamUser) (x : Nat) (s : State) : State :=
  match detectedOf s t u with
  | none => s
  | some (k, p) =>
    if p.held.contains x then
      setPrefetch t.die k (some { p with held := p.held.filter (· != x), idle := 0 }) (freeLines p.task.slot t.die [x] s)
    else if 64 ≤ p.idle + 1 then endStream t.die k s
    else setPrefetch t.die k (some { p with idle := p.idle + 1 }) s

/-- Three misses of a unit on consecutive ascending sectors of one 4 KiB granule open a stream behind them. -/
def noteMiss (t : TaskRef) (u : StreamUser) (x : Nat) (s : State) : State :=
  let n := match s.mem.misses.find u with
    | some m => if m.slot = t.slot ∧ m.sector + 1 = x ∧ m.sector / 64 = x / 64 then m.run + 1 else 1
    | none => 1
  let s := { s with mem := { s.mem with misses := s.mem.misses.put u ⟨t.slot, x, n⟩ } }
  if n = 3 then openStream (detectedStream t u (x + 1)) s else s

/-- Whether the stream cache of a die holds a line of a job. -/
def cached (s : State) (slot : Fin 64) (die : Fin 4) (x : Nat) : Bool :=
  s.mem.lines.any (fun l => l.slot == slot && l.die == die && l.sector == x)

/-- A vector engine, a rigger core or a Copy Engine reads ranges for a task: its hits and misses in the stream cache. -/
def demandRead (t : TaskRef) (u : StreamUser) (rs : List (Nat × Nat)) (s : State) : State :=
  let xs := (rs.flatMap (fun r => (chunks r.1 r.2).map (fun c => c.1 / 64))).eraseDups.filter (fun x => inStack s t.slot (64 * x))
  let hits := xs.filter (cached s t.slot t.die)
  let s := pmuCount t.die (some t.slot) 0x045 0 (ceilDiv hits.length 2) (countReads t.slot t.die (xs.filter (fun x => !hits.contains x)) s)
  forEach xs (fun x st =>
    let hit := cached st t.slot t.die x
    let st := meetStream t u x st
    if hit then st else noteMiss t u x st) s

end Sys2Proof.Machine
end

