-- ==== Sys2Proof/Machine/PowerOps.lean ====
section
/-! DEFINITION. Power tokens and the entry into P2 (spec/15_power_debug_security.md R518 to R527). -/

namespace Sys2Proof.Machine

/-- Change the power manager. -/
def modPower (f : Power → Power) (s : State) : State := { s with power := f s.power }

/-- Token cost of a unit at a divisor (R520). -/
def tokenCost (u : TokenUnit) (aclk : BitVec 2) : Nat :=
  match u with
  | .matrix _ => if aclk = 0 then 20 else if aclk = 1 then 15 else 10
  | .vector _ => if aclk = 0 then 8 else if aclk = 1 then 6 else 4

/-- Tokens held (R524). -/
def Power.held (p : Power) : Nat := (p.holders.map Prod.snd).foldl (· + ·) 0

/-- Grant waiting units in request order while the next one fits (R520, R521). -/
def grantFrom (ws : List TokenUnit) (p : Power) : Power :=
  match ws with
  | [] => { p with waiting := [] }
  | u :: rest =>
    let c := tokenCost u p.aclk
    if p.held + c ≤ p.budget.toNat then
      grantFrom rest { p with holders := p.holders ++ [(u, c)], granted := p.granted + c }
    else { p with waiting := u :: rest }

/-- Grant what can be granted. -/
def Power.grant (p : Power) : Power := grantFrom p.waiting p

/-- A unit asks for its tokens (R520). -/
def Power.ask (u : TokenUnit) (p : Power) : Power := ({ p with waiting := p.waiting ++ [u] }).grant

/-- A unit returns its tokens, or its place among the waiting (R520). -/
def Power.giveBack (u : TokenUnit) (p : Power) : Power :=
  let mine := (p.holders.filter (fun h => h.1 == u)).map Prod.snd
  ({ p with
    holders := p.holders.filter (fun h => !(h.1 == u))
    waiting := p.waiting.filter (fun w => !(w == u))
    returned := p.returned + mine.foldl (· + ·) 0 }).grant

/-- Whether a unit holds its tokens. -/
def hasTokens (s : State) (u : TokenUnit) : Bool := s.power.holders.any (fun h => h.1 == u)

/-- pstate as OBJ_POWER reports it (R518, R525). -/
def pstate (s : State) : Nat :=
  match s.power.mode with
  | .run => if s.power.aclk = 0 then 0 else 1
  | .hold => 2
  | .rest => 3
  | .off => 4

/-- Write the POWER event (R633). -/
def powerEvent (s : State) : State := logEvent 0x02 none (pstate s) s.power.aclk.toNat s

/-- Log a change of power state and set bit 4 of SMB_ALERT (R650). -/
def powerChange (s : State) : State := powerEvent { s with board := { s.board with alert := s.board.alert ||| 0x10 } }

/-- Change the power mode and log it. -/
def setPower (m : PowerMode) (s : State) : State := powerChange (modPower (fun p => { p with mode := m }) s)

/-- A command that waits to enter P2. -/
def BgCmd.isHold (c : BgCmd) : Bool :=
  match c.work with
  | .power t _ => t == 1
  | _ => false

/-- Whether a task, a routine or a rigger program runs anywhere; a WAIT task that waits does not
count (R197, R527). -/
def Entry.runs (e : Entry) : Bool :=
  match e.st, e.run with
  | .running, .wait _ _ _ => false
  | .running, _ => true
  | _, _ => false

/-- Whether a job runs anything on a die. -/
def dieRuns (s : State) (slot : Fin 64) (die : Fin 4) : Bool :=
  (jobDie s slot die).entries.any (fun p => p.2.runs) || (jobDie s slot die).routine.isSome

/-- Whether a job runs a task on any die (R209). -/
def jobRuns (s : State) (slot : Fin 64) : Bool :=
  allDies.any (fun d => (jobDie s slot d).entries.any (fun p => p.2.runs))

/-- Whether anything runs on the device (R527). -/
def deviceRuns (s : State) : Bool :=
  allSlots.any (fun i => allDies.any (fun d => dieRuns s i d)) || s.rigs.toList.any (fun r => r.task.isSome)

/-- A new divisor: every held token is returned and each holder gets its cost (R523). -/
def takeDivisor (d : BitVec 2) (s : State) : State :=
  modPower (fun p =>
    let hs := p.holders.map (fun h => (h.1, tokenCost h.1 d))
    ({ p with
      aclk := d, pending := none, holders := hs, returned := p.returned + p.held
      granted := p.granted + (hs.map Prod.snd).foldl (· + ·) 0 }).grant) s

/-- A decided divisor takes effect, with its event; a change between P0 and P1 is a change of power state (R518, R523, R650). -/
def applyPending (s : State) : State :=
  match s.power.pending with
  | none => s
  | some d =>
    let old := pstate s
    let s := takeDivisor d s
    if old = pstate s then powerEvent s else powerChange s

/-- Enter P2 once nothing runs, and answer the PWR_SET that asked (R527): a divisor change that waits goes first (R523). -/
def holdCheck (s : State) : State :=
  if s.power.stopping && !deviceRuns s && s.cox.running.any BgCmd.isHold then
    let s := setPower .hold (applyPending (modPower (fun p => { p with stopping := false }) s))
    finishAll BgCmd.isHold (.of stOK) s
  else s

end Sys2Proof.Machine
end

