-- ==== Sys2Proof/Machine/WatchOps.lean ====
section
/-! DEFINITION. The training watch: counts, the judgement of a step and its record
(spec/04_vector_engines.md R163 to R170), and the counts of conversions (R48). -/

namespace Sys2Proof.Machine

/-- Change a job's watch. -/
def modWatch (slot : Fin 64) (f : Watch → Watch) (s : State) : State :=
  modJob slot (fun j => { j with watch := f j.watch }) s

/-- Fields of the watch configuration (R163). -/
def wSatLimit (c : Nat) : Nat := fld c 127 96
def wSigma (c : Nat) : F32 := BitVec.ofNat 32 (fld c 95 64)
def wWarm (c : Nat) : Nat := fld c 63 48
def wAlpha (c : Nat) : Nat := fld c 39 36
def wAgree (c : Nat) : Bool := bitAt c 31
def wEnable (c : Nat) : Bool := bitAt c 30
def wActSpike (c : Nat) : Nat := fld c 29 28
def wActSat (c : Nat) : Nat := fld c 27 26
def wActNonfinite (c : Nat) : Nat := fld c 25 24

/-- 2^-a in binary32. -/
def pow2neg (a : Nat) : F32 := BitVec.ofNat 32 ((127 - a) <<< 23)

/-- The statistics after an accepted loss (R167). -/
def acceptLoss (w : Watch) (a l : F32) : Watch :=
  let d := f32sub l w.mu
  let u := f32add w.var (f32mul a (f32mul d d))
  { w with mu := f32add w.mu (f32mul a d), var := f32sub u (f32mul a u), n := min (w.n + 1) 65535 }

/-- The spike test and the statistics (R167): the watch after it, and whether the step is a spike. -/
def judgeLoss (w : Watch) : Watch × Bool :=
  let l := w.cur.loss
  if !w.cur.lossReported then (w, false)
  else if f32nonfinite l then
    ({ w with cur := { w.cur with lossNonfinite := true, nonfinite := satInc w.cur.nonfinite 1 } }, false)
  else if w.n = 0 then ({ w with mu := l, var := 0, n := 1 }, false)
  else
    let th := f32add w.mu (f32mul (wSigma w.cfg) (f32sqrt w.var))
    let spike := decide (max (wWarm w.cfg) 1 ≤ w.n) && f32lt th l
    (if spike then w else acceptLoss w (pow2neg (wAlpha w.cfg)) l, spike)

/-- `close_step` of R167: the watch with its record judged, and the local verdict. Where a final verdict is still to come, the
record that OBJ_WATCH_REC shows while the watch is HELD holds the local one (DESIGN CHOICE, notes/assumptions/46). -/
def closeStep (now : Nat) (w : Watch) : Watch × BitVec 2 :=
  let r := judgeLoss w
  let w := r.1
  let nonf := decide (0 < w.cur.nonfinite.toNat)
  let sat := wSatLimit w.cfg != 0 && decide (wSatLimit w.cfg < w.cur.sat.toNat)
  let v := max (if nonf then wActNonfinite w.cfg else 0)
    (max (if sat then wActSat w.cfg else 0) (if r.2 then wActSpike w.cfg else 0))
  let rec_ := { w.cur with
    closeTime := now, spike := r.2, satFired := sat, nonfiniteFired := nonf
    mean := w.mu, var := w.var, accepted := BitVec.ofNat 16 w.n, verdict := BitVec.ofNat 2 v }
  ({ w with cur := rec_, last := rec_ }, BitVec.ofNat 2 v)

/-- Counts added to a watch record, each saturating. -/
def WatchRec.count (r : WatchRec) (c : Cnt) : WatchRec := { r with nonfinite := satInc r.nonfinite c.nonf, sat := satInc r.sat c.sat }

/-- Add a count to the record that was open when its task was released, or else to the between-steps tally (R165). A task may
outlive the judgement of its record, as the one that closes it does: its counts go to that record while it is the last one, and
nowhere once another has replaced it. -/
def Watch.count (w : Watch) (recNo : Option Nat) (c : Cnt) : Watch :=
  let live := w.st == .opened || w.st == .closing
  match recNo with
  | some n =>
    if n = w.recNo && live then { w with cur := w.cur.count c }
    else if n = w.recNo || (n + 1 = w.recNo && live) then { w with last := w.last.count c }
    else w
  | none => { w with tally := ⟨satAdd (2 ^ 32 - 1) w.tally.sat c.sat, satAdd (2 ^ 32 - 1) w.tally.nonf c.nonf⟩ }

/-- Entry of a task. -/
def entryAt (s : State) (slot : Fin 64) (die : Fin 4) (index : Nat) : Entry :=
  (jobDie s slot die).entries.getD index
    { next := 0, st := .free 0, desc := 0, run := .idle, watchRec := none, caps := [], reads := [] }

/-- Entry of a task reference. -/
def entryOf (s : State) (t : TaskRef) : Entry := entryAt s t.slot t.die t.index.toNat

/-- Make the counts of conversions that ran for a job, for a task when one made them (R48, R165). -/
def countConv (slot : Fin 64) (die : Fin 4) (t : Option TaskRef) (c : Cnt) (s : State) : State :=
  if c = Cnt.none then s
  else
    let r := match t with | some t => (entryOf s t).watchRec | none => none
    let s := modWatch slot (fun w => w.count r c) (modCtl slot (fun k => { k with counts := k.counts.add c }) s)
    pmuCount die (some slot) 0x081 0 c.nonf (pmuCount die (some slot) 0x080 0 c.sat s)

/-- Counts of a task's own conversions. -/
def countTask (t : TaskRef) (c : Cnt) (s : State) : State := countConv t.slot t.die (some t) c s

/-- Payload of a WATCH trace record. -/
def watchPayload (r : WatchRec) : Nat :=
  r.step.toNat <<< 64 + r.verdict.toNat <<< 2 + (if r.spike then 2 else 0) + (if r.nonfiniteFired then 1 else 0)

end Sys2Proof.Machine
end

