-- ==== Sys2Proof/Machine/Tasks.lean ====
section
/-! DEFINITION. Task tables, event queues, dependences, completions and faults
(spec/05_tasks_stroke_riggers.md R171 to R213). -/

namespace Sys2Proof.Machine

/-- Change an entry. -/
def modEntry (t : TaskRef) (f : Entry → Entry) (s : State) : State :=
  modDie t.slot t.die (fun d => { d with entries := d.entries.put t.index.toNat (f (entryOf s t)) }) s

/-! ### Event records -/

/-- Fields of a job's ring (R177). -/
def ringBits (s : State) (slot : Fin 64) (die : Fin 4) : Nat := objBits s (jobKey oJOB_RING slot die.val)
def ringOn (s : State) (slot : Fin 64) (die : Fin 4) : Bool := bitAt (ringBits s slot die) 0
def sqSize (r : Nat) : Nat := 64 * 2 ^ fld r 7 4
def evqSize (r : Nat) : Nat := 64 * 2 ^ fld r 11 8
def recompEntry (s : State) (slot : Fin 64) (die : Fin 4) : Nat := fld (ringBits s slot die) 255 208

/-- Rings of a job that are enabled (R178). -/
def dieCount (s : State) (slot : Fin 64) : Nat := (allDies.filter (fun d => ringOn s slot d)).length

/-- What an event record says. -/
structure EvRec where
  cause : Nat
  status : BitVec 8
  detail : Nat
  name : Nat
  gen : BitVec 6
  cookie : Nat
  deriving DecidableEq, Repr

/-- The 32 bytes of an event record (R183). -/
def EvRec.bytes (r : EvRec) (now lost : Nat) (phase : Bool) : List Byte :=
  leBytes 32 ((now % 2 ^ 64) <<< 192 + r.cookie <<< 128 + lost <<< 112 + r.status.toNat <<< 104 + r.cause <<< 96 +
    (r.detail % 2 ^ 32) <<< 64 + (if phase then 2 ^ 63 else 0) + r.gen.toNat <<< 32 + r.name % 2 ^ 18)

/-- A record that is not written (R184). -/
def dropEvent (slot : Fin 64) (die : Fin 4) (s : State) : State :=
  modDie slot die (fun d => { d with evqLost := satInc16 d.evqLost 1, lostSince := satInc16 d.lostSince 1 }) s

/-- Fire the event queue's vector once until the next DB_EQ (R545). -/
def fireQueue (slot : Fin 64) (die : Fin 4) (s : State) : State :=
  if (jobDie s slot die).evqArmed then
    fireVector (vfOf slot) (Fin.ofNat 6 (2 + die.val)) (modDie slot die (fun d => { d with evqArmed := false }) s)
  else s

/-- Write an event record, or drop and count it (R183, R184). -/
def event (slot : Fin 64) (die : Fin 4) (r : EvRec) (s : State) : State :=
  let ring := ringBits s slot die
  let d := jobDie s slot die
  let size := evqSize ring
  let i := d.evqTail.toNat
  if !ringOn s slot die then s
  else if decide (size ≤ (d.evqTail - d.evqHead).toNat) then dropEvent slot die s
  else
    let bytes := r.bytes s.clock.now d.lostSince.toNat (i / size % 2 == 0)
    let w := jobWrite slot (fld ring 207 160 + 32 * (i % size)) bytes s
    if w.2 = .ok then
      fireQueue slot die (modDie slot die (fun d => { d with evqTail := d.evqTail + 1, lostSince := 0 }) w.1)
    else dropEvent slot die w.1

/-- Record of a task (R183). -/
def taskRec (t : TaskRef) (d : Nat) (cause : Nat) (status : BitVec 8) (detail : Nat) : EvRec :=
  ⟨cause, status, detail, taskName t, dGen d, dCookie d⟩

/-! ### Counters and the halves of buckets -/

/-- Value of an arrival counter. -/
def counterVal (s : State) (slot : Fin 64) (n : Nat) : Nat × MStat := jobNat s slot (ctrBase s slot + 4 * n) 4

/-- Whether a counter has reached a threshold, as a signed difference (R197). -/
def reached (v : Nat) (threshold : BitVec 32) : Bool := !((BitVec.ofNat 32 v - threshold).getLsbD 31)

/-- Fields of a bucket descriptor (R421). -/
def kBuf (d : Nat) (h : Bool) : Nat := if h then fld d 975 928 else fld d 1023 976
def kCtr (d : Nat) : Nat := fld d 927 912
def kThreshold (d : Nat) : Nat := fld d 911 880
def kDeadline (d : Nat) : Nat := fld d 879 848
def kLate (d : Nat) : Nat := fld d 847 846
def kClass (d : Nat) : Nat := fld d 845 844
/-- Lowest bit of the status of a half (R422). -/
def kOff (h : Bool) : Nat := if h then 0 else 256
def kState (d : Nat) (h : Bool) : Nat := fld d (kOff h + 3) (kOff h)
def kStep (d : Nat) (h : Bool) : Nat := fld d (kOff h + 255) (kOff h + 192)
def kBaseCtr (d : Nat) (h : Bool) : Nat := fld d (kOff h + 191) (kOff h + 160)
def kRbase (d : Nat) (h : Bool) : Nat := fld d (kOff h + 159) (kOff h + 128)
/-- Arrival counter of a half, and its ring counter. -/
def kArrive (d : Nat) (h : Bool) : Nat := kCtr d + (if h then 1 else 0)
def kRing (d : Nat) (h : Bool) : Nat := kCtr d + 2 + (if h then 1 else 0)

/-- Read a bucket descriptor. -/
def bucketAt (s : State) (slot : Fin 64) (addr : Nat) : Nat × MStat := jobNat s slot addr 128

/-- A half of a bucket is CLOSING and its count is reached (R423, R424). -/
def halfFull (s : State) (slot : Fin 64) (k : Nat × Bool) : Bool :=
  let d := (bucketAt s slot k.1).1
  let v := counterVal s slot (kArrive d k.2)
  kState d k.2 == 2 && v.2 == .ok && reached v.1 (BitVec.ofNat 32 (kBaseCtr d k.2 + kThreshold d))

/-- A CLOSING half whose count is reached, if any. -/
def fullHalf (s : State) (slot : Fin 64) : Option (Nat × Bool) :=
  (s.jobs[slot].buckets.find? (fun p => halfFull s slot p.1)).map Prod.fst

/-! ### Job faults -/

/-- A DRAINING job with nothing RUNNING enters PAUSED, and JOB_PAUSE replies (R209, R559). -/
def pauseCheck (slot : Fin 64) (s : State) : State :=
  if jobSt s slot = .draining && !jobRuns s slot then
    finishAll (fun c => c.work == .pause slot) (.of stOK) (setJob slot .paused s)
  else s

/-! ### Ready -/

/-- Make a task READY (R190). -/
def makeReady (t : TaskRef) (s : State) : State :=
  let n := s.stamps
  modEntry t (fun e => { e with st := .ready n }) { s with stamps := n + 1 }

/-- Change a job's totals. -/
def modTotals (slot : Fin 64) (f : Totals → Totals) (s : State) : State :=
  modJob slot (fun j => { j with totals := f j.totals }) s

/-- Count dependences produced and consumed on a die (R623). -/
def addDepIn (slot : Fin 64) (die : Fin 4) (n : Nat) (s : State) : State :=
  modTotals slot (fun t => { t with depIn := vmod t.depIn die (· + n) }) s
def addDepOut (slot : Fin 64) (die : Fin 4) (n : Nat) (s : State) : State :=
  modTotals slot (fun t => { t with depOut := vmod t.depOut die (· + n) }) s

/-- Whether decrements, completions and counters of a job apply (R212). -/
def depsApply (st : JobState) : Bool :=
  match st with
  | .ready => true
  | .running => true
  | .draining => true
  | .paused => true
  | _ => false

/-! ### Barrier tags -/

/-- Change a barrier tag. -/
def modTag (slot : Fin 64) (tag : Fin 64) (f : Tag → Tag) (s : State) : State :=
  modTasks slot (fun t => { t with tags := vmod t.tags tag f }) s

/-- A tag of a job. -/
def tagOf (s : State) (slot tag : Fin 64) : Tag := s.jobs[slot].tasks.tags[tag]

/-- A FWD task is admitted under a tag: the tag after it, or a refusal (R193). -/
def Tag.admitFwd (g : Tag) (last : Bool) (dies : Nat) : Option Tag :=
  let fresh : Tag := { g with st := .fwd, liveF := g.liveF + 1, seals := 0 }
  let sealed_ := fun (t : Tag) =>
    if last then { t with seals := t.seals + 1, st := if t.seals + 1 = dies then .sealed else t.st } else t
  match g.st with
  | .idle => some (sealed_ fresh)
  | .fwd => some (sealed_ { g with liveF := g.liveF + 1 })
  | .sealed => none
  | .bwd => if g.liveB = 0 then some (sealed_ fresh) else none

/-- A task leaves a tag's live counts (R193): a SEALED tag without live FWD tasks enters BWD. -/
def Tag.leave (g : Tag) (phase : Nat) : Tag :=
  if phase = 0 then
    let n := g.liveF - 1
    { g with liveF := n, st := if n = 0 && g.st == .sealed then .bwd else g.st }
  else if phase = 1 then { g with liveB := g.liveB - 1 }
  else g

/-- A task leaves its tag. -/
def leaveTag (slot : Fin 64) (d : Nat) (s : State) : State := modTag slot (dTag d) (fun g => g.leave (dPhase d)) s

/-! ### Units -/

/-- Executor time of a unit that leaves a job (R191). -/
def addUse (slot : Fin 64) (die : Fin 4) (since : Nat) (s : State) : State :=
  modDie slot die (fun d => { d with use := d.use + (s.clock.now - since) }) s

/-- Die of an engine, active or spare (R117): 16 of each die, then one spare each. -/
def engineDie (e : Fin 68) : Fin 4 := if e.val < 64 then Fin.ofNat 4 (e.val / 16) else Fin.ofNat 4 (e.val - 64)
/-- Die of a vector engine or a rigger core. -/
def unitDie (k : Fin 64) : Fin 4 := Fin.ofNat 4 (k.val / 16)

/-- Change an engine. -/
def modEngine (e : Fin 68) (f : Engine → Engine) (s : State) : State := { s with engines := vmod s.engines e f }
/-- Change a vector engine. -/
def modVe (v : Fin 64) (f : VecEng → VecEng) (s : State) : State := { s with ves := vmod s.ves v f }

/-- ACTIVE, SPARE_IDLE, TESTING and FENCED (R123). -/
def meACTIVE : BitVec 4 := 0
def meSPARE : BitVec 4 := 1
def meTESTING : BitVec 4 := 2
def meFENCED : BitVec 4 := 3

/-- The copy of the health record that a write replaces: one that is not valid, else the one of lower seq (R638, R640). -/
def olderCopy (v : Vector Health 2) : Fin 2 :=
  if !v[1].valid then 1 else if !v[0].valid || decide (v[0].seq.toNat ≤ v[1].seq.toNat) then 0 else 1

/-- Write the health record: its seq rises by 1, and it replaces the older of the two copies in flash (R638, R640). -/
def writeHealth (f : Health → Health) (s : State) : State :=
  let h := { f s.health with
    valid := true, seq := s.health.seq + 1, written := if s.clock.t.st = .unset then 0 else BitVec.ofNat 64 s.clock.now }
  { s with health := h, healthFlash := s.healthFlash.set (olderCopy s.healthFlash) h }

/-- Write an engine's entry of the health record: TESTING is never recorded (R122, R640). -/
def recordEngine (e : Fin 68) (logical : Byte) (st : BitVec 4) (s : State) : State :=
  writeHealth (fun h => { h with me := h.me.set e.val (logical, st) }) s

/-- Change an engine's state, with its event (R633). -/
def setEngine (e : Fin 68) (logical : Byte) (st : BitVec 4) (s : State) : State :=
  let old := s.engines[e].st
  let s := modEngine e (fun k => { k with logical := logical, st := st }) s
  let s := logEvent 0x05 none e.val (old.toNat + st.toNat <<< 4) s
  if st = meTESTING then s else recordEngine e logical st s

/-- Engines of a die. -/
def dieEngines (die : Fin 4) : List (Fin 68) := (List.finRange 68).filter (fun e => engineDie e == die)
/-- Engines of a die that take units. -/
def working (s : State) (die : Fin 4) : List (Fin 68) := (dieEngines die).filter (fun e => s.engines[e].st == meACTIVE)
/-- Logical numbers of a die that no engine carries and no engine under test stands in for: where a returned engine and a
spare are tested for one number at a time, the spare that stands in for it keeps it (R14, R119: DESIGN CHOICE,
notes/assumptions/45). -/
def missing (s : State) (die : Fin 4) : List Nat :=
  ((List.range 16).map (fun i => 16 * die.val + i)).filter (fun l =>
    !(dieEngines die).any (fun e => s.engines[e].logical.toNat == l || s.engines[e].standIn == some l))

/-- Vector engine paired with an engine: the one of its logical number (R13, R14). -/
def pairOf (s : State) (e : Fin 68) : Fin 64 := Fin.ofNat 64 s.engines[e].logical.toNat

/-- The idle spare of a die. -/
def spareOf (s : State) (die : Fin 4) : Option (Fin 68) := (dieEngines die).find? (fun e => s.engines[e].st == meSPARE)

/-- The units of a task that have not started end in fault with NO_RESOURCE when its split needs more engines than its die
has (R102): the entry with its pool emptied, and the failure of the first of them. -/
def failUnstarted (e : Entry) : Entry :=
  match nextUnit e.run, e.run with
  | some u, .matrix _ d tot _ f => { e with run := .matrix tot d tot [] (some (f.getD (stNO_RESOURCE, unitTag e u))) }
  | _, _ => e

/-- A die lost an engine: tasks whose split needs more than it has left (R102). -/
def splitMark (die : Fin 4) (s : State) : State :=
  let n := (working s die).length
  forEach allSlots (fun slot st =>
    forEach ((jobDie st slot die).entries.filter (fun p => p.2.st == .running && dOpcode p.2.desc ≤ 2 && decide (n < mSplit p.2.desc)))
      (fun p st => modEntry ⟨slot, die, BitVec.ofNat 16 p.1⟩ failUnstarted st) st) s

/-- An engine is bound to a task: its executor time for the slot runs from the first of the tasks that it is bound to without a
break (R22, R191). -/
def bindEngine (t : TaskRef) (e : Fin 68) (s : State) : State :=
  modEngine e (fun k => { k with slot := some t.slot, bound := some t, since := if k.bound.isNone then s.clock.now else k.since }) s

/-- An engine is bound to no task any more: its executor time for the slot ends (R191). -/
def unbindEngine (e : Fin 68) (s : State) : State :=
  match s.engines[e].bound with
  | none => s
  | some t => modEngine e (fun k => { k with bound := none }) (addUse t.slot (engineDie e) s.engines[e].since s)

/-- A vector engine is bound to no task any more. -/
def unbindVe (v : Fin 64) (s : State) : State :=
  match s.ves[v].bound with
  | none => s
  | some t => modVe v (fun k => { k with bound := none }) (addUse t.slot (unitDie v) s.ves[v].since s)

/-- Whether a vector engine is bound to no task of another job (R22). -/
def veFor (s : State) (slot : Fin 64) (v : Fin 64) : Bool := s.ves[v].bound.all (fun b => b.slot == slot)

/-- A task ends: an engine that was bound to it may change its job slot (R22), unless it still works for an earlier task. -/
def endBound (t : TaskRef) (e : Fin 68) (s : State) : State :=
  if s.engines[e].bound ≠ some t then s
  else
    match s.engines[e].units.getLast? with
    | some u => modEngine e (fun k => { k with bound := some u.task }) s
    | none => unbindEngine e s

/-- Fence an engine that holds no unit (R119, steps 2 to 4): the die's spare is tested in its place, under its number. -/
def fenceIdle (e : Fin 68) (s : State) : State :=
  let die := engineDie e
  let num := s.engines[e].logical.toNat
  let spare := spareOf s die
  let s := setEngine e 0xFF meFENCED (modEngine e (fun k => { k with fence := false }) (unbindEngine e s))
  let s := raiseCause pf0 1 (logError 0x04 none e.val (match spare with | some k => k.val | none => 0xFF) s)
  match spare with
  | some k => setEngine k 0xFF meTESTING (modEngine k (fun x => { x with standIn := some num }) s)
  | none => splitMark die s

/-- An engine gives up those of its units that `p` names. With its last unit it returns its tokens, and a fence that waited
takes effect (R118, R520); it stays bound to its task. -/
def dropUnits (p : MatUnit → Bool) (e : Fin 68) (s : State) : State :=
  let k := s.engines[e]
  if !k.units.any p then s
  else
    let left := k.units.filter (fun u => !p u)
    let s := modEngine e (fun k => { k with units := left }) s
    if !left.isEmpty then s
    else
      let s := modPower (Power.giveBack (.matrix e)) s
      if k.fence then fenceIdle e s else s

/-- A vector engine ends its instance and returns its tokens; it stays bound to its task. -/
def freeVe (v : Fin 64) (s : State) : State :=
  match s.ves[v].inst with
  | none => s
  | some _ =>
    modPower (Power.giveBack (.vector v)) (modVe v (fun k => { k with inst := none }) s)

/-- A rigger core ends its program; its scratch and registers stay (R206). -/
def freeRig (r : Fin 64) (s : State) : State :=
  match s.rigs[r].task with
  | none => s
  | some t =>
    modRig r (fun k => { k with task := none }) (addUse t.slot (unitDie r) s.rigs[r].since s)

/-- Whether an entry's task runs on the Copy Engine or the Token Exchange Engine (R175, R418). -/
def Entry.usesCopy (e : Entry) : Bool :=
  e.st == .running && (dOpcode e.desc == 4 || (dOpcode e.desc == 5 && decide (cOp e.desc ≤ 7)))
def Entry.usesExch (e : Entry) : Bool := e.st == .running && dOpcode e.desc == 5 && decide (8 ≤ cOp e.desc)

/-- Whether a job's RUNNING tasks use an engine of a die. -/
def usesEngine (s : State) (slot : Fin 64) (die : Fin 4) (p : Entry → Bool) : Bool :=
  (jobDie s slot die).entries.any (fun x => p x.2)

/-- Start or end the time for which the Copy Engine and the Token Exchange Engine of a die serve a
job (R191). -/
def serveTime (slot : Fin 64) (die : Fin 4) (s : State) : State :=
  let now := s.clock.now
  let c := usesEngine s slot die Entry.usesCopy
  let x := usesEngine s slot die Entry.usesExch
  modDie slot die (fun d =>
    let add := (match d.copySince, c with | some t, false => now - t | _, _ => 0) +
      (match d.exchSince, x with | some t, false => now - t | _, _ => 0)
    { d with
      use := d.use + add
      copySince := if c then some (d.copySince.getD now) else none
      exchSince := if x then some (d.exchSince.getD now) else none }) s

/-- Requests of a task that ends before their answers: those sent stand, without a task to answer
to, and those that wait for room are not sent. -/
def detachRequests (t : TaskRef) (s : State) : State :=
  modVmt t.slot (fun v => { v with
    flows := v.flows.map (fun p => (p.1, { p.2 with
      out := p.2.out.map (fun o => if o.req.task = some t then { o with req := { o.req with task := none, dest := .none } } else o)
      waiting := p.2.waiting.filter (fun r => !(r.task == some t)) })) }) s

/-- Free every unit that works for a task or is bound to it. -/
def freeUnits (t : TaskRef) (s : State) : State :=
  let s := returnStreams t (detachRequests t { s with claims := s.claims.filter (fun c => !(c.task == t)) })
  let s := forEach (List.finRange 68) (dropUnits (fun u => u.task == t)) s
  let s := forEach (List.finRange 64) (fun v st =>
    if (st.ves[v].inst.map (·.task)) = some t then freeVe v st else st) s
  let s := forEach (List.finRange 68) (endBound t) s
  let s := forEach (List.finRange 64) (fun v st => if st.ves[v].bound = some t then unbindVe v st else st) s
  let s := forEach (List.finRange 64) (fun r st => if st.rigs[r].task = some t then freeRig r st else st) s
  modDie t.slot t.die (fun d =>
    { d with
      routine := if d.routine = some (.task t.index.toNat) then none else d.routine
      queue := d.queue.filter (fun q => !(q == .task t.index.toNat)) }) s

/-! ### Ends of tasks -/

/-- TASK_END trace record (R466's table of kinds). -/
def traceEnd (t : TaskRef) (d : Nat) (cause : Nat) (status : BitVec 8) (s : State) : State :=
  trace (some t.slot) t.die 0 0x11 (dCookie d <<< 128 + cause <<< 32 + status.toNat <<< 24 + (dGen d).toNat <<< 18 + taskName t) s

/-- An entry becomes FAULTED: its units and its claims are freed and its record is written (R209). -/
def endFaulted (t : TaskRef) (cause : Nat) (status : BitVec 8) (detail : Nat) (s : State) : State :=
  let d := (entryOf s t).desc
  let s := writerEnds t (freeUnits t s)
  let s := modEntry t (fun e => { e with st := .faulted, run := .idle, caps := [], reads := [] }) s
  let s := serveTime t.slot t.die s
  let s := event t.slot t.die (taskRec t d cause status detail) s
  pmuCount t.die (some t.slot) 0x050 2 1 (traceEnd t d cause status s)

/-- CLOSE steps that wait when their job leaves RUNNING end in fault with TIMEOUT; their halves stay
CLOSING (R425). A half that has its count closes by it, and its CLOSE completes (R423). -/
def faultClosers (slot : Fin 64) (s : State) : State :=
  forEach s.jobs[slot].buckets (fun b st =>
    match (if halfFull st slot b.1 then none else b.2.closer) with
    | none => st
    | some t =>
      endFaulted t 0x04 stTIMEOUT 0
        (modJob slot (fun j => { j with buckets := j.buckets.put b.1 { b.2 with closer := none } }) st)) s

/-- A RUNNING job enters DRAINING (R209, R559). -/
def drainJob (slot : Fin 64) (s : State) : State := pauseCheck slot (faultClosers slot (setJob slot .draining s))

/-- A task fault takes a RUNNING job to DRAINING (R209). -/
def jobFault (slot : Fin 64) (s : State) : State :=
  if jobSt s slot = .running then drainJob slot s else pauseCheck slot s

/-- A task fault of an entry, without what follows for the watch and for a hold (R209). -/
def faultCore (t : TaskRef) (cause : Nat) (status : BitVec 8) (detail : Nat) (s : State) : State :=
  jobFault t.slot (endFaulted t cause status detail s)

/-! ### Decrements -/

/-- A decrement that matches no admitted task (R185). -/
def stray (t : TaskRef) (gen : BitVec 6) (s : State) : State :=
  jobFault t.slot (event t.slot t.die (taskRec t (entryOf s t).desc 0x08 stSTATE gen.toNat) s)

/-- A decrement reaches an entry (R185). -/
def decrement (t : TaskRef) (gen : BitVec 6) (s : State) : State :=
  if !depsApply (jobSt s t.slot) then s
  else
    let e := entryOf s t
    match e.st with
    | .free early =>
      if gen = e.next && decide (early < 65535) then modEntry t (fun e => { e with st := .free (early + 1) }) s
      else stray t gen s
    | .waiting n =>
      if gen = dGen e.desc && gen ≠ e.next then
        let s := addDepOut t.slot t.die 1 s
        if n ≤ 1 then makeReady t s else modEntry t (fun e => { e with st := .waiting (n - 1) }) s
      else stray t gen s
    | _ => stray t gen s

/-- What acting on successors came to: the failing entry's number and status, when one failed. -/
abbrev SuccRes := State × Option (Nat × BitVec 8)

/-- Act on one successor entry (R176, R187). A counter below ctr_count whose word cannot be read or written ends the list with
the status of the access (DESIGN CHOICE, notes/assumptions/43). -/
def actSucc (slot : Fin 64) (k x : Nat) (s : State) : SuccRes :=
  match succKind x with
  | 0 => (s, none)
  | 1 =>
    let t := refOf slot (fld x 17 0)
    if quotaOf s slot t.die ≤ t.index.toNat then (s, some (k, stBOUND))
    else (decrement t (BitVec.ofNat 6 (fld x 29 24)) s, none)
  | _ =>
    let n := fld x 15 0
    if ctrCount s slot ≤ n then (s, some (k, stBOUND))
    else
      let r := addCounter slot n s
      if r.2 = .ok then
        (modTotals slot (fun t => { t with increments := t.increments + 1, signals := t.signals + 1 }) r.1, none)
      else (s, some (k, r.2.code))

/-- Act on the inline successors from number `k` on. -/
def actInline (slot : Fin 64) (d : Nat) : List Nat → State → SuccRes
  | [], s => (s, none)
  | k :: rest, s =>
    match actSucc slot k (dSucc d k) s with
    | (s, none) => actInline slot d rest s
    | r => r

/-- Act on the overflow list (R186, R187). -/
def actOverflow (slot : Fin 64) (d : Nat) : List Nat → State → SuccRes
  | [], s => (s, none)
  | k :: rest, s =>
    let r := jobRead slot (s := s) (dOvfBase d + 4 * k) 4
    match r.1.st with
    | .ok =>
      let x := leNat r.1.data
      if !succOk x then (r.2, some (8 + k, stBAD_FIELD))
      else
        match actSucc slot (8 + k) x r.2 with
        | (s, none) => actOverflow slot d rest s
        | r => r
    | e => (r.2, some (8 + k, e.code))

/-- Write back the scalars of a vector task (R135). -/
def writeBack (t : TaskRef) (s : State) : State :=
  match (entryOf s t).run with
  | .vector _ _ _ _ back =>
    modDie t.slot t.die (fun d =>
      { d with cs := back.foldl (fun c p => if h : p.1 < 64 then c.set p.1 p.2 else c) d.cs }) s
  | _ => s

/-- Completion of a task, without what follows for the watch and for a hold (R186, R187). `ran`
tells a task that ran from one that was skipped or dropped. -/
def completeCore (t : TaskRef) (ran : Bool) (s : State) : State :=
  let e := entryOf s t
  let d := e.desc
  let s := writeBack t s
  let s := freeUnits t s
  let s := writerEnds t s
  let s := if ran then forEach e.reads (fun a st => readerDone t.slot a st) s else s
  let r := actInline t.slot d (List.range 8) s
  let r := match r with
    | (s, none) => actOverflow t.slot d (List.range (dOvfCount d)) s
    | r => r
  match r with
  | (s, some f) => faultCore t 0x09 f.2 f.1 s
  | (s, none) =>
    let s := modEntry t (fun e => { e with st := .free 0, run := .idle, desc := 0, watchRec := none, caps := [], reads := [] }) s
    let s := serveTime t.slot t.die (leaveTag t.slot d s)
    let s := if dNotify d then event t.slot t.die (taskRec t d 0x01 stOK 0) s else s
    pauseCheck t.slot (traceEnd t d 0x01 stOK s)

/-! ### The watch's verdict -/

/-- READY tasks of phase UPD, which a verdict may drop (R168). -/
def readyUpd (s : State) (slot : Fin 64) : List TaskRef :=
  allDies.flatMap (fun die => ((jobDie s slot die).entries.filter (fun p =>
    (match p.2.st with | .ready _ => true | _ => false) && dPhase p.2.desc == 2)).map
      (fun p => ⟨slot, die, BitVec.ofNat 16 p.1⟩))

/-- Complete a task that a verdict drops, and count it (R168). -/
def dropUpd (t : TaskRef) (s : State) : State :=
  completeCore t false (modWatch t.slot (fun w => { w with last := { w.last with dropped := satInc16 w.last.dropped 1 } }) s)

end Sys2Proof.Machine
end

