-- ==== Sys2Proof/Machine/Buckets.lean ====
section
/-! DEFINITION. The descriptors of reduction buffers and buckets, and the close of a half
(spec/09_update_in_stack.md R307 to R311, spec/12_collectives_and_mapping.md R420 to R425). -/

namespace Sys2Proof.Machine

/-! ### Buffer descriptors -/

/-- Fields of a reduction buffer descriptor (R307). -/
def bBase (d : Nat) : Nat := fld d 1023 976
def bSegs (d : Nat) : Nat := fld d 959 944 + 1
/-- 0 AC32, 1 VOTE16, 2 VOTE32. -/
def bMode (d : Nat) : Nat := fld d 943 942
def bStep (d : Nat) : Nat := fld d 511 448
/-- 0 IDLE, 1 OPEN, 2 CLOSED. -/
def bState (d : Nat) : Nat := fld d 2 0

/-- The configuration half of a buffer descriptor is well formed (R307, R661). -/
def bufDescOk (addr d : Nat) : Bool :=
  addr % 128 == 0 && bBase d % 4096 == 0 && bMode d != 3 && fld d 975 960 == 0 && fld d 941 512 == 0

/-- Bytes of the accumulator or counter plane (R308). -/
def bPlane (d : Nat) : Nat := if bMode d = 1 then 32768 * bSegs d else 65536 * bSegs d

/-- Address of the header of the AC32 block at byte `off` of the plane (R308). -/
def bHeader (d off : Nat) : Nat := bBase d + 65536 * bSegs d + 2 * (off / 128)

/-- Bytes that a block or 32 votes take in the plane. -/
def bUnit (d : Nat) : Nat := if bMode d = 1 then 64 else 128

/-- Read a buffer descriptor. -/
def bufAt (s : State) (slot : Fin 64) (addr : Nat) : Nat × MStat := jobNat s slot addr 128

/-- Write the status half of a buffer descriptor. -/
def putBufStatus (slot : Fin 64) (addr d : Nat) (s : State) : State := (jobWrite slot addr (leBytes 64 (d % 2 ^ 512)) s).1

/-! ### Buckets -/

/-- Write the status half of a bucket descriptor. -/
def putBucketStatus (slot : Fin 64) (addr d : Nat) (s : State) : State := (jobWrite slot addr (leBytes 64 (d % 2 ^ 512)) s).1

/-- Change a bucket half that the DK5 keeps. -/
def modBuckets (slot : Fin 64) (f : AMap (Nat × Bool) BucketHalf → AMap (Nat × Bool) BucketHalf) (s : State) : State :=
  modJob slot (fun j => { j with buckets := f j.buckets }) s

/-- BUCKET trace record (table of trace kinds). -/
def traceBucket (slot : Fin 64) (die : Fin 4) (addr d : Nat) (h : Bool) (s : State) : State :=
  trace (some slot) die 2 0x28 (kStep d h <<< 64 + fld d (kOff h + 7) (kOff h + 4) <<< 56 + kState d h <<< 52 +
    (if h then 1 else 0) <<< 48 + addr) s

/-- CLOSE of a buffer: exp_max and lifted_blocks are recorded (R307, R311). -/
def closeBuffer (slot : Fin 64) (addr : Nat) (s : State) : State :=
  let d := (bufAt s slot addr).1
  let hs := if bMode d = 0 then
      (List.range (512 * bSegs d)).map (fun i => (jobNat s slot (bBase d + 65536 * bSegs d + 2 * i) 2).1)
    else []
  let d := setFld d 2 0 2
  let d := setFld d 159 152 ((hs.map (fun h => fld h 7 0)).foldl max 0)
  let d := setFld d 287 256 (hs.filter (fun h => bitAt h 8)).length
  putBufStatus slot addr (setFld d 447 384 s.clock.now) s

/-- A half closes (R423): by 1 COUNT or 2 DEADLINE. The CLOSE that waits completes. -/
def closeHalf (slot : Fin 64) (addr : Nat) (h : Bool) (by_ : Nat) (s : State) : State :=
  match s.jobs[slot].buckets.find (addr, h) with
  | none => s
  | some b =>
    let s := closeBuffer slot b.buf s
    let d := (bucketAt s slot addr).1
    let arrived := ((counterVal s slot (kArrive d h)).1 + 2 ^ 32 - kBaseCtr d h) % 2 ^ 32
    let d := setFld (setFld d (kOff h + 3) (kOff h) 3) (kOff h + 7) (kOff h + 4) by_
    let d := setFld d (kOff h + 127) (kOff h + 96) arrived
    let s := putBucketStatus slot addr d s
    let s := modBuckets slot (fun m => m.put (addr, h) { b with closer := none, deadline := none }) s
    let s := traceBucket slot b.die addr d h s
    match b.closer with
    | some t => completeCore t true s
    | none => s

end Sys2Proof.Machine
end

