-- ==== Sys2Proof/Machine/Settle.lean ====
section
/-! DEFINITION. What follows a change of a job's counters or tasks; faults and completions that settle it; admission
(spec/05_tasks_stroke_riggers.md R182 to R212). -/

namespace Sys2Proof.Machine

/-! ### Waits -/

/-- How a waiting WAIT task ends, if it does: its counter is reached, or cannot be read, with the fault's status and the
counter's number (R197). -/
def waitEnd (s : State) (slot : Fin 64) (r : Run) : Option (Option (BitVec 8 × Nat)) :=
  match r with
  | .wait n th _ =>
    let v := counterVal s slot n
    if v.2 ≠ .ok then some (some (v.2.code, n)) else if reached v.1 th then some none else none
  | _ => none

/-- What the controllers record of an access to an arrival counter that ended with a status (R282, R290). -/
def noteCounter (slot : Fin 64) (n : Nat) (st : BitVec 8) (s : State) : State :=
  if st = stINTEGRITY then noteReads slot [(ctrBase s slot + 4 * n, 4)] s else s

/-- A WAIT task of a job that ends, and how. -/
def readyWait (s : State) (slot : Fin 64) : Option (TaskRef × Option (BitVec 8 × Nat)) :=
  (allDies.flatMap (fun die => (jobDie s slot die).entries.filterMap (fun p =>
    if p.2.st == .running then (waitEnd s slot p.2.run).map (fun f => ((⟨slot, die, BitVec.ofNat 16 p.1⟩ : TaskRef), f)) else none))).head?

/-- End WAIT tasks as long as one has reached its threshold or lost its counter (R197), and close halves of buckets by COUNT
as long as one has its count (R423), at most `fuel` of both: each may bring a counter to what another waits for. -/
def settleWaits (slot : Fin 64) : Nat → State → State
  | 0, s => s
  | fuel + 1, s =>
    match readyWait s slot with
    | some (t, none) => settleWaits slot fuel (completeCore t true s)
    | some (t, some f) => settleWaits slot fuel (faultCore t 0x04 f.1 f.2 (noteCounter slot f.2 f.1 s))
    | none =>
      match fullHalf s slot with
      | some k => settleWaits slot fuel (closeHalf slot k.1 k.2 1 s)
      | none => s

/-- Occupied entries of a job. -/
def entryCount (s : State) (slot : Fin 64) : Nat :=
  (allDies.map (fun d => (jobDie s slot d).entries.length)).foldl (· + ·) 0

/-- Most rounds that the ends of a job's waits can take. -/
def waitFuel (s : State) (slot : Fin 64) : Nat := entryCount s slot + s.jobs[slot].buckets.length

/-- Complete READY tasks of phase UPD while the last verdict drops them, held ones and those that become ready before the next
WOPEN (R168): each acts on its successors, and the waits that they satisfy end with it. -/
def settleDrops (slot : Fin 64) : Nat → State → State
  | 0, s => s
  | fuel + 1, s =>
    let w := s.jobs[slot].watch
    if w.st = .idle ∧ w.dropping then
      match readyUpd s slot with
      | t :: _ => settleDrops slot fuel (settleWaits slot (waitFuel s slot) (dropUpd t s))
      | [] => s
    else s

/-! ### The watch's verdict -/

/-- Apply a verdict and return the watch to IDLE (R168). -/
def applyVerdict (slot : Fin 64) (die : Fin 4) (v : BitVec 2) (s : State) : State :=
  let s := modWatch slot (fun w => { w with st := .idle, dropping := v != 0 }) s
  let s := trace (some slot) die 3 0x30 (watchPayload s.jobs[slot].watch.last) s
  if v = 0 then s
  else
    let s := settleDrops slot (entryCount s slot) s
    if v = 2 then jobFault slot s else s

/-- Whether a task released under the record that closes still runs, other than the one that
waits in WCLOSE (R166). -/
def recordBusy (s : State) (slot : Fin 64) : Bool :=
  let no := s.jobs[slot].watch.recNo
  allDies.any (fun die => (jobDie s slot die).entries.any (fun p =>
    p.2.st == .running && p.2.watchRec == some no &&
    !(s.ves.toList.any (fun v => match v.inst with
      | some i => i.closing && i.task == ⟨slot, die, BitVec.ofNat 16 p.1⟩
      | none => false))))

/-- The engine whose instance waits in WCLOSE for a job, if any. -/
def closer (s : State) (slot : Fin 64) : Option (Fin 64) :=
  (List.finRange 64).find? (fun v => match s.ves[v].inst with | some i => i.closing && i.task.slot == slot | none => false)

/-- Judge a closing record once every other task under it has ended (R166, R167). -/
def watchCheck (slot : Fin 64) (s : State) : State :=
  let w := s.jobs[slot].watch
  if w.st == .closing && !recordBusy s slot then
    let r := closeStep s.clock.now w
    let s := modWatch slot (fun _ => { r.1 with localV := r.2 }) s
    let die := match closer s slot with | some v => unitDie v | none => 0
    let s := match closer s slot with
      | some v => modVe v (fun k => { k with inst := k.inst.map (fun i =>
          { i with closing := false, cs := vmod i.cs (Fin.ofNat 64 i.closeCs.toNat) (fun _ => r.2.setWidth 64) }) }) s
      | none => s
    if wEnable w.cfg && wAgree w.cfg then modWatch slot (fun w => { w with st := .held }) s
    else applyVerdict slot die (if wEnable w.cfg then r.2 else 0) s
  else s

/-- What follows any change of a job's counters or tasks while they apply (R212): WAIT tasks end, halves of buckets close, a closing watch record is
judged, UPD tasks that the verdict drops complete, a hold is entered. -/
def settle (slot : Fin 64) (s : State) : State :=
  let n := entryCount s slot
  holdCheck (if depsApply (jobSt s slot) then settleDrops slot n (watchCheck slot (settleWaits slot (waitFuel s slot) s)) else s)

/-- Matrix tasks whose units that had not started ended in fault, and of whose started units none is left (R102). -/
def dueTasks (s : State) : List (TaskRef × BitVec 8 × Nat) :=
  allSlots.flatMap (fun slot => allDies.flatMap (fun die => (jobDie s slot die).entries.filterMap (fun p =>
    let t : TaskRef := ⟨slot, die, BitVec.ofNat 16 p.1⟩
    match p.2.st, p.2.run with
    | .running, .matrix _ _ _ _ (some f) => if s.engines.toList.any (fun e => e.units.any (·.task == t)) then none else some (t, f)
    | _, _ => none)))

/-- Such tasks fault (R102). -/
def faultDue (s : State) : State :=
  forEach (dueTasks s) (fun p st => settle p.1.slot (faultCore p.1 0x04 p.2.1 p.2.2 st)) s

/-- A task faults (R209). -/
def taskFault (t : TaskRef) (cause : Nat) (status : BitVec 8) (detail : Nat) (s : State) : State :=
  faultDue (settle t.slot (faultCore t cause status detail s))

/-- An executor ends a task in fault (R183, cause UNIT_FAULT). -/
def unitFault (t : TaskRef) (status : BitVec 8) (detail : Nat) (s : State) : State := taskFault t 0x04 status detail s

/-- An executor meets a memory failure: the controllers record a read that returned poison (R282, R290), and the task ends
in fault (R124). -/
def memFault (t : TaskRef) (st : MStat) (detail : Nat) (ranges : List (Nat × Nat)) (s : State) : State :=
  unitFault t st.code detail (if st = .integrity then noteReads t.slot ranges s else s)

/-- A task completes (R186). -/
def taskDone (t : TaskRef) (s : State) : State := settle t.slot (completeCore t true s)

/-! ### Admission -/

/-- Budget field of an operand area (R195, R207). -/
def dBudget (d : Nat) : Nat := fld d 1023 1008

/-- Largest budget of a job (R192). -/
def budgetMax (s : State) (slot : Fin 64) : Nat := jobFld s oJOB_SCHED slot 0 207 192

/-- The checks of R182 on a descriptor that was read: the refusal's code, or `none`. An inline successor entry of a legal kind
with a bit that must be 0 set is refused here, as a reserved kind is (DESIGN CHOICE, notes/assumptions/43). -/
def admitCheck (s : State) (slot : Fin 64) (die : Fin 4) (d : Nat) : Option (BitVec 8) :=
  let e := entryAt s slot die (dIndex d)
  if dOpcode d = 0 || decide (8 ≤ dOpcode d) then some stBAD_OPCODE
  else if dPhase d = 3 || !dRsvOk d || (List.range 8).any (fun k => !succOk (dSucc d k)) ||
      (dOvfCount d != 0 && dOvfBase d % 8 != 0) then some stBAD_FIELD
  else if dSlot d ≠ slot.val then some stDENIED
  else if quotaOf s slot die ≤ dIndex d ||
      (List.range 8).any (fun k => succKind (dSucc d k) == 1 &&
        decide (quotaOf s slot (refOf slot (fld (dSucc d k) 17 0)).die ≤ (refOf slot (fld (dSucc d k) 17 0)).index.toNat)) then
    some stBOUND
  else if dGen d ≠ e.next || (match e.st with | .free early => decide (dDepCount d < early) | _ => false) then some stBAD_FIELD
  else if (match e.st with | .free _ => false | _ => true) then some stSTATE
  else if (dOpcode d = 6 || dOpcode d = 7) && decide (budgetMax s slot < dBudget d) then some stBOUND
  else if dSeal d && dPhase d != 0 then some stBAD_FIELD
  else if dPhase d = 0 && ((tagOf s slot (dTag d)).admitFwd (dSeal d) (dieCount s slot)).isNone then some stSTATE
  else none

/-- Put an admitted task into its entry (R172, R185, R193). -/
def admitTask (slot : Fin 64) (die : Fin 4) (d : Nat) (s : State) : State :=
  let t : TaskRef := ⟨slot, die, BitVec.ofNat 16 (dIndex d)⟩
  let early := match (entryOf s t).st with | .free n => n | _ => 0
  let s := if dPhase d = 0 then
      modTag slot (dTag d) (fun g => (g.admitFwd (dSeal d) (dieCount s slot)).getD g) s
    else if dPhase d = 1 then modTag slot (dTag d) (fun g => { g with liveB := g.liveB + 1 }) s
    else s
  let s := modEntry t (fun e => { e with
    next := dGen d + 1, desc := d, run := .idle, st := .waiting (dDepCount d - early), watchRec := none, caps := [], reads := [] }) s
  let s := addDepOut slot die early (addDepIn slot die (dDepCount d) s)
  let s := pmuCount die (some slot) 0x050 0 1 s
  if dDepCount d = early then makeReady t s else s

/-- Admit the descriptor at a job address: the status (R182, R201), and the descriptor when it could
be read. -/
def admitAt (slot : Fin 64) (die : Fin 4) (addr : Nat) (s : State) : State × BitVec 8 × Option Nat :=
  let r := jobRead slot (s := s) addr 128
  match r.1.st with
  | .ok =>
    let d := leNat r.1.data
    match admitCheck r.2 slot die d with
    | some c => (r.2, c, some d)
    | none => (admitTask slot die d r.2, stOK, some d)
  | e => (r.2, e.code, none)

end Sys2Proof.Machine
end

