-- ==== Sys2Proof/Machine/Accum.lean ====
section
/-! DEFINITION. Contributions to reduction buffers (spec/09_update_in_stack.md R311 to R317,
spec/12_collectives_and_mapping.md R427). -/

namespace Sys2Proof.Machine

/-- Add to a saturating 32-bit field whose lowest bit is `lo`. -/
def satFld (d lo n : Nat) : Nat := setFld d (lo + 31) lo (satAdd (2 ^ 32 - 1) (fld d (lo + 31) lo) n)

/-! ### AC32 merge -/

/-- `ac32_merge` of R314. -/
def ac32Merge (acc c : AC32) : AccRes :=
  if c.e = 255 || acc.e = 255 then ⟨mergeNonfinite acc fAC32 ⟨c.e, c.q⟩, 0, 0⟩
  else
    let acc := { acc with lifted := acc.lifted || c.lifted }
    if c.e = 0 || !c.nonzero then ⟨acc, 0, 0⟩
    else
      let ea := max acc.e 1
      let up := decide (ea < c.e)
      let lift1 := up && acc.nonzero
      let q := if up then acc.q.map (fun v => rneShift v (c.e - ea)) else acc.q
      let ea' := max ea c.e
      let sum := List.zipWith (fun v x => v + rneShift x (ea' - c.e)) q c.q
      ac32Finish sum ea' (acc.lifted || lift1) (q.any (· != 0)) (if lift1 then 1 else 0)

/-- Read the AC32 block at byte `off` of a buffer's plane. -/
def readAC32 (s : State) (slot : Fin 64) (d off : Nat) : AC32 × MStat :=
  let a := jobNat s slot (bBase d + off) 128
  let h := jobNat s slot (bHeader d off) 2
  (⟨fld h.1 7 0, bitAt h.1 8, (List.range 32).map (fun k => toSigned 32 (fld a.1 (32 * k + 31) (32 * k)))⟩, a.2.and h.2)

/-- Write an AC32 block. -/
def writeAC32 (slot : Fin 64) (d off : Nat) (b : AC32) (s : State) : State :=
  let s := (jobWrite slot (bBase d + off) (b.q.flatMap (fun v => leBytes 4 (ofSigned 32 v))) s).1
  (jobWrite slot (bHeader d off) (leBytes 2 (b.e + if b.lifted then 256 else 0)) s).1

/-! ### Contributions -/

/-- Formats of an ACCUMULATE: 0 BS16, 1 AC32, 2 VOTE2 (R347). Bytes of one unit in the payload. -/
def accUnitBytes (fmt : Nat) : Nat := if fmt = 0 then 65 else if fmt = 1 then 130 else 8
/-- Most units of one operation (R312). -/
def accMostUnits (fmt : Nat) : Nat := if fmt = 0 then 62 else if fmt = 1 then 31 else 512

/-- A payload length that fits its format (R312). -/
def accLenOk (fmt len : Nat) : Bool := len % accUnitBytes fmt == 0 && decide (len / accUnitBytes fmt ≤ accMostUnits fmt)

/-- Whether a format matches a buffer's mode (R312). -/
def accModeOk (fmt mode : Nat) : Bool := if fmt = 2 then mode == 1 || mode == 2 else mode == 0

/-- The BS16 block `i` of a payload of `n` blocks. -/
def accBS16 (p : List Byte) (n i : Nat) : Block :=
  let x := leNat ((p.drop (64 * i)).take 64)
  ⟨leNat ((p.drop (64 * n + i)).take 1), (List.range 32).map (fun k => toSigned 16 (fld x (16 * k + 15) (16 * k)))⟩

/-- The AC32 block `i` of a payload of `n` blocks. -/
def accAC32 (p : List Byte) (n i : Nat) : AC32 :=
  let x := leNat ((p.drop (128 * i)).take 128)
  let h := leNat ((p.drop (128 * n + 2 * i)).take 2)
  ⟨fld h 7 0, bitAt h 8, (List.range 32).map (fun k => toSigned 32 (fld x (32 * k + 31) (32 * k)))⟩

/-- What one contribution added up to. -/
structure AccSum where
  lifts : Nat
  nonf : Nat
  sat : Nat
  cmax : Nat
  voteSat : Nat
  bad : Nat
  deriving DecidableEq, Repr

def AccSum.none : AccSum := ⟨0, 0, 0, 0, 0, 0⟩

/-- Sums of two parts of a contribution. -/
def AccSum.add (a b : AccSum) : AccSum :=
  ⟨a.lifts + b.lifts, a.nonf + b.nonf, a.sat + b.sat, max a.cmax b.cmax, a.voteSat + b.voteSat, a.bad + b.bad⟩

/-- Apply block `i` of a payload of `n` blocks at byte `off` of the plane (R313, R314). -/
def applyBlock (slot : Fin 64) (d fmt : Nat) (p : List Byte) (n off i : Nat) (s : State) : State × AccSum :=
  let a := (readAC32 s slot d (off + 128 * i)).1
  let ce := if fmt = 0 then (accBS16 p n i).e else (accAC32 p n i).e
  let r := if fmt = 0 then ac32Add a (accBS16 p n i) else ac32Merge a (accAC32 p n i)
  (writeAC32 slot d (off + 128 * i) r.blk s,
   { AccSum.none with lifts := r.lifts, sat := r.sat, nonf := if ce = 255 then 1 else 0, cmax := ce })

/-- Add unit `i` of a payload, 32 votes, to the counters that stand for it from byte `off` of the plane on (R315). -/
def applyVotes (slot : Fin 64) (d : Nat) (p : List Byte) (off i : Nat) (s : State) : State × AccSum :=
  let w := if bMode d = 1 then 2 else 4
  let lim : Int := if bMode d = 1 then 32767 else 2147483647
  let va := bBase d + off + i * bUnit d
  let old := leNat (peek s slot va (32 * w)).data
  let codes := voteCodes ((p.drop (8 * i)).take 8)
  let new := (List.zip (List.range 32) codes).map (fun c =>
    clampInt (toSigned (8 * w) (fld old (8 * w * c.1 + 8 * w - 1) (8 * w * c.1)) + (voteOf c.2).1) (-lim) lim)
  let s := (jobWrite slot va (new.flatMap (fun v => leBytes w (ofSigned (8 * w) v.1))) s).1
  (s, { AccSum.none with
    voteSat := if bMode d = 1 then (new.filter Prod.snd).length else 0
    bad := (codes.filter (fun c => (voteOf c).2)).length })

/-- Whether everything that a contribution reads and writes can be read and written. -/
def accReadable (s : State) (slot : Fin 64) (d off n : Nat) : MStat :=
  let body := peekRw s slot (bBase d + off) (n * bUnit d)
  if bMode d = 0 then body.and (peekRw s slot (bHeader d off) (2 * n)) else body

/-- Change a job's update counts. -/
def modUpd (slot : Fin 64) (f : UpdCounts → UpdCounts) (s : State) : State := modJob slot (fun j => { j with upd := f j.upd }) s

/-- Die and stack of a job address, for the counts of its Accumulate Unit. -/
def stackOfVa (s : State) (slot : Fin 64) (va : Nat) : Fin 20 :=
  match translate s slot va false false with
  | some dpa => servedBy s dpa
  | none => 0
def dieOfStack (k : Fin 20) : Fin 4 := Fin.ofNat 4 (k.val / 5)

/-- What the Accumulate Unit of a unit's stack counts of it: malformed votes (R42), conversions and events. -/
def bookUnit (slot : Fin 64) (stack : Fin 20) (q : AccSum) (s : State) : State :=
  let s := modStack stack (fun k => { k with malformed := satInc k.malformed q.bad }) s
  let die := dieOfStack stack
  pmuCount die (some slot) 0x071 0 q.lifts (pmuCount die (some slot) 0x070 0 1 (countConv slot die none ⟨q.sat, q.nonf⟩ s))

/-- Apply unit `i` of a payload of `n` units at byte `off` of the plane. It lies within one 4 KiB granule, so one
Accumulate Unit receives it. -/
def applyUnit (slot : Fin 64) (d fmt : Nat) (p : List Byte) (n off i : Nat) (acc : State × AccSum) : State × AccSum :=
  let r := if fmt = 2 then applyVotes slot d p off i acc.1 else applyBlock slot d fmt p n off i acc.1
  (bookUnit slot (stackOfVa r.1 slot (bBase d + off + i * bUnit d)) r.2 r.1, acc.2.add r.2)

/-- Apply a contribution to an OPEN buffer at byte `off` of its plane, with every count it makes
(R307, R313 to R315). -/
def applyContribution (slot : Fin 64) (addr fmt off : Nat) (p : List Byte) (s : State) : State :=
  let d := (bufAt s slot addr).1
  let n := p.length / accUnitBytes fmt
  let r := (List.range n).foldl (fun acc i => applyUnit slot d fmt p n off i acc) (s, AccSum.none)
  let q := r.2
  let d := satFld (satFld (satFld (satFld (satFld d 352 1) 320 n) 288 q.lifts) 224 q.nonf) 160 q.voteSat
  let d := setFld d 151 144 (max (fld d 151 144) q.cmax)
  let s := putBufStatus slot addr d r.1
  modUpd slot (fun u => { u with lifts := satInc u.lifts q.lifts, voteSat := satInc u.voteSat q.voteSat }) s

/-! ### Late contributions -/

/-- A half whose buffer an address names. -/
def halfOfBuf (s : State) (slot : Fin 64) (buf : Nat) : Option (Nat × Bool) :=
  (s.jobs[slot].buckets.find? (fun p => p.2.buf == buf)).map Prod.fst

/-- A late contribution (R311, R427): the buffer counts it, and the bucket drops or carries it. -/
def lateContribution (slot : Fin 64) (addr fmt off : Nat) (p : List Byte) (s : State) : State :=
  let d := (bufAt s slot addr).1
  let s := putBufStatus slot addr (satFld d 192 1) s
  let s := modUpd slot (fun u => { u with late := satInc u.late 1 }) s
  let drop := modTotals slot (fun t => { t with contribDropped := t.contribDropped + 1 })
  match halfOfBuf s slot addr with
  | none => drop s
  | some (kAddr, h) =>
    let k := (bucketAt s slot kAddr).1
    let other := kBuf k (!h)
    let od := (bufAt s slot other).1
    if kState k h ≠ 3 then drop s
    else if kLate k = 1 && bState od == 1 && bStep od == (bStep d + 1) % 2 ^ 64 && bMode od == bMode d &&
        decide (off + p.length / accUnitBytes fmt * bUnit d ≤ bPlane od) then
      let s := putBucketStatus slot kAddr (satFld k (kOff h + 64) 1) s
      modTotals slot (fun t => { t with carried := t.carried + 1 }) (applyContribution slot other fmt off p s)
    else drop (putBucketStatus slot kAddr (satFld k (kOff h + 32) 1) s)

/-- A contribution that passed its checks reaches a buffer (R311). -/
def contribute (slot : Fin 64) (addr fmt off : Nat) (p : List Byte) (s : State) : State × MStat :=
  let d := bufAt s slot addr
  if d.2 ≠ .ok then (s, d.2)
  else if bState d.1 = 1 then
    match accReadable s slot d.1 off (p.length / accUnitBytes fmt) with
    | .ok => (modTotals slot (fun t => { t with accumulated := t.accumulated + 1 }) (applyContribution slot addr fmt off p s), .ok)
    | e => (s, e)
  else (lateContribution slot addr fmt off p s, .ok)

end Sys2Proof.Machine
end

