-- ==== Sys2Proof/Machine/FabricOps.lean ====
section
/-! DEFINITION. Routes, paths, the sending of packets and flows
(spec/11_ports_discovery_routing.md R393 to R396, spec/10_fabric_transport.md R336 to R342). -/

namespace Sys2Proof.Machine

/-! ### Routes and paths (R393 to R395) -/

/-- Path entry of a destination in a table. -/
def pathEntry (s : State) (x1 : Bool) (dst : BitVec 18) (k : Nat) : Nat :=
  let r := ((if x1 then s.fabric.routes.x1 else s.fabric.routes.x0).getD dst.toNat 0).toNat
  fld r (32 * k + 31) (32 * k)

def peValid (e : Nat) : Bool := bitAt e 27
def peAlt (e : Nat) : Bool := bitAt e 26
def peKind (e : Nat) : Nat := fld e 25 24
def pePort (e : Nat) : Fin 32 := Fin.ofNat 32 (fld e 23 19)
def peVia (e : Nat) : BitVec 18 := BitVec.ofNat 18 (fld e 17 0)

/-- Whether a path entry is usable (R393). -/
def pathUsable (s : State) (dst : BitVec 18) (e : Nat) : Bool :=
  let p := pePort e
  let q := port s p
  peValid e && q.st.live &&
  (match peKind e with
    | 0 => isCrew s p && q.peerValid && q.peerNode == dst
    | 1 => isCrew s p && q.peerValid && q.peerNode == peVia e
    | 2 => isUplink s p
    | _ => false)

/-- A port is chosen as if DEMOTED while it is, and while steps 3 and 4 of a lane swap run (R409). -/
def chosenLast (s : State) (p : Fin 32) : Bool := (port s p).st == .demoted || swapping s p

/-- Paths that exist to a destination. -/
def pathCount (s : State) (x1 : Bool) (dst : BitVec 18) : Nat :=
  ((List.range 4).filter (fun k => peValid (pathEntry s x1 dst k))).length

/-- Whether a device holds a route to a node in either table (R350). -/
def hasRoute (s : State) (dst : BitVec 18) : Bool := decide (0 < pathCount s false dst + pathCount s true dst)

/-- Score of a path (R395). -/
def pathScore (s : State) (x1 : Bool) (dst : BitVec 18) (vl : BitVec 3) (k : Nat) : Nat :=
  let q := port s (pePort (pathEntry s x1 dst k))
  ((q.queue.filter (fun f => f.shim.vl == vl)).map (·.bytes)).foldl (· + ·) 0 +
  s.fabric.routes.congestion.getD (x1, dst.toNat, k) 0

/-- The path of lowest score of a list, ties to the earlier one. -/
def bestPath (score : Nat → Nat) : List Nat → Option Nat
  | [] => none
  | k :: rest =>
    match bestPath score rest with
    | none => some k
    | some j => if score j < score k then some j else some k

/-- The path of a first transmission (R394). -/
def choosePath (s : State) (x1 : Bool) (dst : BitVec 18) (vl : BitVec 3) : Option Nat :=
  let us := (List.range 4).filter (fun k => pathUsable s dst (pathEntry s x1 dst k))
  let pick := fun (alt last : Bool) => bestPath (pathScore s x1 dst vl) (us.filter (fun k =>
    let e := pathEntry s x1 dst k
    peAlt e == alt && chosenLast s (pePort e) == last))
  ((pick false false).orElse (fun _ => (pick true false))).orElse
    (fun _ => (pick false true).orElse (fun _ => pick true true))

/-- Path indexes in ascending order from after `k`, wrapping at 3; `k` itself comes last (R394). -/
def pathsAfter (k : Nat) : List Nat := [(k + 1) % 4, (k + 2) % 4, (k + 3) % 4, k % 4]

/-- The next usable path in ascending index after `k`, wrapping at 3; `k` itself comes last (R394). -/
def nextPath (s : State) (x1 : Bool) (dst : BitVec 18) (k : Nat) : Option Nat :=
  (pathsAfter k).find? (fun j => pathUsable s dst (pathEntry s x1 dst j))

/-! ### Packets -/

/-- A packet of a job as it leaves this device on a path at once: with the next transmit count and the time of its transmission
(R340, R341); one that waits at its port gets both when it leaves (R460). -/
def stamp (slot : Fin 64) (k : Nat) (opcode : Byte) (pkt : Packet) (s : State) : Packet :=
  let v := s.jobs[slot].vmt
  { pkt with
    txc := v.txc, jobId := v.jobId.getD 0, src := ownNode s, time := BitVec.ofNat 40 s.clock.now
    path := BitVec.ofNat 2 k, ver := 1, length := if opcode = opLOAD then pkt.length else BitVec.ofNat 13 pkt.payload.length }

/-- Send a packet of a job on a path of a table; a job that holds no key sends none. It is sealed when its transmission starts. -/
def sendPacket (slot : Fin 64) (x1 : Bool) (k : Nat) (opcode : Byte) (ceEcho : Bool) (pkt : Packet) (s : State) : State :=
  if s.sec.jobKeys[slot].isNone then s
  else
    let p := pePort (pathEntry s x1 pkt.dst k)
    let shim : Shim := { kind := 1, vl := pkt.vl, transit := false, hop := 0, ceEcho := ceEcho, rsv := 0 }
    let f : QueuedFrame :=
      { shim := shim, body := .own slot opcode (stamp slot k opcode pkt s)
        bytes := frameSize (portEntry s p) pkt.payload.length, held := none, badFcs := false }
    enqueue p f s

/-- Send an answer or an ACK, by the path that the rules choose; with no usable path it is not sent. Its payload counts on the
first die whose requests leave by that I/O die (R471; notes/assumptions/42). -/
def sendAnswer (slot : Fin 64) (x1 : Bool) (opcode : Byte) (ceEcho : Bool) (pkt : Packet) (s : State) : State :=
  if !nodeValid s then s
  else
    match choosePath s x1 pkt.dst 2 with
    | some k =>
      sendPacket slot x1 k opcode ceEcho { pkt with vl := 2 }
        (pmuCount (if x1 then 2 else 0) (some slot) 0x062 0 (ceilDiv pkt.payload.length 64) s)
    | none => s

/-! ### Flows -/

/-- A flow before its first packet (R336, R338). -/
def Flow.new : Flow :=
  { txNext := 1, out := [], waiting := [], rxW := 0, disposed := [], unnoted := [], atomics := [], notes := [], ioDie := false,
    ceEcho := false, ackDue := false }

/-- Flow of a job with a peer. -/
def flowOf (s : State) (slot : Fin 64) (peer : BitVec 18) : Flow := s.jobs[slot].vmt.flows.getD peer Flow.new

/-- Change a flow. -/
def modFlow (slot : Fin 64) (peer : BitVec 18) (f : Flow → Flow) (s : State) : State :=
  modVmt slot (fun v => { v with flows := v.flows.put peer (f (v.flows.getD peer Flow.new)) }) s

/-- Flow slots of a job (R339, R374). -/
def flowSlots (s : State) (slot : Fin 64) : Nat := 2 ^ jobFld s oJOB_VMT slot 0 180 176

/-- Give a peer a flow slot, when it has one or one is free (R339). -/
def claimFlow (slot : Fin 64) (peer : BitVec 18) (s : State) : Option State :=
  let fs := s.jobs[slot].vmt.flows
  if (fs.find peer).isSome then some s
  else if fs.length < flowSlots s slot then some (modFlow slot peer id s)
  else none

/-- Change an outstanding request of a flow. -/
def modOut (slot : Fin 64) (peer : BitVec 18) (seq : BitVec 32) (f : Outstanding → Outstanding) (s : State) : State :=
  modFlow slot peer (fun k => { k with out := k.out.map (fun o => if o.seq = seq then f o else o) }) s

/-- `a` is later than `b` (R337). -/
def seqLater (a b : BitVec 32) : Bool := decide (1 ≤ (a - b).toNat ∧ (a - b).toNat ≤ 2 ^ 31 - 1)

/-- Change a job's transport counts. -/
def modCounts (slot : Fin 64) (f : VmtCounts → VmtCounts) (s : State) : State :=
  modVmt slot (fun v => { v with counts := f v.counts }) s

/-- Count and trace the move of a request to another path (R374, R466). -/
def countMove (slot : Fin 64) (peer : BitVec 18) (o : Outstanding) (new : Nat) (s : State) : State :=
  if new = o.path || decide (4 ≤ o.path) then s
  else
    trace (some slot) o.req.die 4 0x38 (o.seq.toNat <<< 32 + new <<< 22 + o.path <<< 20 + peer.toNat)
      (modCounts slot (fun k => { k with pathSwitches := satInc k.pathSwitches 1 }) s)

/-- A request whose path is withdrawn moves at once to the next usable one (R365, R394). -/
def withdrawOne (slot : Fin 64) (peer : BitVec 18) (o : Outstanding) (s : State) : State :=
  let x1 := dieTable o.req.die
  if 4 ≤ o.path || pathUsable s peer (pathEntry s x1 peer o.path) then s
  else
    match nextPath s x1 peer o.path with
    | some k => modOut slot peer o.seq (fun o => { o with path := k }) (countMove slot peer o k s)
    | none => s

/-- Paths have changed: every unanswered request whose path is withdrawn moves (R365, R396). -/
def withdraw (s : State) : State :=
  forEach allSlots (fun i st => forEach st.jobs[i].vmt.flows (fun f st => forEach f.2.out (fun o st => withdrawOne i f.1 o st) st) st) s

/-- Configuration of the transport (R373). -/
def rtoUs (s : State) : Nat := devFld s oVMT_CFG 0 63 56
def retriesOf (s : State) : Nat := devFld s oVMT_CFG 0 55 53
def replyHoldUs (s : State) : Nat := devFld s oVMT_CFG 0 47 32
def cacheJobMax (s : State) : Nat := devFld s oVMT_CFG 0 31 16
def busyBaseNs (s : State) : Nat := devFld s oVMT_CFG 0 15 0

end Sys2Proof.Machine
end

