-- ==== Sys2Proof/Machine/VmtTarget.lean ====
section
/-! DEFINITION. What a target does with an arriving request: checks, effects, answers, order and the
reply cache (spec/10_fabric_transport.md R342 to R368). -/

namespace Sys2Proof.Machine

/-! ### Windows (R357, R360) -/

/-- Fields of a window. -/
def nValid (w : Nat) : Bool := bitAt w 0
def nBase (w : Nat) : Nat := fld w 367 320
def nSize (w : Nat) : Nat := fld w 415 368
def nMap (w : Nat) : Nat := fld w 463 416
def nBuf (w : Nat) : Nat := fld w 511 464
def nCtrLo (w : Nat) : Nat := fld w 303 288
def nCtrHi (w : Nat) : Nat := fld w 319 304

/-- Whether a window admits a source. -/
def nAdmits (w : Nat) (src : BitVec 18) : Bool :=
  let mask := BitVec.ofNat 18 (fld w 269 252)
  src &&& mask == BitVec.ofNat 18 (fld w 287 270) &&& mask

/-- Bytes of the plane that one unit of an ACCUMULATE reaches through a window: 32 votes take 64 bytes
or, in a buffer of mode VOTE32, 128; a block takes 128. -/
def reachUnit (s : State) (slot : Fin 64) (fmt w : Nat) : Nat :=
  if fmt = 2 then (if bMode (bufAt s slot (nBuf w)).1 = 2 then 128 else 64) else 128

/-- Bytes that a request reaches, by the window that is tested: an ACCUMULATE reaches its units' bytes
in the plane, an ATOMIC its 8 bytes, and a request of length 0 is tested as one byte. -/
def reach (s : State) (slot : Fin 64) (op : Byte) (p : Packet) (w : Nat) : Nat :=
  let n := p.length.toNat
  if n = 0 then 1
  else if op = opATOMIC then 8
  else if op = opACCUMULATE then n / accUnitBytes p.sub.toNat * reachUnit s slot p.sub.toNat w
  else n

/-- The lowest-numbered valid window that contains the range and admits the source: its number and its
fields. -/
def findWindow (s : State) (slot : Fin 64) (src : BitVec 18) (op : Byte) (p : Packet) : Option (Nat × Nat) :=
  let hits := s.objs.filter (fun o =>
    let w := o.2.bits
    o.1.id == oJOB_WINDOW && o.1.owner == slot.succ && nValid w && nAdmits w src &&
    decide (nBase w ≤ p.va.toNat ∧ p.va.toNat + reach s slot op p w ≤ nBase w + nSize w))
  hits.foldl (fun (b : Option (Nat × Nat)) o =>
    match b with
    | none => some (o.1.sub.toNat, o.2.bits)
    | some c => if o.1.sub.toNat < c.1 then some (o.1.sub.toNat, o.2.bits) else b) none

/-! ### The checks (R360, orders 3 to 7) -/

/-- Refusal codes (table of refusal codes). -/
def rfWINDOW : Byte := 0x01
def rfBUSY : Byte := 0x02
def rfSTALE : Byte := 0x03
def rfBOUND : Byte := 0x04
def rfBAD_FIELD : Byte := 0x05
def rfBAD_LENGTH : Byte := 0x06
def rfSTATE : Byte := 0x07
def rfNO_RESOURCE : Byte := 0x08
def rfINTEGRITY : Byte := 0x09

/-- Status of the requester's task for a refusal code. -/
def refuseStatus (c : Byte) : BitVec 8 :=
  if c = rfWINDOW then stDENIED
  else if c = rfBUSY then stBUSY
  else if c = rfSTALE then stTIMEOUT
  else if c = rfBOUND then stBOUND
  else if c = rfBAD_FIELD then stBAD_FIELD
  else if c = rfBAD_LENGTH then stBAD_LENGTH
  else if c = rfSTATE then stSTATE
  else if c = rfNO_RESOURCE then stNO_RESOURCE
  else if c = rfINTEGRITY then stINTEGRITY
  else stINTERNAL

/-- Requests: the opcodes 0x00 to 0x0F and 0x13 to 0xFF are requests or reserved (R343). -/
def isRequest (op : Byte) : Bool := !(op == opRESP || op == opREFUSE || op == opACK)

/-- Virtual lanes of an opcode (R343). -/
def laneOk (op : Byte) (vl : BitVec 3) : Bool :=
  if op = opLOAD then vl == 1 || vl == 5
  else if op = opSTORE || op = opSIGNAL then vl == 1 || vl == 3 || vl == 4 || vl == 5
  else if op = opATOMIC then vl == 1 || vl == 3
  else if op = opACCUMULATE then vl == 3
  else false

/-- Check 3: opcode, sub, flags, RSV fields and the virtual lane (R343, R346 to R348). -/
def check3 (op : Byte) (p : Packet) : Bool :=
  laneOk op p.vl && p.rsvA == 0 && p.rsvB == 0 && !p.poison &&
  (if op = opATOMIC then decide (p.sub.toNat ≤ 6)
   else if op = opACCUMULATE then decide (p.sub.toNat ≤ 2)
   else p.sub == 0) &&
  !(p.fin && (op == opLOAD || op == opATOMIC))

/-- Check 5: length and alignment (R348, R312). -/
def check5 (op : Byte) (p : Packet) : Option Byte :=
  let n := p.length.toNat
  let va := p.va.toNat
  if op = opLOAD && n == 0 then some rfBAD_LENGTH
  else if (op = opLOAD || op = opSTORE) && decide (4096 < va % 4096 + n) then some rfBAD_FIELD
  else if op = opATOMIC && (va % 8 != 0 || n != 16) then some rfBAD_FIELD
  else if op = opSIGNAL && n != 0 then some rfBAD_FIELD
  else if op = opACCUMULATE && !accLenOk p.sub.toNat n then some rfBAD_LENGTH
  else none

/-- Whether a window grants a request's right, and its signal right (R360, check 6). -/
def granted (w : Nat) (op : Byte) (p : Packet) : Bool :=
  (if op = opLOAD then bitAt w 1
   else if op = opSTORE then bitAt w 2
   else if op = opATOMIC then bitAt w 3
   else if op = opACCUMULATE then bitAt w 4
   else true) &&
  (!(p.sig || op == opSIGNAL) || (bitAt w 5 && decide (nCtrLo w ≤ p.ctr.toNat ∧ p.ctr.toNat ≤ nCtrHi w)))

/-- The end of check 7 for an ACCUMULATE: mode, boundary, then the planes (R312, R347). -/
def check7acc (s : State) (slot : Fin 64) (w : Nat × Nat) (p : Packet) (va : Nat) : Except Byte Place :=
  let d := bufAt s slot (nBuf w.2)
  let fmt := p.sub.toNat
  if d.2 ≠ .ok then .error rfBOUND
  else if !bufDescOk (nBuf w.2) d.1 || !accModeOk fmt (bMode d.1) || va % bUnit d.1 ≠ 0 then .error rfBAD_FIELD
  else if va < bBase d.1 || decide (bPlane d.1 < va - bBase d.1 + max 1 (p.length.toNat / accUnitBytes fmt * bUnit d.1)) then
    .error rfBOUND
  else .ok ⟨va, nBuf w.2, va - bBase d.1, w.1⟩

/-- Check 7: the counter, the translation, then the buffer of an ACCUMULATE. -/
def check7 (s : State) (slot : Fin 64) (w : Nat × Nat) (op : Byte) (p : Packet) : Except Byte Place :=
  let va := nMap w.2 + (p.va.toNat - nBase w.2)
  let r := op == opLOAD || op == opATOMIC || op == opACCUMULATE
  let wr := op == opSTORE || op == opATOMIC || op == opACCUMULATE
  if (p.sig || op == opSIGNAL) && decide (ctrCount s slot ≤ p.ctr.toNat) then .error rfBOUND
  else if !mapped s slot va (reach s slot op p w.2) r wr then .error rfBOUND
  else if op = opACCUMULATE then check7acc s slot w p va
  else .ok ⟨va, 0, 0, w.1⟩

/-- Checks 3 to 7 of a request from a source for a job slot (R360). -/
def checkRequest (s : State) (slot : Fin 64) (src : BitVec 18) (op : Byte) (p : Packet) : Except Byte Place :=
  if !check3 op p then .error rfBAD_FIELD
  else if !depsApply (jobSt s slot) then .error rfSTATE
  else
    match check5 op p with
    | some c => .error c
    | none =>
      match findWindow s slot src op p with
      | none => .error rfWINDOW
      | some w => if granted w.2 op p then check7 s slot w op p else .error rfWINDOW

/-! ### Effects (R344 to R346) -/

/-- New value of an ATOMIC (R346). -/
def atomicNew (sub : Nat) (m a b : BitVec 64) : BitVec 64 :=
  match sub with
  | 0 => m + a
  | 1 => a
  | 2 => if m = b then a else m
  | 3 => if m.toNat ≤ a.toNat then m else a
  | 4 => if m.toNat ≤ a.toNat then a else m
  | 5 => if m.toInt ≤ a.toInt then m else a
  | _ => if m.toInt ≤ a.toInt then a else m

/-- What a request that reached check 10 came to. -/
inductive Served where
  | data (bytes : List Byte) (poison : Bool)
  | old (v : BitVec 64)
  | done
  | refused (code : Byte)
  deriving DecidableEq, Repr

/-- Add 1 to counter `n` for a SIGNAL or a sig. -/
def signalCounter (slot : Fin 64) (n : Nat) (s : State) : State × MStat :=
  let r := addCounter slot n s
  if r.2 = .ok then (modTotals slot (fun t => { t with increments := t.increments + 1, signals := t.signals + 1 }) r.1, .ok)
  else r

/-- Note a range that a token exchange has written (R241). -/
def markLanded (slot : Fin 64) (va n : Nat) (s : State) : State :=
  if n = 0 then s else modJob slot (fun j => { j with landed := runsInsert (runsRemove j.landed va n) (va, n) }) s

/-- The effect of a request on memory (R344). -/
def applyBody (slot : Fin 64) (op : Byte) (p : Packet) (pl : Place) (s : State) : State × Served :=
  if op = opLOAD then
    let r := jobRead s slot pl.va p.length.toNat
    (r.2, .data r.1.data (r.1.st != .ok))
  else if op = opATOMIC then
    let a := BitVec.ofNat 64 (leNat (p.payload.take 8))
    let b := BitVec.ofNat 64 (leNat (p.payload.drop 8))
    let r := jobRmw slot pl.va 8 (fun m => (atomicNew p.sub.toNat (BitVec.ofNat 64 m) a b).toNat) s
    (r.2.2, if r.2.1 = .ok then .old (BitVec.ofNat 64 r.1) else .refused rfINTEGRITY)
  else if op = opSTORE then
    let r := jobWrite slot pl.va p.payload s
    if r.2 = .ok then (if p.vl = 4 then markLanded slot pl.va p.payload.length r.1 else r.1, .done)
    else (r.1, .refused rfINTEGRITY)
  else if op = opACCUMULATE then
    let r := contribute slot pl.buf p.sub.toNat pl.off p.payload s
    (r.1, if r.2 = .ok then .done else .refused rfINTEGRITY)
  else
    let r := signalCounter slot p.ctr.toNat s
    (r.1, if r.2 = .ok then .done else .refused rfINTEGRITY)

/-- Apply a request, and make its increment after its own writes (R344, R345). -/
def applyRequest (slot : Fin 64) (op : Byte) (p : Packet) (pl : Place) (s : State) : State × Served :=
  let r := applyBody slot op p pl s
  match r.2 with
  | .refused c => (r.1, .refused c)
  | v =>
    if p.sig && op != opSIGNAL then
      let c := signalCounter slot p.ctr.toNat r.1
      (c.1, if c.2 = .ok then v else .refused rfINTEGRITY)
    else (r.1, v)

/-- A refused ACCUMULATE counts as dropped at its target (R432). -/
def dropContribution (slot : Fin 64) (op : Byte) (s : State) : State :=
  if op = opACCUMULATE then modTotals slot (fun t => { t with contribDropped := t.contribDropped + 1 }) s else s

/-- Whether memory refuses the body of a request: a refusal of its increment comes after its body was applied. -/
def bodyRefused (slot : Fin 64) (op : Byte) (p : Packet) (pl : Place) (s : State) : Bool :=
  match (applyBody slot op p pl s).2 with
  | .refused _ => true
  | _ => false

/-- The counts of a refusal of the device to itself; `dropped` where nothing of the request was applied. -/
def refuseLocal (slot : Fin 64) (op : Byte) (dropped : Bool) (s : State) : State :=
  modCounts slot (fun k => { k with refusedOut := satInc k.refusedOut 1 }) (if dropped then dropContribution slot op s else s)

/-- Checks 3 to 7 and 10 of a request of the device to itself (R350). -/
def localRequest (slot : Fin 64) (op : Byte) (p : Packet) (s : State) : State × Served :=
  match checkRequest s slot (ownNode s) op p with
  | .error c => (refuseLocal slot op true s, .refused c)
  | .ok pl =>
    let r := applyRequest slot op p pl s
    match r.2 with
    | .refused _ => (refuseLocal slot op (bodyRefused slot op p pl s) r.1, r.2)
    | _ => r

/-! ### Answers -/

/-- The answer packet of a request, without its payload. -/
def answerTo (p : Packet) : Packet := { Packet.zero with dst := p.src, seq := p.seq, tryN := p.tryN }

/-- Send a RESP. -/
def sendResp (slot : Fin 64) (a : Arrival) (bytes : List Byte) (poison : Bool) (s : State) : State :=
  sendAnswer slot (ioDie s a.port) opRESP (arrivalCe a) { answerTo a.pkt with payload := bytes, poison := poison } s

/-- Send a REFUSE and count it (R374). -/
def sendRefuse (slot : Fin 64) (a : Arrival) (code : Byte) (s : State) : State :=
  sendAnswer slot (ioDie s a.port) opREFUSE (arrivalCe a) { answerTo a.pkt with payload := leBytes 8 code.toNat }
    (modCounts slot (fun k => { k with refusedOut := satInc k.refusedOut 1 }) s)

/-- Key of a request in the reply cache. -/
def keyOf (slot : Fin 64) (p : Packet) : CacheKey := ⟨slot, p.src, p.seq⟩

/-- Whether the reply cache has an entry to give a job (R366). -/
def cacheFree (s : State) (slot : Fin 64) : Bool :=
  decide (s.fabric.cache.length < 16384 ∧ (s.fabric.cache.filter (fun e => e.1.slot == slot)).length < cacheJobMax s)

/-- Keep an answer in the reply cache. -/
def cachePut (k : CacheKey) (ans : CachedAnswer) (s : State) : State :=
  { s with fabric := { s.fabric with cache := s.fabric.cache.put k ⟨ans, s.clock.now⟩ } }

/-- Send a cached answer again: its lifetime starts again (R366). -/
def resendCached (slot : Fin 64) (a : Arrival) (e : CacheEntry) (s : State) : State :=
  let s := cachePut (keyOf slot a.pkt) e.ans s
  match e.ans with
  | .old v => sendResp slot a (leBytes 8 v.toNat) false s
  | .refuse c => sendRefuse slot a c s

/-- Refuse a request: with an entry of the reply cache, or as BUSY without one. The answer tells
whether the request is disposed (R338, R366). -/
def refuseCached (slot : Fin 64) (a : Arrival) (code : Byte) (s : State) : State × Bool :=
  if code = rfBUSY || !cacheFree s slot then (sendRefuse slot a rfBUSY s, false)
  else
    let s := cachePut (keyOf slot a.pkt) (.refuse code) s
    let s := modFlow slot a.pkt.src (fun f => { f with unnoted := f.unnoted ++ [a.pkt.seq] }) s
    (sendRefuse slot a code s, true)

/-- Refuse a request that has not been applied: an ACCUMULATE so disposed counts as dropped (R432). -/
def refuse (slot : Fin 64) (a : Arrival) (op : Byte) (code : Byte) (s : State) : State × Bool :=
  let r := refuseCached slot a code s
  (if r.2 then dropContribution slot op r.1 else r.1, r.2)

/-- The next ACK of a flow echoes the ECN mark of a request that it answers (R395). -/
def echoInAck (slot : Fin 64) (a : Arrival) (s : State) : State :=
  modFlow slot a.pkt.src (fun f => { f with ceEcho := f.ceEcho || arrivalCe a }) s

/-- Serve a request that passed checks 3 to 9, and answer it: whether it is disposed. -/
def serve (slot : Fin 64) (a : Arrival) (op : Byte) (pl : Place) (s : State) : State × Bool :=
  let r := applyRequest slot op a.pkt pl s
  match r.2 with
  | .data bs poison => (sendResp slot a bs poison r.1, true)
  | .old v => (sendResp slot a (leBytes 8 v.toNat) false (cachePut (keyOf slot a.pkt) (.old v) r.1), true)
  | .done => (echoInAck slot a r.1, true)
  | .refused c => if bodyRefused slot op a.pkt pl s then refuse slot a op c r.1 else refuseCached slot a c r.1

/-! ### Order and the hold (R362, R363) -/

/-- A request is disposed (R338): the ACK of R364 is due. -/
def dispose (slot : Fin 64) (peer : BitVec 18) (seq : BitVec 32) (s : State) : State :=
  modFlow slot peer (fun f => { f with disposed := if f.disposed.contains seq then f.disposed else f.disposed ++ [seq], ackDue := true }) s

/-- Advance W over disposed requests. -/
def advanceW : Nat → Flow → Flow
  | 0, f => f
  | fuel + 1, f =>
    if f.disposed.contains (f.rxW + 1) then
      advanceW fuel { f with rxW := f.rxW + 1, disposed := f.disposed.filter (fun q => q != f.rxW + 1) }
    else f

/-- The held request of a flow with a sequence number. -/
def heldAt (s : State) (slot : Fin 64) (peer : BitVec 18) (seq : BitVec 32) : Option Held :=
  s.fabric.hold.find? (fun h => h.arr.pkt.src == peer && h.arr.pkt.seq == seq &&
    (s.jobs[slot].vmt.jobId == some h.arr.pkt.jobId))

/-- Take a request out of the hold. -/
def unhold (h : Held) (s : State) : State :=
  { s with fabric := { s.fabric with hold := s.fabric.hold.filter (fun x => !(x == h)) } }

/-- Advance W, and serve the held request W + 1, as long as one is there (R363): its checks stand as they
were made when it arrived (R359). -/
def advance (slot : Fin 64) (peer : BitVec 18) : Nat → State → State
  | 0, s => s
  | fuel + 1, s =>
    let s := modFlow slot peer (fun f => advanceW f.disposed.length f) s
    match heldAt s slot peer ((flowOf s slot peer).rxW + 1) with
    | none => s
    | some h =>
      let r := serve slot h.arr h.opcode h.place (unhold h s)
      advance slot peer fuel (if r.2 then dispose slot peer h.arr.pkt.seq r.1 else r.1)

/-- Whether a held request was checked against a window (R359). -/
def windowHeld (s : State) (slot : Fin 64) (sub : Nat) : Bool :=
  s.fabric.hold.any (fun h => s.jobs[slot].vmt.jobId == some h.arr.pkt.jobId && h.place.win == sub)

/-- After a disposal: W and the hold. -/
def disposeAnd (slot : Fin 64) (peer : BitVec 18) (seq : BitVec 32) (s : State) : State :=
  advance slot peer (s.fabric.hold.length + 1) (dispose slot peer seq s)

/-- A duplicate: its handling, and the ACK of its flow (R364, R367, R368). A LOAD that is served again makes no second
increment (R345, R356). -/
def duplicate (slot : Fin 64) (a : Arrival) (op : Byte) (s : State) : State :=
  let s := modCounts slot (fun k => { k with dup := satInc k.dup 1 }) s
  let peer := a.pkt.src
  let s := modFlow slot peer (fun f => { f with ackDue := true }) s
  match s.fabric.cache.find (keyOf slot a.pkt) with
  | some e => resendCached slot a e s
  | none =>
    if op = opLOAD then
      match checkRequest s slot peer op a.pkt with
      | .error c => (refuse slot a op c s).1
      | .ok pl => (serve slot { a with pkt := { a.pkt with sig := false } } op pl s).1
    else if op = opATOMIC || decide (s.clock.now < s.fabric.staleUntil) then (refuseCached slot a rfSTALE s).1
    else echoInAck slot a s

/-- Checks 3 to 10 of a request that is not a duplicate (R360). -/
def fresh (slot : Fin 64) (a : Arrival) (op : Byte) (s : State) : State :=
  let peer := a.pkt.src
  let finish := fun (r : State × Bool) => if r.2 then disposeAnd slot peer a.pkt.seq r.1 else r.1
  match checkRequest s slot peer op a.pkt with
  | .error c => finish (refuse slot a op c s)
  | .ok pl =>
    if a.pkt.fin && (flowOf s slot peer).rxW + 1 != a.pkt.seq then
      if s.fabric.hold.length < 512 then
        { s with fabric := { s.fabric with hold := s.fabric.hold ++ [⟨op, a, pl, s.clock.now⟩] } }
      else finish (refuse slot a op rfBUSY s)
    else if op = opATOMIC && !cacheFree s slot then finish (refuse slot a op rfBUSY s)
    else finish (serve slot a op pl s)

/-- Check 2: the sequence number against W. -/
def check2 (slot : Fin 64) (a : Arrival) (op : Byte) (s : State) : State :=
  let f := flowOf s slot a.pkt.src
  let seq := a.pkt.seq
  if !seqLater seq f.rxW || f.disposed.contains seq then duplicate slot a op s
  else if 4096 < (seq - f.rxW).toNat then modVmtErr (fun e => { e with beyondWindow := satInc e.beyondWindow 1 }) s
  else if (heldAt s slot a.pkt.src seq).isSome then modCounts slot (fun k => { k with dup := satInc k.dup 1 }) s
  else fresh slot a op s

/-- A refusal for want of a flow slot counts an ACCUMULATE as dropped at its first transmission that arrives (R432;
notes/assumptions/49). -/
def dropSlotless (slot : Fin 64) (op : Byte) (p : Packet) (s : State) : State :=
  if s.jobs[slot].totals.noSlot.contains (p.src, p.seq) then s
  else if op = opACCUMULATE then
    dropContribution slot op (modTotals slot (fun t => { t with noSlot := (p.src, p.seq) :: t.noSlot }) s)
  else s

/-- A request that passed check 1 (R339, R360). -/
def request (slot : Fin 64) (a : Arrival) (op : Byte) (s : State) : State :=
  match claimFlow slot a.pkt.src s with
  | none => dropSlotless slot op a.pkt (sendRefuse slot a rfNO_RESOURCE s)
  | some s => settle slot (check2 slot a op (modFlow slot a.pkt.src (fun f => { f with ioDie := ioDie s a.port }) s))

/-! ### The receiver (R342, R380, R383, R397) -/

/-- Job slot of a fabric job ID whose fabric key is held. -/
def slotOfJobId (s : State) (id : BitVec 20) : Option (Fin 64) :=
  allSlots.find? (fun i => match s.sec.jobKeys[i] with | some k => k.jobId == id | none => false)

/-- Ticks by which a time stamp lies behind global time, modulo 2^40, as a signed number. -/
def staleBy (now : Nat) (t : BitVec 40) : Int := (BitVec.ofNat 40 now - t).toInt

/-- Whether the length field fits the payload: a LOAD carries none. -/
def lengthFits (op : Byte) (p : Packet) : Bool :=
  if op = opLOAD then p.payload.isEmpty else p.payload.length == p.length.toNat

/-- The times of a list that lie less than a number of ticks back. -/
def within (ticks now : Nat) (ts : List Nat) : List Nat := ts.filter (fun t => decide (now < t + ticks))

/-- A VMT frame whose tag fails (R342, R407): past the limit within a millisecond, a CREW port is
quarantined with reason AUTH_FLOOD. The answer tells whether it was. -/
def authFail (p : Fin 32) (s : State) : State × Bool :=
  let s := modVmtErr (fun e => { e with tagFail := satInc e.tagFail 1 }) s
  let s := modPort p (fun q => { q with
    authFail := satInc16 q.authFail 1, authTimes := within 800000 s.clock.now q.authTimes ++ [s.clock.now] }) s
  let limit := devFld s oLINK_CFG 0 71 56
  (s, isCrew s p && limit != 0 && decide (limit < (port s p).authTimes.length))

/-- The faults of a frame that drop it at the port (R380, R383, R391). -/
def frameFaulty (s : State) (a : Arrival) : Bool :=
  !(port s a.port).st.live || !hdrTakes s a.port a.hdr || a.shim.kind != 1 || a.shim.rsv != 0 || decide (2 ≤ a.shim.hop.toNat) ||
  a.shim.vl != a.pkt.vl || (isUplink s a.port && a.shim.hop != 0)

/-- What check 1 makes of a frame for this device. -/
inductive Check1 where
  | drop (f : VmtErr → VmtErr)
  | badTag
  | job (slot : Fin 64)

/-- R342 on a packet. -/
def check1 (s : State) (op : Byte) (p : Packet) : Check1 :=
  if p.dst ≠ ownNode s || !nodeValid s then .drop (fun e => { e with notMine := satInc e.notMine 1 })
  else if p.ver ≠ 1 || decide (4096 < p.length.toNat) || !lengthFits op p then .drop (fun e => { e with badHdr := satInc e.badHdr 1 })
  else
    match slotOfJobId s p.jobId with
    | none => .drop (fun e => { e with noJob := satInc e.noJob 1 })
    | some slot =>
      if !(s.sec.jobKeys[slot].any (fun k => tagHolds k op p)) then .badTag
      else if 131072 < staleBy s.clock.now p.time || staleBy s.clock.now p.time < -4096 then
        .drop (fun e => { e with staleTime := satInc e.staleTime 1 })
      else .job slot

/-- Bytes of an arriving frame. -/
def arrivalBytes (s : State) (a : Arrival) : Nat := frameSize (portEntry s a.port) a.pkt.payload.length

/-- Credits of a received CREW frame are freed when the device has consumed it (R401). -/
def freeCredits (a : Arrival) (s : State) : State := freeRx a.port a.shim.vl a.shim.transit (arrivalBytes s a) s

/-- A packet that passed R342 for a job, its payload in the clear (R341). -/
def openArrival (s : State) (slot : Fin 64) (a : Arrival) : Arrival :=
  match s.sec.jobKeys[slot] with
  | some k => { a with pkt := openPacket k a.pkt }
  | none => a

/-- Drop a frame at a relaying device (R397). -/
def relayDrop (a : Arrival) (s : State) : State :=
  freeCredits a (modVmtErr (fun e => { e with relayDrop := satInc e.relayDrop 1 }) s)

/-- The relay's DIRECT path to a destination by an UP port (R397), under R394's order of score. A port in steps 3 and 4 of a
lane swap counts as DEMOTED, and is not relayed into (R391, R409). -/
def relayPath (s : State) (x1 : Bool) (dst : BitVec 18) (vl : BitVec 3) : Option Nat :=
  bestPath (pathScore s x1 dst vl) ((List.range 4).filter (fun k =>
    let e := pathEntry s x1 dst k
    pathUsable s dst e && peKind e == 0 && !chosenLast s (pePort e)))

/-- A VMT frame for another node (R397): one whose FCS fails goes on with an FCS that cannot match (R398). -/
def relay (a : Arrival) (op : Byte) (s : State) : State :=
  if (port s a.port).st == .up && isCrew s a.port && pRelay (portEntry s a.port) && a.shim.hop = 0 then
    match relayPath s (ioDie s a.port) a.pkt.dst a.pkt.vl with
    | none => relayDrop a s
    | some k =>
      let out := pePort (pathEntry s (ioDie s a.port) a.pkt.dst k)
      let n := frameCredits (arrivalBytes s a)
      let i := creditIdx a.shim.vl a.shim.transit
      let s := modPort a.port (fun q => { q with
        credIn := vmod q.credIn i (fun c => c + BitVec.ofNat 32 n), credHeld := vmod q.credHeld i (fun c => c + BitVec.ofNat 32 n) }) s
      let f : QueuedFrame :=
        { shim := { a.shim with hop := 1, transit := true }, body := .vmt op a.pkt,
          bytes := frameSize (portEntry s out) a.pkt.payload.length, held := some (a.port, i, n), badFcs := !a.fcsOk }
      enqueue out f s
  else relayDrop a s

/-- Whether a frame is for another node and this device has a node ID: it is relayed or dropped by
R397, before R342. -/
def forOther (s : State) (a : Arrival) : Bool := nodeValid s && a.pkt.dst != ownNode s

end Sys2Proof.Machine
end

