-- ==== Sys2Proof/Machine/PortOps.lean ====
section
/-! DEFINITION. Port states, discovery and lane swaps (spec/11_ports_discovery_routing.md R386 to
R411). -/

namespace Sys2Proof.Machine

/-! ### States (R391) -/

/-- Damping penalty of a port now, at a half-life in seconds (R391). -/
def penaltyAtLife (s : State) (p : Fin 32) (halfLife : Nat) : Nat :=
  let q := port s p
  let life := halfLife * 800000000
  let dt := s.clock.now - q.penaltyAt
  if life = 0 then q.penalty
  else
    let x := q.penalty / 2 ^ (dt / life)
    if dt % life = 0 then x else Config.decayFraction x (dt % life) life

/-- Damping penalty of a port now. -/
def penaltyNow (s : State) (p : Fin 32) : Nat := penaltyAtLife s p (devFld s oLINK_CFG 0 103 96)

/-- The penalties are taken at a half-life, and decay from a time on: from now where another half-life applies (R405), from a
new global time where that steps, since the decay is continuous (R391). -/
def rebasePenalties (halfLife from_ : Nat) (s : State) : State :=
  forEach allPorts (fun p st =>
    let x := penaltyAtLife st p halfLife
    modPort p (fun q => { q with penalty := x, penaltyAt := from_ }) st) s

/-- Forget what a port held of its link: queue, partner, link key, swap and discovery (R392, R396). -/
def clearLink (p : Fin 32) (s : State) : State :=
  modPort p (fun q => { q with
    peerKey := 0, peerKeyFull := [], peerNode := 0, peerValid := false, peerPort := 0, peerMac := 0
    swap := none, hello := none, linkKey := none, paused := 0, rxFill := Vector.replicate 8 0, pausing := 0
    delaySent := none, delayResp := none }) (flushQueue p s)

/-- A port that enters UP starts from a full grant (R404). -/
def freshCredits (p : Fin 32) (s : State) : State :=
  modPort p (fun q => { q with
    credSent := Vector.replicate 16 0, credBack := Vector.replicate 16 0
    credHeld := Vector.replicate 16 0, credFreed := Vector.replicate 16 0, credIn := Vector.replicate 16 0 }) s

/-- Records and interrupt of a change of a port's state (R633, R466, R545). -/
def portChange (p : Fin 32) (old new : PortState) (reason : BitVec 4) (s : State) : State :=
  if old = new then s
  else
    let s := logEvent 0x03 none p.val (old.code <<< 8 + new.code <<< 4 + reason.toNat) s
    let s := traceDev 5 0x40 (reason.toNat <<< 16 + new.code <<< 12 + old.code <<< 8 + p.val) s
    raiseCause pf0 2 s

/-- Records and interrupt of a lane event (R633, R466, R411). -/
def laneEvent (p : Fin 32) (step : Nat) (failed : Bool) (op : Nat) (s : State) : State :=
  let s := logEvent 0x04 none p.val (op <<< 4 + (if failed then 8 else 0) + step) s
  let s := traceDev 5 0x41 (step <<< 8 + (if failed then 128 else 0) + p.val) s
  raiseCause pf0 2 s

/-- Code of a swap's operation (R571). -/
def Swap.op (w : Swap) : Nat := if w.back then 1 else 0

/-- Step that a swap has reached (R409). -/
def Swap.step (w : Swap) : Nat := if w.accepted then 3 else 1

/-- A swap that runs on a port comes to nothing (R410): LANE ends with a status. -/
def dropSwap (p : Fin 32) (status : BitVec 8) (s : State) : State :=
  match (port s p).swap with
  | none => s
  | some w =>
    let s := laneEvent p w.step true w.op (modPort p (fun q => { q with swap := none }) s)
    finishAll (fun c => c.work == .lane p) (.of status) s

/-- Put a port into a state with a quarantine reason (R391, R392, R396): a port that leaves UP and DEMOTED
withdraws the paths through it, and a lane swap on it fails. -/
def setPort (p : Fin 32) (st : PortState) (reason : BitVec 4) (s : State) : State :=
  let old := (port s p).st
  let s := if st.live then s else dropSwap p stTIMEOUT s
  let s := if st.live then (if old.live then s else freshCredits p s) else clearLink p s
  let s := modPort p (fun q => { q with st := st, reason := reason, since := s.clock.now }) s
  portChange p old st reason (if old.live && !st.live then withdraw s else s)

/-- A port is lost (R391). -/
def losePort (p : Fin 32) (s : State) : State :=
  match (port s p).st with
  | .training => setPort p .down 0 s
  | .discovering => setPort p .down 0 s
  | .quarantined => setPort p .down 0 s
  | .up | .demoted =>
    let pen := min 65535 (penaltyNow s p + 1000)
    let s := modPort p (fun q => { q with flaps := satInc16 q.flaps 1, penalty := pen, penaltyAt := s.clock.now }) s
    setPort p (if devFld s oLINK_CFG 0 135 120 ≤ pen then .damped else .down) 0 s
  | _ => s

/-- Count a control frame against ctl_rate, which bounds the frames accepted in any second: whether it is accepted
(R405, R406). -/
def ctlAccept (p : Fin 32) (s : State) : State × Bool :=
  let ts := within 800000000 s.clock.now (port s p).ctlTimes
  if ts.length < devFld s oLINK_CFG 0 87 72 then
    (countRx p (modPort p (fun q => { q with ctlTimes := ts ++ [s.clock.now] }) s), true)
  else (dropFrame p s, false)

/-! ### Discovery (R388, R389) -/

/-- Bytes of a HELLO, in the order in which R388 lists its parts (DESIGN CHOICE,
notes/assumptions/17). -/
def helloBytes (fabricId : BitVec 64) (node : BitVec 18) (valid : Bool) (prt : Nat) (nonce : BitVec 256) (key chain : List Byte) : List Byte :=
  leBytes 8 fabricId.toNat ++ leBytes 4 (node.toNat + if valid then 2 ^ 31 else 0) ++ leBytes 1 prt ++ leBytes 32 nonce.toNat ++ key ++ chain

/-- The HELLO that this device sends on a port now. -/
def ownHello (s : State) (p : Fin 32) : List Byte :=
  let q := port s p
  helloBytes (BitVec.ofNat 64 (devFld s oFABRIC_NODE 0 511 448)) (ownNode s) (nodeValid s) p.val q.nonce (Config.ecPublic q.eph)
    (ownChain s)

/-- A partner's HELLO as bytes. -/
def helloOf (h : Hello) : List Byte := helloBytes h.fabricId h.node h.nodeValid h.peerPort.toNat h.nonce h.ecdhKey h.chain

/-- Both HELLOs as the context of the link key: the smaller as a number first, so that both ends derive one key. The spec
gives no order (DESIGN CHOICE, notes/assumptions/17). -/
def helloPair (a b : List Byte) : List Byte := if leNat a ≤ leNat b then a ++ b else b ++ a

/-- Send HELLO with the certificate chain. -/
def sendHello (p : Fin 32) (s : State) : State :=
  let h := ownHello s p
  modPort p (fun q => { q with tries := q.tries + 1, helloSent := h }) (sendOther p .hello (nats h) s)

/-- Start discovery on a port: a fresh nonce and a fresh ephemeral key. -/
def startDiscovery (p : Fin 32) (s : State) : State :=
  let a := draw s
  let b := draw a.2
  let s := modPort p (fun q => { q with
    hello := none, tries := 0, since := s.clock.now
    nonce := (Config.random a.1).setWidth 256, eph := Config.random b.1 }) b.2
  sendHello p s

/-- Enter DISCOVERING. -/
def enterDiscovery (p : Fin 32) (s : State) : State := startDiscovery p (setPort p .discovering 0 s)

/-- Discovery fails (R389). -/
def quarantine (p : Fin 32) (reason : BitVec 4) (s : State) : State := setPort p .quarantined reason s

/-- DISCOVERING or QUARANTINED: the states that take DISC frames. -/
def discovers (s : State) (p : Fin 32) : Bool := (port s p).st == .discovering || (port s p).st == .quarantined

/-- A partner's HELLO (R388, steps 2 and 3). A device that is not DEPLOYED itself signs no PROOF and does not pass (R485): its
port gets the reason LIFECYCLE, as its partner's does (DESIGN CHOICE, notes/assumptions/17). -/
def takeHello (p : Fin 32) (h : Hello) (s : State) : State :=
  if !h.chainOk then quarantine p 1 s
  else if !h.deployed then quarantine p 3 s
  else if h.fabricId.toNat ≠ devFld s oFABRIC_NODE 0 511 448 then quarantine p 2 s
  else
    match ownSigner s with
    | none => quarantine p 3 s
    | some k =>
      let s := modPort p (fun q => { q with hello := some h, since := s.clock.now }) s
      sendOther p .proof (nats (Config.ecSign k ((port s p).helloSent ++ helloOf h))) s

/-- Whether a partner's node ID is the device's own, or another partner's under another key (R389). -/
def nodeTaken (s : State) (p : Fin 32) (h : Hello) : Bool :=
  h.nodeValid && ((nodeValid s && h.node == ownNode s) ||
    allPorts.any (fun o => o != p && (port s o).peerValid && (port s o).peerNode == h.node && (port s o).peerKeyFull != h.idKey))

/-- A partner's PROOF (R388, step 4). -/
def takeProof (p : Fin 32) (sig : List Byte) (s : State) : State :=
  match (port s p).hello with
  | none => s
  | some h =>
    let own := (port s p).helloSent
    if !Config.ecVerify h.idKey (helloOf h ++ own) sig then quarantine p 1 s
    else if (ownSigner s).isNone then quarantine p 3 s
    else if nodeTaken s p h then quarantine p 5 s
    else
      let key := Config.kdf (Config.ecdh (port s p).eph h.ecdhKey) (helloPair own (helloOf h))
      let s := setPort p .up 0 s
      modPort p (fun q => { q with
        hello := none, linkKey := some key, peerKeyFull := h.idKey, peerKey := (Config.sha384 h.idKey).setWidth 64
        peerNode := h.node, peerValid := h.nodeValid, peerPort := h.peerPort, peerMac := h.mac }) s

/-! ### Lane swaps (R409 to R411) -/

/-- Sub-lane that an idle SPARE entry offers to a port: one that serves it and carries nothing. -/
def idleSpare (s : State) (p : Fin 32) : Option (BitVec 6) :=
  (allPorts.find? (fun q =>
    let e := portEntry s q
    pKind e == 3 && pServes e == p.val &&
    !allPorts.any (fun o => (port s o).subValid && (port s o).subLane.toNat == pFirstLane e))).map
      (fun q => BitVec.ofNat 6 (pFirstLane (portEntry s q)))

/-- Tag of a LINKCTL frame under the link key (R390). The spec gives neither the nonce nor the layout:
a constant of Config over the frame's fields (DESIGN CHOICE, notes/assumptions/17). -/
def linkTag (s : State) (p : Fin 32) (content : List Byte) : Option (BitVec 128) :=
  (port s p).linkKey.map (fun k => Config.gcmTag k 0 content [])

/-- Send a LINKCTL frame. -/
def sendLinkctl (p : Fin 32) (kind : FrameKind) (data : List Nat) (s : State) : State :=
  sendOther p kind (data ++ [((linkTag s p (data.flatMap (leBytes 8))).getD 0).toNat]) s

/-- Start a lane swap (R409, step 1). -/
def startSwap (p : Fin 32) (pos : BitVec 3) (back : Bool) (s : State) : State :=
  let s := modPort p (fun q => { q with
    swap := some { pos := pos, back := back, accepted := false, marker := 0, deadline := s.clock.now + usTicks 25000 } }) s
  laneEvent p 1 false (if back then 1 else 0) (sendLinkctl p .swap [pos.toNat] s)

/-- A swap fails (R410): the port retrains without a penalty, and LANE ends with a status. -/
def failSwap (p : Fin 32) (status : BitVec 8) (s : State) : State :=
  if (port s p).swap.isNone then s else setPort p .training 0 (dropSwap p status s)

/-- Steps 4 and 5 of a swap: the position moves, frames resume (R409). A swap that finds its spare gone fails (R410). -/
def finishSwap (p : Fin 32) (w : Swap) (s : State) : State :=
  if !w.back && (idleSpare s p).isNone then failSwap p stTIMEOUT s
  else
    let spare := (idleSpare s p).getD 0
    let s := modPort p (fun q => { q with
      swap := none, subValid := !w.back, subPos := if w.back then 0 else w.pos, subLane := if w.back then 0 else spare }) s
    let s := laneEvent p 5 false w.op (drainPort p s)
    finishAll (fun c => c.work == .lane p) (.of stOK) s

/-! ### Receipt of VMT frames -/

/-- A tag failure, and the quarantine of a flooding partner (R407). -/
def badTag (p : Fin 32) (s : State) : State :=
  let r := authFail p s
  if r.2 && (port r.1 p).st.live then quarantine p 6 r.1 else r.1

/-- The codewords of an arriving frame are counted (R408, R472). -/
def countFec (a : Arrival) (s : State) : State :=
  modPortErr a.port (fun e => { e with fecCorrected := e.fecCorrected + a.fecCorrected, fecUncorrectable := e.fecUncorrectable + a.fecBad }) s

/-- Whether a frame is relayed on (R397): a relay forwards it before it has seen its FCS (R398). -/
def relays (s : State) (a : Arrival) : Bool :=
  forOther s a && (port s a.port).st == .up && isCrew s a.port && pRelay (portEntry s a.port) && a.shim.hop == 0 &&
  (relayPath s (ioDie s a.port) a.pkt.dst a.pkt.vl).isSome

/-- The way of an arriving VMT frame that stands whole up to its job: `f` takes a packet that passed R342, its payload in the
clear. -/
def receiveWhole (a : Arrival) (op : Byte) (f : Arrival → Fin 64 → State → State) (s : State) : State :=
  let s := countRx a.port s
  if !s.fabric.accepting then freeCredits a s
  else if forOther s a then relay a op s
  else
    let s := freeCredits a s
    match check1 s op a.pkt with
    | .drop g => modVmtErr g s
    | .badTag => badTag a.port s
    | .job slot => f (openArrival s slot a) slot s

/-- The way of an arriving VMT frame: one with a codeword that could not be corrected is dropped and counted (R408), and so is
one whose FCS fails, unless it is relayed (R398). The receiver frees the credits of a frame that it drops, whatever it drops it
for: they are returned, in flight or held (R404; notes/assumptions/49). The bytes of an accepted frame fill the port's buffer
(R403). -/
def receiveVmt (a : Arrival) (op : Byte) (f : Arrival → Fin 64 → State → State) (s : State) : State :=
  let s := countFec a s
  if a.fecBad ≠ 0 then freeCredits a s
  else if frameFaulty s a || a.pkt.vl = 7 then dropFrame a.port (freeCredits a s)
  else if !a.fcsOk && !relays s a then freeCredits a s
  else receiveWhole a op f (rxFillTo a.port a.shim.vl (fun b => b + arrivalBytes s a) s)

end Sys2Proof.Machine
end

