-- ==== Sys2Proof/Machine/VmtSource.lean ====
section
/-! DEFINITION. What a source does with its requests: issue, answers, retransmission
(spec/10_fabric_transport.md R336, R337, R351 to R353, R364 to R370). -/

namespace Sys2Proof.Machine

/-! ### Requests of tasks -/

/-- A request of a task of a job on a die, with every other field 0. -/
def TxReq.of (t : TaskRef) (op : Byte) (vl : BitVec 3) (va len pos : Nat) : TxReq :=
  { opcode := op, sub := 0, vl := vl, va := BitVec.ofNat 48 va, ctr := 0, sig := false, fin := false, len := len,
    payload := [], source := none, die := t.die, task := some t, pos := pos, dest := .none }

/-- No request yet. -/
def Track.new : Track := { left := 0, issued := 0, fail := none }

/-- The track of a run, when it has one. -/
def Run.track (r : Run) : Option Track :=
  match r with
  | .copy t => some t
  | .coll t _ _ => some t
  | .exch t _ => some t
  | _ => none

/-- Change the track of a run. -/
def Run.onTrack (f : Track → Track) (r : Run) : Run :=
  match r with
  | .copy t => .copy (f t)
  | .coll t st aux => .coll (f t) st aux
  | .exch t st => .exch (f t) st
  | r => r

/-- Change the track of a running task. -/
def onTrack (t : TaskRef) (f : Track → Track) (s : State) : State := modEntry t (fun e => { e with run := e.run.onTrack f }) s

/-- A request of a task is answered: the failure that counts is the one issued earliest (R352). -/
def Track.answered (pos : Nat) (fail : Option (BitVec 8)) (t : Track) : Track :=
  { t with
    left := t.left - 1
    fail := match fail, t.fail with
      | none, f => f
      | some c, none => some (pos, c)
      | some c, some f => if pos < f.1 then some (pos, c) else some f }

/-- A running task whose requests have all been answered and one of which failed ends in fault
(R352). -/
def faultIfFailed (t : TaskRef) (s : State) : State :=
  let e := entryOf s t
  match e.st, e.run.track with
  | .running, some k =>
    match k.fail with
    | some f => if k.left = 0 then unitFault t f.2 0 s else s
    | none => s
  | _, _ => s

/-! ### Where answers land -/

/-- What an answer brings: whether it was applied, and the data or the old value. -/
structure Answer where
  status : Option (BitVec 8)
  data : List Byte
  poison : Bool
  deriving DecidableEq, Repr

/-- Add a received part to the data of a GATHER (R442). -/
def gatherPart (t : TaskRef) (part : Nat) (bs : List Byte) (s : State) : State :=
  modEntry t (fun e => { e with run := match e.run with
    | .coll k st aux => .coll k st (aux ++ [part, bs.length, leNat bs])
    | r => r }) s

/-- Land an answer at its request's destination: the request's failure, if it failed (R351, R352). -/
def landAnswer (slot : Fin 64) (r : TxReq) (a : Answer) (s : State) : State × Option (BitVec 8) :=
  match a.status with
  | some c => (s, some c)
  | none =>
    match r.dest with
    | .none => (s, none)
    | .land va =>
      if a.poison then (jobPoison slot va r.len s, some stINTEGRITY)
      else
        let w := jobWrite slot va a.data s
        (w.1, if w.2 = .ok then none else some w.2.code)
    | .old va =>
      let w := jobWrite slot va (a.data.take 8) s
      (w.1, if w.2 = .ok then none else some w.2.code)
    | .entry _ part =>
      if a.poison then (s, some stINTEGRITY)
      else
        match r.task with
        | some t => (gatherPart t part a.data s, none)
        | none => (s, none)

/-- Count a request's end in the job's totals (R623). -/
def countEnd (slot : Fin 64) (status : Option (BitVec 8)) (failed : Bool) (s : State) : State :=
  modTotals slot (fun t =>
    if failed then { t with reqFailed := t.reqFailed + 1 }
    else match status with
      | none => { t with reqApplied := t.reqApplied + 1 }
      | some _ => { t with reqRefused := t.reqRefused + 1 }) s

/-- An answer reaches its request: it lands, and its task's track takes note. -/
def finishRequest (slot : Fin 64) (r : TxReq) (a : Answer) (failed : Bool) (s : State) : State :=
  let s := countEnd slot a.status failed s
  let l := landAnswer slot r a s
  match r.task with
  | some t => onTrack t (Track.answered r.pos l.2) l.1
  | none => l.1

/-! ### Transmission -/

/-- The payload of a request as its source stands (R353). -/
def reqPayload (s : State) (slot : Fin 64) (r : TxReq) : List Byte × MStat :=
  match r.source with
  | none => (r.payload, .ok)
  | some va => let x := peek s slot va r.len; (x.data, x.st)

/-- What follows a read of job memory by the Copy Engine for a task: its stream (R292), and the record of poison (R282, R290).
The Token Exchange Engine opens no stream. -/
def copyRead (t : TaskRef) (va len : Nat) (st : MStat) (s : State) : State :=
  let s := if (entryOf s t).usesExch then s else demandRead t (.copy t.die) [(va, len)] s
  if st = .integrity then noteReads t.slot [(va, len)] s else s

/-- The packet of a request. -/
def reqPacket (r : TxReq) (peer : BitVec 18) (seq : BitVec 32) (tryN : Nat) (payload : List Byte) : Packet :=
  { Packet.zero with
    dst := peer, seq := seq, va := r.va, ctr := r.ctr, vl := r.vl, sig := r.sig, fin := r.fin, sub := r.sub
    tryN := BitVec.ofNat 5 tryN, length := BitVec.ofNat 13 r.len, payload := payload }

/-- What a request can be transmitted with now: its payload, when its path is usable and its source can
be read. -/
def sendable (s : State) (slot : Fin 64) (peer : BitVec 18) (o : Outstanding) : Option (List Byte) :=
  let p := reqPayload s slot o.req
  if nodeValid s && pathUsable s peer (pathEntry s (dieTable o.req.die) peer o.path) && p.2 == .ok then some p.1 else none

/-- Transmit a request on its path with a payload. -/
def transmit (slot : Fin 64) (peer : BitVec 18) (o : Outstanding) (payload : Option (List Byte)) (s : State) : State :=
  match payload with
  | some bs =>
    sendPacket slot (dieTable o.req.die) o.path o.req.opcode false (reqPacket o.req peer o.seq o.tryN bs)
      (pmuCount o.req.die (some slot) 0x062 0 (ceilDiv bs.length 64) s)
  | none => s

/-- Note the path of a transmission of a request, when it is sent. -/
def Outstanding.noteTx (sent : Bool) (o : Outstanding) : Outstanding :=
  if sent then { o with sent := true, txPaths := o.txPaths.put o.tryN o.path } else o

/-- An outstanding request of a flow. -/
def outOf (s : State) (slot : Fin 64) (peer : BitVec 18) (seq : BitVec 32) : Option Outstanding :=
  (flowOf s slot peer).out.find? (fun o => o.seq == seq)

/-- Take an outstanding request off its flow. -/
def dropOut (slot : Fin 64) (peer : BitVec 18) (seq : BitVec 32) (s : State) : State :=
  modFlow slot peer (fun k => { k with out := k.out.filter (fun o => o.seq != seq) }) s

/-- Count produced contributions: ACCUMULATE operations that REDUCE and RING issue (R432). One that its task discards before it
has a sequence number was never an operation. -/
def countProduced (slot : Fin 64) (r : TxReq) (s : State) : State :=
  if r.opcode = opACCUMULATE then modTotals slot (fun t => { t with produced := t.produced + 1 }) s else s

/-- Give a request the next sequence number of its flow and transmit it first (R336, R394). -/
def firstTransmit (slot : Fin 64) (peer : BitVec 18) (r : TxReq) (s : State) : State :=
  let seq := (flowOf s slot peer).txNext
  let x1 := dieTable r.die
  let path := (choosePath s x1 peer r.vl).getD 4
  let charge := if path < 4 then path else ((List.range 4).find? (fun k => peValid (pathEntry s x1 peer k))).getD 4
  let o : Outstanding :=
    { seq := seq, req := r, tryN := 0, path := path, charge := charge, onPath := 1, spent := [], txPaths := [], sent := false
      lastTx := s.clock.now, busyCount := 0, busySince := 0, busyUntil := none }
  let payload := sendable s slot peer o
  let o := o.noteTx payload.isSome
  let s := modFlow slot peer (fun k => { k with
    txNext := k.txNext + 1, out := k.out ++ [o]
    atomics := if r.opcode = opATOMIC then k.atomics.filter (fun q => decide ((seq - q).toNat < 4096)) ++ [seq] else k.atomics }) s
  let s := countProduced slot r (modTotals slot (fun t => { t with reqSent := t.reqSent + 1 }) s)
  transmit slot peer o payload (if payload.isSome then pmuCount r.die (some slot) 0x060 0 1 s else s)

/-- What the device's own controllers answer to a request of the device to itself (R350). -/
def localAnswer (v : Served) : Answer :=
  match v with
  | .data bs poison => ⟨none, bs, poison⟩
  | .old x => ⟨none, leBytes 8 x.toNat, false⟩
  | .done => ⟨none, [], false⟩
  | .refused c => ⟨some (refuseStatus c), [], false⟩

/-- Issue a request to a node (R336, R337, R339, R350): a source that cannot be read fails the request
with the access's status, and a peer without a flow slot with NO_RESOURCE. -/
def issue (slot : Fin 64) (peer : BitVec 18) (r : TxReq) (s : State) : State :=
  let p := reqPayload s slot r
  let s := match r.source, r.task with | some va, some t => copyRead t va r.len p.2 s | _, _ => s
  if p.2 ≠ .ok then
    match r.task with
    | some t => onTrack t (Track.answered r.pos (some p.2.code)) s
    | none => s
  else if nodeValid s && peer == ownNode s then
    let s := countProduced slot r (modTotals slot (fun t => { t with reqSent := t.reqSent + 1 }) s)
    let v := localRequest slot r.opcode (reqPacket r peer 0 0 p.1) s
    let a := localAnswer v.2
    let s := match v.2 with | .refused _ => modCounts slot (fun k => { k with refusedIn := satInc k.refusedIn 1 }) v.1 | _ => v.1
    finishRequest slot r a false s
  else
    match claimFlow slot peer s with
    | none =>
      match r.task with
      | some t => onTrack t (Track.answered r.pos (some stNO_RESOURCE)) s
      | none => s
    | some s =>
      let f := flowOf s slot peer
      if f.out.length < 4096 && f.waiting.isEmpty then firstTransmit slot peer r s
      else modFlow slot peer (fun k => { k with waiting := k.waiting ++ [r] }) s

/-- Issue a task's requests in order: its track counts them first. -/
def issueAll (t : TaskRef) (rs : List (BitVec 18 × TxReq)) (s : State) : State :=
  let s := onTrack t (fun k => { k with left := k.left + rs.length, issued := k.issued + rs.length }) s
  forEach rs (fun r st => issue t.slot r.1 r.2 st) s

/-! ### Cutting ranges (R351) -/

/-- Pieces of a range of a target's addresses: offset and length, at most 4,096 bytes each and each
ending at or before the next 4 KiB boundary. -/
def cuts (va len : Nat) : List (Nat × Nat) :=
  if len = 0 then []
  else
    let k0 := va / 4096
    let k1 := (va + len - 1) / 4096
    (List.range (k1 - k0 + 1)).map (fun i =>
      let lo := max va (4096 * (k0 + i))
      let hi := min (va + len) (4096 * (k0 + i + 1))
      (lo - va, hi - lo))

/-- Mark the last request of a list. -/
def onLast (f : TxReq → TxReq) : List TxReq → List TxReq
  | [] => []
  | [r] => [f r]
  | r :: rest => r :: onLast f rest

/-- STOREs of a local range to a target's addresses, numbered from `pos` on. -/
def storesOf (t : TaskRef) (vl : BitVec 3) (src dst len pos : Nat) : List TxReq :=
  (List.zip (List.range (cuts dst len).length) (cuts dst len)).map (fun c =>
    { TxReq.of t opSTORE vl (dst + c.2.1) c.2.2 (pos + c.1) with source := some (src + c.2.1) })

/-- STOREs of given bytes to a target's addresses, numbered from `pos` on. -/
def storesBytes (t : TaskRef) (vl : BitVec 3) (va pos : Nat) (bs : List Byte) : List TxReq :=
  (List.zip (List.range (cuts va bs.length).length) (cuts va bs.length)).map (fun c =>
    { TxReq.of t opSTORE vl (va + c.2.1) c.2.2 (pos + c.1) with payload := (bs.drop c.2.1).take c.2.2 })

/-- A SIGNAL. -/
def signalOf (t : TaskRef) (vl : BitVec 3) (va ctr pos : Nat) (fin : Bool) : TxReq :=
  { TxReq.of t opSIGNAL vl va 0 pos with ctr := BitVec.ofNat 16 ctr, fin := fin }

/-! ### PERMUTE entries (R445, R446) -/

/-- Fields of a permute descriptor (R444). -/
def pmMoves (d : Nat) : Nat := fld d 511 464
def pmCount (d : Nat) : Nat := fld d 463 432
def pmSlotBase (d : Nat) : Nat := fld d 431 384
def pmSlots (d : Nat) : Nat := fld d 383 352
def pmScratch (d : Nat) : Nat := fld d 351 304
def pmScratchSlots (d : Nat) : Nat := fld d 303 272
def pmChunk (d : Nat) : Nat := 4096 * fld d 255 232

/-- Fields of a move entry (R445). -/
def mvDst (e : Nat) : BitVec 18 := BitVec.ofNat 18 (fld e 255 238)
def mvKind (e : Nat) : Nat := fld e 237 236
def mvSrc (e : Nat) : Nat := fld e 235 204
def mvTo (e : Nat) : Nat := fld e 203 172
def mvThr (e : Nat) : Nat := fld e 171 140
def mvCtr (e : Nat) : Nat := fld e 139 124
def mvWait (e : Nat) : Bool := bitAt e 123
def mvNotify (e : Nat) : Bool := bitAt e 122
def mvNtfNode (e : Nat) : BitVec 18 := BitVec.ofNat 18 (fld e 121 104)
def mvNtfCtr (e : Nat) : Nat := fld e 103 88

/-- Whether a task is a PERMUTE. -/
def isPermute (d : Nat) : Bool := dOpcode d == 5 && cOp d == 7

/-- The started entries of a PERMUTE, three numbers each: index in the move list, requests
unanswered, and 0 in progress, 1 complete, 2 failed. -/
def mvAt (aux : List Nat) (k : Nat) : Nat × Nat × Nat := (aux.getD (3 * k) 0, aux.getD (3 * k + 1) 0, aux.getD (3 * k + 2) 0)

/-- Put the state of a started entry. -/
def mvPut (aux : List Nat) (k left st : Nat) : List Nat := (aux.set (3 * k + 1) left).set (3 * k + 2) st

/-- Position of request `i` of the `k`-th started entry in the PERMUTE's order of issue. -/
def mvPos (k i : Nat) : Nat := k * 2 ^ 32 + i

/-- The move entry at an index. -/
def moveAt (s : State) (slot : Fin 64) (d i : Nat) : Nat × MStat := jobNat s slot (pmMoves d + 32 * i) 32

/-- A started entry whose writes have all been applied sends its SIGNAL (R446). -/
def moveDone (t : TaskRef) (k : Nat) (s : State) : State :=
  match (entryOf s t).run with
  | .coll _ _ aux =>
    let x := mvAt aux k
    if x.2.1 = 0 && x.2.2 = 0 then
      let s := modEntry t (fun e => { e with run := match e.run with | .coll r st aux => .coll r st (mvPut aux k 0 1) | r => r }) s
      let d := ((entryOf s t).caps.getD (cDesc (entryOf s t).desc) 0)
      let e := (moveAt s t.slot d x.1).1
      if mvNotify e then issueAll t [(mvNtfNode e, signalOf t 5 0 (mvNtfCtr e) (mvPos k (2 ^ 31)) true)] s
      else s
    else s
  | _ => s

/-- One request of a started entry was answered. -/
def moveAnswered (t : TaskRef) (pos : Nat) (s : State) : State :=
  let k := pos / 2 ^ 32
  match (entryOf s t).run with
  | .coll r _ aux =>
    let x := mvAt aux k
    if x.2.2 = 0 && pos % 2 ^ 32 < 2 ^ 31 then
      let failed := match r.fail with | some f => f.1 / 2 ^ 32 == k | none => false
      let s := modEntry t (fun e => { e with run := match e.run with
        | .coll r st aux => .coll r st (mvPut aux k (x.2.1 - 1) (if failed then 2 else 0))
        | r => r }) s
      moveDone t k s
    else s
  | _ => s

/-- What follows an answer for its task. -/
def afterAnswer (r : TxReq) (s : State) : State :=
  match r.task with
  | none => s
  | some t => faultIfFailed t (if isPermute (entryOf s t).desc then moveAnswered t r.pos s else s)

/-- An outstanding request ends. -/
def endRequest (slot : Fin 64) (peer : BitVec 18) (o : Outstanding) (a : Answer) (failed : Bool) (s : State) : State :=
  afterAnswer o.req (finishRequest slot o.req a failed (dropOut slot peer o.seq s))

/-! ### Answers from the fabric -/

/-- Path of the transmission that an answer names by its try, of the last transmission where it names none. -/
def sentOn (o : Outstanding) (tryN : Option Nat) : Option Nat :=
  ((tryN.bind (fun n => o.txPaths.find n)).orElse (fun _ => (o.txPaths.getLast?).map Prod.snd))

/-- ECN echo of an answer: 4,096 bytes of penalty for the path on which the request was sent (R395). A crew path keeps 0. -/
def ceEcho (peer : BitVec 18) (o : Outstanding) (tryN : Option Nat) (echo : Bool) (s : State) : State :=
  match sentOn o tryN with
  | none => s
  | some k =>
    let x1 := dieTable o.req.die
    if echo && peKind (pathEntry s x1 peer k) == 2 then
      let c := (x1, peer.toNat, k)
      { s with fabric := { s.fabric with routes := { s.fabric.routes with
          congestion := s.fabric.routes.congestion.put c (s.fabric.routes.congestion.getD c 0 + 4096) } } }
    else s

/-- Note an answer for the next ACK (R364). -/
def noteAnswer (slot : Fin 64) (peer : BitVec 18) (seq : BitVec 32) (s : State) : State :=
  modFlow slot peer (fun f => { f with notes := if f.notes.contains seq then f.notes else f.notes ++ [seq], ackDue := true }) s

/-- Whether a job has a flow with a peer. -/
def hasFlow (s : State) (slot : Fin 64) (peer : BitVec 18) : Bool := (s.jobs[slot].vmt.flows.find peer).isSome

/-- A RESP arrives (R351, R352, R364): one of an ATOMIC is noted even after its request has ended. -/
def takeResp (slot : Fin 64) (a : Arrival) (s : State) : State :=
  let peer := a.pkt.src
  match outOf s slot peer a.pkt.seq with
  | none => if (flowOf s slot peer).atomics.contains a.pkt.seq then noteAnswer slot peer a.pkt.seq s else s
  | some o =>
    let atomic := o.req.opcode == opATOMIC
    if !(atomic && a.pkt.payload.length == 8) && !(o.req.opcode == opLOAD && a.pkt.payload.length == o.req.len) then s
    else
      let s := if atomic then noteAnswer slot peer a.pkt.seq s else s
      endRequest slot peer o ⟨none, a.pkt.payload, a.pkt.poison⟩ false (ceEcho peer o (some a.pkt.tryN.toNat) a.shim.ceEcho s)

/-- A BUSY answer (R369): the request waits its backoff, or ends in fault when it has been answered
BUSY for too long. -/
def takeBusy (slot : Fin 64) (peer : BitVec 18) (o : Outstanding) (s : State) : State :=
  let s := modCounts slot (fun k => { k with busy := satInc k.busy 1 }) s
  let since := if o.busyCount = 0 then s.clock.now else o.busySince
  if usTicks (16 * replyHoldUs s) < s.clock.now - since then endRequest slot peer o ⟨some stBUSY, [], false⟩ false s
  else
    let wait := busyBaseNs s * 2 ^ (min o.busyCount 5) * 800 / 1000
    modOut slot peer o.seq (fun o => { o with
      busyCount := o.busyCount + 1, busySince := since, busyUntil := some (s.clock.now + wait) }) s

/-- A REFUSE arrives (R360, R364, R369). -/
def takeRefuse (slot : Fin 64) (a : Arrival) (s : State) : State :=
  let peer := a.pkt.src
  let code : Byte := a.pkt.payload.getD 0 0
  if !hasFlow s slot peer || a.pkt.payload.length ≠ 8 then s
  else
    let s := noteAnswer slot peer a.pkt.seq s
    match outOf s slot peer a.pkt.seq with
    | none => s
    | some o =>
      let s := trace (some slot) o.req.die 4 0x39 (o.seq.toNat <<< 32 + code.toNat <<< 24 + peer.toNat) s
      let s := ceEcho peer o (some a.pkt.tryN.toNat) a.shim.ceEcho s
      if code = rfBUSY then takeBusy slot peer o s
      else
        let stale := code == rfSTALE
        let s := modCounts slot (fun k => if stale then { k with stale := satInc k.stale 1 } else { k with refusedIn := satInc k.refusedIn 1 }) s
        endRequest slot peer o ⟨some (refuseStatus code), [], false⟩ stale s

/-- Whether an ACK covers a sequence number (R364). -/
def ackCovers (aw : BitVec 32) (bits : Nat) (seq : BitVec 32) : Bool :=
  !seqLater seq aw || (decide ((seq - aw).toNat ≤ 64) && bitAt bits ((seq - aw).toNat - 1))

/-- Sequence numbers that an ACK notes (R364). -/
def ackNotes (p : List Byte) : List (BitVec 32) :=
  (List.range (leNat ((p.drop 4).take 4))).map (fun i => BitVec.ofNat 32 (leNat ((p.drop (16 + 4 * i)).take 4)))

/-- Whether an ACK's payload has its layout (R364). -/
def ackOk (p : List Byte) : Bool :=
  let n := leNat ((p.drop 4).take 4)
  decide (16 ≤ p.length ∧ n ≤ 32 ∧ p.length = 16 + 4 * n)

/-- The answer of a request of this device is noted: its reply cache entry is freed (R366). -/
def freeNoted (slot : Fin 64) (peer : BitVec 18) (seq : BitVec 32) (s : State) : State :=
  modFlow slot peer (fun f => { f with unnoted := f.unnoted.filter (fun q => q != seq) })
    { s with fabric := { s.fabric with cache := s.fabric.cache.del ⟨slot, peer, seq⟩ } }

/-- Requests that an ACK answers: an ACK covers no LOAD and no ATOMIC (R343). -/
def ackedBy (f : Flow) (aw : BitVec 32) (bits : Nat) : List Outstanding :=
  f.out.filter (fun o => ackCovers aw bits o.seq && o.req.opcode != opLOAD && o.req.opcode != opATOMIC)

/-- An ACK arrives (R364). -/
def takeAck (slot : Fin 64) (a : Arrival) (s : State) : State :=
  let peer := a.pkt.src
  let p := a.pkt.payload
  if !hasFlow s slot peer || !ackOk p then s
  else
    let aw := BitVec.ofNat 32 (leNat (p.take 4))
    let bits := leNat ((p.drop 8).take 8)
    let s := forEach (ackNotes p) (fun q st => freeNoted slot peer q st) s
    let done := ackedBy (flowOf s slot peer) aw bits
    let s := match done.getLast? with
      | some o => ceEcho peer o none a.shim.ceEcho s
      | none => s
    forEach done (fun o st => endRequest slot peer o ⟨none, [], false⟩ false st) s

/-! ### ACKs, timers -/

/-- AW of R364: the latest sequence number up to W with no unnoted refusal at or before it. -/
def ackAW (f : Flow) : BitVec 32 :=
  f.unnoted.foldl (fun aw q => if !seqLater q aw then q - 1 else aw) f.rxW

/-- The bitmap of R364. -/
def ackBits (f : Flow) (aw : BitVec 32) : Nat :=
  ((List.range 64).filter (fun i =>
    let q := aw + 1 + BitVec.ofNat 32 i
    (!seqLater q f.rxW || f.disposed.contains q) && !f.unnoted.contains q)).foldl (fun n i => n + 2 ^ i) 0

/-- Send an ACK of a flow (R364): at most 32 noted answers, the rest in a later ACK. -/
def sendAck (slot : Fin 64) (peer : BitVec 18) (s : State) : State :=
  let f := flowOf s slot peer
  let aw := ackAW f
  let ns := f.notes.take 32
  let payload := leBytes 4 aw.toNat ++ leBytes 4 ns.length ++ leBytes 8 (ackBits f aw) ++ ns.flatMap (fun q => leBytes 4 q.toNat)
  let s := modFlow slot peer (fun k => { k with notes := k.notes.drop 32, ackDue := !(k.notes.drop 32).isEmpty, ceEcho := false }) s
  sendAnswer slot f.ioDie opACK f.ceEcho { Packet.zero with dst := peer, payload := payload } s

/-- A frame of the management channel on VL0 (R370, R512): sent under the management key, when there
is one, on a path, when there is one. The answer tells whether it was sent. -/
def sendMgmt (dst : BitVec 18) (kind : FrameKind) (body : List Byte) (s : State) : State × Bool :=
  match s.sec.mgmtKey, choosePath s false dst 0 with
  | some _, some k => (sendMgmtOn (pePort (pathEntry s false dst k)) kind dst k body s, true)
  | _, _ => (s, false)

/-- Report a peer as unreachable, once for each job and target (R370): one whose report could not be sent is reported by a
later case. -/
def reportUnreachable (slot : Fin 64) (peer : BitVec 18) (s : State) : State :=
  let v := s.jobs[slot].vmt
  let id := (v.jobId.getD 0).toNat
  let s := raiseCause pf0 3 (logError 0x07 (some slot) peer.toNat id s)
  if v.reported.contains peer || devFld s oVMT_CFG 0 109 109 = 0 then s
  else
    let r := sendMgmt (BitVec.ofNat 18 (devFld s oVMT_CFG 0 127 110)) .unreachable
      (leBytes 4 id ++ leBytes 4 (ownNode s).toNat ++ leBytes 4 peer.toNat ++ leBytes 8 s.clock.now) s
    if r.2 then modVmt slot (fun v => { v with reported := v.reported ++ [peer] }) r.1 else r.1

/-- Every path of the destination has had its transmissions (R365, R370). -/
def unreachable (slot : Fin 64) (peer : BitVec 18) (o : Outstanding) (s : State) : State :=
  let s := modCounts slot (fun k => { k with unreachable := satInc k.unreachable 1 }) s
  endRequest slot peer o ⟨some stUNREACHABLE, [], false⟩ true (reportUnreachable slot peer s)

/-- Path of a request now: its own while that is usable, else the next usable one; for a request that has
had none, the choice of a first transmission (R394). -/
def livePath (s : State) (peer : BitVec 18) (o : Outstanding) : Nat :=
  let x1 := dieTable o.req.die
  if 4 ≤ o.path then (choosePath s x1 peer o.req.vl).getD 4
  else if pathUsable s peer (pathEntry s x1 peer o.path) then o.path
  else (nextPath s x1 peer o.path).getD o.path

/-- Whether a request has made the transmissions of the path that it is charged to (R365). -/
def spent (s : State) (o : Outstanding) : Bool := decide (retriesOf s < o.onPath)

/-- The path whose transmissions come after those of a spent one (R365): the next path in ascending index that exists and has
not had its transmissions, a usable one before one that is not. A withdrawn path that the table still holds keeps its
transmissions, which a replacement carries. -/
def nextCharge (s : State) (peer : BitVec 18) (o : Outstanding) : Option Nat :=
  let x1 := dieTable o.req.die
  let left := (pathsAfter (if o.path < 4 then o.path else 3)).filter (fun k =>
    peValid (pathEntry s x1 peer k) && k != o.charge && !o.spent.contains k)
  (left.find? (fun k => pathUsable s peer (pathEntry s x1 peer k))).orElse (fun _ => left.head?)

/-- An unanswered request before its next transmission (R365): none when every path has had its transmissions. -/
def retryOf (s : State) (peer : BitVec 18) (o : Outstanding) : Option Outstanding :=
  if spent s o then
    (nextCharge s peer o).map (fun k => { o with
      tryN := o.tryN + 1, charge := k, onPath := 1, spent := o.spent ++ [o.charge], lastTx := s.clock.now
      path := if pathUsable s peer (pathEntry s (dieTable o.req.die) peer k) then k else livePath s peer o })
  else some { o with tryN := o.tryN + 1, onPath := o.onPath + 1, path := livePath s peer o, lastTx := s.clock.now }

/-- A request unanswered rto_us after its last transmission (R365): without a usable path the time counts
as a transmission, and nothing is sent (R396). A request that waits for its BUSY backoff is not
retransmitted. -/
def doRetransmit (slot : Fin 64) (peer : BitVec 18) (seq : BitVec 32) (s : State) : State :=
  match outOf s slot peer seq with
  | none => s
  | some o =>
    if o.busyUntil.isSome then s
    else
      match retryOf s peer o with
      | none => unreachable slot peer o s
      | some o' =>
        let payload := sendable s slot peer o'
        let again := o.sent && payload.isSome
        let s := modOut slot peer seq (fun _ => o'.noteTx payload.isSome) (countMove slot peer o o'.path s)
        let s := if again then
            pmuCount o.req.die (some slot) 0x061 0 1 (modCounts slot (fun k => { k with retransmits := satInc k.retransmits 1 }) s)
          else s
        transmit slot peer o' payload s

/-- The BUSY backoff ends (R369): the same try is sent again. -/
def doBusyResend (slot : Fin 64) (peer : BitVec 18) (seq : BitVec 32) (s : State) : State :=
  match outOf s slot peer seq with
  | none => s
  | some o =>
    if o.busyUntil.isNone then s
    else
      let path := livePath s peer o
      let o' := { o with busyUntil := none, path := path, lastTx := s.clock.now }
      let payload := sendable s slot peer o'
      transmit slot peer o' payload (modOut slot peer seq (fun _ => o'.noteTx payload.isSome) (countMove slot peer o path s))

/-- A waiting request gets its sequence number (R337). -/
def doIssue (slot : Fin 64) (peer : BitVec 18) (s : State) : State :=
  let f := flowOf s slot peer
  match f.waiting with
  | [] => s
  | r :: rest =>
    if 4096 ≤ f.out.length then s
    else
      let s := modFlow slot peer (fun k => { k with waiting := rest }) s
      let p := reqPayload s slot r
      if p.2 ≠ .ok then
        match r.task with
        | some t => afterAnswer r (onTrack t (Track.answered r.pos (some p.2.code)) s)
        | none => s
      else firstTransmit slot peer r s

end Sys2Proof.Machine
end

