-- ==== Sys2Proof/Machine/Vmt.lean ====
section
/-! DEFINITION. The commands of the transport: copy tasks, arriving packets and the transport's timed
events (spec/10_fabric_transport.md). A timed event acts whatever global time reads
(notes/assumptions/2). -/

namespace Sys2Proof.Machine

/-! ### Copy tasks (R349 to R352) -/

/-- Fields of the operand area of a copy task (R349). -/
def yB (d : Nat) : Nat := fld d 1023 960
def yA (d : Nat) : Nat := fld d 959 896
def yLen (d : Nat) : Nat := fld d 895 864
def yRemote (d : Nat) : Nat := fld d 863 816
def yCtr (d : Nat) : Nat := fld d 815 800
def yLocal (d : Nat) : Nat := fld d 799 752
def yNode (d : Nat) : BitVec 18 := BitVec.ofNat 18 (fld d 735 718)
def yOp (d : Nat) : Nat := fld d 711 709
def yAop (d : Nat) : Nat := fld d 708 706
def yScope (d : Nat) : Bool := bitAt d 705
def yFin (d : Nat) : Bool := bitAt d 704
def yRsig (d : Nat) : Bool := bitAt d 703

/-- Requests of a PUT (R351). -/
def putRequests (t : TaskRef) (d : Nat) : List TxReq :=
  if yLen d = 0 then (if yRsig d then [signalOf t 5 (yRemote d) (yCtr d) 0 true] else [])
  else
    onLast (fun r => { r with sig := yRsig d, ctr := if yRsig d then BitVec.ofNat 16 (yCtr d) else 0, fin := yFin d || yRsig d })
      (storesOf t 5 (yLocal d) (yRemote d) (yLen d) 0)

/-- Requests of a GET (R351). -/
def getRequests (t : TaskRef) (d : Nat) : List TxReq :=
  (List.zip (List.range (cuts (yRemote d) (yLen d)).length) (cuts (yRemote d) (yLen d))).map (fun c =>
    { TxReq.of t opLOAD 5 (yRemote d + c.2.1) c.2.2 c.1 with dest := .land (yLocal d + c.2.1) })

/-- Request of an ATOMIC (R351). -/
def atomicRequest (t : TaskRef) (d : Nat) : TxReq :=
  { TxReq.of t opATOMIC 1 (yRemote d) 16 0 with
    sub := BitVec.ofNat 4 (yAop d), payload := leBytes 8 (yA d) ++ leBytes 8 (yB d), dest := .old (yLocal d) }

/-- Request of a SIGNAL (R351). -/
def signalRequest (t : TaskRef) (d : Nat) : TxReq := signalOf t 1 (yRemote d) (yCtr d) 0 (yFin d)

/-- A released copy task of an operation, not yet started: its descriptor. -/
def copyStart (s : State) (t : TaskRef) (op : Nat) : Option Nat :=
  let e := entryOf s t
  if e.st == .running && e.run == .idle && dOpcode e.desc == 4 && yOp e.desc == op && inP0P1 s then some e.desc else none

/-- Start a copy task: issue its requests. -/
def runCopy (t : TaskRef) (node : BitVec 18) (rs : List TxReq) (s : State) : State :=
  let s := modEntry t (fun e => { e with run := .copy Track.new }) s
  settle t.slot (faultIfFailed t (issueAll t (rs.map (fun r => (node, r))) s))

/-- Start a copy task of an operation with the requests that its descriptor gives. -/
def doCopy (t : TaskRef) (op : Nat) (f : Nat → List TxReq) (s : State) : State :=
  match copyStart s t op with
  | some d => runCopy t (yNode d) (f d) s
  | none => s

/-- Whether every request that a FENCE covers has been answered (R352). -/
def fenceMet (s : State) (covered : List (Fin 64 × BitVec 18 × BitVec 32)) : Bool :=
  covered.all (fun c => (outOf s c.1 c.2.1 c.2.2).isNone)

/-- FENCE: it ends once every covered request is answered (R352). -/
def doFence (t : TaskRef) (s : State) : State :=
  let e := entryOf s t
  match e.st, e.run with
  | .running, .fence covered => if fenceMet s covered then taskDone t s else s
  | _, _ => s

/-! ### Packets and timers -/

/-- A packet that passed R342, by its opcode. -/
def handle (a : Arrival) (op : Byte) (slot : Fin 64) (s : State) : State :=
  if op = opRESP then settle slot (takeResp slot a s)
  else if op = opREFUSE then settle slot (takeRefuse slot a s)
  else if op = opACK then settle slot (takeAck slot a s)
  else request slot a op s

/-- A request arrives (R360). -/
def doRequest (a : Arrival) (op : Byte) (s : State) : State := receiveVmt a op (fun a slot => request slot a op) s

/-- A reply cache entry is freed reply_hold_us after its answer was last sent (R366). -/
def doCacheExpiry (k : CacheKey) (s : State) : State :=
  if (s.fabric.cache.find k).isSome then freeNoted k.slot k.peer k.seq s else s

/-- A held request is refused with BUSY after reply_hold_us (R362). -/
def doHoldExpiry (slot : Fin 64) (peer : BitVec 18) (seq : BitVec 32) (s : State) : State :=
  match heldAt s slot peer seq with
  | some h => (refuse slot h.arr h.opcode rfBUSY (unhold h s)).1
  | none => s

/-- COPY_PUT. -/
def execCopyPut (t : TaskRef) (s : State) : Host.Outcome State Fault Refusal := .next (doCopy t 0 (putRequests t) s)
/-- COPY_GET. -/
def execCopyGet (t : TaskRef) (s : State) : Host.Outcome State Fault Refusal := .next (doCopy t 1 (getRequests t) s)
/-- COPY_ATOMIC. -/
def execCopyAtomic (t : TaskRef) (s : State) : Host.Outcome State Fault Refusal := .next (doCopy t 2 (fun d => [atomicRequest t d]) s)
/-- COPY_SIGNAL. -/
def execCopySignal (t : TaskRef) (s : State) : Host.Outcome State Fault Refusal := .next (doCopy t 3 (fun d => [signalRequest t d]) s)
/-- COPY_FENCE. -/
def execCopyFence (t : TaskRef) (s : State) : Host.Outcome State Fault Refusal := .next (doFence t s)
/-- FLOW_REQUEST_ISSUE. -/
def execFlowRequestIssue (slot : Fin 64) (peer : BitVec 18) (s : State) : Host.Outcome State Fault Refusal := .next (doIssue slot peer s)
/-- LOAD. -/
def execVmtLoad (a : Arrival) (s : State) : Host.Outcome State Fault Refusal := .next (doRequest a opLOAD s)
/-- STORE. -/
def execVmtStore (a : Arrival) (s : State) : Host.Outcome State Fault Refusal := .next (doRequest a opSTORE s)
/-- ATOMIC. -/
def execVmtAtomic (a : Arrival) (s : State) : Host.Outcome State Fault Refusal := .next (doRequest a opATOMIC s)
/-- ACCUMULATE. -/
def execVmtAccumulate (a : Arrival) (s : State) : Host.Outcome State Fault Refusal := .next (doRequest a opACCUMULATE s)
/-- SIGNAL. -/
def execVmtSignal (a : Arrival) (s : State) : Host.Outcome State Fault Refusal := .next (doRequest a opSIGNAL s)
/-- VMT_RESERVED_OPCODE. -/
def execVmtReservedOpcode (opcode : Byte) (a : Arrival) (s : State) : Host.Outcome State Fault Refusal := .next (doRequest a opcode s)
/-- RESP. -/
def execVmtResp (a : Arrival) (s : State) : Host.Outcome State Fault Refusal :=
  .next (receiveVmt a opRESP (fun a => handle a opRESP) s)
/-- REFUSE. -/
def execVmtRefuse (a : Arrival) (s : State) : Host.Outcome State Fault Refusal :=
  .next (receiveVmt a opREFUSE (fun a => handle a opREFUSE) s)
/-- ACK. -/
def execVmtAck (a : Arrival) (s : State) : Host.Outcome State Fault Refusal :=
  .next (receiveVmt a opACK (fun a => handle a opACK) s)
/-- ACK_SEND. -/
def execAckSend (slot : Fin 64) (peer : BitVec 18) (s : State) : Host.Outcome State Fault Refusal :=
  .next (if (flowOf s slot peer).ackDue then sendAck slot peer s else s)
/-- RETRANSMIT_TIMEOUT. -/
def execRetransmitTimeout (slot : Fin 64) (peer : BitVec 18) (seq : BitVec 32) (s : State) : Host.Outcome State Fault Refusal :=
  .next (settle slot (doRetransmit slot peer seq s))
/-- BUSY_RESEND. -/
def execBusyResend (slot : Fin 64) (peer : BitVec 18) (seq : BitVec 32) (s : State) : Host.Outcome State Fault Refusal :=
  .next (doBusyResend slot peer seq s)
/-- REPLY_CACHE_EXPIRY. -/
def execReplyCacheExpiry (slot : Fin 64) (peer : BitVec 18) (seq : BitVec 32) (s : State) : Host.Outcome State Fault Refusal :=
  .next (doCacheExpiry ⟨slot, peer, seq⟩ s)
/-- HOLD_EXPIRY. -/
def execHoldExpiry (slot : Fin 64) (peer : BitVec 18) (seq : BitVec 32) (s : State) : Host.Outcome State Fault Refusal :=
  .next (doHoldExpiry slot peer seq s)
/-- RELAY_FRAME. -/
def execRelayFrame (a : Arrival) (opcode : Byte) (s : State) : Host.Outcome State Fault Refusal :=
  .next (receiveVmt a opcode (fun a => handle a opcode) s)

end Sys2Proof.Machine
end

