-- ==== Sys2Proof/Machine/Update.lean ====
section
/-! DEFINITION. The in-stack update: segments, sub-tiles and their claims
(spec/09_update_in_stack.md R319 to R331). -/

namespace Sys2Proof.Machine

/-! ### Descriptors -/

/-- Fields of an update descriptor (R327). -/
def uStep (d : Nat) : Nat := fld d 511 448
def uBase (d : Nat) : Nat := fld d 447 400
def uCount (d : Nat) : Nat := fld d 399 383

/-- Fields of a segment descriptor (R321). -/
def gTrans (d : Nat) : Nat := fld d 511 448
def gPlain (d : Nat) : Nat := fld d 447 384
def gBuf (d : Nat) : Nat := fld d 383 336
def gIndex (d : Nat) : Nat := fld d 335 320
def gHdr (d : Nat) : Nat := fld d 319 272
def gRem (d : Nat) : Nat := fld d 271 224
def gMom (d : Nat) : Nat := fld d 223 176
def gMaster (d : Nat) : Nat := fld d 175 128
def gRow0 (d : Nat) : Nat := fld d 127 104
def gCol0 (d : Nat) : Nat := fld d 103 80
def gRows (d : Nat) : Nat := fld d 79 73 + 1
def gCols (d : Nat) : Nat := fld d 72 66 + 1
def gCopyPlain (d : Nat) : Bool := bitAt d 64
def gCopyTrans (d : Nat) : Bool := bitAt d 65
def gGroup (d : Nat) : Nat := fld d 63 56

/-- Fields of a segment header (R322). -/
def hTag (h : Nat) : Nat := fld h 447 384
def hDone (h : Nat) : Nat := fld h 319 304

/-- Fields of a parameter group (R323). -/
def grpRule (g : Nat) : Nat := fld g 1 0
def grpEta (g : Nat) : F32 := BitVec.ofNat 32 (fld g 159 128)
def grpLambda (g : Nat) : F32 := BitVec.ofNat 32 (fld g 191 160)
def grpBeta (g : Nat) : F32 := BitVec.ofNat 32 (fld g 223 192)
def grpClip (g : Nat) : F32 := BitVec.ofNat 32 (fld g 255 224)

/-- Place among a task's captured records of the settings of a parameter group. -/
def grpKey (g : Nat) : Nat := 2 ^ 64 + g

/-- Settings of every group that a job has set, as UPDATE reads them at release (R323). -/
def captureGroups (s : State) (slot : Fin 64) : AMap Nat Nat :=
  (s.objs.filter (fun o => o.1.id == oJOB_UPD_GROUPS && o.1.owner == slot.succ)).map (fun o => (grpKey o.1.sub.toNat, o.2.bits))

/-- Sub-tile `q` of a segment is real (R319). -/
def realTile (d q : Nat) : Bool := decide (32 * (q / 4) < gRows d ∧ 32 * (q % 4) < gCols d)
/-- Parameter `(r, c)` of sub-tile `q` is real (R319). -/
def realParam (d q r c : Nat) : Bool := decide (32 * (q / 4) + r < gRows d ∧ 32 * (q % 4) + c < gCols d)
/-- Real sub-tiles of a segment. -/
def realTiles (d : Nat) : List Nat := (List.range 16).filter (realTile d)

/-- Place among a task's captured records of the array descriptors of a segment's working copies, the plain and the transposed
one: the DK5 reads them once, when it checks the segment (R86, R326). -/
def copyKey (seg : Nat) (trans : Bool) : Nat := 2 ^ 65 + 2 * seg + (if trans then 1 else 0)

/-- Check one working copy's array descriptor (R326). -/
def copyCheck (s : State) (slot : Fin 64) (d addr trans axis : Nat) : Option (BitVec 8) :=
  let x := readDesc s slot addr 32
  let a := arrOf x.1
  if addr % 32 ≠ 0 then some stBAD_FIELD
  else if x.2 ≠ .ok then some x.2.code
  else if !arrRsvOk x.1 || !convOk a.conv true || (a.fmt != fBS8 && a.fmt != fBS4) || a.axis ≠ axis ||
      a.trans != (trans == 1) || a.elem % 64 ≠ 0 || a.exp % 64 ≠ 0 then some stBAD_FIELD
  else if a.rows < gRow0 d + gRows d || a.cols < gCol0 d + gCols d then some stBOUND
  else none

/-- The checks of a segment's descriptor, group and copies (R321, R323, R326). -/
def segCheck (s : State) (slot : Fin 64) (addr d g : Nat) : Option (BitVec 8) :=
  if addr % 64 ≠ 0 || fld d 55 0 ≠ 0 || gMaster d % 4096 ≠ 0 || gRem d % 64 ≠ 0 || gHdr d % 64 ≠ 0 ||
      (grpRule g == 2 && gMom d % 64 != 0) || gRow0 d % 128 ≠ 0 || gCol0 d % 128 ≠ 0 ||
      grpRule g = 0 || grpRule g = 3 then some stBAD_FIELD
  else
    let p := if gCopyPlain d then copyCheck s slot d (gPlain d) 0 1 else none
    let t := if gCopyTrans d then copyCheck s slot d (gTrans d) 1 0 else none
    p.orElse (fun _ => t)

/-! ### Runs -/

/-- What an UPDATE keeps of a segment in progress, four numbers each: index in the table, 1 in
progress or 0 finished, masters clipped and masters non-finite so far. -/
def sgFind (aux : List Nat) (seg : Nat) : Option Nat :=
  (List.range (aux.length / 4)).find? (fun k => aux.getD (4 * k) 0 == seg && aux.getD (4 * k + 1) 0 == 1)

/-- Segments in progress. -/
def sgCount (aux : List Nat) : Nat := ((List.range (aux.length / 4)).filter (fun k => aux.getD (4 * k + 1) 0 == 1)).length

/-- Segments in progress that a die's Copy Engine holds (R330), of every UPDATE that runs on the die. -/
def dieSegs (s : State) (die : Fin 4) : Nat :=
  (allSlots.map (fun j => ((jobDie s j die).entries.map (fun p =>
    match p.2.st, p.2.run with
    | .running, .coll _ _ aux => if dOpcode p.2.desc == 5 && cOp p.2.desc == 5 then sgCount aux else 0
    | _, _ => 0)).foldl (· + ·) 0)).foldl (· + ·) 0

/-- Change the run of a collective step. -/
def modColl (t : TaskRef) (f : Nat → List Nat → Nat × List Nat) (s : State) : State :=
  modEntry t (fun e => { e with run := match e.run with
    | .coll k st aux => let r := f st aux; .coll k r.1 r.2
    | r => r }) s

/-- Stage and data of a running collective step. -/
def collRun (s : State) (t : TaskRef) : Option (Nat × List Nat) :=
  let e := entryOf s t
  match e.st, e.run with
  | .running, .coll _ st aux => if dOpcode e.desc == 5 && inP0P1 s then some (st, aux) else none
  | _, _ => none

/-- The update descriptor that an UPDATE read at release. -/
def updDesc (s : State) (t : TaskRef) : Nat := let e := entryOf s t; e.caps.getD (cDesc e.desc) 0

/-- Settings of a group as the UPDATE read them. -/
def updGroup (s : State) (t : TaskRef) (g : Nat) : Nat := (entryOf s t).caps.getD (grpKey g) 0

/-- A segment faults: the task ends in fault, and the record's detail is the segment's index (R328). -/
def segFault (t : TaskRef) (status : BitVec 8) (seg : Nat) (s : State) : State := unitFault t status seg s

/-- A segment faults over what was read of some ranges: poison that was met there is recorded (R282, R290). -/
def segReadFault (t : TaskRef) (status : BitVec 8) (seg : Nat) (ranges : List (Nat × Nat)) (s : State) : State :=
  segFault t status seg (if status = stINTEGRITY then noteReads t.slot ranges s else s)

/-- The array descriptors of a segment's working copies. -/
def copyDescs (d : Nat) : List (Nat × Nat) :=
  (if gCopyPlain d then [(gPlain d, 32)] else []) ++ (if gCopyTrans d then [(gTrans d, 32)] else [])

/-- UPDATE_END trace record when every segment has ended. -/
def updEnd (t : TaskRef) (s : State) : State :=
  match collRun s t with
  | none => s
  | some (st, aux) =>
    if st = uCount (updDesc s t) && sgCount aux = 0 then
      let u := s.jobs[t.slot].upd
      trace (some t.slot) t.die 2 0x29 (u.segsApplied.toNat <<< 160 + u.segsSkipped.toNat <<< 128 + uStep (updDesc s t) <<< 64 +
        cDesc (entryOf s t).desc) s
    else s

/-- Segment descriptor `seg` of an UPDATE, as read when the segment started (R327). -/
def segAt (s : State) (t : TaskRef) (seg : Nat) : Nat × MStat :=
  let addr := uBase (updDesc s t) + 64 * seg
  match (entryOf s t).caps.find addr with
  | some d => (d, .ok)
  | none => jobNat s t.slot addr 64

/-- The gradient blocks of the real sub-tiles of a segment in AC32 mode: their headers. -/
def segHeaders (s : State) (slot : Fin 64) (d b : Nat) : List Nat :=
  (realTiles d).flatMap (fun q => (List.range 32).map (fun r =>
    (jobNat s slot (bHeader b (65536 * gIndex d + 128 * (32 * q + r))) 2).1))

/-- The last write of a segment's header: step_tag s + 1, done 0 and the counts (R328). -/
def segFinish (t : TaskRef) (seg d : Nat) (clipped nonf : Nat) (s : State) : State :=
  let b := (bufAt s t.slot (gBuf d)).1
  let hs := if bMode b = 0 then segHeaders s t.slot d b else []
  let tag := (uStep (updDesc s t) + 1) % 2 ^ 64
  let h := (s.clock.now % 2 ^ 64) <<< 448 + tag <<< 384 + ((hs.map (fun h => fld h 7 0)).foldl max 0) <<< 376 +
    (min 65535 (hs.filter (fun h => bitAt h 8)).length) <<< 352 + (min 65535 clipped) <<< 336 + (min 65535 nonf) <<< 320
  let w := jobWrite t.slot (gHdr d) (leBytes 64 h) s
  if w.2 ≠ .ok then segFault t w.2.code seg w.1
  else
    let s := modUpd t.slot (fun u => { u with segsApplied := satInc u.segsApplied 1 }) w.1
    let s := modColl t (fun st aux => (st, match sgFind aux seg with | some k => aux.set (4 * k + 1) 0 | none => aux)) s
    updEnd t { s with claims := s.claims.filter (fun c => !(c.task == t && c.header == gHdr d)) }

/-- A segment whose tag is s is claimed; its done sub-tiles are skipped (R328, R330). -/
def segClaim (t : TaskRef) (seg d : Nat) (h : Nat) (s : State) : State :=
  let done := (realTiles d).filter (fun q => bitAt (hDone h) q)
  let s := modUpd t.slot (fun u => { u with subtilesSkipped := satInc u.subtilesSkipped done.length }) s
  let plain := (readDesc s t.slot (gPlain d) 32).1
  let trans := (readDesc s t.slot (gTrans d) 32).1
  let s := modEntry t (fun e => { e with caps :=
    ((e.caps.put (uBase (updDesc s t) + 64 * seg) d).put (copyKey seg false) plain).put (copyKey seg true) trans }) s
  let s := modColl t (fun st aux => (st + 1, aux ++ [seg, 1, 0, 0])) { s with claims := s.claims ++ [⟨t.slot, gHdr d, t⟩] }
  if done.length = (realTiles d).length then segFinish t seg d 0 0 s else s

/-- Why the buffer of a segment to be applied does not serve it (R307, R311). -/
def segBuffer (s : State) (t : TaskRef) (d : Nat) : Option (BitVec 8) :=
  let b := bufAt s t.slot (gBuf d)
  if gBuf d % 128 ≠ 0 then some stBAD_FIELD
  else if b.2 ≠ .ok then some b.2.code
  else if !bufDescOk (gBuf d) b.1 then some stBAD_FIELD
  else if bState b.1 ≠ 2 || bStep b.1 ≠ uStep (updDesc s t) then some stSTATE
  else if bSegs b.1 ≤ gIndex d then some stBOUND
  else none

/-- Act on a segment by its step tag (R328). -/
def segTag (t : TaskRef) (seg d : Nat) (s : State) : State :=
  let h := jobNat s t.slot (gHdr d) 64
  let step := uStep (updDesc s t)
  if h.2 ≠ .ok then memFault t h.2 seg [(gHdr d, 64)] s
  else if hTag h.1 = step then
    match segBuffer s t d with
    | some c => segReadFault t c seg [(gBuf d, 128)] s
    | none => segClaim t seg d h.1 s
  else if hTag h.1 = (step + 1) % 2 ^ 64 then
    updEnd t (modColl t (fun st aux => (st + 1, aux)) (modUpd t.slot (fun u => { u with segsSkipped := satInc u.segsSkipped 1 }) s))
  else segFault t stSTATE seg (modUpd t.slot (fun u => { u with tagErrors := satInc u.tagErrors 1 }) s)

/-- Start the next segment of an UPDATE (R328, R330): it waits while its header is claimed by another
task, and while the die or the device has no room for it. -/
def doSegment (t : TaskRef) (s : State) : State :=
  match collRun s t with
  | none => s
  | some (seg, _) =>
    if cOp (entryOf s t).desc ≠ 5 || uCount (updDesc s t) ≤ seg || decide (64 ≤ dieSegs s t.die ∨ 256 ≤ s.claims.length) then s
    else
      let x := segAt s t seg
      if x.2 ≠ .ok then memFault t x.2 seg [(uBase (updDesc s t) + 64 * seg, 64)] s
      else
        match segCheck s t.slot (uBase (updDesc s t) + 64 * seg) x.1 (updGroup s t (gGroup x.1)) with
        | some c => segReadFault t c seg (copyDescs x.1) s
        | none =>
          if s.claims.any (fun c => c.slot == t.slot && c.header == gHdr x.1 && c.task != t) then s
          else segTag t seg x.1 s

/-! ### A sub-tile (R324 to R326, R329) -/

/-- Sign of the reduced gradient of parameter `(r, c)` of sub-tile `q`, and whether it is non-finite
(R324). -/
def gradSign (s : State) (slot : Fin 64) (b d q r c : Nat) : Int × Bool :=
  if bMode b = 0 then
    let off := 65536 * gIndex d + 128 * (32 * q + r)
    let e := (jobNat s slot (bHeader b off) 2).1 % 256
    let v := toSigned 32 (jobNat s slot (bBase b + off + 4 * c) 4).1
    if e = 0 then (0, false)
    else if e = 255 then
      match blockVal fAC32 255 v with
      | .inf n => (if n then -1 else 1, true)
      | _ => (0, true)
    else (v.sign, false)
  else
    let w := if bMode b = 1 then 2 else 4
    let i := 16384 * gIndex d + 1024 * q + 32 * r + c
    ((toSigned (8 * w) (jobNat s slot (bBase b + w * i) w).1).sign, false)

/-- `ulp` of R325. -/
def ulpOf (v : Val) : Int := match v with
  | .fin d => max d.floorLog2 (-126) - 23
  | _ => -149

/-- What a step did to a parameter. -/
structure Stepped where
  w : F32
  rem : Int
  clipped : Bool
  nonf : Bool
  sat : Bool
  deriving DecidableEq, Repr

/-- `step_param` of R325. -/
def stepParam (w : F32) (rem : Int) (dir : Int) (g : Nat) : Stepped :=
  if f32nonfinite w then ⟨w, rem, false, true, false⟩
  else
    let wv := (f32val w).dy
    let eta := (f32val (grpEta g)).dy
    let lam := (f32val (grpLambda g)).dy
    let t := (wv.sub (eta.mul ((Dy.ofInt dir).add (lam.mul wv)))).add ⟨rem, ulpOf (f32val w) - 8⟩
    let clip := (f32val (grpClip g)).dy
    let clipped := decide (0 < clip.m) && clip.lt t.abs
    let t := if clipped then (Dy.ofInt t.sgn).mul clip else t
    let e := fmtF32.encodeSat (Val.ofDy t)
    let w' : F32 := BitVec.ofNat 32 e.1
    let diff := t.sub (f32val w').dy
    ⟨w', (clampInt (diff.rneScale (8 - ulpOf (f32val w'))) (-128) 127).1, clipped, false, e.2⟩

/-- What the update of a sub-tile's row reads and makes: the new momentum block, and the stepped
parameters. -/
structure RowStep where
  mom : Block
  ps : List Stepped
  cnt : Cnt
  gradNonf : Nat
  deriving DecidableEq, Repr

/-- The momentum block of a row as stored. -/
def momRow (s : State) (slot : Fin 64) (d q r : Nat) : Block :=
  let e := (jobNat s slot (gMom d + 16384 + 32 * q + r) 1).1
  let x := (jobNat s slot (gMom d + 1024 * q + 32 * r) 32).1
  ⟨e, (List.range 32).map (fun c => toSigned 8 (fld x (8 * c + 7) (8 * c)))⟩

/-- Address of a master. -/
def masterAt (d q r c : Nat) : Nat := gMaster d + 4096 * q + 4 * (32 * r + c)

/-- Update one row of a sub-tile (R325); padding enters the momentum block as 0. -/
def updateRow (s : State) (slot : Fin 64) (b d q g r : Nat) : RowStep :=
  let signs := (List.range 32).map (fun c => if realParam d q r c then gradSign s slot b d q r c else (0, false))
  let ds := signs.map Prod.fst
  let beta := f32val (grpBeta g)
  let keep := Val.ofDy ((Dy.ofInt 1).sub beta.dy)
  let old := blockVals fBS8 (momRow s slot d q r)
  let mv := (List.zip (List.range 32) (List.zip old ds)).map (fun x =>
    if realParam d q r x.1 then (beta.mul x.2.1).add (keep.mul (Val.ofDy (Dy.ofInt x.2.2))) else .zero false)
  let tb := toBlock mv fBS8 none
  let dirs := if grpRule g = 2 then tb.1.q.map Int.sign else ds
  let ps := (List.zip (List.range 32) dirs).map (fun x =>
    let w : F32 := BitVec.ofNat 32 (jobNat s slot (masterAt d q r x.1) 4).1
    let rem := toSigned 8 (jobNat s slot (gRem d + 1024 * q + 32 * r + x.1) 1).1
    if realParam d q r x.1 then stepParam w rem x.2 g else ⟨w, rem, false, false, false⟩)
  ⟨tb.1, ps, (if grpRule g = 2 then tb.2 else Cnt.none).add ⟨(ps.filter (·.sat)).length, 0⟩, (signs.filter Prod.snd).length⟩

/-- Write one updated row. -/
def writeRow (slot : Fin 64) (d q g r : Nat) (x : RowStep) (s : State) : State × MStat :=
  let w := jobWrite slot (masterAt d q r 0) (x.ps.flatMap (fun p => leBytes 4 p.w.toNat)) s
  let m := jobWrite slot (gRem d + 1024 * q + 32 * r) (x.ps.flatMap (fun p => leBytes 1 (ofSigned 8 p.rem))) w.1
  if grpRule g = 2 then
    let a := jobWrite slot (gMom d + 1024 * q + 32 * r) (x.mom.q.flatMap (fun v => leBytes 1 (ofSigned 8 v))) m.1
    let b := jobWrite slot (gMom d + 16384 + 32 * q + r) (leBytes 1 x.mom.e) a.1
    (b.1, ((w.2.and m.2).and a.2).and b.2)
  else (m.1, w.2.and m.2)

/-- Value of a master for the copies; padding enters as 0 (R326). -/
def copyVal (d q : Nat) (rows : List RowStep) (r c : Nat) : Val :=
  if realParam d q r c then
    match (rows[r]?).bind (fun x => x.ps[c]?) with
    | some p => f32val p.w
    | none => .zero false
  else .zero false

/-- The arrays of a segment's working copies, the plain and the transposed one, as they were read when it started. -/
def segCopies (s : State) (t : TaskRef) (seg : Nat) : Arr × Arr :=
  let e := entryOf s t
  (arrOf (capOf e (copyKey seg false)), arrOf (capOf e (copyKey seg true)))

/-- Write the pieces of the working copies (R326). A 64-byte sector of a copy, or of the momentum exponents, may hold pieces of two
sub-tiles: between their updates it shows the new piece of one beside the old piece of the other, where R23 speaks of sectors
wholly before or after the update of a segment (DESIGN CHOICE, notes/assumptions/48). -/
def writeCopies (slot : Fin 64) (cs : Arr × Arr) (d q : Nat) (rows : List RowStep) (s : State) : State × MStat × Cnt :=
  let r0 := gRow0 d + 32 * (q / 4)
  let c0 := gCol0 d + 32 * (q % 4)
  let plain := cs.1
  let trans := cs.2
  let step := fun (a : Arr) (line b : Nat) (xs : List Val) (acc : State × MStat × Cnt) =>
    let w := putVals slot a line b xs acc.1
    (w.1, acc.2.1.and w.2.1, acc.2.2.add w.2.2)
  let acc : State × MStat × Cnt := (s, .ok, Cnt.none)
  let acc := if gCopyPlain d then
      (List.range 32).foldl (fun acc c =>
        if c0 + c < plain.cols then step plain (c0 + c) (r0 / 32) ((List.range 32).map (fun r => copyVal d q rows r c)) acc else acc) acc
    else acc
  if gCopyTrans d then
    (List.range 32).foldl (fun acc r =>
      if r0 + r < trans.rows then step trans (r0 + r) (c0 / 32) ((List.range 32).map (fun c => copyVal d q rows r c)) acc else acc) acc
  else acc

/-- Blocks of the working copies that a sub-tile writes, as array, row and column (R326). -/
def copyPlaces (cs : Arr × Arr) (d q : Nat) : List (Arr × Nat × Nat) :=
  let r0 := gRow0 d + 32 * (q / 4)
  let c0 := gCol0 d + 32 * (q % 4)
  let plain := cs.1
  let trans := cs.2
  (if gCopyPlain d then ((List.range 32).filter (fun c => c0 + c < plain.cols)).map (fun c => (plain, r0, c0 + c)) else []) ++
    (if gCopyTrans d then ((List.range 32).filter (fun r => r0 + r < trans.rows)).map (fun r => (trans, r0 + r, c0)) else [])

/-- Outcome that the writes of the working copies would have; elements of less than a byte are read as well. -/
def copiesWritable (s : State) (slot : Fin 64) (cs : Arr × Arr) (d q : Nat) : MStat :=
  (copyPlaces cs d q).foldl (fun m p => (p.1.blockRanges p.2.1 p.2.2).foldl (fun m r =>
    m.and (if fmtBits p.1.fmt < 8 then (peekRw s slot r.1 r.2).and (writeStat s slot r.1 r.2) else writeStat s slot r.1 r.2)) m) .ok

/-- The gradient of a sub-tile, as ranges: elements or votes, and in AC32 mode the block headers. -/
def gradRanges (b d q : Nat) : List (Nat × Nat) :=
  if bMode b = 0 then [(bBase b + 65536 * gIndex d + 4096 * q, 4096), (bHeader b (65536 * gIndex d + 4096 * q), 64)]
  else
    let w := if bMode b = 1 then 2 else 4
    [(bBase b + w * (16384 * gIndex d + 1024 * q), 1024 * w)]

/-- What a sub-tile's update reads and writes in place, as ranges: masters, remainders, momentum and the header. -/
def stateRanges (d q g : Nat) : List (Nat × Nat) :=
  [(gMaster d + 4096 * q, 4096), (gRem d + 1024 * q, 1024)] ++
    (if grpRule g = 2 then [(gMom d + 1024 * q, 1024), (gMom d + 16384 + 32 * q, 32)] else []) ++ [(gHdr d, 64)]

/-- What an update of a sub-tile reads of its working copies: elements of less than a byte. -/
def copyRanges (cs : Arr × Arr) (d q : Nat) : List (Nat × Nat) :=
  (copyPlaces cs d q).flatMap (fun p => if fmtBits p.1.fmt < 8 then p.1.blockRanges p.2.1 p.2.2 else [])

/-- What a sub-tile reads and writes, for its checks: every part must be readable, and every translation of the
sub-tile, its header and its copies must stand, before anything is written (R329). -/
def tileReadable (s : State) (slot : Fin 64) (cs : Arr × Arr) (b d q g : Nat) : MStat :=
  let st := (stateRanges d q g).foldl (fun (m : MStat) r => m.and (peekRw s slot r.1 r.2)) .ok
  ((gradRanges b d q).foldl (fun (m : MStat) r => m.and (peek s slot r.1 r.2).st) st).and (copiesWritable s slot cs d q)

/-- What the update of a sub-tile makes: the state after its writes, their outcome and the counts. -/
structure TileStep where
  s : State
  st : MStat
  cnt : Cnt
  clipped : Nat
  nonf : Nat
  gradNonf : Nat

/-- The update of a sub-tile, done bit not yet set. -/
def stepTile (slot : Fin 64) (cs : Arr × Arr) (b d q g : Nat) (s : State) : TileStep :=
  let rows := (List.range 32).map (updateRow s slot b d q g)
  let w := (List.zip (List.range 32) rows).foldl (fun (acc : State × MStat) x =>
    let r := writeRow slot d q g x.1 x.2 acc.1
    (r.1, acc.2.and r.2)) (s, .ok)
  let c := writeCopies slot cs d q rows w.1
  { s := c.1, st := w.2.and c.2.1, cnt := (Cnt.sum (rows.map (·.cnt))).add c.2.2,
    clipped := (rows.map (fun r => (r.ps.filter (·.clipped)).length)).foldl (· + ·) 0,
    nonf := (rows.map (fun r => (r.ps.filter (·.nonf)).length)).foldl (· + ·) 0,
    gradNonf := (rows.map (·.gradNonf)).foldl (· + ·) 0 }

/-- The done bit and the counts of an updated sub-tile; the segment's last write after the last one
(R328, R329). -/
def tileDone (t : TaskRef) (seg d q k : Nat) (x : TileStep) : State :=
  let s := x.s
  let h := (jobNat s t.slot (gHdr d) 64).1
  let w := jobWrite t.slot (gHdr d) (leBytes 64 (setFld (setFld h (304 + q) (304 + q) 1) 511 448 s.clock.now)) s
  let s := w.1
  let s := modUpd t.slot (fun u => { u with
    mastersNonfinite := satInc u.mastersNonfinite x.nonf, mastersClipped := satInc u.mastersClipped x.clipped
    gradNonfinite := satInc u.gradNonfinite x.gradNonf }) s
  let s := countTask t x.cnt s
  let s := pmuCount (dieOfStack (stackOfVa s t.slot (gMaster d + 4096 * q))) (some t.slot) 0x072 0 1 s
  let s := modColl t (fun st aux => (st, (aux.set (4 * k + 2) (aux.getD (4 * k + 2) 0 + x.clipped)).set (4 * k + 3) (aux.getD (4 * k + 3) 0 + x.nonf))) s
  let done := hDone (jobNat s t.slot (gHdr d) 64).1
  if w.2 ≠ .ok then segFault t w.2.code seg s
  else if (realTiles d).all (fun q => bitAt done q) then
    let aux := ((collRun s t).map Prod.snd).getD []
    segFinish t seg d (aux.getD (4 * k + 2) 0) (aux.getD (4 * k + 3) 0) s
  else s

/-- SUBTILE_UPDATE (R325, R329). -/
def doSubtile (t : TaskRef) (seg q : Nat) (s : State) : State :=
  match collRun s t with
  | none => s
  | some (_, aux) =>
    match sgFind aux seg with
    | none => s
    | some k =>
      let d := (segAt s t seg).1
      let g := updGroup s t (gGroup d)
      let b := (bufAt s t.slot (gBuf d)).1
      let h := jobNat s t.slot (gHdr d) 64
      if cOp (entryOf s t).desc ≠ 5 || !realTile d q || bitAt (hDone h.1) q then s
      else
        let cs := segCopies s t seg
        match (tileReadable s t.slot cs b d q g).and h.2 with
        | .ok =>
          let x := stepTile t.slot cs b d q g s
          if x.st = .ok then tileDone t seg d q k x else segFault t x.st.code seg s
        | e => memFault t e seg (stateRanges d q g ++ gradRanges b d q ++ copyRanges cs d q) s

/-- SEGMENT_START. -/
def execSegmentStart (slot : Fin 64) (die : Fin 4) (index : BitVec 16) (s : State) : Host.Outcome State Fault Refusal :=
  .next (doSegment ⟨slot, die, index⟩ s)
/-- SUBTILE_UPDATE. -/
def execSubtileUpdate (slot : Fin 64) (die : Fin 4) (index : BitVec 16) (seg : Nat) (q : Fin 16) (s : State) :
    Host.Outcome State Fault Refusal :=
  .next (doSubtile ⟨slot, die, index⟩ seg q.val s)

end Sys2Proof.Machine
end

