-- ==== Sys2Proof/Machine/Collect.lean ====
section
/-! DEFINITION. Collective steps (spec/12_collectives_and_mapping.md R417 to R448). A step acts once it
has been released; TASK_COMPLETE ends it when its work is done. -/

namespace Sys2Proof.Machine

/-! ### The operand area (R417) -/

def cStep (d : Nat) : Nat := fld d 1023 960
def cFmt (d : Nat) : Nat := fld d 901 900
def cList (d : Nat) : Nat := fld d 815 768
def cCount (d : Nat) : Nat := fld d 767 752
def cExpBase (d : Nat) : Nat := fld d 751 704
def cExpVal (d : Nat) : Nat := fld d 703 696

/-- Half of a bucket that step `s` uses (R420). -/
def halfOf (step : Nat) : Bool := step % 2 == 1

/-- A released collective step of an operation, not yet started: its descriptor. -/
def collStart (s : State) (t : TaskRef) (op : Nat) : Option Nat :=
  let e := entryOf s t
  if e.st == .running && e.run == .idle && dOpcode e.desc == 5 && cOp e.desc == op && inP0P1 s then some e.desc else none

/-- Put a run of a collective step. -/
def setColl (t : TaskRef) (stage : Nat) (aux : List Nat) (s : State) : State :=
  modEntry t (fun e => { e with run := .coll Track.new stage aux }) s

/-- A step that has done its work. -/
def collDone (t : TaskRef) (s : State) : State := setColl t 1 [] s

/-- Buffer descriptor of a half of a bucket. -/
def halfBuf (s : State) (slot : Fin 64) (k : Nat) (h : Bool) : Nat × MStat := bufAt s slot (kBuf k h)

/-! ### INIT (R307, R311, R421 to R423) -/

/-- Whether a segment claim names a buffer (R311). -/
def bufClaimed (s : State) (slot : Fin 64) (buf : Nat) : Bool :=
  s.claims.any (fun c => c.slot == slot &&
    (entryOf s c.task).caps.any (fun x => gHdr x.2 == c.header && gBuf x.2 == buf))

/-- Whether R311 allows an INIT of a buffer. -/
def bufInitOk (s : State) (slot : Fin 64) (buf d : Nat) : Bool :=
  bState d == 0 ||
  (bState d == 2 && s.jobs[slot].upd.sealedValid && decide (bStep d ≤ s.jobs[slot].upd.sealedStep.toNat) && !bufClaimed s slot buf)

/-- Bytes that give the agreed exponents of a buffer's blocks. -/
def agreed (s : State) (slot : Fin 64) (d b : Nat) : List Byte × MStat :=
  if bMode b ≠ 0 then ([], .ok)
  else if cExpBase d = 0 then (List.replicate (512 * bSegs b) (BitVec.ofNat 8 (cExpVal d)), .ok)
  else let r := peek s slot (cExpBase d) (512 * bSegs b); (r.data, r.st)

/-- Halves OPEN or CLOSING of a job (R431). -/
def openHalves (s : State) (slot : Fin 64) : List (Nat × Bool) :=
  (s.jobs[slot].buckets.filter (fun b =>
    let st := kState (bucketAt s slot b.1.1).1 b.1.2
    st == 1 || st == 2)).map Prod.fst

/-- Buckets with a half OPEN or CLOSING. -/
def openBuckets (s : State) (slot : Fin 64) : Nat := ((openHalves s slot).map Prod.fst).eraseDups.length

/-- Why an INIT ends in fault with no effect (R421, R423, R431), if it does. -/
def initCheck (s : State) (slot : Fin 64) (d : Nat) : Option (BitVec 8) :=
  let k := bucketAt s slot (cDesc d)
  let h := halfOf (cStep d)
  let b0 := bufAt s slot (kBuf k.1 false)
  let b1 := bufAt s slot (kBuf k.1 true)
  let b := if h then b1 else b0
  let ag := agreed s slot d b.1
  if k.2 ≠ .ok then some k.2.code
  else if 2 ≤ kLate k.1 || 2 ≤ kClass k.1 || fld k.1 843 512 ≠ 0 || 2 ^ 31 ≤ kThreshold k.1 || kBuf k.1 false = kBuf k.1 true then
    some stBAD_FIELD
  else if (b0.2.and b1.2) ≠ .ok then some (b0.2.and b1.2).code
  else if !bufDescOk (kBuf k.1 h) b.1 || bMode b0.1 ≠ bMode b1.1 || (bMode b.1 ≠ 0 && (cExpVal d ≠ 0 || cExpBase d ≠ 0)) then
    some stBAD_FIELD
  else if ctrCount s slot ≤ kCtr k.1 + 3 then some stBOUND
  else if kState k.1 h = 1 || kState k.1 h = 2 || !bufInitOk s slot (kBuf k.1 h) b.1 then some stSTATE
  else if 1024 ≤ openBuckets s slot && !(openHalves s slot).any (fun x => x.1 == cDesc d) then some stNO_RESOURCE
  else if ag.2 ≠ .ok then some ag.2.code
  else if ag.1.any (fun e => e == 0 || e == 255) then some stBAD_FIELD
  else if !mapped s slot (bBase b.1) (bPlane b.1 + if bMode b.1 = 0 then 1024 * bSegs b.1 else 0) true true then some stBOUND
  else
    let c := (counterVal s slot (kArrive k.1 h)).2.and (counterVal s slot (kRing k.1 h)).2
    if c ≠ .ok then some c.code else none

/-- The effect of an INIT (R311, R423). -/
def initApply (t : TaskRef) (d : Nat) (s : State) : State :=
  let slot := t.slot
  let k := (bucketAt s slot (cDesc d)).1
  let h := halfOf (cStep d)
  let buf := kBuf k h
  let b := (bufAt s slot buf).1
  let ag := (agreed s slot d b).1
  let base := (counterVal s slot (kArrive k h)).1
  let rbase := (counterVal s slot (kRing k h)).1
  let s := (jobWrite slot (bBase b) (List.replicate (bPlane b) 0) s).1
  let s := if bMode b = 0 then (jobWrite slot (bBase b + 65536 * bSegs b) (ag.flatMap (fun e => [e, 0])) s).1 else s
  let s := putBufStatus slot buf (cStep d <<< 448 + (s.clock.now % 2 ^ 64) <<< 384 + 1) s
  let st := cStep d <<< 192 + base <<< 160 + rbase <<< 128 + 1
  let k' := setFld k (kOff h + 255) (kOff h) st
  let s := putBucketStatus slot (cDesc d) k' s
  let s := modBuckets slot (fun m => m.put (cDesc d, h) { buf := buf, die := t.die, closer := none, deadline := none }) s
  traceBucket slot t.die (cDesc d) k' h s

/-- INIT. -/
def doInit (t : TaskRef) (s : State) : State :=
  match collStart s t 1 with
  | none => s
  | some d =>
    match initCheck s t.slot d with
    | some c => unitFault t c 0 s
    | none => settle t.slot (collDone t (initApply t d s))

/-! ### CLOSE (R423, R425) -/

/-- CLOSE of an OPEN half. -/
def closeOpen (t : TaskRef) (addr k : Nat) (h : Bool) (b : BucketHalf) (s : State) : State :=
  let dl := if kDeadline k = 0 then none else some (s.clock.now + usTicks (kDeadline k))
  let k' := setFld k (kOff h + 3) (kOff h) 2
  let s := putBucketStatus t.slot addr k' (setColl t 0 [] s)
  let s := modBuckets t.slot (fun m => m.put (addr, h) { b with closer := some t, deadline := dl }) s
  traceBucket t.slot t.die addr k' h s

/-- What follows a CLOSE that waits: a CLOSE that still waits while its job has left RUNNING ends in fault with TIMEOUT, and its
half stays CLOSING (R425). -/
def closeWaits (slot : Fin 64) (s : State) : State :=
  let s := settle slot s
  if jobSt s slot = .running then s else settle slot (pauseCheck slot (faultClosers slot s))

/-- CLOSE. -/
def doClose (t : TaskRef) (s : State) : State :=
  match collStart s t 4 with
  | none => s
  | some d =>
    let h := halfOf (cStep d)
    let k := bucketAt s t.slot (cDesc d)
    if k.2 ≠ .ok then unitFault t k.2.code 0 s
    else
      match kState k.1 h, s.jobs[t.slot].buckets.find (cDesc d, h) with
      | 1, some b => closeWaits t.slot (closeOpen t (cDesc d) k.1 h b s)
      | 2, some b =>
        if b.closer.isSome then unitFault t stSTATE 0 s
        else closeWaits t.slot (modBuckets t.slot (fun m => m.put (cDesc d, h) { b with closer := some t }) (setColl t 0 [] s))
      | 3, _ => collDone t s
      | _, _ => unitFault t stSTATE 0 s

/-- A half's deadline passes: one that has its count closes by it (R425). -/
def doDeadline (slot : Fin 64) (addr : Nat) (h : Bool) (s : State) : State :=
  match s.jobs[slot].buckets.find (addr, h) with
  | none => s
  | some b =>
    if kState (bucketAt s slot addr).1 h = 2 && b.deadline.isSome && depsApply (jobSt s slot) then settle slot (closeHalf slot addr h (if halfFull s slot (addr, h) then 1 else 2) s)
    else s

/-! ### REDUCE and RING (R433 to R440) -/

/-- Fields of a part entry (R433). -/
def ptGrad (e : Nat) : Nat := fld e 255 208
def ptRow0 (e : Nat) : Nat := fld e 207 184
def ptCol0 (e : Nat) : Nat := fld e 183 160
def ptRows (e : Nat) : Nat := fld e 159 144
def ptCols (e : Nat) : Nat := fld e 143 128
def ptNode (e : Nat) : BitVec 18 := BitVec.ofNat 18 (fld e 127 110)
def ptDst (e : Nat) : Nat := fld e 95 80

/-- Part entry `i` of a list. -/
def partAt (s : State) (slot : Fin 64) (d i : Nat) : Nat × MStat := jobNat s slot (cList d + 32 * i) 32

/-- The checks of a part when it starts (R436, R661). -/
def partCheck (s : State) (slot : Fin 64) (e : Nat × MStat) : Option (BitVec 8) :=
  let g := readDesc s slot (ptGrad e.1) 32
  let a := arrOf g.1
  if e.2 ≠ .ok then some e.2.code
  else if fld e.1 109 96 ≠ 0 || fld e.1 79 0 ≠ 0 || ptRow0 e.1 % 128 ≠ 0 || ptCol0 e.1 % 128 ≠ 0 then some stBAD_FIELD
  else if 65536 < ptRows e.1 * ptCols e.1 then some stBOUND
  else if ptRows e.1 * ptCols e.1 = 0 then none
  else if ptGrad e.1 % 32 ≠ 0 then some stBAD_FIELD
  else if g.2 ≠ .ok then some g.2.code
  else if !arrRsvOk g.1 || !convOk a.conv false || a.fmt ≠ fBS16 || a.axis ≠ 0 || a.trans || a.elem % 64 ≠ 0 || a.exp % 64 ≠ 0 then some stBAD_FIELD
  else none

/-- Gradient block `n` of a part, counting over its segments' blocks in order (R434). -/
def partBlock (s : State) (slot : Fin 64) (e : Nat) (a : Arr) (n : Nat) : Block × MStat :=
  let i := n / 512
  let q := n % 512 / 32
  let row := ptRow0 e + 128 * (i / ptCols e) + 32 * (q / 4) + n % 32
  let col := ptCol0 e + 128 * (i % ptCols e) + 32 * (q % 4)
  if row < a.rows && col < a.colsP then arrBlock s slot a 0 row (col / 32) else (⟨0, List.replicate 32 0⟩, .ok)

/-- Vote of a BS16 element (R316). -/
def voteElem (e : Nat) (q : Int) : Int :=
  if e = 0 then 0
  else if e = 255 then (if q = 1 then 1 else if q = -1 then -1 else 0)
  else q.sign

/-- The 8 bytes of the votes of a block (R42). -/
def voteBytes (b : Block) : List Byte :=
  leBytes 8 ((List.zip (List.range 32) b.q).foldl (fun n x => n + voteCode (voteElem b.e x.2) <<< (2 * x.1)) 0)

/-- Payload of BS16 blocks (R312). -/
def bs16Payload (bs : List Block) : List Byte :=
  bs.flatMap (fun b => b.q.flatMap (fun v => leBytes 2 (ofSigned 16 v))) ++ bs.map (fun b => BitVec.ofNat 8 b.e)

/-- Payload of AC32 blocks (R312). -/
def ac32Payload (bs : List AC32) : List Byte :=
  bs.flatMap (fun b => b.q.flatMap (fun v => leBytes 4 (ofSigned 32 v))) ++
    bs.flatMap (fun b => leBytes 2 (b.e + if b.lifted then 256 else 0))

/-- Address in the plane of the buffer of block `n` counted from segment `dst` (R308). -/
def planeAddr (b dst n : Nat) : Nat := bBase b + (512 * dst + n) * (if bMode b = 1 then 64 else 128)

/-- Runs of at most `m` of `n` consecutive blocks: first block and count. -/
def runsOf (n m : Nat) : List (Nat × Nat) := (List.range (ceilDiv n m)).map (fun i => (m * i, min m (n - m * i)))

/-- An ACCUMULATE on VL3. -/
def accumulateOf (t : TaskRef) (fmt va pos : Nat) (payload : List Byte) : TxReq :=
  { TxReq.of t opACCUMULATE 3 va payload.length pos with sub := BitVec.ofNat 4 fmt, payload := payload }

/-- The end of a part: fin and sig for the half's arrival counter (R424). -/
def endPart (ctr : Nat) (rs : List TxReq) : List TxReq :=
  onLast (fun r => { r with sig := true, fin := true, ctr := BitVec.ofNat 16 ctr }) rs

/-- What a part sends: its requests, the outcome of reading its gradient and the non-finite blocks
that became votes. -/
structure PartSend where
  rs : List TxReq
  st : MStat
  nonf : Nat
  deriving DecidableEq, Repr

/-- Bytes of the gradient that a part reads. -/
def partRanges (s : State) (slot : Fin 64) (e : Nat) : List (Nat × Nat) :=
  let a := arrOf (readDesc s slot (ptGrad e) 32).1
  let rows := ((List.range (128 * ptRows e)).map (ptRow0 e + ·)).filter (fun r => decide (r < a.rows))
  let n := min (128 * ptCols e) (a.colsP - ptCol0 e)
  rows.flatMap (fun r => [((a.elemRange 0 r (ptCol0 e)).1, 2 * n), ((a.expRange r (ptCol0 e)).1, n / 32)])

/-- Operations of one part of a REDUCE (R434, R435). -/
def partSend (s : State) (t : TaskRef) (d k e pos : Nat) : PartSend :=
  let h := halfOf (cStep d)
  let b := (halfBuf s t.slot k h).1
  let a := arrOf (readDesc s t.slot (ptGrad e) 32).1
  let n := 512 * (ptRows e * ptCols e)
  let vote := cFmt d == 1
  let blocks := (List.range n).map (partBlock s t.slot e a)
  let ops := (runsOf n (if vote then 512 else 62)).map (fun r =>
    let bs := ((blocks.drop r.1).take r.2).map Prod.fst
    (planeAddr b (ptDst e) r.1, if vote then bs.flatMap voteBytes else bs16Payload bs))
  let ops := if ops.isEmpty then [(planeAddr b (ptDst e) 0, [])] else ops
  { rs := endPart (kArrive k h) ((List.zip (List.range ops.length) ops).map (fun o =>
      accumulateOf t (if vote then 2 else 0) o.2.1 (pos + o.1) o.2.2))
    st := blocks.foldl (fun m x => m.and x.2) .ok
    nonf := if vote then (blocks.filter (fun x => x.1.e == 255)).length else 0 }

/-- A step fails at a position of its order of issue, without a request. -/
def failAt (t : TaskRef) (pos : Nat) (c : BitVec 8) (s : State) : State :=
  onTrack t (fun k => { k with fail := match k.fail with | some f => if f.1 ≤ pos then some f else some (pos, c) | none => some (pos, c) }) s

/-- Send the parts of a REDUCE in list order: a part that fails its checks ends them. -/
def sendParts (t : TaskRef) (d k : Nat) : List Nat → Nat → State → State
  | [], _, s => s
  | i :: rest, pos, s =>
    let e := partAt s t.slot d i
    match partCheck s t.slot e with
    | some c => failAt t pos c s
    | none =>
      let p := partSend s t d k e.1 pos
      let s := forEach (partRanges s t.slot e.1) (fun r st => copyRead t r.1 r.2 p.st st) s
      if p.st ≠ .ok then failAt t pos p.st.code s
      else
        let s := countTask t ⟨0, p.nonf⟩ s
        sendParts t d k rest (pos + p.rs.length) (issueAll t (p.rs.map (fun r => (ptNode e.1, r))) s)

/-- REDUCE. -/
def doReduce (t : TaskRef) (s : State) : State :=
  match collStart s t 2 with
  | none => s
  | some d =>
    let k := bucketAt s t.slot (cDesc d)
    let b := halfBuf s t.slot k.1 (halfOf (cStep d))
    if cCount d = 0 then collDone t s
    else if k.2.and b.2 ≠ .ok then unitFault t (k.2.and b.2).code 0 s
    else settle t.slot (faultIfFailed t (sendParts t d k.1 (List.range (cCount d)) 0 (setColl t 1 [] s)))

/-- Members of a ring: the distinct nodes of its list in order of first appearance (R438). -/
def ringMembers (s : State) (slot : Fin 64) (d : Nat) : List (BitVec 18) :=
  ((List.range (cCount d)).map (fun i => ptNode (partAt s slot d i).1)).eraseDups

/-- Number of this device in a ring. -/
def ringIndex (s : State) (slot : Fin 64) (d : Nat) : Option Nat := (ringMembers s slot d).findIdx? (fun n => n == ownNode s)

/-- Entries of a ring's part: those of its owner. -/
def ringPart (s : State) (slot : Fin 64) (d p : Nat) : List Nat :=
  let owner := (ringMembers s slot d).getD p 0
  (List.range (cCount d)).filter (fun i => ptNode (partAt s slot d i).1 == owner)

/-- Add the device's own gradient of a part entry to its own half, as operations to itself (R439,
R432). -/
def addOwn (t : TaskRef) (d k e : Nat) (s : State) : State × MStat :=
  let b := halfBuf s t.slot k (halfOf (cStep d))
  let p := partSend s t d k e 0
  if p.st ≠ .ok then (s, p.st)
  else if ptRows e * ptCols e = 0 then (s, .ok)
  else
    p.rs.foldl (fun acc r =>
      let c := contribute t.slot (kBuf k (halfOf (cStep d))) 0 (r.va.toNat - bBase b.1) r.payload (countProduced t.slot r acc.1)
      (if c.2 = .ok then c.1 else dropContribution t.slot opACCUMULATE c.1, acc.2.and c.2)) (s, .ok)

/-- Add the device's own contributions of every part (R439): `none`, or the failure. -/
def addOwnAll (t : TaskRef) (d k : Nat) : List Nat → State → State × Option (BitVec 8)
  | [], s => (s, none)
  | i :: rest, s =>
    let e := partAt s t.slot d i
    let b := halfBuf s t.slot k (halfOf (cStep d))
    match partCheck s t.slot e with
    | some c => (s, some c)
    | none =>
      if bSegs b.1 < ptDst e.1 + ptRows e.1 * ptCols e.1 then (s, some stBOUND)
      else
        match addOwn t d k e.1 s with
        | (s, .ok) => addOwnAll t d k rest s
        | (s, st) => (s, some st.code)

/-- RING: own contributions, then readiness to the predecessor (R439). -/
def doRing (t : TaskRef) (s : State) : State :=
  match collStart s t 3 with
  | none => s
  | some d =>
    let k := bucketAt s t.slot (cDesc d)
    match k.2, ringIndex s t.slot d with
    | .ok, some m =>
      let ms := ringMembers s t.slot d
      let r := addOwnAll t d k.1 (List.range (cCount d)) s
      match r with
      | (s, some c) => unitFault t c 0 s
      | (s, none) =>
        let pred := ms.getD ((m + ms.length - 1) % ms.length) 0
        let s := issueAll t [(pred, signalOf t 3 0 (kRing k.1 (halfOf (cStep d))) 0 false)] (setColl t 0 [1] s)
        settle t.slot (faultIfFailed t s)
    | .ok, none => unitFault t stBAD_FIELD 0 s
    | st, _ => unitFault t st.code 0 s

/-- AC32 blocks of a part entry as they stand in the device's own half. -/
def ringBlocks (s : State) (t : TaskRef) (d k e : Nat) : List (AC32 × MStat) :=
  let b := (halfBuf s t.slot k (halfOf (cStep d))).1
  (List.range (512 * (ptRows e * ptCols e))).map (fun n => readAC32 s t.slot b (128 * (512 * ptDst e + n)))

/-- Operations of one entry of a ring's part. -/
def ringOps (s : State) (t : TaskRef) (d k e pos : Nat) : List TxReq × MStat :=
  let b := (halfBuf s t.slot k (halfOf (cStep d))).1
  let bs := ringBlocks s t d k e
  let rs := runsOf bs.length 31
  ((List.zip (List.range rs.length) rs).map (fun r =>
    accumulateOf t 1 (planeAddr b (ptDst e) r.2.1) (pos + r.1) (ac32Payload (((bs.drop r.2.1).take r.2.2).map Prod.fst))),
   bs.foldl (fun m x => m.and x.2) .ok)

/-- Whether the wait before stage `j` of a ring is met (R439). -/
def ringWait (s : State) (slot : Fin 64) (k : Nat) (h : Bool) (j : Nat) : Bool :=
  if j = 0 then reached (counterVal s slot (kRing k h)).1 (BitVec.ofNat 32 (kRbase k h + 1))
  else reached (counterVal s slot (kArrive k h)).1 (BitVec.ofNat 32 (kBaseCtr k h + j))

/-- What stage `j` of a ring sends from device number `m` on, numbered from `pos0`: part (m − j − 1) mod n_r, as one
empty operation when it has no block (R439). -/
def stageOps (s : State) (t : TaskRef) (d k m j pos0 : Nat) : List TxReq × MStat :=
  let ms := ringMembers s t.slot d
  let es := (ringPart s t.slot d ((m + 2 * ms.length - j - 1) % ms.length)).map (fun i => (partAt s t.slot d i).1)
  let x := es.foldl (fun (acc : List TxReq × MStat) e =>
    let o := ringOps s t d k e (pos0 + acc.1.length)
    (acc.1 ++ o.1, acc.2.and o.2)) (([], .ok) : List TxReq × MStat)
  let rs := if x.1.isEmpty then [accumulateOf t 1 (planeAddr (halfBuf s t.slot k (halfOf (cStep d))).1 0 0) pos0 []] else x.1
  (endPart (kArrive k (halfOf (cStep d))) rs, x.2)

/-- RING_STAGE_SEND: a part goes to the successor (R439). -/
def doRingStage (t : TaskRef) (s : State) : State :=
  match collRun s t with
  | none => s
  | some (j, aux) =>
    let d := (entryOf s t).desc
    let k := (bucketAt s t.slot (cDesc d)).1
    let ms := ringMembers s t.slot d
    match cOp d, ringIndex s t.slot d with
    | 3, some m =>
      if ms.length ≤ j + 1 || !ringWait s t.slot k (halfOf (cStep d)) j then s
      else
        let pos0 := aux.getD 0 0
        let x := stageOps s t d k m j pos0
        if x.2 ≠ .ok then settle t.slot (faultIfFailed t (failAt t pos0 x.2.code s))
        else
          let s := modColl t (fun _ _ => (j + 1, [pos0 + x.1.length])) s
          settle t.slot (faultIfFailed t (issueAll t (x.1.map (fun r => (ms.getD ((m + 1) % ms.length) 0, r))) s))
    | _, _ => s

/-! ### GATHER (R441, R442) -/

/-- Fields of a gather source (R441). -/
def gsExp (e : Nat) : Nat := fld e 255 208
def gsElem (e : Nat) : Nat := fld e 207 160
def gsFirst (e : Nat) : Nat := fld e 159 136
def gsRows (e : Nat) : Nat := fld e 135 112
def gsNode (e : Nat) : BitVec 18 := BitVec.ofNat 18 (fld e 111 94)

/-- Gather source `i` of a list, as read at release. -/
def sourceAt (s : State) (t : TaskRef) (i : Nat) : Nat :=
  let d := (entryOf s t).desc
  (entryOf s t).caps.getD (cList d + 32 * i) 0

/-- The shard of a source as an array of the entry's form (R442). -/
def shardArr (d e : Nat) : Arr :=
  { elem := gsElem e, exp := gsExp e, conv := eConv d, rows := gsRows e, cols := eCols d, trans := eTrans d }

/-- Planes of a source: base and bytes, elements first. -/
def shardPlanes (d e : Nat) : List (Nat × Nat) :=
  let a := shardArr d e
  [(a.elem, a.planeBytes), (a.exp, a.expBytes)]

/-- The LOADs of a GATHER in order: node, address and length, with the plane that each is of. -/
def gatherLoads (s : State) (t : TaskRef) (d : Nat) : List (BitVec 18 × Nat × Nat × Nat) :=
  (List.range (cCount (entryOf s t).desc)).flatMap (fun i =>
    let e := sourceAt s t i
    (List.zip (List.range 2) (shardPlanes d e)).flatMap (fun p =>
      (cuts p.2.1 p.2.2).map (fun c => (gsNode e, p.2.1 + c.1, c.2, 2 * i + p.1))))

/-- Bytes received for a LOAD of a GATHER. -/
def gotPart (aux : List Nat) (part : Nat) : List Byte :=
  match (List.range (aux.length / 3)).find? (fun k => aux.getD (3 * k) 0 == part) with
  | some k => leBytes (aux.getD (3 * k + 1) 0) (aux.getD (3 * k + 2) 0)
  | none => []

/-- Bytes of a plane of a source, put together from its LOADs. -/
def planeBytesOf (loads : List (BitVec 18 × Nat × Nat × Nat)) (aux : List Nat) (plane : Nat) : List Byte :=
  ((List.zip (List.range loads.length) loads).filter (fun l => l.2.2.2.2 == plane)).flatMap (fun l => gotPart aux l.1)

/-- Value of element `(r, c)` of a shard from its planes' bytes. -/
def shardVal (a : Arr) (elems exps : List Byte) (r c : Nat) : Val :=
  let w := fmtBits a.fmt
  let i := r * a.colsP + c
  let v := if w < 8 then
      let x := leNat ((elems.drop (i * w / 8)).take 1)
      fld x (i * w % 8 + w - 1) (i * w % 8)
    else leNat ((elems.drop (i * (w / 8))).take (w / 8))
  blockVal a.fmt (leNat ((exps.drop (a.blockIdx r c)).take 1)) (elemInt a.fmt v)

/-- Value of element `(r, c)` of a gathered entry: that of the shard that holds it. Padding is taken as the shard stores it
(R37); a place that no shard stores is 0. -/
def gatheredVal (shards : List (Nat × Arr × List Byte × List Byte)) (r c : Nat) : Val :=
  match shards.find? (fun x => decide (x.1 ≤ r ∧ r < x.1 + x.2.1.rowsP)) with
  | some x => if c < x.2.1.colsP then shardVal x.2.1 x.2.2.1 x.2.2.2 (r - x.1) c else .zero false
  | none => .zero false

/-- Store every tile of a gathered entry (R442, R299). -/
def gatherTiles (t : TaskRef) (s : State) : State × MStat :=
  let td := (entryOf s t).desc
  let addr := cDesc td
  let d := (readDesc s t.slot addr 64).1
  let aux := ((collRun s t).map Prod.snd).getD []
  let loads := gatherLoads s t d
  let shards := (List.range (cCount td)).map (fun i =>
    let e := sourceAt s t i
    (gsFirst e, shardArr d e, planeBytesOf loads aux (2 * i), planeBytesOf loads aux (2 * i + 1)))
  let tiles := (List.range (ceilDiv (eRows d) 32)).flatMap (fun ti => (List.range (ceilDiv (eCols d) 64)).map (fun tj => (ti, tj)))
  writeAll tiles (fun ij st =>
    let b := tileBlocks d (fun r c => gatheredVal shards (32 * ij.1 + r) (64 * ij.2 + c))
    let x := tileArrive t addr ij.1 ij.2 b.1 st
    (countTask t b.2 x.1, x.2)) s

/-- One LOAD of a GATHER: a source on this device is read locally (R442). -/
def gatherOne (t : TaskRef) (addr : Nat) (l : Nat × BitVec 18 × Nat × Nat × Nat) (s : State) : State :=
  if nodeValid s && l.2.1 == ownNode s then
    let r := peek s t.slot l.2.2.1 l.2.2.2.1
    let s := copyRead t l.2.2.1 l.2.2.2.1 r.st s
    if r.st = .ok then gatherPart t l.1 r.data s else failAt t l.1 r.st.code s
  else issueAll t [(l.2.1, { TxReq.of t opLOAD 5 l.2.2.1 l.2.2.2.1 l.1 with dest := .entry addr l.1 })] s

/-- GATHER: its LOADs on VL5 (R442). -/
def doGather (t : TaskRef) (s : State) : State :=
  match collStart s t 6 with
  | none => s
  | some td =>
    let d := (readDesc s t.slot (cDesc td) 64).1
    let loads := gatherLoads s t d
    settle t.slot (faultIfFailed t (forEach (List.zip (List.range loads.length) loads) (gatherOne t (cDesc td)) (setColl t 0 [] s)))

/-! ### PERMUTE (R444 to R447) -/

/-- PERMUTE: its entries start by MOVE_ENTRY_START. -/
def doPermute (t : TaskRef) (s : State) : State :=
  match collStart s t 7 with
  | none => s
  | some _ => setColl t 0 [] s

/-- Started entries of a PERMUTE. -/
def mvStarted (aux : List Nat) : Nat := aux.length / 3

/-- Entries of a job's PERMUTEs in progress on a die. -/
def mvOfJob (s : State) (slot : Fin 64) (die : Fin 4) : Nat :=
  ((jobDie s slot die).entries.map (fun e =>
    match e.2.run with
    | .coll _ _ aux => if isPermute e.2.desc then ((List.range (mvStarted aux)).filter (fun k => (mvAt aux k).2.2 == 0)).length else 0
    | _ => 0)).foldl (· + ·) 0

/-- Entries in progress on a die, over the PERMUTEs of every job (R446, R451). -/
def mvInProgress (s : State) (die : Fin 4) : Nat := (allSlots.map (fun j => mvOfJob s j die)).foldl (· + ·) 0

/-- The checks of a move entry when it starts (R447). -/
def moveCheck (s : State) (d e : Nat) : Option (BitVec 8) :=
  let scratchSrc := mvKind e == 2
  let scratchDst := mvKind e == 1
  if mvKind e = 3 || fld e 87 0 ≠ 0 || (mvKind e = 1 && mvDst e != ownNode s) then some stBAD_FIELD
  else if (if scratchSrc then pmScratchSlots d else pmSlots d) ≤ mvSrc e then some stBOUND
  else if (if scratchDst then pmScratchSlots d else pmSlots d) ≤ mvTo e then some stBOUND
  else none

/-- Copy a chunk locally (R446). -/
def saveChunk (t : TaskRef) (src dst n : Nat) (s : State) : State × MStat :=
  let r := peek s t.slot src n
  let s := copyRead t src n r.st s
  match r.st with
  | .ok => jobWrite t.slot dst r.data s
  | e => (s, e)

/-- Start an entry whose checks hold. -/
def moveStart (t : TaskRef) (d i e : Nat) (s : State) : State :=
  let k := mvStarted (((collRun s t).map Prod.snd).getD [])
  let c := pmChunk d
  let src := (if mvKind e = 2 then pmScratch d else pmSlotBase d) + c * mvSrc e
  if mvKind e = 1 then
    let r := saveChunk t src (pmScratch d + c * mvTo e) c (modColl t (fun st aux => (st, aux ++ [i, 0, 0])) s)
    if r.2 = .ok then moveDone t k r.1 else unitFault t r.2.code i r.1
  else
    let rs := storesOf t 5 src (pmSlotBase d + c * mvTo e) c (mvPos k 0)
    let s := modColl t (fun st aux => (st, aux ++ [i, rs.length, 0])) s
    let s := issueAll t (rs.map (fun r => (mvDst e, r))) s
    if nodeValid s && mvDst e == ownNode s then
      let failed := match (entryOf s t).run.track with | some q => (match q.fail with | some f => f.1 / 2 ^ 32 == k | none => false) | none => true
      moveDone t k (modColl t (fun st aux => (st, mvPut aux k 0 (if failed then 2 else 0))) s)
    else s

/-- Whether the wait of a move entry is met (R355, R446). -/
def mvReady (s : State) (slot : Fin 64) (e : Nat) : Bool :=
  !mvWait e || (let v := counterVal s slot (mvCtr e); v.2 == .ok && reached v.1 (BitVec.ofNat 32 (mvThr e)))

/-- Whether an entry of a PERMUTE has started. -/
def mvBegun (aux : List Nat) (i : Nat) : Bool := (List.range (mvStarted aux)).any (fun k => (mvAt aux k).1 == i)

/-- MOVE_ENTRY_START: entries start in list order; an entry whose wait is not met delays no later one (R446). -/
def doMove (t : TaskRef) (i : Nat) (s : State) : State :=
  match collRun s t with
  | none => s
  | some (_, aux) =>
    let td := (entryOf s t).desc
    let d := ((entryOf s t).caps.getD (cDesc td) 0)
    let e := moveAt s t.slot d i
    let earlier := (List.range i).any (fun j =>
      !mvBegun aux j && (let x := moveAt s t.slot d j; x.2 != .ok || mvReady s t.slot x.1))
    if !isPermute td || pmCount d ≤ i || mvBegun aux i || earlier || decide (64 ≤ mvInProgress s t.die) then s
    else if e.2 ≠ .ok then unitFault t e.2.code i s
    else if !mvReady s t.slot e.1 then s
    else
      match moveCheck s d e.1 with
      | some c => unitFault t c i s
      | none => settle t.slot (faultIfFailed t (moveStart t d i e.1 s))

/-! ### Completion -/

/-- Whether a collective step has done its work. -/
def collFinished (s : State) (t : TaskRef) (td : Nat) (k : Track) (stage : Nat) (aux : List Nat) : Bool :=
  k.left == 0 && k.fail.isNone &&
  (match cOp td with
    | 1 => stage == 1
    | 2 => true
    | 3 => decide ((ringMembers s t.slot td).length ≤ stage + 1)
    | 4 => stage == 1
    | 5 => stage == uCount (updDesc s t) && sgCount aux == 0
    | 6 => true
    | 7 =>
      let d := ((entryOf s t).caps.getD (cDesc td) 0)
      mvStarted aux == pmCount d && (List.range (mvStarted aux)).all (fun i => (mvAt aux i).2.2 == 1)
    | _ => false)

/-- COLL UPDATE: its segments start by SEGMENT_START (R327). -/
def doUpdate (t : TaskRef) (s : State) : State :=
  match collStart s t 5 with
  | none => s
  | some _ => updEnd t (setColl t 0 [] s)

/-- INIT. -/
def execCollInit (t : TaskRef) (s : State) : Host.Outcome State Fault Refusal := .next (doInit t s)
/-- REDUCE. -/
def execCollReduce (t : TaskRef) (s : State) : Host.Outcome State Fault Refusal := .next (doReduce t s)
/-- RING. -/
def execCollRing (t : TaskRef) (s : State) : Host.Outcome State Fault Refusal := .next (doRing t s)
/-- RING_STAGE_SEND. -/
def execRingStageSend (t : TaskRef) (s : State) : Host.Outcome State Fault Refusal := .next (doRingStage t s)
/-- CLOSE. -/
def execCollClose (t : TaskRef) (s : State) : Host.Outcome State Fault Refusal := .next (doClose t s)
/-- BUCKET_DEADLINE. -/
def execBucketDeadline (slot : Fin 64) (desc : Nat) (half : Bool) (s : State) : Host.Outcome State Fault Refusal :=
  .next (doDeadline slot desc half s)
/-- UPDATE. -/
def execCollUpdate (t : TaskRef) (s : State) : Host.Outcome State Fault Refusal := .next (doUpdate t s)
/-- GATHER. -/
def execCollGather (t : TaskRef) (s : State) : Host.Outcome State Fault Refusal := .next (doGather t s)
/-- PERMUTE. -/
def execCollPermute (t : TaskRef) (s : State) : Host.Outcome State Fault Refusal := .next (doPermute t s)
/-- MOVE_ENTRY_START. -/
def execMoveEntryStart (t : TaskRef) (entry : Nat) (s : State) : Host.Outcome State Fault Refusal := .next (doMove t entry s)

end Sys2Proof.Machine
end

