-- ==== Sys2Proof/Machine/Cores.lean ====
section
/-! DEFINITION. The stroke core contexts and rigger cores that run job code: registers, memory,
starts, traps and ends (spec/05_tasks_stroke_riggers.md R198 to R208). -/

namespace Sys2Proof.Machine

/-- Registers of a core. -/
def coreRegs (s : State) (c : CoreId) : CoreRegs :=
  match c with
  | .stroke die slot => (jobDie s slot die).regs
  | .rigger r => s.rigs[r].regs

/-- Change a core's registers. -/
def modCore (c : CoreId) (f : CoreRegs → CoreRegs) (s : State) : State :=
  match c with
  | .stroke die slot => modDie slot die (fun d => { d with regs := f d.regs }) s
  | .rigger r => modRig r (fun k => { k with regs := f k.regs }) s

/-- Job slot whose program a core runs, if one runs: none while a debug session holds the core halted (R530), and none while
its clock stands still (R581). -/
def coreSlot (s : State) (c : CoreId) : Option (Fin 64) :=
  if (coreRegs s c).halted || !coresRun s then none
  else
    match c with
    | .stroke die slot => if (jobDie s slot die).routine.isSome then some slot else none
    | .rigger r => (s.rigs[r].task).map (·.slot)

/-- Die of a core. -/
def coreDie (c : CoreId) : Fin 4 :=
  match c with
  | .stroke die _ => die
  | .rigger r => unitDie r

/-- Read an integer register; x0 reads 0. -/
def getX (s : State) (c : CoreId) (r : BitVec 5) : BitVec 64 :=
  if r = 0 then 0 else (coreRegs s c).x[r.toFin]

/-- Write an integer register; a write to x0 is discarded. -/
def setX (c : CoreId) (r : BitVec 5) (v : BitVec 64) (s : State) : State :=
  if r = 0 then s else modCore c (fun g => { g with x := g.x.set r.toFin v }) s

/-- Move a core past an instruction of `n` bytes. -/
def nextPc (c : CoreId) (n : Nat) (s : State) : State := modCore c (fun g => { g with pc := g.pc + BitVec.ofNat 64 n }) s

/-! ### Ends of programs -/

/-- The task that a fault of a routine ends: the ROUTINE task, or the task held for a recompute
(notes/assumptions/14). -/
def routineTask (slot : Fin 64) (die : Fin 4) (r : RoutineJob) : TaskRef :=
  match r with
  | .task i => ⟨slot, die, BitVec.ofNat 16 i⟩
  | .recompute i _ _ => ⟨slot, die, BitVec.ofNat 16 i⟩

/-- Task of the program that a core runs. -/
def coreTask (s : State) (c : CoreId) : Option TaskRef :=
  match c with
  | .stroke die slot => ((jobDie s slot die).routine).map (routineTask slot die)
  | .rigger r => s.rigs[r].task

/-- A core has no program any more. -/
def stopCore (c : CoreId) (s : State) : State :=
  match c with
  | .stroke die slot => modDie slot die (fun d => { d with routine := none }) s
  | .rigger r => freeRig r s

/-- End a core's program in fault. -/
def coreFault (c : CoreId) (cause : Nat) (status : BitVec 8) (detail : Nat) (s : State) : State :=
  match coreTask s c with
  | none => s
  | some t => taskFault t cause status detail (stopCore c s)

/-- An exception ends the program with cause PROGRAM_TRAP (R203). -/
def trap (c : CoreId) (status : BitVec 8) (addr : Nat) (s : State) : State := coreFault c 0x06 status (addr % 2 ^ 32) s

/-- Budget of the program that a core runs, in units of 4,096 cycles (R199). -/
def coreBudget (s : State) (c : CoreId) : Nat :=
  match c with
  | .stroke die slot => (jobDie s slot die).budget
  | .rigger r => s.rigs[r].budget

/-- TDONE with an exit value (R198, R205). -/
def coreDone (c : CoreId) (v : BitVec 64) (s : State) : State :=
  if v ≠ 0 then coreFault c 0x05 stOK (v.toNat % 2 ^ 32) s
  else
    match c with
    | .stroke die slot =>
      match (jobDie s slot die).routine with
      | some (.recompute i gen _) =>
        settle slot (decrement ⟨slot, die, BitVec.ofNat 16 i⟩ gen (stopCore c s))
      | some (.task i) => taskDone ⟨slot, die, BitVec.ofNat 16 i⟩ (stopCore c s)
      | none => s
    | .rigger r =>
      match s.rigs[r].task with
      | some t => taskDone t (stopCore c s)
      | none => s

/-! ### Starts -/

/-- Registers at the start of a program: pc, arguments, name and, for a routine, generation. -/
def startRegs (g : CoreRegs) (entry : Nat) (vals : List (Nat × Nat)) : CoreRegs :=
  { g with
    pc := BitVec.ofNat 64 entry
    resv := none
    x := vals.foldl (fun x p => if h : p.1 < 32 then x.set p.1 (BitVec.ofNat 64 p.2) else x) g.x }

/-- Arguments arg0 to arg5 of an operand area in a0 to a5 (R195, R198). -/
def argVals (d : Nat) : List (Nat × Nat) := (List.range 6).map (fun k => (10 + k, fld d (576 + 64 * k + 63) (576 + 64 * k)))

/-- Entry address of an operand area (R195). -/
def dEntry (d : Nat) : Nat := fld d 559 512

/-- Budget of a program: the field, or budget_max for 0. A field above budget_max, as a TPATCH of word 15 or a later SET of
budget_max can leave it after admission, is neither refused nor capped: DESIGN CHOICE, R199 and R213 name no check after that of
R182 (notes/assumptions/43). -/
def budgetOf (s : State) (slot : Fin 64) (d : Nat) : Nat := if dBudget d = 0 then budgetMax s slot else dBudget d

/-- Start the next queued routine of a context (R198, R205). -/
def startRoutine (slot : Fin 64) (die : Fin 4) (s : State) : State :=
  let jd := jobDie s slot die
  match jd.routine, jd.queue with
  | none, q :: rest =>
    let t := routineTask slot die q
    let d := (entryOf s t).desc
    let start := match q with
      | .task _ => (dEntry d, argVals d ++ [(16, taskName t), (17, (dGen d).toNat)], budgetOf s slot d)
      | .recompute _ gen a =>
        (recompEntry s slot die, [(10, taskName t), (11, gen.toNat), (12, a)], budgetMax s slot)
    modDie slot die (fun j => { j with
      queue := rest
      routine := some q
      budget := start.2.2
      regs := startRegs j.regs start.1 start.2.1 }) s
  | _, _ => s

/-- Rigger cores of a die that a job holds (R207). -/
def riggersHeld (s : State) (slot : Fin 64) (die : Fin 4) : Nat :=
  ((List.finRange 64).filter (fun r => unitDie r == die && (s.rigs[r].task.map (·.slot)) == some slot)).length

/-- rigger_max of a job; 0 is no limit (R192). -/
def riggerMax (s : State) (slot : Fin 64) : Nat := jobFld s oJOB_SCHED slot 0 180 176

/-- A rigger core cleared for another job slot (R206). -/
def Rigger.cleared (r : Rigger) : Rigger := { Rigger.reset with slot := r.slot, since := r.since }

/-- Start a rigger program on a core (R206, R207). -/
def startRigger (t : TaskRef) (r : Fin 64) (s : State) : State :=
  let d := (entryOf s t).desc
  let k := if s.rigs[r].slot = some t.slot then s.rigs[r] else s.rigs[r].cleared
  let k := { k with
    slot := some t.slot, task := some t, since := s.clock.now, budget := budgetOf s t.slot d
    regs := startRegs k.regs (dEntry d) (argVals d ++ [(16, taskName t)]) }
  modEntry t (fun e => { e with run := .rigger (some r) }) { s with rigs := s.rigs.set r k }

/-! ### Memory of a core -/

/-- Bytes of scratch (R206). -/
def scratchBytes : Nat := 0x40000

/-- Whether a range lies within scratch. -/
def inScratch (off n : Nat) : Bool := decide (off + n ≤ scratchBytes)

/-- Read scratch bytes; a byte that is not listed is 0. -/
def scrGet (s : State) (r : Fin 64) (off n : Nat) : List Byte :=
  (List.range n).map (fun k => s.rigs[r].scratch.getD (off + k) 0)

/-- Write scratch bytes. -/
def scrPut (r : Fin 64) (off : Nat) (bs : List Byte) (s : State) : State :=
  modRig r (fun k => { k with
    scratch := (List.zip (List.range bs.length) bs).foldl (fun m p =>
      if p.2 = 0 then m.del (off + p.1) else m.put (off + p.1) p.2) k.scratch }) s

/-- What a core's load returns: the number, or the status of its trap. -/
abbrev Ld := Except (BitVec 8) Nat

/-- Data load of `n` bytes, naturally aligned: job memory for a stroke core, scratch for a rigger
(R203; notes/assumptions/15). -/
def coreLoad (c : CoreId) (slot : Fin 64) (a n : Nat) (s : State) : Ld × State :=
  if a % n ≠ 0 then (.error stBAD_FIELD, s)
  else
    match c with
    | .stroke _ _ =>
      let r := jobRead s slot a n
      (match r.1.st with | .ok => .ok (leNat r.1.data) | e => .error e.code, r.2)
    | .rigger r => if inScratch a n then (.ok (leNat (scrGet s r a n)), s) else (.error stBOUND, s)

/-- Data store: the status of its trap, or OK. -/
def coreStore (c : CoreId) (slot : Fin 64) (a n v : Nat) (s : State) : State × BitVec 8 :=
  if a % n ≠ 0 then (s, stBAD_FIELD)
  else
    match c with
    | .stroke _ _ => let r := jobWrite slot a (leBytes n v) s; (r.1, r.2.code)
    | .rigger r => if inScratch a n then (scrPut r a (leBytes n v) s, stOK) else (s, stBOUND)

/-! ### Counter CSRs -/

/-- Full count of a programmable counter (R467). -/
def PmuCtr.full (c : PmuCtr) : BitVec 64 := c.tally ++ c.count

/-- A RISC-V counter CSR as a core of a job reads it (R470; a D2 session opens the counters, R530): `none` for a number it does not have. -/
def counterCsr (s : State) (slot : Fin 64) (die : Fin 4) (csr : BitVec 12) : Option (BitVec 64) :=
  if csr = 0xC00 then some (BitVec.ofNat 64 s.clock.cycles)
  else if csr = 0xC01 then some (BitVec.ofNat 64 s.clock.now)
  else if 0xC03 ≤ csr ∧ csr ≤ 0xC0A then
    let c := s.clock.pmu[Fin.ofNat 32 (8 * die.val + (csr.toNat - 0xC03))]
    some (if c.lent && c.slot == slot && (jobFld s oJOB_POLICY slot 0 0 0 == 1 || s.sec.d2[slot].isSome) then c.full else 0)
  else if 0xC0B ≤ csr ∧ csr ≤ 0xC1F then some 0
  else none

end Sys2Proof.Machine
end

