-- ==== Sys2Proof/Machine/Exchange.lean ====
section
/-! DEFINITION. Token exchange: DISPATCH, COMBINE, RDISPATCH and RCOMBINE
(spec/06_experts_and_token_exchange.md). A step acts once it has been released; TASK_COMPLETE ends it
when `exchFinished` holds. -/

namespace Sys2Proof.Machine

/-! ### Descriptors (R214 to R216, R220, R224, R231, R234) -/

def xSeq (d : Nat) : Nat := fld d 1023 992
def xId (d : Nat) : Nat := fld d 991 976
def xDeadline (d : Nat) : Nat := fld d 975 960
def xTok (d : Nat) : Nat := fld d 959 936
def xK (d : Nat) : Nat := fld d 935 932 + 1
def xM (d : Nat) : Nat := xK d + fld d 931 928
def xPolicy (d : Nat) : Nat := fld d 927 926
def xRounds (d : Nat) : Nat := fld d 925 922 + 1
def xRot (d : Nat) : Bool := bitAt d 921
def xScale (d : Nat) : Bool := bitAt d 920
def xD (d : Nat) : Nat := fld d 912 896 + 1
def xConv (d : Nat) : Nat := fld d 895 864
def xExps (d : Nat) : Nat := fld d 863 847 + 1
def xG (d : Nat) : Nat := fld d 844 832
def xGroup (d : Nat) : Nat := fld d 815 768
def xNLocal (d : Nat) : Nat := fld d 762 752
def xMap (d : Nat) : Nat := fld d 751 704
def xLMax (d : Nat) : Nat := fld d 698 688
def xLocal (d : Nat) : Nat := fld d 687 640
def xRoute (d : Nat) : Nat := fld d 623 576
def xMsg (d : Nat) : Nat := fld d 559 512
def xSrc (d : Nat) : Nat := fld d 511 448
def xStage (d : Nat) : Nat := fld d 447 384
def xOut (d : Nat) : Nat := fld d 383 320
def xBsrc (d : Nat) : Nat := fld d 319 256
def xBstage (d : Nat) : Nat := fld d 255 192
def xBout (d : Nat) : Nat := fld d 191 128
def xCounts (d : Nat) : Nat := fld d 111 64

/-- Fields of a local expert table entry (R216). -/
def lBret (e : Nat) : Nat := fld e 511 448
def lBland (e : Nat) : Nat := fld e 447 384
def lRet (e : Nat) : Nat := fld e 383 320
def lLand (e : Nat) : Nat := fld e 319 256
def lRmap (e : Nat) : Nat := fld e 255 208
def lCap (e : Nat) : Nat := fld e 151 128
def lNum (e : Nat) : Nat := fld e 19 10

/-- The planes of the routing lists (R218). -/
def planeCI (d : Nat) : Nat := xRoute d
def planeCS (d : Nat) : Nat := planeCI d + alignUp (4 * xTok d * xM d) 64
def planeAS (d : Nat) : Nat := planeCS d + alignUp (4 * xTok d * xM d) 64
def planeGW (d : Nat) : Nat := planeAS d + alignUp (8 * xTok d * xK d) 64

/-- Where the group table and the local expert table that the release of an exchange captured stand among its records
(R224). -/
def grpTabKey (a : Nat) : Nat := 2 ^ 65 + a
def locTabKey (a : Nat) : Nat := 2 ^ 66 + a
def xDesc (e : Entry) : Nat := capOf e (cDesc e.desc)
def xMember (e : Entry) (g : Nat) : Nat := fld (capOf e (grpTabKey (xGroup (xDesc e)))) (32 * g + 31) (32 * g)
def xNode (e : Entry) (g : Nat) : BitVec 18 := BitVec.ofNat 18 (fld (xMember e g) 17 0)
def xDie (e : Entry) (g : Nat) : Fin 4 := Fin.ofNat 4 (fld (xMember e g) 19 18)
def xLocalAt (e : Entry) (i : Nat) : Nat := fld (capOf e (locTabKey (xLocal (xDesc e)))) (512 * i + 511) (512 * i)
def xArr (e : Entry) (a : Nat) : Arr := arrOf (capOf e a)

/-- Local table entry of a local number. -/
def xLocalOf (e : Entry) (lnum : Nat) : Option Nat :=
  ((List.range (xNLocal (xDesc e))).map (xLocalAt e)).find? (fun l => lNum l == lnum)

/-- Whether an entry runs an exchange operation, and which. -/
def Entry.isExch (e : Entry) : Bool := e.st == .running && dOpcode e.desc == 5 && decide (8 ≤ cOp e.desc ∧ cOp e.desc ≤ 11)

/-- Member number of the endpoint. -/
def xMe (s : State) (t : TaskRef) (e : Entry) : Nat :=
  ((List.range (xG (xDesc e))).find? (fun g => xNode e g == ownNode s && xDie e g == t.die)).getD 0

/-- The member order (R221). -/
def memberOrder (d : Nat) : List Nat :=
  let g0 := if xRot d then xSeq d % xG d else 0
  (List.range (xG d)).map (fun i => (g0 + i) % xG d)

/-- Home of an expert (R215): member and local number. -/
def homeOf (s : State) (slot : Fin 64) (d gid : Nat) : Option (Nat × Nat) :=
  let x := (jobNat s slot (xMap d + 4 * gid) 4).1
  if bitAt x 31 then some (fld x 21 10, fld x 9 0) else none

/-- Experts whose home is a member, by ascending ID. -/
def expertsOf (s : State) (slot : Fin 64) (d g : Nat) : List Nat :=
  (List.range (xExps d)).filter (fun e => match homeOf s slot d e with | some h => h.1 == g | none => false)

/-! ### Candidates (R217 to R219) -/

/-- Candidate `c` of token `t`: `none` when it is none. -/
def candAt (s : State) (slot : Fin 64) (d t c : Nat) : Option Nat :=
  let i := t * xM d + c
  let e := (jobNat s slot (planeCI d + 4 * i) 4).1
  let v : F32 := BitVec.ofNat 32 (jobNat s slot (planeCS d + 4 * i) 4).1
  if xExps d ≤ e ∨ v = f32ninf ∨ f32isNaN v then none else some e

/-- Tokens and candidates of the endpoint. -/
def allCands (d : Nat) : List (Nat × Nat) := (List.range (xTok d)).flatMap (fun t => (List.range (xM d)).map (fun c => (t, c)))

/-- The fault that the endpoint's lists lead to, if any (R219, R244). A candidate that is none by its score never fails, also where
its ID has an invalid map entry: DESIGN CHOICE, R219 does not say which test comes first (notes/assumptions/44). -/
def candFail (s : State) (slot : Fin 64) (d : Nat) : Option (BitVec 8) :=
  let n := 4 * xTok d * xM d
  let st := (peek s slot (planeCI d) n).st.and (peek s slot (planeCS d) n).st
  if n ≠ 0 && st != .ok then some st.code
  else if (allCands d).any (fun x => match candAt s slot d x.1 x.2 with
      | some e => (homeOf s slot d e).isNone
      | none => false) then some stBAD_FIELD
  else none

/-! ### Where rows and messages go -/

/-- Arrays that another member writes: 1 landing rows, 2 backward landing rows, 3 staging rows, 4
backward staging rows. -/
def planeArr (e : Entry) (plane lnum : Nat) : Arr :=
  let d := xDesc e
  match plane with
  | 3 => xArr e (xStage d)
  | 4 => xArr e (xBstage d)
  | p =>
    match xLocalOf e lnum with
    | some l => xArr e (if p = 1 then lLand l else lBland l)
    | none => arrOf 0

/-- The task of an exchange of a job that runs on a die of this device. -/
def exchOn (s : State) (slot : Fin 64) (die : Fin 4) (id : Nat) : Option TaskRef :=
  ((jobDie s slot die).entries.find? (fun p => p.2.isExch && xId (xDesc p.2) == id)).map
    (fun p => ⟨slot, die, BitVec.ofNat 16 p.1⟩)

/-- The values of R225 of a descriptor, which every member must share, but for seq and exch_id. -/
def shapeOf (d : Nat) : Nat :=
  fld d 935 921 <<< 88 + fld d 912 896 <<< 71 + fld d 895 864 <<< 39 + fld d 863 847 <<< 22 + fld d 844 832 <<< 9 + fld d 698 688 <<< 110

/-- What a die knows of an exchange: that which runs, or the DISPATCH that last started under its exch_id (R240). -/
def exchKnown (s : State) (slot : Fin 64) (die : Fin 4) (id : Nat) : Option Entry :=
  match exchOn s slot die id with
  | some t => some (entryOf s t)
  | none => (jobDie s slot die).exchanges.find id

/-- The entry that tells where member `g` holds what this endpoint writes, when this device can know. -/
def peerEntry (s : State) (t : TaskRef) (g : Nat) : Option Entry :=
  let e := entryOf s t
  if g = xMe s t e then some e
  else if nodeValid s && xNode e g == ownNode s then exchKnown s t.slot (xDie e g) (xId (xDesc e))
  else none

/-- Array of a plane at a member: a member on another device holds it where the spec does not say. Its rows are taken as `d`
elements wide: DESIGN CHOICE, R231 does not say how a source knows the row stride of an array of another device
(notes/assumptions/44). -/
def peerArr (s : State) (t : TaskRef) (g plane lnum : Nat) : Arr :=
  match peerEntry s t g with
  | some p => planeArr p plane lnum
  | none =>
    let e := entryOf s t
    let d := xDesc e
    let a := fun k => (Config.peerAddress (xNode e g).toNat (xDie e g).val (xId d) lnum (4 * plane + k)).toNat
    { elem := a 1, exp := a 2, conv := xConv d, rows := 0, cols := xD d, trans := false }

/-- Receive map of an expert at a member. -/
def peerRmap (s : State) (t : TaskRef) (g lnum : Nat) : Nat :=
  match peerEntry s t g with
  | some p => ((xLocalOf p lnum).map lRmap).getD 0
  | none =>
    let e := entryOf s t
    (Config.peerAddress (xNode e g).toNat (xDie e g).val (xId (xDesc e)) lnum 4).toNat

/-- Message area of a member. -/
def peerMsg (s : State) (t : TaskRef) (g : Nat) : Nat :=
  match peerEntry s t g with
  | some p => xMsg (xDesc p)
  | none =>
    let e := entryOf s t
    (Config.peerAddress (xNode e g).toNat (xDie e g).val (xId (xDesc e)) 0 0).toNat

/-! ### Messages (R227 to R230) -/

/-- Put a message into its place, over one of the same round and kind. -/
def putMsg (ms : List ExMsg) (m : ExMsg) : List ExMsg :=
  ms.filter (fun x => !(x.exch == m.exch && x.seq == m.seq && x.round == m.round && x.src == m.src && x.grant == m.grant)) ++ [m]

/-- A message that is discarded adds 1 to the job's error count (R229). -/
def discardMsg (slot : Fin 64) (s : State) : State := modCtl slot (fun c => { c with hostErrors := c.hostErrors + 1 }) s

/-- The least sequence of the DISPATCH tasks of an exchange that were admitted on a die and have not started. -/
def admittedSeq (s : State) (slot : Fin 64) (die : Fin 4) (id : Nat) : Option Nat :=
  ((jobDie s slot die).entries.filterMap (fun p =>
    let d := (jobNat s slot (cDesc p.2.desc) 128).1
    let waits := match p.2.st with | .waiting _ => true | .ready _ => true | .running => p.2.run == .idle | _ => false
    if waits && dOpcode p.2.desc == 5 && cOp p.2.desc == 8 && xId d == id then some (xSeq d) else none)).min?

/-- The current sequence of an exchange at a die: of the one that runs or last started, before the first DISPATCH of those admitted. -/
def currentSeq (s : State) (slot : Fin 64) (die : Fin 4) (id : Nat) : Option Nat :=
  match exchKnown s slot die id with
  | some e => some (xSeq (xDesc e))
  | none => admittedSeq s slot die id

/-- Whether a sequence is one of the two that are live when `q` is the current one (R246). -/
def seqLive (q seq : Nat) : Bool := seq == q || seq == (q + 1) % 2 ^ 32

/-- A message arrives whole at a die, and waits in its slot when its sequence is the current one of its exchange or the next
one; any other is discarded (R229, R246). A message of an exchange that the die knows nothing of yet waits until the first
DISPATCH under its exch_id starts, which then discards it if its sequence is not live (DESIGN CHOICE, notes/assumptions/44). -/
def deliver (slot : Fin 64) (die : Fin 4) (m : ExMsg) (s : State) : State :=
  if (currentSeq s slot die m.exch).all (fun q => seqLive q m.seq) then
    modDie slot die (fun d => { d with msgs := putMsg d.msgs m }) s
  else discardMsg slot s

/-- A DISPATCH of sequence `q` starts: waiting messages of its exchange with another sequence than the two live ones are
discarded (R229, R246). -/
def dropStale (slot : Fin 64) (die : Fin 4) (id q : Nat) (s : State) : State :=
  let stale := fun (m : ExMsg) => m.exch == id && !seqLive q m.seq
  let r := (jobDie s slot die).msgs.partition stale
  forEach r.1 (fun _ st => discardMsg slot st) (modDie slot die (fun d => { d with msgs := r.2 }) s)

/-- Bytes of a message slot (R228). -/
def msgBytes (d : Nat) : Nat := 64 + 8 * xK d * xLMax d

/-- The bytes of a message in its slot, in this model's layout, which the spec leaves to the DK5 (R228;
notes/assumptions/44): a header of 64 bytes, then words of 8 bytes, as many as the slot holds. `extra` is the total refused of
a grant message. -/
def msgImage (d : Nat) (m : ExMsg) (extra : Nat) (words : List Nat) : List Byte :=
  leBytes 64 (m.exch + m.seq <<< 16 + m.round <<< 48 + (if m.grant then 1 else 0) <<< 56 + words.length <<< 64 + extra <<< 128 +
    m.shape <<< 256) ++ (words.take (xK d * xLMax d)).flatMap (leBytes 8)

/-- Issue requests of an exchange to a node, numbered in the order of issue. -/
def issueNext (t : TaskRef) (node : BitVec 18) (f : Nat → List TxReq) (s : State) : State :=
  let pos := (((entryOf s t).run.track).map (·.issued)).getD 0
  issueAll t ((f pos).map (fun r => (node, r))) s

/-- Write bytes of the endpoint's own memory; a failure ends the step (R244). -/
def ownWrite (t : TaskRef) (va : Nat) (bs : List Byte) (s : State) : State :=
  let w := jobWrite t.slot va bs s
  if w.2 = .ok then w.1 else failAt t ((((entryOf s t).run.track).map (·.issued)).getD 0) w.2.code w.1

/-- Whether a write or a request of a running task has failed. -/
def trackFailed (s : State) (t : TaskRef) : Bool := ((entryOf s t).run.track.bind (·.fail)).isSome

/-- Send a message to a member: its own through its memory, another die's and another device's by STOREs on VL4, the last with a
finish flag (R227, R228). A member of this device has it when all of its bytes were written. -/
def sendMsg (t : TaskRef) (g : Nat) (m : ExMsg) (extra : Nat) (words : List Nat) (s : State) : State :=
  let e := entryOf s t
  let d := xDesc e
  let va := peerMsg s t g + (m.seq % 2 * 2 + (if m.grant then 1 else 0)) * xG d * msgBytes d + m.src * msgBytes d
  let bs := msgImage d m extra words
  let own := g = xMe s t e
  let s := if own then ownWrite t va bs s
    else issueNext t (xNode e g) (fun pos => onLast (fun r => { r with fin := true }) (storesBytes t 4 va pos bs)) s
  if (own || (nodeValid s && xNode e g == ownNode s)) && !trackFailed s t then deliver t.slot (if own then t.die else xDie e g) m s else s

/-- A message of the endpoint, for a round. -/
def ownMsg (s : State) (t : TaskRef) (round : Nat) (grant : Bool) (vals : List (Nat × Nat)) : ExMsg :=
  let e := entryOf s t
  { exch := xId (xDesc e), seq := xSeq (xDesc e), round := round, src := xMe s t e, grant := grant, shape := shapeOf (xDesc e),
    vals := vals }

/-- Groups of offers of a round at a member's experts: slot (0 in later rounds) and expert. -/
def groupsOf (round k : Nat) (es : List Nat) : List (Nat × Nat) :=
  (if round = 0 then List.range k else [0]).flatMap (fun a => es.map (fun e => (a, e)))

/-- Whether an offer belongs to a group. -/
def Offer.inGroup (o : Offer) (round : Nat) (g : Nat × Nat) : Bool := o.expert == g.2 && (round != 0 || o.slot == g.1)

/-- Send the count messages of a round (R227). -/
def sendCounts (t : TaskRef) (x : ExchSt) (s : State) : State :=
  let d := xDesc (entryOf s t)
  forEach (List.range (xG d)) (fun g st =>
    let gs := groupsOf x.round (xK d) (expertsOf st t.slot d g)
    let ns := gs.map (fun q => (x.offers.filter (fun o => o.inGroup x.round q)).length)
    sendMsg t g (ownMsg st t x.round false (ns.map (fun n => (n, 0)))) 0 ns st) s

/-- The message of a member for a round, when it has arrived, with the values of R225 that this endpoint's descriptor has and
the length that they call for: without it the exchange does not complete. -/
def msgFrom (s : State) (t : TaskRef) (round : Nat) (grant : Bool) (len g : Nat) : Option ExMsg :=
  let d := xDesc (entryOf s t)
  (jobDie s t.slot t.die).msgs.find? (fun m =>
    m.exch == xId d && m.seq == xSeq d && m.round == round && m.src == g && m.grant == grant && m.shape == shapeOf d &&
      m.vals.length == len)

/-- Whether every member's message has arrived. -/
def allMsgs (s : State) (t : TaskRef) (round : Nat) (grant : Bool) (len : Nat → Nat) : Bool :=
  (List.range (xG (xDesc (entryOf s t)))).all (fun g => (msgFrom s t round grant (len g) g).isSome)

/-! ### Admission (R221, R223) -/

/-- Admit one group of offers at an expert: the expert after it, and the number admitted and first
row. -/
def ExLocal.takeIn (l : ExLocal) (round n : Nat) : ExLocal × (Nat × Nat) :=
  let a := min l.room n
  ({ l with
      room := l.room - a, next := l.next + a, refused := l.refused + (n - a)
      routed := if round = 0 then l.routed + n else l.routed
      movedIn := if round = 0 then l.movedIn else l.movedIn + a }, (a, l.next))

/-- Admit the offers of a round: by slot, then by member in the member order. The grants are keyed by
slot, member and the expert's place. -/
def admitAll (s : State) (t : TaskRef) (x : ExchSt) : List ExLocal × AMap (Nat × Nat × Nat) (Nat × Nat) :=
  let d := xDesc (entryOf s t)
  let n := x.locals.length
  let slots := if x.round = 0 then List.range (xK d) else [0]
  let len := slots.length * n
  (slots.flatMap (fun a => (memberOrder d).map (fun g => (a, g)))).foldl (fun acc ag =>
    let m := (msgFrom s t x.round false len ag.2).map (·.vals) |>.getD []
    (List.range n).foldl (fun acc i =>
      match acc.1[i]? with
      | some l =>
        let r := l.takeIn x.round ((m.getD (ag.1 * n + i) (0, 0)).1)
        (acc.1.set i r.1, acc.2.put (ag.1, ag.2, i) r.2)
      | none => acc) acc) (x.locals, [])

/-- Replace the state of a running exchange. -/
def setExch (t : TaskRef) (x : ExchSt) (s : State) : State :=
  modEntry t (fun e => { e with run := match e.run with | .exch k _ => .exch k x | r => r }) s

/-- All count messages are here: rows are taken in, and send a grant message to every member (R230 step 3). -/
def grantStep (t : TaskRef) (x : ExchSt) (s : State) : State :=
  let d := xDesc (entryOf s t)
  let n := x.locals.length
  let slots := if x.round = 0 then List.range (xK d) else [0]
  let r := admitAll s t x
  let refused := (r.1.map (·.refused)).foldl (· + ·) 0 - (x.locals.map (·.refused)).foldl (· + ·) 0
  let tail := r.1.map (fun l => (if l.room = 0 then 1 else 0, 0)) ++ [(refused, 0)]
  let s := setExch t { x with phase := 1, locals := r.1 } s
  forEach (List.range (xG d)) (fun g st =>
    let vals := slots.flatMap (fun a => (List.range n).map (fun i => r.2.getD (a, g, i) (0, 0)))
    let words := (List.zip (List.range vals.length) vals).map (fun p =>
      p.2.1 + p.2.2 <<< 24 + (if p.1 < n then ((r.1[p.1]?).map (fun l => if l.room = 0 then 2 ^ 48 else 0)).getD 0 else 0))
    sendMsg t g (ownMsg st t x.round true (vals ++ tail)) refused words st) s

/-! ### Rows (R231 to R233, R236, R238, R239) -/

/-- A row that travels: destination member, expert and row; its elements and exponents as stored; its
receive map entry, in a DISPATCH. -/
structure RowOut where
  mem : Nat
  lnum : Nat
  row : Nat
  el : List Byte
  ex : List Byte
  map : Option Nat
  deriving DecidableEq, Repr

/-- Elements of a row that travel: `d`, padded to whole blocks (R37). -/
def rowCols (a : Arr) (d : Nat) : Nat := if a.blocked then alignUp d 32 else d
/-- Bytes of a row's elements and exponents. -/
def rowEl (a : Arr) (d : Nat) : Nat := rowCols a d * fmtBits a.fmt / 8
def rowEx (a : Arr) (d : Nat) : Nat := if a.blocked then rowCols a d / 32 else 0
/-- Addresses of a row's elements and exponents. -/
def elAddr (a : Arr) (r : Nat) : Nat := a.elem + r * a.colsP * fmtBits a.fmt / 8
def exAddr (a : Arr) (r : Nat) : Nat := a.exp + r * (a.colsP / 32)

/-- A row as stored: of an array in split form, the elements of piece 0 and the exponents (DESIGN CHOICE,
notes/assumptions/44). -/
def readRow (s : State) (slot : Fin 64) (a : Arr) (d r : Nat) : List Byte × List Byte × MStat :=
  let x := peek s slot (elAddr a r) (rowEl a d)
  if a.blocked then
    let y := peek s slot (exAddr a r) (rowEx a d)
    (x.data, y.data, x.st.and y.st)
  else (x.data, [], x.st)

/-- Put a row of a turn in the order of experts and landing rows. -/
def insertRow (r : RowOut) : List RowOut → List RowOut
  | [] => [r]
  | q :: rest => if r.lnum < q.lnum ∨ (r.lnum = q.lnum ∧ r.row < q.row) then r :: q :: rest else q :: insertRow r rest

/-- The rows of an operation in turns of at most 64 per destination, destinations in the member order; the rows of a turn go
by expert and landing row, so that consecutive ones travel together (R233). -/
def turnsOf (d : Nat) (rows : List RowOut) : List (List RowOut) :=
  (List.range (ceilDiv rows.length 64)).flatMap (fun i =>
    (memberOrder d).map (fun g => (((rows.filter (fun r => r.mem == g)).drop (64 * i)).take 64).foldl (fun l r => insertRow r l) []))

/-- Cut a turn into runs of consecutive landing rows (R233). -/
def rowRuns : List RowOut → List (List RowOut)
  | [] => []
  | r :: rest =>
    match rowRuns rest with
    | (q :: qs) :: more => if q.lnum = r.lnum ∧ q.row = r.row + 1 then (r :: q :: qs) :: more else [r] :: (q :: qs) :: more
    | other => [r] :: other

/-- Send bytes to a member's memory on VL4. -/
def sendBytes (t : TaskRef) (g va : Nat) (bs : List Byte) (s : State) : State :=
  let e := entryOf s t
  if bs.isEmpty then s
  else if g = xMe s t e then ownWrite t va bs s
  else issueNext t (xNode e g) (fun pos => storesBytes t 4 va pos bs) s

/-- Send the elements and exponents of consecutive rows: together where the destination array holds nothing between them. -/
def sendPlanes (t : TaskRef) (g : Nat) (a : Arr) (d : Nat) (run : List RowOut) (s : State) : State :=
  let parts := if a.colsP = rowCols a d then [run] else run.map (fun r => [r])
  forEach parts (fun q st =>
    match q with
    | [] => st
    | r :: _ => sendBytes t g (exAddr a r.row) (q.flatMap (·.ex)) (sendBytes t g (elAddr a r.row) (q.flatMap (·.el)) st)) s

/-- Send a run of consecutive rows, in a DISPATCH with their receive map entries (R231, R233). -/
def sendRun (t : TaskRef) (plane : Nat) (run : List RowOut) (s : State) : State :=
  match run with
  | [] => s
  | r :: _ =>
    let s := sendPlanes t r.mem (peerArr s t r.mem plane r.lnum) (xD (xDesc (entryOf s t))) run s
    match r.map with
    | none => s
    | some _ => sendBytes t r.mem (peerRmap s t r.mem r.lnum + 8 * r.row) (run.flatMap (fun q => leBytes 8 (q.map.getD 0))) s

/-- Send rows. -/
def sendRows (t : TaskRef) (plane : Nat) (rows : List RowOut) (s : State) : State :=
  let d := xDesc (entryOf s t)
  let s := forEach ((turnsOf d rows).flatMap rowRuns) (sendRun t plane) s
  modTotals t.slot (fun q => { q with rowsSent := q.rowsSent + rows.length }) s

/-- Receive map entry (R231). -/
def rmapEntry (slot token member : Nat) : Nat := slot <<< 36 + token <<< 12 + member

/-- Byte ranges of row `r` of an array. -/
def rowRanges (a : Arr) (d r : Nat) : List (Nat × Nat) :=
  (elAddr a r, rowEl a d) :: (if a.blocked then [(exAddr a r, rowEx a d)] else [])

/-- The row of an admitted assignment in a DISPATCH (R231, R232). -/
def dispatchRow (s : State) (t : TaskRef) (a : Assign) : RowOut × MStat :=
  let e := entryOf s t
  let d := xDesc e
  let h := (homeOf s t.slot d a.expert).getD (0, 0)
  let r := readRow s t.slot (xArr e (xSrc d)) (xD d) a.token
  (⟨h.1, h.2, a.row, r.1, r.2.1, some (rmapEntry a.slot a.token (xMe s t e))⟩, r.2.2)

/-! ### Grants (R230 step 4) -/

/-- Divide the offers of a round by the grants: those admitted, and those refused. -/
def applyGrants (round : Nat) (own : Offer → Nat) (grant : Nat × Nat → Nat × Nat) :
    List Offer → AMap (Nat × Nat) Nat → List Assign × List Offer
  | [], _ => ([], [])
  | o :: rest, seen =>
    let key := (if round = 0 then o.slot else 0, o.expert)
    let i := seen.getD key 0
    let g := grant key
    let r := applyGrants round own grant rest (seen.put key (i + 1))
    if i < g.1 then
      ({ token := o.token, slot := o.slot, own := own o, row := g.2 + i, cand := o.cand, round := round,
         status := if round = 0 then 0 else 1, expert := o.expert } :: r.1, r.2)
    else (r.1, o :: r.2)

/-- An assignment that is dropped (R220, R221). -/
def dropped (own : Offer → Nat) (round : Nat) (o : Offer) : Assign :=
  { token := o.token, slot := o.slot, own := own o, row := 0, cand := o.cand, round := round, status := 2, expert := own o }

/-- The next candidate of a token that still has room, from `p` on (R221). -/
def nextCand (s : State) (slot : Fin 64) (d : Nat) (full : List Nat) (t : Nat) : Nat → Nat → Nat
  | 0, p => p
  | fuel + 1, p =>
    match if p < xM d then candAt s slot d t p else some 0 with
    | none => nextCand s slot d full t fuel (p + 1)
    | some e => if p < xM d ∧ full.contains e then nextCand s slot d full t fuel (p + 1) else p

/-- Advance the refused offers in the order of tokens and slots: the new offers, those without a
candidate, and the pointers (R221). -/
def advanceAll (s : State) (slot : Fin 64) (d : Nat) (full : List Nat) :
    List Offer → AMap Nat Nat → List Offer × List Offer × AMap Nat Nat
  | [], ptr => ([], [], ptr)
  | o :: rest, ptr =>
    let p := nextCand s slot d full o.token 16 (ptr.getD o.token (xK d))
    if p < xM d then
      let r := advanceAll s slot d full rest (ptr.put o.token (p + 1))
      ({ o with cand := p, expert := (candAt s slot d o.token p).getD 0 } :: r.1, r.2.1, r.2.2)
    else
      let r := advanceAll s slot d full rest (ptr.put o.token p)
      (r.1, o :: r.2.1, r.2.2)

/-- Put an offer into the order of tokens and slots. -/
def insertOffer (o : Offer) : List Offer → List Offer
  | [] => [o]
  | q :: rest => if o.token < q.token ∨ (o.token = q.token ∧ o.slot < q.slot) then o :: q :: rest else q :: insertOffer o rest

/-- Own expert of an offer's assignment. -/
def ownOf (s : State) (slot : Fin 64) (d : Nat) (o : Offer) : Nat := (candAt s slot d o.token o.slot).getD 0

/-! ### The end of the rounds (R220, R230) -/

/-- The 8 bytes of an assignment entry (R220). -/
def Assign.entry (a : Assign) : Nat := a.row <<< 32 + a.cand <<< 28 + a.round <<< 24 + a.status <<< 22 + a.expert

/-- Write plane AS (R230 step 6). -/
def writeAS (t : TaskRef) (as : List Assign) (s : State) : State :=
  let d := xDesc (entryOf s t)
  forEach as (fun a st => ownWrite t (planeAS d + 8 * (a.token * xK d + a.slot)) (leBytes 8 a.entry) st) s

/-- The rounds are over and the last messages are here. -/
def endRounds (t : TaskRef) (x : ExchSt) (s : State) : State :=
  let live := x.ended.filter (fun a => a.status != 3)
  let s := modTotals t.slot (fun q => { q with
    offered := q.offered + live.length, dropped := q.dropped + (live.filter (fun a => a.status == 2)).length }) s
  writeAS t x.ended (setExch t { x with phase := 3 } s)

/-- Under NEXT after a second round, every member tells each expert's home how many assignments whose
own candidate it was moved, and then how many were dropped (R234). -/
def sendClosing (t : TaskRef) (x : ExchSt) (s : State) : State :=
  let d := xDesc (entryOf s t)
  forEach (List.range (xG d)) (fun g st =>
    let count := fun status => (expertsOf st t.slot d g).map (fun e =>
      ((x.ended.filter (fun a => a.own == e && a.status == status)).length, (0 : Nat)))
    let words := (List.zip (count 1) (count 2)).map (fun p => p.1.1 + p.2.1 <<< 32)
    sendMsg t g (ownMsg st t (x.round + 1) false (count 1 ++ count 2)) 0 words st) s

/-- All closing messages are here: how the assignments of this endpoint's experts ended. -/
def closeStats (s : State) (t : TaskRef) (x : ExchSt) : List ExLocal :=
  let d := xDesc (entryOf s t)
  let n := x.locals.length
  let ms := (List.range (xG d)).map (fun g => ((msgFrom s t (x.round + 1) false (2 * n) g).map (·.vals)).getD [])
  (List.zip (List.range n) x.locals).map (fun p => { p.2 with
    moved := (ms.map (fun m => (m.getD p.1 (0, 0)).1)).foldl (· + ·) 0
    dropped := (ms.map (fun m => (m.getD (n + p.1) (0, 0)).1)).foldl (· + ·) 0 })

/-- The rounds end at this point for every member (R230). -/
def roundsOver (t : TaskRef) (x : ExchSt) (s : State) : State :=
  if x.round = 0 then endRounds t { x with locals := x.locals.map (fun l => { l with dropped := l.routed - l.next }) } s
  else sendClosing t x (setExch t { x with phase := 2 } s)

/-- Length of a grant message from a member (R230). -/
def grantLen (s : State) (t : TaskRef) (round g : Nat) : Nat :=
  let d := xDesc (entryOf s t)
  let es := expertsOf s t.slot d g
  (groupsOf round (xK d) es).length + es.length + 1

/-- What the grants of a round say: the grant of a group, the experts that are full and the total
refused. -/
structure Grants where
  groups : AMap (Nat × Nat) (Nat × Nat)
  full : List Nat
  refused : Nat
  deriving DecidableEq, Repr

/-- Read the grant messages of a round. -/
def readGrants (s : State) (t : TaskRef) (round : Nat) : Grants :=
  let d := xDesc (entryOf s t)
  (List.range (xG d)).foldl (fun acc g =>
    let es := expertsOf s t.slot d g
    let gs := groupsOf round (xK d) es
    let v := ((msgFrom s t round true (grantLen s t round g) g).map (·.vals)).getD []
    { groups := acc.groups ++ List.zip gs v
      full := acc.full ++ ((List.zip es (v.drop gs.length)).filter (fun p => p.2.1 == 1)).map Prod.fst
      refused := acc.refused + (v.getD (gs.length + es.length) (0, 0)).1 }) ⟨[], [], 0⟩

/-- All grants of a round are here (R230 steps 4 and 5). -/
def takeGrants (t : TaskRef) (x : ExchSt) (s : State) : State :=
  let d := xDesc (entryOf s t)
  let own := ownOf s t.slot d
  let gr := readGrants s t x.round
  let r := applyGrants x.round own (fun k => gr.groups.getD k (0, 0)) x.offers []
  let rows := r.1.map (dispatchRow s t)
  let s := trace (some t.slot) t.die 1 0x20 (xSeq d <<< 64 + gr.refused <<< 32 + x.round <<< 16 + xId d) s
  match (List.zip r.1 rows).find? (fun q => q.2.2 != .ok) with
  | some q => memFault t q.2.2 0 (rowRanges (xArr (entryOf s t) (xSrc d)) (xD d) q.1.token) s
  | none =>
    let s := sendRows t 1 (rows.map Prod.fst) s
    let refused := r.2.foldl (fun l o => insertOffer o l) []
    let x := { x with ended := x.ended ++ r.1, full := gr.full, rows := x.rows + r.1.length }
    if xPolicy d = 0 then roundsOver t { x with offers := [], ended := x.ended ++ refused.map (dropped own x.round) } s
    else if gr.refused = 0 then roundsOver t { x with offers := [] } s
    else
      let a := advanceAll s t.slot d x.full refused x.ptr
      let x := { x with ptr := a.2.2, ended := x.ended ++ a.2.1.map (dropped own x.round) }
      if x.round + 1 = xRounds d then
        roundsOver t { x with offers := [], ended := x.ended ++ a.1.map (dropped own x.round) } s
      else
        let x := { x with phase := 0, round := x.round + 1, offers := a.1 }
        sendCounts t x (setExch t x s)

/-- Take a DISPATCH one step on, when the messages it waits for are here. -/
def exchStep (t : TaskRef) (s : State) : Option State :=
  match (entryOf s t).run with
  | .exch _ x =>
    let d := xDesc (entryOf s t)
    let n := x.locals.length
    if x.phase = 0 && allMsgs s t x.round false (fun _ => (if x.round = 0 then xK d else 1) * n) then some (grantStep t x s)
    else if x.phase = 1 && allMsgs s t x.round true (grantLen s t x.round) then some (takeGrants t x s)
    else if x.phase = 2 && allMsgs s t (x.round + 1) false (fun _ => 2 * n) then
      some (endRounds t { x with locals := closeStats s t x } s)
    else none
  | _ => none

/-- Exchanges of a job that run on this device. -/
def exchRunning (s : State) (slot : Fin 64) : List TaskRef :=
  allDies.flatMap (fun die => ((jobDie s slot die).entries.filter (fun p => p.2.isExch)).map
    (fun p => (⟨slot, die, BitVec.ofNat 16 p.1⟩ : TaskRef)))

/-- Take the exchanges of a job on as long as one can go on. -/
def exchGo (slot : Fin 64) : Nat → State → State
  | 0, s => s
  | fuel + 1, s =>
    match (exchRunning s slot).findSome? (fun t => (exchStep t s).map (fun s' => (t, s'))) with
    | some r => exchGo slot fuel (faultIfFailed r.1 r.2)
    | none => s

/-- Steps that the exchanges of a device can take without a message from outside: four dies, fifteen
rounds, two steps each and one at the end. -/
def exchFuel : Nat := 128

/-- What follows for the exchanges of a job. -/
def exchSettle (slot : Fin 64) (s : State) : State := settle slot (exchGo slot exchFuel s)

/-! ### DISPATCH -/

/-- A released exchange of an operation, not yet started. -/
def exchStart (s : State) (t : TaskRef) (op : Nat) : Option Entry :=
  let e := entryOf s t
  if e.isExch && e.run == .idle && cOp e.desc == op && inP0P1 s then some e else none

/-- The state in which an exchange starts. -/
def ExchSt.start (phase : Nat) : ExchSt :=
  { phase := phase, round := 0, offers := [], ended := [], ptr := [], locals := [], full := [], rows := 0 }

/-- Assignments of the endpoint, slot by slot. -/
def assignments (d : Nat) : List (Nat × Nat) := (List.range (xK d)).flatMap (fun a => (List.range (xTok d)).map (fun t => (t, a)))

/-- Offers of round 0 (R221). -/
def offers0 (s : State) (slot : Fin 64) (d : Nat) : List Offer :=
  (assignments d).filterMap (fun x => (candAt s slot d x.1 x.2).map (fun e => ⟨x.1, x.2, x.2, e⟩))

/-- Assignments that are NONE (R219, R220). -/
def nones0 (s : State) (slot : Fin 64) (d : Nat) : List Assign :=
  ((assignments d).filter (fun x => (candAt s slot d x.1 x.2).isNone)).map (fun x =>
    { token := x.1, slot := x.2, own := 0, row := 0, cand := x.2, round := 0, status := 3, expert := 0xFFFFF })

/-- The experts of the endpoint: an expert without an entry in the local table has capacity 0. -/
def locals0 (s : State) (t : TaskRef) (e : Entry) : List ExLocal :=
  let d := xDesc e
  (expertsOf s t.slot d (xMe s t e)).map (fun g =>
    let l := ((homeOf s t.slot d g).map Prod.snd).getD 0
    { gid := g, lnum := l, room := ((xLocalOf e l).map lCap).getD 0, next := 0, routed := 0, refused := 0,
      movedIn := 0, dropped := 0, moved := 0 })

/-- Forget what earlier operations left in the arrays that other members will write. -/
def forgetLanded (t : TaskRef) (e : Entry) (s : State) : State :=
  let d := xDesc e
  let arrs := xArr e (xStage d) :: xArr e (xBstage d) :: (List.range (xNLocal d)).flatMap (fun i =>
    [xArr e (lLand (xLocalAt e i)), xArr e (lBland (xLocalAt e i))])
  let maps := (List.range (xNLocal d)).map (fun i => (lRmap (xLocalAt e i), 8 * lCap (xLocalAt e i)))
  modJob t.slot (fun j => { j with landed := (arrs.flatMap Arr.ranges ++ maps).foldl (fun (l : List (Nat × Nat)) r => runsRemove l r.1 r.2) j.landed }) s

/-- DISPATCH: the offers of round 0 and its count messages (R230 step 2). -/
def doDispatch (t : TaskRef) (s : State) : State :=
  match exchStart s t 8 with
  | none => s
  | some e =>
    let d := xDesc e
    match candFail s t.slot d with
    | some c => unitFault t c 0 s
    | none =>
      let x : ExchSt := { ExchSt.start 0 with
        offers := offers0 s t.slot d, ended := nones0 s t.slot d, locals := locals0 s t e }
      let s := dropStale t.slot t.die (xId d) (xSeq d) (modDie t.slot t.die (fun k => { k with exchanges := k.exchanges.put (xId d) e }) s)
      let s := modEntry t (fun e => { e with run := .exch Track.new x }) (forgetLanded t e s)
      exchSettle t.slot (faultIfFailed t (sendCounts t x s))

/-! ### COMBINE, RDISPATCH, RCOMBINE -/

/-- A field of the counter record of local entry `i` (R234). -/
def recordAt (s : State) (slot : Fin 64) (d i : Nat) : Nat := (jobNat s slot (xCounts d + 32 * i) 32).1
def rKept (r : Nat) : Nat := fld r 223 192
def rSeq (r : Nat) : Nat := fld r 255 224

/-- Receive map entry `r` of a local entry: member, token and slot. -/
def rmapAt (s : State) (slot : Fin 64) (l r : Nat) : (Nat × Nat × Nat) × MStat :=
  let x := jobNat s slot (lRmap l + 8 * r) 8
  ((fld x.1 11 0, fld x.1 35 12, fld x.1 39 36), x.2)

/-- Plane AS of assignment `(t, a)`: status, expert and row. -/
def asAt (s : State) (slot : Fin 64) (d t a : Nat) : (Nat × Nat × Nat) × MStat :=
  let x := jobNat s slot (planeAS d + 8 * (t * xK d + a)) 8
  ((fld x.1 23 22, fld x.1 19 0, fld x.1 55 32), x.2)

/-- Assignments of the endpoint that hold a row: token, slot, expert and row. -/
def placedAt (s : State) (slot : Fin 64) (d : Nat) : List (Nat × Nat × Nat × Nat) :=
  (assignments d).filterMap (fun x =>
    let a := (asAt s slot d x.1 x.2).1
    if a.1 ≤ 1 then some (x.1, x.2, a.2.1, a.2.2) else none)

/-- A row that an operation sends, the status of forming it, and the bytes read for it. -/
structure RowTry where
  out : RowOut
  code : BitVec 8
  ranges : List (Nat × Nat)
  cnt : Cnt
  deriving DecidableEq, Repr

/-- Rows that COMBINE and RCOMBINE send home (R236, R239). -/
def returnRows (s : State) (t : TaskRef) (e : Entry) (back : Bool) : List RowTry :=
  let d := xDesc e
  (List.range (xNLocal d)).flatMap (fun i =>
    let l := xLocalAt e i
    let a := xArr e (if back then lBret l else lRet l)
    (List.range (rKept (recordAt s t.slot d i))).map (fun r =>
      let m := rmapAt s t.slot l r
      let x := readRow s t.slot a (xD d) r
      ⟨⟨m.1.1, 0, m.1.2.1 * xK d + m.1.2.2, x.1, x.2.1, none⟩,
        if m.2.and x.2.2 ≠ .ok then (m.2.and x.2.2).code else if xG d ≤ m.1.1 then stBAD_FIELD else stOK,
        (lRmap l + 8 * r, 8) :: rowRanges a (xD d) r, Cnt.none⟩))

/-- Gate weight of an assignment. -/
def gateAt (s : State) (slot : Fin 64) (d t a : Nat) : F32 × MStat :=
  let x := jobNat s slot (planeGW d + 4 * (t * xK d + a)) 4
  (BitVec.ofNat 32 x.1, x.2)

/-- A finite result of the exchange's own arithmetic that exceeds binary32 saturates: R28 has no E = 255 come of finite inputs
(DEDUCED, notes/assumptions/44). -/
def f32sat (v : Val) : F32 := BitVec.ofNat 32 (fmtF32.encodeSat v).1

/-- Bytes of a row of values in the format of the rows that travel, the exact values scaled by a weight with one rounding
each, converted by `to_block` in mode AUTO (R238), padding elements as they are stored (R37). -/
def scaledRow (s : State) (slot : Fin 64) (a : Arr) (d r : Nat) (w : F32) : List Byte × List Byte × MStat × Cnt :=
  let vs := (List.range (rowCols a d)).map (fun c => let v := arrVal s slot a r c; (f32val (f32sat ((f32val w).mul v.1)), v.2))
  let st := vs.foldl (fun m v => m.and v.2) MStat.ok
  if a.blocked then
    let bs := (List.range (ceilDiv d 32)).map (fun b => toBlock (((vs.drop (32 * b)).take 32).map Prod.fst) a.fmt none)
    let w := fmtBits a.fmt
    let el := bs.flatMap (fun b => leBytes (32 * w / 8)
      ((List.zip (List.range 32) b.1.q).foldl (fun n p => n + ofSigned w p.2 <<< (w * p.1)) 0))
    (el, bs.map (fun b => BitVec.ofNat 8 b.1.e), st, Cnt.sum (bs.map Prod.snd))
  else
    let es := vs.map (fun v => (fmtFloat a.fmt).encodeSat v.1)
    (es.flatMap (fun x => leBytes (fmtBits a.fmt / 8) x.1), [], st, Cnt.sum (es.map (fun x => Cnt.satIf x.2)))

/-- Rows that RDISPATCH sends (R238). -/
def gradRows (s : State) (t : TaskRef) (e : Entry) : List RowTry :=
  let d := xDesc e
  let a := xArr e (xBsrc d)
  (placedAt s t.slot d).map (fun p =>
    let w := gateAt s t.slot d p.1 p.2.1
    let plain := readRow s t.slot a (xD d) p.1
    let x := if xScale d then scaledRow s t.slot a (xD d) p.1 w.1 else (plain.1, plain.2.1, plain.2.2, Cnt.none)
    let st := if xScale d then x.2.2.1.and w.2 else x.2.2.1
    match homeOf s t.slot d p.2.2.1 with
    | some h => ⟨⟨h.1, h.2, p.2.2.2, x.1, x.2.1, none⟩, if st ≠ .ok then st.code else if xG d ≤ h.1 then stBAD_FIELD else stOK,
        (planeGW d + 4 * (p.1 * xK d + p.2.1), 4) :: rowRanges a (xD d) p.1, x.2.2.2⟩
    | none => ⟨⟨0, 0, 0, [], [], none⟩, stBAD_FIELD, [], Cnt.none⟩)

/-- Run an operation that sends recorded rows. -/
def runRows (t : TaskRef) (plane : Nat) (rows : List RowTry) (s : State) : State :=
  match rows.find? (fun r => r.code != stOK) with
  | some r => unitFault t r.code 0 (if r.code = stINTEGRITY then noteReads t.slot r.ranges s else s)
  | none =>
    let s := modEntry t (fun e => { e with run := .exch Track.new { ExchSt.start 3 with rows := rows.length } }) s
    settle t.slot (faultIfFailed t (sendRows t plane (rows.map (·.out)) (countTask t (Cnt.sum (rows.map (·.cnt))) s)))

/-- COMBINE or RCOMBINE. -/
def doReturn (t : TaskRef) (op : Nat) (s : State) : State :=
  match exchStart s t op with
  | none => s
  | some e => runRows t (if op = 9 then 3 else 4) (returnRows s t e (op == 11)) s

/-- RDISPATCH. -/
def doRdispatch (t : TaskRef) (s : State) : State :=
  match exchStart s t 10 with
  | none => s
  | some e => runRows t 2 (gradRows s t e) s

/-! ### Completion (R230 steps 7 and 8, R241) -/

/-- Landing rows that other members write, for an operation toward the experts. -/
def expectLanding (s : State) (t : TaskRef) (e : Entry) (x : ExchSt) : List (Nat × Nat) :=
  let d := xDesc e
  let me := xMe s t e
  let dispatch := cOp e.desc = 8
  (List.range (xNLocal d)).flatMap (fun i =>
    let l := xLocalAt e i
    let a := xArr e (if dispatch then lLand l else lBland l)
    let kept := if dispatch then ((x.locals.find? (fun q => q.lnum == lNum l)).map (·.next)).getD 0
      else rKept (recordAt s t.slot d i)
    let mine := fun r =>
      if dispatch then x.ended.any (fun q => decide (q.status ≤ 1) && q.row == r &&
        homeOf s t.slot d q.expert == some (me, lNum l))
      else (rmapAt s t.slot l r).1.1 == me
    ((List.range kept).filter (fun r => !mine r)).flatMap (fun r =>
      rowRanges a (xD d) r ++ (if dispatch then [(lRmap l + 8 * r, 8)] else [])))

/-- Staging rows that other members write. -/
def expectStaging (s : State) (t : TaskRef) (e : Entry) : List (Nat × Nat) :=
  let d := xDesc e
  let a := xArr e (if cOp e.desc = 9 then xStage d else xBstage d)
  (placedAt s t.slot d).flatMap (fun p =>
    if (homeOf s t.slot d p.2.2.1).map Prod.fst = some (xMe s t e) then []
    else rowRanges a (xD d) (p.1 * xK d + p.2.1))

/-- Byte ranges that must have landed before the operation ends. -/
def expected (s : State) (t : TaskRef) (e : Entry) (x : ExchSt) : List (Nat × Nat) :=
  if cOp e.desc = 8 ∨ cOp e.desc = 10 then expectLanding s t e x else expectStaging s t e

/-- Whether every byte of a range has landed. -/
def covered (landed : List (Nat × Nat)) (r : Nat × Nat) : Bool :=
  (landed.foldl (fun left q => runsRemove left q.1 q.2) (if r.2 = 0 then [] else [r])).isEmpty

/-- Whether a running exchange has done its work. -/
def exchFinished (s : State) (t : TaskRef) : Bool :=
  let e := entryOf s t
  match e.run with
  | .exch k x =>
    k.left == 0 && k.fail.isNone && x.phase == 3 && (expected s t e x).all (covered s.jobs[t.slot].landed)
  | _ => false

/-- The counter records of a DISPATCH (R234). -/
def writeRecords (t : TaskRef) (e : Entry) (x : ExchSt) (s : State) : State :=
  let d := xDesc e
  let sat := fun (n : Nat) => min n (2 ^ 32 - 1)
  let s := forEach (List.range (xNLocal d)) (fun i st =>
    let l := (x.locals.find? (fun q => q.lnum == lNum (xLocalAt e i))).getD ⟨0, 0, 0, 0, 0, 0, 0, 0, 0⟩
    ownWrite t (xCounts d + 32 * i) (leBytes 32 (xSeq d <<< 224 + sat l.next <<< 192 + sat l.routed <<< 160 +
      sat l.dropped <<< 128 + sat l.moved <<< 96 + sat l.movedIn <<< 64 + sat l.refused <<< 32)) st) s
  let n := fun st => (x.ended.filter (fun a => a.status == st)).length
  ownWrite t (xCounts d + 32 * xLMax d) (leBytes 32 (xSeq d <<< 224 + sat (n 0 + n 1 + n 2) <<< 192 +
    sat (n 0 + n 1) <<< 160 + sat (n 2) <<< 128 + sat (n 1) <<< 96 + sat (n 3) <<< 64 + (x.round + 1) <<< 32)) s

/-- One element of a combined row (R236): a fused sum of exact values in slot order, one rounding each. -/
def combineElem (s : State) (t : TaskRef) (e : Entry) (fwd : Bool) (tok c : Nat) : Val :=
  let d := xDesc e
  let a := xArr e (if fwd then xStage d else xBstage d)
  f32val ((List.range (xK d)).foldl (fun (acc : F32) i =>
    if (asAt s t.slot d tok i).1.1 ≤ 1 then
      f32sat (((f32val (if fwd then (gateAt s t.slot d tok i).1 else f32one)).mul (arrVal s t.slot a (tok * xK d + i) c).1).add (f32val acc))
    else acc) 0)

/-- The statuses of what a combination reads. -/
def combineReads (s : State) (t : TaskRef) (e : Entry) (fwd : Bool) : MStat :=
  let d := xDesc e
  let a := xArr e (if fwd then xStage d else xBstage d)
  (placedAt s t.slot d).foldl (fun m p =>
    (m.and (readRow s t.slot a (xD d) (p.1 * xK d + p.2.1)).2.2).and (if fwd then (gateAt s t.slot d p.1 p.2.1).2 else .ok)) MStat.ok

/-- Form the combined rows (R236, R237, R239): the failure, if any. -/
def combineRows (t : TaskRef) (e : Entry) (fwd : Bool) (s : State) : State × MStat :=
  let d := xDesc e
  let st := combineReads s t e fwd
  if st ≠ .ok then (s, st)
  else
    let r := putPart t.slot (xArr e (if fwd then xOut d else xBout d)) 0 (xTok d) 0 (xD d) (combineElem s t e fwd) s
    (countTask t r.2.2 r.1, r.2.1)

/-- Take what an exchange has used off the job's landed ranges, and its messages off the die. -/
def exchClear (t : TaskRef) (e : Entry) (used : List (Nat × Nat)) (s : State) : State :=
  let d := xDesc e
  let area := (xMsg d + xSeq d % 2 * 2 * xG d * msgBytes d, 2 * xG d * msgBytes d)
  let s := modJob t.slot (fun j => { j with landed := (used ++ [area]).foldl (fun (l : List (Nat × Nat)) r => runsRemove l r.1 r.2) j.landed }) s
  modDie t.slot t.die (fun k => { k with msgs := k.msgs.filter (fun m => !(m.exch == xId d && m.seq == xSeq d)) }) s

/-- The end of an exchange that has done its work: the failure, if any. -/
def exchFinish (t : TaskRef) (s : State) : State × Option (BitVec 8) :=
  let e := entryOf s t
  match e.run with
  | .exch _ x =>
    let d := xDesc e
    let used := expected s t e x
    let op := cOp e.desc
    let landedRows := if op = 8 then (x.locals.map (·.next)).foldl (· + ·) 0
      else if op = 10 then ((List.range (xNLocal d)).map (fun i => rKept (recordAt s t.slot d i))).foldl (· + ·) 0
      else (placedAt s t.slot d).length
    let r : State × Option (BitVec 8) :=
      if op = 8 then
        let s := writeRecords t e x s
        (s, ((entryOf s t).run.track.bind (·.fail)).map Prod.snd)
      else if op = 10 then (s, none)
      else
        let c := combineRows t e (op == 9) s
        (c.1, if c.2 = .ok then none else some c.2.code)
    match r.2 with
    | some c => (r.1, some c)
    | none =>
      let s := modTotals t.slot (fun q => { q with
        landed := if op = 8 then q.landed + landedRows else q.landed, rowsLanded := q.rowsLanded + landedRows }) r.1
      let s := trace (some t.slot) t.die 1 0x21 (xSeq d <<< 64 + (op - 8) <<< 16 + xId d) s
      (exchClear t e used s, none)
  | _ => (s, none)

/-! ### Events -/

/-- A message of another member arrives whole at a die of a job (R229). -/
def arriveMsg (slot : Fin 64) (die : Fin 4) (m : ExMsg) (s : State) : State :=
  if depsApply (jobSt s slot) then exchSettle slot (deliver slot die m s) else s

/-- EXCH_DEADLINE: the deadline of a running exchange passes (R244). With deadline 0 it waits until its job
leaves RUNNING (R245; notes/assumptions/44). -/
def doExchDeadline (t : TaskRef) (s : State) : State :=
  let e := entryOf s t
  if e.isExch && (xDeadline (xDesc e) != 0 || jobSt s t.slot != .running) && !exchFinished s t then unitFault t stTIMEOUT 0 s else s

/-- DISPATCH. -/
def execExDispatch (t : TaskRef) (s : State) : Host.Outcome State Fault Refusal := .next (doDispatch t s)
/-- COMBINE. -/
def execExCombine (t : TaskRef) (s : State) : Host.Outcome State Fault Refusal := .next (doReturn t 9 s)
/-- RDISPATCH. -/
def execExRdispatch (t : TaskRef) (s : State) : Host.Outcome State Fault Refusal := .next (doRdispatch t s)
/-- RCOMBINE. -/
def execExRcombine (t : TaskRef) (s : State) : Host.Outcome State Fault Refusal := .next (doReturn t 11 s)
/-- COUNT_MESSAGE. -/
def execCountMessage (t : TaskRef) (src : BitVec 12) (m : CountMsg) (s : State) : Host.Outcome State Fault Refusal :=
  .next (arriveMsg t.slot t.die ⟨m.exch.toNat, m.step.toNat, m.round.toNat, src.toNat, false, m.shape,
    m.counts.map (fun c => (c, 0))⟩ s)
/-- GRANT_MESSAGE. -/
def execGrantMessage (t : TaskRef) (src : BitVec 12) (m : GrantMsg) (s : State) : Host.Outcome State Fault Refusal :=
  .next (arriveMsg t.slot t.die ⟨m.exch.toNat, m.step.toNat, m.round.toNat, src.toNat, true, m.shape, m.grants⟩ s)
/-- EXCH_DEADLINE. -/
def execExchDeadline (t : TaskRef) (s : State) : Host.Outcome State Fault Refusal := .next (doExchDeadline t s)

end Sys2Proof.Machine
end

