-- ==== Sys2Proof/Machine/Matrix.lean ====
section
/-! DEFINITION. Matrix tasks, sparse operands and the matrix engines
(spec/03_matrix_engines.md, spec/07_sparse_operands.md). -/

namespace Sys2Proof.Machine

/-! ### Loads and passes (R76, R77, R80, R110, R111) -/

/-- Element `(i, j)` of a unit's bank. -/
def bankAt (bank : List EA40) (cols i j : Nat) : EA40 := bank.getD (i * cols + j) EA40.zero

/-- A block that is not delivered. -/
def noFeed : Feed := ⟨0, [], [], .ok, Cnt.none⟩

/-- One piece of a fed block. -/
def Feed.piece (f : Feed) (p : Nat) : FedBlock := ⟨f.e, f.qs.getD p [], f.vals⟩

/-- Whether a task's A is fed by the Sparse Gather Engine (R247). -/
def sparseTask (e : Entry) : Bool := mSparse e.desc && dOpcode e.desc == 1

/-- Block `b` of a row of A as a pass receives it. In sparse mode a block outside the row's range, or of exponent 0, is not
delivered, and its elements are not read (R110, R247, R255). -/
def feedA (s : State) (slot : Fin 64) (e : Entry) (w : WorkUnit) (r : Nat × Nat × Nat) (b : Nat) : Feed :=
  let all := feed s slot w.shape.a true (caseOf w.shape) w.shape.k r.1 b
  if !sparseTask e then all
  else if b < r.2.1 ∨ r.2.2 < b then noFeed
  else
    let x := arrExp s slot w.shape.a.arr r.1 (32 * b)
    if x.2 ≠ .ok then { noFeed with st := x.2 } else if x.1 = 0 then noFeed else all

/-- Bytes of block `b` of line `i` of an operand of reduction length `k`. -/
def opndRanges (s : State) (slot : Fin 64) (o : Opnd) (isA : Bool) (k i b : Nat) : List (Nat × Nat) :=
  match o.entry with
  | some (a, _) => entryRanges s slot a i b
  | none => ((List.range 32).filter (fun j => decide (32 * b + j < k))).flatMap (fun j =>
      if kAlongRow isA o.arr.trans then o.arr.valRanges i (32 * b + j) else o.arr.valRanges (32 * b + j) i)

/-- What a read of a tile of B, or a pass, comes to. -/
structure TileRead where
  cols : List (List FedBlock)
  st : MStat
  cnt : Cnt
  deriving DecidableEq, Repr

/-- A tile of B as a load brings one of its pieces: the unit's columns, and their blocks along the reduction axis. The
counts of its cut are made once for a tile, with piece 0 (R48, R60; notes/assumptions/45). -/
def loadTileB (s : State) (slot : Fin 64) (w : WorkUnit) (tile piece : Nat) (first : Bool) : TileRead :=
  let fs := (List.range w.cols).map (fun j => (tileBlks w.shape.k tile).map (fun b =>
    feed s slot w.shape.b false (caseOf w.shape) w.shape.k (w.n0 + j) b))
  { cols := fs.map (fun c => c.map (fun f => f.piece piece))
    st := fs.flatten.foldl (fun m f => m.and f.st) MStat.ok
    cnt := if first then Cnt.sum (fs.flatten.map (·.cnt)) else Cnt.none }

/-- Bytes of a tile of B. -/
def tileRanges (s : State) (slot : Fin 64) (w : WorkUnit) (tile : Nat) : List (Nat × Nat) :=
  (List.range w.cols).flatMap (fun j => (tileBlks w.shape.k tile).flatMap (fun b => opndRanges s slot w.shape.b false w.shape.k (w.n0 + j) b))

/-- Bytes of the rows of A in a K tile. -/
def passRanges (s : State) (slot : Fin 64) (e : Entry) (w : WorkUnit) (ents : List Nat) (tile : Nat) : List (Nat × Nat) :=
  (unitRows e w ents).flatMap (fun r => (tileBlks w.shape.k tile).flatMap (fun b => opndRanges s slot w.shape.a true w.shape.k r.1 b))

/-- One element over one pass: the blocks of a row of A against those of a column of B (R51, R54, R67). -/
def passElem (case : ProductCase) (i j : Nat) (a b : List FedBlock) (acc : EA40) : EA40 × Nat :=
  (List.zip a b).foldl (fun st xy =>
    let r := match case with
      | .dk4 => eaGroup st.1 xy.1.vals xy.2.vals
      | _ => eaPair st.1 xy.1.e xy.2.e xy.1.q xy.2.q ((7 * (i + j) : Nat) : Int)
    (r.1, st.2 + if r.2 then 1 else 0)) (acc, 0)

/-- Accumulators of a unit before its first pass: 0, or the elements of acc_desc (R98). -/
def startBank (s : State) (slot : Fin 64) (e : Entry) (w : WorkUnit) (ents : List Nat) : List EA40 × MStat :=
  let cells := (unitRows e w ents).flatMap (fun r => (List.range w.cols).map (fun j =>
    match w.shape.acc with
    | some c => let v := arrBits s slot c 0 r.1 (w.n0 + j); (EA40.ofBytes (leBytes 6 v.1), v.2)
    | none => (EA40.zero, MStat.ok)))
  (cells.map Prod.fst, cells.foldl (fun m c => m.and c.2) MStat.ok)

/-- Passes over one K tile, and loads for it. -/
def passCount (w : WorkUnit) : Nat := (passPlan (caseOf w.shape)).length
def loadCount (w : WorkUnit) : Nat := (loadPieces (caseOf w.shape)).length

/-- The last pass that needs a load (R114). -/
def lastUse (w : WorkUnit) (load : Nat) : Nat :=
  load / loadCount w * passCount w +
    ((List.range (passCount w)).filter (fun p => ((passPlan (caseOf w.shape)).getD p (0, 0, 0)).2.2 == load % loadCount w)).getLastD 0

/-- What passes come to: the unit after them, the failure of a read, the bytes that the failing pass read and the counts. -/
structure PassRes where
  unit : MatUnit
  st : MStat
  ranges : List (Nat × Nat)
  cnt : Cnt
  deriving DecidableEq, Repr

/-- The next pass of a unit, from the tile buffer that holds its load (R76, R77, R80). The counts of the cut of A's rows are
made once for a tile, in its first pass. -/
def onePass (s : State) (e : Entry) (w : WorkUnit) (r : PassRes) : PassRes :=
  let u := r.unit
  let slot := u.task.slot
  let tile := u.tiles.getD (u.passes / passCount w) 0
  let p := (passPlan (caseOf w.shape)).getD (u.passes % passCount w) (0, 0, 0)
  let load := u.passes / passCount w * loadCount w + p.2.2
  let cols := ((u.bufs.find? (fun b => b.load == load)).map (·.cols)).getD []
  let as := (unitRows e w u.ents).map (fun x => (tileBlks w.shape.k tile).map (feedA s slot e w x))
  let cells := (List.zip (List.range as.length) as).flatMap (fun ra => (List.zip (List.range w.cols) cols).map (fun jb =>
    passElem (caseOf w.shape) p.1 p.2.1 (ra.2.map (fun f => f.piece p.1)) jb.2 (bankAt u.bank w.cols ra.1 jb.1)))
  let n := u.passes + 1
  { unit := { u with bank := cells.map Prod.fst, passes := n, bufs := u.bufs.filter (fun b => decide (n ≤ lastUse w b.load)) }
    st := as.flatten.foldl (fun m f => m.and f.st) r.st
    ranges := passRanges s slot e w u.ents tile
    cnt := (r.cnt.add (if u.passes % passCount w = 0 then Cnt.sum (as.flatten.map (·.cnt)) else Cnt.none)).add
      ⟨(cells.map Prod.snd).foldl (· + ·) 0, 0⟩ }

/-- The next passes of a unit, `n` of them, up to a read that fails. -/
def morePasses (s : State) (e : Entry) (w : WorkUnit) : Nat → PassRes → PassRes
  | 0, r => r
  | n + 1, r => if r.st = .ok then morePasses s e w n (onePass s e w r) else r

/-- A unit with its accumulators started (R98). -/
def withBank (s : State) (e : Entry) (w : WorkUnit) (u : MatUnit) : PassRes :=
  if u.bank = [] then
    let b := startBank s u.task.slot e w u.ents
    ⟨{ u with bank := b.1 }, b.2, match w.shape.acc with
      | some c => (unitRows e w u.ents).flatMap (fun r => (List.range w.cols).map (fun j => c.elemRange 0 r.1 (w.n0 + j)))
      | none => [], Cnt.none⟩
  else ⟨u, .ok, [], Cnt.none⟩

/-- Passes that must end before a tile buffer is free for the next load: none while one is (R77). -/
def passesToFree (w : WorkUnit) (u : MatUnit) : Nat :=
  match u.bufs with
  | [a, b] => min (lastUse w a.load) (lastUse w b.load) + 1 - u.passes
  | _ => 0

/-- Combine two parts of a unit (R101). -/
def combineBanks (r p : List EA40) : List EA40 × Nat :=
  let xs := List.zipWith eaAdd r p
  (xs.map Prod.fst, (xs.filter Prod.snd).length)

/-- The parts of a unit combined in ascending order, and the saturations of it (R101). -/
def combineAll : List (List EA40) → List EA40 × Nat
  | [] => ([], 0)
  | b0 :: rest => rest.foldl (fun acc b => let q := combineBanks acc.1 b; (q.1, acc.2 + q.2)) (b0, 0)

/-! ### The output writer (R93 to R97) -/

/-- Value of a bank element under the writer's scale. -/
def scaledVal (shift : Int) (a : EA40) : Val :=
  match a.val with
  | .fin d => .fin (d.scale shift)
  | v => v

/-- Write a unit's rows into an array. -/
def writeArr (slot : Fin 64) (o : Arr) (w : WorkUnit) (rows : List Nat) (contiguous : Bool) (val : Nat → Nat → Val) (s : State) :
    State × MStat × Cnt :=
  if contiguous then putPart slot o w.first w.count w.n0 w.cols (fun r c => val (r - w.first) (c - w.n0)) s
  else
    (List.zip (List.range rows.length) rows).foldl (fun (acc : State × MStat × Cnt) ir =>
      let x := putPart slot o ir.2 1 w.n0 w.cols (fun _ c => val ir.1 (c - w.n0)) acc.1
      (x.1, acc.2.1.and x.2.1, acc.2.2.add x.2.2)) (s, .ok, Cnt.none)

/-- Hand a unit's tiles to a retained entry (R97, R299). -/
def writeEntry (t : TaskRef) (addr d : Nat) (w : WorkUnit) (val : Nat → Nat → Val) (s : State) : State × MStat × Cnt :=
  ((List.range (ceilDiv w.count 32)).flatMap (fun i => (List.range (ceilDiv w.cols 64)).map (fun j => (i, j)))).foldl
    (fun (acc : State × MStat × Cnt) ij =>
      let b := tileBlocks d (fun r c =>
        if 32 * ij.1 + r < w.count ∧ 64 * ij.2 + c < w.cols then val (32 * ij.1 + r) (64 * ij.2 + c) else .zero false)
      let x := tileArrive t addr (w.first / 32 + ij.1) (w.n0 / 64 + ij.2) b.1 acc.1
      (x.1, acc.2.1.and x.2, acc.2.2.add b.2)) (s, .ok, Cnt.none)

/-- Rows of a unit as binary32, for the paired vector engine (R96, R152). -/
def pairRows (shift : Int) (w : WorkUnit) (bank : List EA40) : List (List F32) × Cnt :=
  let xs := (List.range w.count).map (fun i => (List.range 256).map (fun j =>
    if j < w.cols then fmtF32.encodeSat (scaledVal shift (bankAt bank w.cols i j)) else (0, false)))
  (xs.map (fun r => r.map (fun x => BitVec.ofNat 32 x.1)), ⟨(xs.flatMap (fun r => r.filter Prod.snd)).length, 0⟩)

/-- Write one output of a unit. -/
def writeOut (t : TaskRef) (e : Entry) (kind addr : Nat) (o : Arr) (w : WorkUnit) (rows : List Nat) (bank : List EA40) (s : State) :
    State × MStat :=
  let val := fun i j => scaledVal (mShift e.desc) (bankAt bank w.cols i j)
  if kind = 1 then
    let r := writeArr t.slot o w rows (!ordered e) val s
    (countTask t r.2.2 r.1, r.2.1)
  else if kind = 2 then
    let r := writeEntry t addr (capOf e addr) w val s
    (countTask t r.2.2 r.1, r.2.1)
  else (s, .ok)

/-- Kind of the first output in the encoding of the second: 0 none, 1 array, 2 stash entry. -/
def kind0 (d : Nat) : Nat := if mKind0 d = 0 then 1 else if mKind0 d = 1 then 2 else 0

/-- Write both outputs of a unit. -/
def writeOuts (t : TaskRef) (e : Entry) (w : WorkUnit) (rows : List Nat) (bank : List EA40) (s : State) : State × MStat :=
  let d := e.desc
  let r0 := writeOut t e (kind0 d) (mOut0 d) w.shape.o0 w rows bank s
  let r1 := writeOut t e (mKind1 d) (mOut1 d) w.shape.o1 w rows bank r0.1
  (r1.1, r0.2.and r1.2)

/-! ### Merge records (R260 to R266) -/

/-- Address of a merge record. -/
def recAddr (d n pidx : Nat) : Nat := spMerge d + 1600 * (n * spRecs d + pidx)

/-- Header of a slice's merge record, count left as it is at bits 159:128 (R261). -/
def recHeader (x : Nat) : Nat := orCnt x <<< 104 + orHi x <<< 64 + orLo x <<< 32 + orSlice x <<< 24 + orRow x

/-- Write a slice's record, but for its count (R262). -/
def writeRecord (slot : Fin 64) (addr x : Nat) (bank : List EA40) (s : State) : State × MStat :=
  let h := leBytes 64 (recHeader x)
  let r0 := jobWrite slot addr (h.take 16) s
  let r1 := jobWrite slot (addr + 20) (h.drop 20) r0.1
  let els := (List.range 256).flatMap (fun j => (bank.getD j EA40.zero).bytes)
  let r2 := jobWrite slot (addr + 64) els r1.1
  (r2.1, (r0.2.and r1.2).and r2.2)

/-- A merge record: its header and its elements. -/
def readRecord (s : State) (slot : Fin 64) (addr cols : Nat) : Nat × List EA40 × MStat :=
  let h := jobNat s slot addr 64
  let b := peek s slot (addr + 64) (6 * 256)
  (h.1, (List.range cols).map (fun j => EA40.ofBytes ((b.data.drop (6 * j)).take 6)), h.2.and b.st)

/-- Whether the records of a row's slices belong together (R263). -/
def recordsAgree (row cnt : Nat) : List (Nat × Nat) → Nat → Bool
  | [], _ => true
  | (i, h) :: rest, prevHi =>
    fld h 23 0 == row && fld h 111 104 == cnt && fld h 31 24 == i && (i == 0 || decide (prevHi < fld h 50 32)) &&
      recordsAgree row cnt rest (fld h 82 64)

/-- End of a slice's unit: its record, its count and, for the last of its row, the merge (R262, R263).
The bank to write, when the row is whole, or the failure. -/
def endSlice (t : TaskRef) (e : Entry) (w : WorkUnit) (x : Nat) (bank : List EA40) (s : State) :
    State × Option (List EA40) × Option (BitVec 8) :=
  let d := capOf e (mA e.desc)
  let n := w.n0 / 256
  let r := writeRecord t.slot (recAddr d n (orPidx x)) x bank s
  if r.2 ≠ .ok then (r.1, none, some r.2.code)
  else
    let base := orPidx x - orSlice x
    let c := jobRmw t.slot (recAddr d n base + 16) 4 (fun v => (v + 1) % 2 ^ 32) r.1
    if c.2.1 ≠ .ok then (c.2.2, none, some c.2.1.code)
    else if c.1 + 1 ≠ orCnt x + 1 then (c.2.2, none, none)
    else
      let recs := (List.range (orCnt x + 1)).map (fun i => (i, readRecord c.2.2 t.slot (recAddr d n (base + i)) w.cols))
      let st := recs.foldl (fun m p => m.and p.2.2.2) MStat.ok
      if st ≠ .ok then (c.2.2, none, some st.code)
      else if !recordsAgree (orRow x) (orCnt x) (recs.map (fun p => (p.1, p.2.1))) 0 then (c.2.2, none, some stBAD_FIELD)
      else
        let sum := combineAll (recs.map (fun p => p.2.2.1))
        let z := jobWrite t.slot (recAddr d n base + 16) (leBytes 4 0) (countTask t ⟨sum.2, 0⟩ c.2.2)
        if z.2 = .ok then (z.1, some sum.1, none) else (z.1, none, some z.2.code)

/-! ### Units on engines (R81, R82, R117 to R121) -/

/-- Whether a unit is one of a group of parts of a task. -/
def MatUnit.isOf (t : TaskRef) (u0 parts : Nat) (u : MatUnit) : Bool := u.task == t && decide (u0 ≤ u.unit ∧ u.unit < u0 + parts)

/-- Engines that hold a unit of a group of parts of a task. -/
def holders (s : State) (t : TaskRef) (u0 parts : Nat) : List (Fin 68) :=
  (List.finRange 68).filter (fun e => s.engines[e].units.any (MatUnit.isOf t u0 parts))

/-- Entry and work unit of a unit that an engine holds. -/
def workOf (s : State) (u : MatUnit) : Option (Entry × WorkUnit) :=
  let x := entryOf s u.task
  ((unitsOf x)[u.unit]?).map (fun w => (x, w))

/-- The unit whose passes an engine makes: its last one, while those have not ended (R81). -/
def passing (s : State) (e : Fin 68) : Option (MatUnit × Entry × WorkUnit) :=
  match s.engines[e].units.getLast? with
  | some u => if u.ended then none else (workOf s u).map (fun x => (u, x.1, x.2))
  | none => none

/-- Put a unit in the place of the same one on an engine. -/
def putUnit (e : Fin 68) (u : MatUnit) (s : State) : State :=
  modEngine e (fun k => { k with units := k.units.map (fun x => if MatUnit.isOf u.task u.unit 1 x then u else x) }) s

/-- First unit and size of the group of K parts of a unit (R101). -/
def groupOf (e : Entry) (u : Nat) : Nat × Nat :=
  match (unitsOf e)[u]? with
  | some w => (u - w.part, w.parts)
  | none => (u, 1)

/-- Stop the instance that runs for a unit of a group on the vector engine paired with an engine. -/
def dropPaired (t : TaskRef) (u0 parts : Nat) (e : Fin 68) (s : State) : State :=
  let v := pairOf s e
  match s.ves[v].inst with
  | some i => if i.paired && i.task == t && decide (u0 ≤ i.unit ∧ i.unit < u0 + parts) then freeVe v s else s
  | none => s

/-- Return a group of parts to its task's pool (R119 step 2, R121). -/
def returnGroup (t : TaskRef) (u0 parts : Nat) (s : State) : State :=
  let s := forEach (holders s t u0 parts) (fun e st => dropUnits (MatUnit.isOf t u0 parts) e (dropPaired t u0 parts e st)) s
  modEntry t (fun x => { x with run := match x.run with
    | .matrix n d tot back f =>
      if f.isSome then .matrix n d tot back f else .matrix n d tot (if back.contains u0 then back else (back ++ [u0])) none
    | r => r }) s

/-- Fence an engine (R119): its units return to their pools, and the die's spare is tested in its place. Where it held no unit
and a spare stands in, no task is due to fault (R102). -/
def fenceEngine (e : Fin 68) (s : State) : State :=
  let us := s.engines[e].units
  let calm := us.isEmpty && (spareOf s (engineDie e)).isSome
  let s := modEngine e (fun k => { k with fence := false }) s
  let s := forEach us (fun u st => let g := groupOf (entryOf st u.task) u.unit; returnGroup u.task g.1 g.2 st) s
  if calm then fenceIdle e s else faultDue (fenceIdle e s)

/-- The built-in array test of a die's spare ends: the spare takes the number of the engine whose fence started the test
(R14, R119, R120). -/
def spareTest (die : Fin 4) (pass : Bool) (s : State) : State :=
  match (dieEngines die).find? (fun e => s.engines[e].st == meTESTING && !s.engines[e].returned) with
  | none => s
  | some e =>
    let num := s.engines[e].standIn
    let s := modEngine e (fun k => { k with standIn := none }) s
    if pass then
      match num with
      | some l => setEngine e (BitVec.ofNat 8 l) meACTIVE s
      | none => setEngine e 0xFF meSPARE s
    else faultDue (splitMark die (setEngine e 0xFF meFENCED s))

/-- Whether an engine can take a unit of a job: a working engine of the die whose banks hold no unit but, in one of them, a
unit of the same job whose passes have ended, and that is bound to no task of another job (R22, R81, R82, R505;
notes/assumptions/45). -/
def engineFree (s : State) (slot : Fin 64) (die : Fin 4) (e : Fin 68) : Bool :=
  let k := s.engines[e]
  engineDie e == die && k.st == meACTIVE && !k.fence && decide (k.units.length < 2) &&
    k.units.all (fun u => u.ended && u.task.slot == slot) && k.bound.all (fun b => b.slot == slot)

/-- Engines that a task holds. -/
def heldBy (s : State) (t : TaskRef) : List (Fin 68) :=
  (List.finRange 68).filter (fun e => s.engines[e].units.any (fun u => u.task == t))

/-! ### Sparse scans (R247, R248, R254 to R259) -/

/-- Order table entries of a unit. -/
def readEnts (s : State) (slot : Fin 64) (e : Entry) (w : WorkUnit) : List (Nat × MStat) :=
  if ordered e then (List.range w.count).map (fun i => jobNat s slot (spOrd (capOf e (mA e.desc)) + 16 * (w.first + i)) 16)
  else []

/-- The blocks of a row that the Sparse Gather Engine delivers: those of its range whose exponent is not 0 (R247, R255). -/
def rowPairs (s : State) (slot : Fin 64) (x : MShape) (row lo hi : Nat) : List Nat × MStat :=
  let bs := ((List.range (hi + 1 - lo)).map (fun i => lo + i)).map (fun b => (b, arrExp s slot x.a.arr row (32 * b)))
  ((bs.filter (fun p => p.2.1 != 0)).map Prod.fst, bs.foldl (fun m p => m.and p.2.2) MStat.ok)

/-- The scan of an entry's range, block by block: BOUND when the 2,049th non-zero block is found, or the failure of a read
before that (R259). -/
def scanEntry (s : State) (slot : Fin 64) (x : MShape) (row : Nat) : List Nat → Nat → MStat
  | [], _ => .ok
  | b :: rest, n =>
    let v := arrExp s slot x.a.arr row (32 * b)
    if v.2 ≠ .ok then v.2
    else if v.1 = 0 then scanEntry s slot x row rest n
    else if 2048 ≤ n then .bound
    else scanEntry s slot x row rest (n + 1)

/-- The checks of R259 on one order table entry. -/
def entCheck (s : State) (slot : Fin 64) (e : Entry) (w : WorkUnit) (x : Nat × MStat) : Option (BitVec 8) :=
  let d := capOf e (mA e.desc)
  let v := x.1
  if x.2 ≠ .ok then some x.2.code
  else if w.shape.m ≤ orRow v then some stBOUND
  else if orHi v < orLo v ∨ ceilDiv w.shape.k 32 ≤ orHi v then some stBAD_FIELD
  else if orCnt v < orSlice v ∨ (!w.solo ∧ orCnt v ≠ 0) then some stBAD_FIELD
  else if orCnt v ≠ 0 ∧ (spRecs d ≤ orPidx v ∨ orPidx v < orSlice v) then some stBOUND
  else if fld v 95 83 ≠ 0 ∨ fld v 63 51 ≠ 0 ∨ fld v 31 24 ≠ 0 then some stBAD_FIELD
  else
    match scanEntry s slot w.shape (orRow v) ((List.range (orHi v + 1 - orLo v)).map (fun i => orLo v + i)) 0 with
    | .ok => none
    | st => some st.code

/-- First entry of a unit that fails its checks: index in the order table and code. -/
def entsFail (s : State) (slot : Fin 64) (e : Entry) (w : WorkUnit) (xs : List (Nat × MStat)) : Option (Nat × BitVec 8) :=
  (List.zip (List.range xs.length) xs).findSome? (fun p => (entCheck s slot e w p.2).map (fun c => (w.first + p.1, c)))

/-- Bytes that the start of a unit reads: its order table entries, and the exponents of its rows. -/
def startRanges (e : Entry) (w : WorkUnit) (ents : List Nat) : List (Nat × Nat) :=
  (if ordered e then [(spOrd (capOf e (mA e.desc)) + 16 * w.first, 16 * w.count)] else []) ++
  (if sparseTask e then (unitRows e w ents).flatMap (fun r =>
    (List.range (r.2.2 + 1 - r.2.1)).map (fun i => w.shape.a.arr.expRange r.1 (32 * (r.2.1 + i)))) else [])

/-- K tiles that a unit loads and passes (R111, R258): in sparse mode those of its part in which a row has a pair. -/
def unitTiles (s : State) (slot : Fin 64) (e : Entry) (w : WorkUnit) (ents : List Nat) : List Nat × MStat :=
  let tiles := (List.range (w.k1 - w.k0)).map (fun i => w.k0 + i)
  if sparseTask e then
    let ps := (unitRows e w ents).map (fun r => rowPairs s slot w.shape r.1 (max r.2.1 (8 * w.k0)) (min (r.2.2 + 1) (8 * w.k1) - 1))
    (tiles.filter (fun t => ps.any (fun p => p.1.any (fun b => b / 8 == t))), ps.foldl (fun m p => m.and p.2) MStat.ok)
  else (tiles, .ok)

/-! ### Streams of a unit (R249, R291) -/

/-- The first tile of each operand of a unit, whose first row of A is `row` (R291). -/
def firstTiles (w : WorkUnit) (row : Nat) : TileRows × TileRows :=
  let k := 256 * w.k0
  let n := min 256 (w.shape.k - k)
  let a := w.shape.a.arr
  let b := w.shape.b.arr
  (if kAlongRow true a.trans then ⟨a, row, k, w.count, n⟩ else ⟨a, k, row, n, w.count⟩,
   if kAlongRow false b.trans then ⟨b, w.n0, k, w.cols, n⟩ else ⟨b, k, w.n0, n, w.cols⟩)

/-- Bytes of the blocks of A in a K tile that the Sparse Gather Engine delivers for a unit (R247, R249). -/
def gatherRanges (s : State) (slot : Fin 64) (e : Entry) (w : WorkUnit) (ents : List Nat) (tile : Nat) : List (Nat × Nat) :=
  let a := w.shape.a.arr
  (unitRows e w ents).flatMap (fun r =>
    (rowPairs s slot w.shape r.1 (max r.2.1 (8 * tile)) (min (r.2.2 + 1) (8 * tile + 8) - 1)).1.flatMap (fun b =>
      (List.range a.pieces).map (fun p => ((a.elemRange p r.1 (32 * b)).1, 4 * fmtBits a.fmt)) ++
        (if a.blocked then [a.expRange r.1 (32 * b)] else [])))

/-- The stream of a K tile of an operand of a unit (R249, R291): the rows of an array, the delivered blocks of a sparse A, or
the stored tiles of a retained entry (notes/assumptions/47). -/
def tileStream (s : State) (t : TaskRef) (e : Entry) (eng : Fin 68) (w : WorkUnit) (ents : List Nat) (opA ahead : Bool) (tile : Nat) :
    Prefetch :=
  let x := firstTiles { w with k0 := tile } w.first
  if opA && sparseTask e then sectorStream t eng true ahead (gatherRanges s t.slot e w ents tile)
  else if (if opA then w.shape.a else w.shape.b).entry.isSome then
    sectorStream t eng opA ahead (if opA then passRanges s t.slot e w ents tile else tileRanges s t.slot w tile).eraseDups
  else streamOf t eng opA ahead (if opA then x.1 else x.2)

/-- Streams of a unit on its engine, from its first K tile on: B, and A when it lies in stack memory (R291). -/
def openStreams (t : TaskRef) (e : Entry) (eng : Fin 68) (w : WorkUnit) (ents : List Nat) (ahead : Bool) (tile : Nat) (s : State) : State :=
  let a := tileStream s t e eng w ents true ahead tile
  let s := openStream (tileStream s t e eng w ents false ahead tile) s
  if (rowSectors a).head?.any (fun x => inStack s t.slot (64 * x)) then openStream a s else s

/-- The first unit of the grouped entry after that of unit `u` (R291). -/
def nextEntryUnit (e : Entry) (u : Nat) (w : WorkUnit) : Option WorkUnit :=
  if dOpcode e.desc = 2 then ((unitsOf e).drop u).find? (fun x => x.shape != w.shape) else none

/-! ### Starting a unit -/

/-- Put a unit on an engine (R82): the engine is bound to its task and takes the job's slot (R22, R125). With its first unit it
asks for its tokens (R520). -/
def takeUnit (u : MatUnit) (e : Fin 68) (s : State) : State :=
  let first := s.engines[e].units.isEmpty
  let s := modEngine e (fun k => { k with units := k.units ++ [u] }) (bindEngine u.task e s)
  if first then modPower (Power.ask (.matrix e)) s else s

/-- A unit as an engine takes it. -/
def MatUnit.start (t : TaskRef) (u : Nat) (tiles ents : List Nat) : MatUnit :=
  { task := t, unit := u, tiles := tiles, loaded := 0, passes := 0, bufs := [], bank := [], ended := false, waitParts := false,
    rerun := false, pair := 0, ents := ents }

/-- A group of parts leaves the pool. -/
def takeNext (u parts : Nat) (r : Run) : Run :=
  match r with
  | .matrix n d tot back f => if back.contains u then .matrix n d tot (back.filter (· != u)) f else .matrix (u + parts) d tot back f
  | r => r

/-- Part `p` of a group of parts starts on an engine: its K tiles are found and its streams are opened (R248, R291). The
failure of a scan, if any. -/
def startPart (t : TaskRef) (e : Entry) (u : Nat) (ents : List Nat) (eng : Fin 68) (s : State) : State × MStat × List (Nat × Nat) :=
  match (unitsOf e)[u]? with
  | none => (s, .ok, [])
  | some w =>
    let ts := unitTiles s t.slot e w ents
    let s := openStreams t e eng w ents false (ts.1.headD w.k0) (takeUnit (MatUnit.start t u ts.1 ents) eng s)
    let s := match nextEntryUnit e u w with
      | some x => openStreams t e eng x [] true x.k0 s
      | none => s
    (s, ts.2, if ts.2 = .ok then [] else startRanges e w ents)

/-- Start a group of parts on engines (R101, R259). -/
def startGroup (t : TaskRef) (e : Entry) (u : Nat) (w : WorkUnit) (engs : List (Fin 68)) (s : State) : State :=
  let xs := readEnts s t.slot e w
  match entsFail s t.slot e w xs with
  | some f => unitFault t f.2 f.1 (if f.2 = stINTEGRITY then noteReads t.slot (startRanges e w (xs.map Prod.fst)) s else s)
  | none =>
    let s := modEntry t (fun x => { x with run := takeNext u w.parts x.run }) s
    let r := (List.zip (List.range w.parts) engs).foldl (fun (acc : State × MStat × List (Nat × Nat)) p =>
      let x := startPart t e (u + p.1) (xs.map Prod.fst) p.2 acc.1
      (x.1, acc.2.1.and x.2.1, acc.2.2 ++ x.2.2)) (s, .ok, [])
    if r.2.1 = .ok then r.1 else memFault t r.2.1 w.shape.tag r.2.2 r.1

/-! ### Loads and ends of passes -/

/-- The streams of a unit after loads and passes: what a wholly loaded tile of B and a wholly passed tile of A took is
consumed, and the stream goes on with the unit's next tile (R291, R293; notes/assumptions/47). -/
def moveStreams (eng : Fin 68) (e : Entry) (w : WorkUnit) (u v : MatUnit) (s : State) : State :=
  let next := fun (opA : Bool) (n : Nat) (st : State) =>
    match u.tiles[n]? with
    | none => st
    | some tile =>
      if (detectedOf st u.task (.operand eng opA false)).isSome then openStream (tileStream st u.task e eng w u.ents opA false tile) st
      else st
  let lb := v.loaded / loadCount w
  let s := if u.loaded / loadCount w < lb then
      next false lb (consume u.task (.operand eng false false) (tileRanges s u.task.slot w (u.tiles.getD (lb - 1) 0)) s) else s
  let pa := v.passes / passCount w
  if u.passes / passCount w < pa then
    next true pa (consume u.task (.operand eng true false) (passRanges s u.task.slot e w u.ents (u.tiles.getD (pa - 1) 0)) s)
  else s

/-- Sparse pairs that the passes of a unit from its `n`th to before its `m`th take (R247, R471). -/
def pairsTaken (s : State) (e : Entry) (w : WorkUnit) (u : MatUnit) (n m : Nat) : Nat :=
  if sparseTask e then
    ((List.range (m - n)).map (fun i =>
      let tile := u.tiles.getD ((n + i) / passCount w) 0
      ((unitRows e w u.ents).map (fun r =>
        (rowPairs s u.task.slot w.shape r.1 (max r.2.1 (8 * tile)) (min (r.2.2 + 1) (8 * tile + 8) - 1)).1.length)).foldl (· + ·) 0)).foldl (· + ·) 0
  else 0

/-- Count the sparse pairs of the passes that a unit has made (R471). -/
def countPairs (s0 : State) (e : Entry) (w : WorkUnit) (u v : MatUnit) (s : State) : State :=
  pmuCount u.task.die (some u.task.slot) 0x030 0 (ceilDiv (pairsTaken s0 e w u u.passes v.passes) 2) s

/-- TILE_LOADED: the next tile of a unit is wholly in a buffer (R77). When both buffers hold tiles that passes still need,
the passes that free one have ended before that. -/
def doTileLoaded (eng : Fin 68) (s : State) : State :=
  match passing s eng with
  | none => s
  | some (u, e, w) =>
    let n := passesToFree w u
    if u.tiles.length * loadCount w ≤ u.loaded || (decide (0 < n) && !hasTokens s (.matrix eng)) then s
    else
      let r := if n = 0 then ⟨u, .ok, [], Cnt.none⟩ else morePasses s e w n (withBank s e w u)
      let tile := u.tiles.getD (u.loaded / loadCount w) 0
      let b := loadTileB s u.task.slot w tile ((loadPieces (caseOf w.shape)).getD (u.loaded % loadCount w) 0) (u.loaded % loadCount w == 0)
      if r.st ≠ .ok then memFault u.task r.st w.shape.tag r.ranges s
      else if b.st ≠ .ok then memFault u.task b.st w.shape.tag (tileRanges s u.task.slot w tile) s
      else
        let v := { r.unit with loaded := u.loaded + 1, bufs := r.unit.bufs ++ [⟨u.loaded, b.cols⟩] }
        let s := countPairs s e w u v (moveStreams eng e w u v (putUnit eng v (countTask u.task (r.cnt.add b.cnt) s)))
        pmuCount u.task.die (some u.task.slot) 0x012 0 1 s

/-- Units of a task that have ended. -/
def countUnits (t : TaskRef) (n : Nat) (s : State) : State :=
  modEntry t (fun x => { x with run := match x.run with | .matrix nx d tot back f => .matrix nx (d + n) tot back f | r => r }) s

/-- A unit ends with all its parts; a fence that waited for that takes effect (R118), and a task of which no started unit is
left may fault (R102). -/
def endUnit (t : TaskRef) (u0 parts : Nat) (s : State) : State :=
  faultDue (forEach (holders s t u0 parts) (dropUnits (MatUnit.isOf t u0 parts)) (countUnits t parts s))

/-- The rows of an ended unit reach its paired instance (R152). -/
def handRows (eng : Fin 68) (u : MatUnit) (s : State) : State :=
  match workOf s u with
  | none => s
  | some (e, w) =>
    let r := pairRows (mShift e.desc) w u.bank
    modVe (pairOf s eng) (fun k => { k with inst := k.inst.map (fun i =>
      if i.paired && i.task == u.task && i.unit == u.unit && !i.drained then { i with outRows := r.1, drained := true } else i) }) s

/-- A unit's bank is final: the output writer drains it (R93, R96, R101, R262). -/
def drainBank (eng : Fin 68) (u : MatUnit) (e : Entry) (w : WorkUnit) (bank : List EA40) (s : State) : State :=
  let t := u.task
  let u0 := u.unit - w.part
  let rows := (unitRows e w u.ents).map Prod.fst
  let slice := w.solo && (u.ents.getD 0 0 |> orCnt) != 0
  let r : State × Option (List EA40) × Option (BitVec 8) :=
    if slice then endSlice t e w (u.ents.getD 0 0) bank s else (s, some bank, none)
  match r.2 with
  | (_, some c) => unitFault t c w.shape.tag r.1
  | (none, none) => endUnit t u0 w.parts r.1
  | (some bank, none) =>
    let o := writeOuts t e w rows bank r.1
    if o.2 ≠ .ok then unitFault t o.2.code w.shape.tag o.1
    else if mKind0 e.desc ≠ 2 then endUnit t u0 w.parts o.1
    else
      let c := (pairRows (mShift e.desc) w bank).2
      let u := { u with bank := bank, waitParts := false, ended := true, bufs := [] }
      let s := putUnit eng u (countTask t c o.1)
      if u.pair = 2 then endUnit t u0 w.parts s else if u.pair = 1 then handRows eng u s else s

/-- UNIT_PASSES_END: every tile is loaded, and the passes that are left end (R80). -/
def doPassesEnd (eng : Fin 68) (s : State) : State :=
  match passing s eng with
  | none => s
  | some (u, e, w) =>
    if !hasTokens s (.matrix eng) || decide (u.loaded < u.tiles.length * loadCount w) then s
    else
      let r := morePasses s e w (u.tiles.length * passCount w - u.passes) (withBank s e w u)
      if r.st ≠ .ok then memFault u.task r.st w.shape.tag r.ranges s
      else
        let s := countPairs s e w u r.unit (countTask u.task r.cnt s)
        let u := { r.unit with ended := true, bufs := [] }
        if 1 < w.parts then putUnit eng { u with waitParts := true } s
        else drainBank eng u e w u.bank (putUnit eng u s)

/-- The units of a group of parts, in the order of the parts. -/
def partUnits (s : State) (t : TaskRef) (u0 parts : Nat) : List MatUnit :=
  (List.range parts).filterMap (fun p => (s.engines.toList.flatMap (·.units)).find? (MatUnit.isOf t (u0 + p) 1))

/-- The unit of an engine that is part 0 of a split unit whose parts have all finished, with its work and its parts (R101). -/
def readyGroup (s : State) (eng : Fin 68) : Option (MatUnit × Entry × WorkUnit × List MatUnit) :=
  s.engines[eng].units.findSome? (fun u => (workOf s u).bind (fun x =>
    let ps := partUnits s u.task u.unit x.2.parts
    if x.2.part = 0 ∧ 2 ≤ x.2.parts ∧ ps.length = x.2.parts ∧ ps.all (·.waitParts) then some (u, x.1, x.2, ps) else none))

/-- KSPLIT_COMBINE: all parts of a unit have finished, and the engine of part 0 combines them (R101). -/
def doCombine (eng : Fin 68) (s : State) : State :=
  match readyGroup s eng with
  | none => s
  | some (u, e, w, ps) =>
    let sum := combineAll (ps.map (·.bank))
    drainBank eng u e w sum.1 (countTask u.task ⟨sum.2, 0⟩ s)

/-- RESIDUE_CHECK_FAIL: the unit whose bank is not yet drained runs again from its first K tile, or the engine is fenced
(R117). -/
def doResidue (eng : Fin 68) (s : State) : State :=
  match s.engines[eng].units.getLast? with
  | none => s
  | some u =>
    if u.ended && !u.waitParts then s
    else
      let n := BitVec.ofNat 8 (min 255 (s.engines[eng].err.toNat + 1))
      let s := putUnit eng { u with loaded := 0, passes := 0, bufs := [], bank := [], ended := false, waitParts := false, rerun := true }
        (modEngine eng (fun k => { k with err := n }) s)
      let s := logError 0x03 none eng.val n.toNat (pmuCount (engineDie eng) none 0x013 0 1 s)
      if u.rerun || decide (8 ≤ n.toNat) then fenceEngine eng s else s

/-- Whether a matrix task has done its work (R150: its last instance has ended as well). -/
def matrixFinished (r : Run) : Bool :=
  match r with
  | .matrix _ d tot _ _ => d == tot
  | _ => false

/-- The unit that waits for a paired instance on a vector engine, and its engine: the one that started first (R150). -/
def awaited (s : State) (v : Fin 64) : Option (Fin 68 × MatUnit × Entry × WorkUnit) :=
  (List.finRange 68).findSome? (fun e =>
    if s.engines[e].st == meACTIVE && decide (pairOf s e = v) then
      s.engines[e].units.findSome? (fun u => (workOf s u).bind (fun x =>
        if mKind0 x.1.desc == 2 && x.2.part == 0 && u.pair == 0 then some (e, u, x.1, x.2) else none))
    else none)

/-- A paired instance ends: its unit ends with it, or when its passes end (R153). -/
def pairEnded (v : Fin 64) (t : TaskRef) (n : Nat) (s : State) : State :=
  match (List.finRange 68).find? (fun e => decide (pairOf s e = v) && s.engines[e].units.any (fun u => MatUnit.isOf t n 1 u && u.pair == 1)) with
  | none => s
  | some e =>
    match s.engines[e].units.find? (MatUnit.isOf t n 1) with
    | none => s
    | some u =>
      match workOf s u with
      | some (_, w) => if u.ended && !u.waitParts then endUnit t (u.unit - w.part) w.parts s else putUnit e { u with pair := 2 } s
      | none => s

/-- TILE_LOADED. -/
def execTileLoaded (eng : Fin 68) (s : State) : Host.Outcome State Fault Refusal := .next (doTileLoaded eng s)
/-- UNIT_PASSES_END. -/
def execUnitPassesEnd (eng : Fin 68) (s : State) : Host.Outcome State Fault Refusal := .next (doPassesEnd eng s)
/-- KSPLIT_COMBINE. -/
def execKsplitCombine (eng : Fin 68) (s : State) : Host.Outcome State Fault Refusal := .next (doCombine eng s)
/-- RESIDUE_CHECK_FAIL. -/
def execResidueCheckFail (eng : Fin 68) (s : State) : Host.Outcome State Fault Refusal := .next (doResidue eng s)
/-- SPARE_TEST_DONE. -/
def execSpareTestDone (die : Fin 4) (pass : Bool) (s : State) : Host.Outcome State Fault Refusal := .next (spareTest die pass s)

end Sys2Proof.Machine
end

