-- ==== Sys2Proof/Machine/Vector.lean ====
section
/-! DEFINITION. Vector engines: instances, instruction fields, lanes, function tables, top-k state and
landing (spec/04_vector_engines.md R126 to R162). -/

namespace Sys2Proof.Machine

/-! ### Operand area and instruction fields (R131, R136, R137) -/

def vWb (d : Nat) : Nat := fld d 1023 960
def vInstr (d : Nat) : Nat := fld d 927 912
def vWidth (d : Nat) : Nat := fld d 907 904 + 1
def vLandBase (d : Nat) : Nat := fld d 895 891
def vLandTiles (d : Nat) : Nat := 4 * (fld d 890 889 + 1)
def vBase (d : Nat) : Nat := fld d 559 512

/-- Fields that an opcode uses: mask, mz, td, ta, tb, tc, cs, and the bits of imm. -/
structure VUse where
  mask : Bool
  mz : Bool
  td : Bool
  ta : Bool
  tb : Bool
  tc : Bool
  cs : Bool
  imm : Nat
  deriving DecidableEq, Repr

/-- Fields of an opcode of R137; none for an undefined opcode. A field that the text of R137 to R168 gives
no meaning for the opcode is unused (R138). -/
def vUse (op : Nat) : Option VUse :=
  let lane := fun (ta tb tc : Bool) (imm : Nat) => some (⟨true, true, true, ta, tb, tc, false, imm⟩ : VUse)
  match op with
  | 0x01 => some ⟨true, true, true, false, false, false, true, 0x3FFFFFF⟩
  | 0x02 => some ⟨true, false, false, true, false, false, true, 0x3FFFFFF⟩
  | 0x03 => some ⟨true, false, false, true, false, false, true, 0x3FFFFFF⟩
  | 0x04 => lane true false false 0
  | 0x05 => some ⟨true, true, true, false, false, false, true, 0⟩
  | 0x06 => lane true false false 0x3F
  | 0x07 => lane true false false 0x1F
  | 0x10 => lane true true false 0
  | 0x11 => lane true true false 0
  | 0x12 => lane true true false 0
  | 0x13 => lane true true true 0
  | 0x14 => lane true true false 0
  | 0x15 => lane true true false 0
  | 0x16 => lane true true false 0
  | 0x17 => lane true false false 0
  | 0x18 => lane true true false 0
  | 0x20 => some ⟨true, true, false, true, true, false, false, 0x3F⟩
  | 0x21 => some ⟨true, true, false, false, false, false, false, 0xFFF⟩
  | 0x22 => some ⟨true, false, false, false, false, false, true, 0⟩
  | 0x30 => lane true false false 0x1F
  | 0x31 => some ⟨false, false, false, false, false, false, true, 0x1F⟩
  | 0x40 => lane true false false 0
  | 0x41 => lane true false false 0
  | 0x42 => lane true false false 0
  | 0x43 => lane true false false 0
  | 0x50 => some ⟨true, false, true, true, false, false, true, 0⟩
  | 0x51 => some ⟨true, true, true, true, false, false, true, 0⟩
  | 0x60 => some ⟨true, false, false, true, false, false, true, 0⟩
  | 0x61 => some ⟨true, false, false, true, true, false, false, 0⟩
  | 0x62 => some ⟨true, true, true, false, false, false, false, 0x1F⟩
  | 0x70 => some ⟨false, false, false, false, false, false, true, 0⟩
  | 0x71 => some ⟨false, false, false, false, false, false, true, 0⟩
  | 0x78 => some ⟨false, false, false, false, false, false, true, 0⟩
  | 0x79 => some ⟨false, false, false, true, false, false, false, 0⟩
  | 0x7A => some ⟨false, false, false, false, false, false, true, 0⟩
  | 0x7B => some ⟨false, false, false, false, false, false, false, 3⟩
  | 0x7C => some ⟨false, false, false, false, false, false, true, 0xFFF⟩
  | 0x7D => some ⟨false, false, false, false, false, false, true, 0x3FFFFFF⟩
  | 0x7F => some ⟨false, false, false, false, false, false, false, 0⟩
  | _ => none

/-- Reserved values of defined fields (R137, R138): a test of TCMP, an operation of MOP, a function slot
of TLDFT, the verdict of WVERD, and a cs whose partner cs + 1 does not exist. -/
def vReserved (op : Nat) (f : VFields) : Bool :=
  let i := f.imm.toNat
  match op with
  | 0x01 => f.cs == 63
  | 0x02 => f.cs == 63
  | 0x03 => f.cs == 63
  | 0x20 => decide (6 ≤ fld i 2 0)
  | 0x21 => decide (5 ≤ fld i 2 0) || (fld i 2 0 == 4 && fld i 11 9 != 0)
  | 0x31 => decide (fld i 3 0 < 12)
  | 0x7B => fld i 1 0 == 3
  | _ => false

/-- Whether a word passes R138. -/
def vFieldsOk (op : Nat) (f : VFields) : Bool :=
  match vUse op with
  | none => false
  | some u =>
    (u.mask || f.mask == 0) && (u.mz || !f.mz) && (u.td || f.td == 0) && (u.ta || f.ta == 0) && (u.tb || f.tb == 0) &&
    (u.tc || f.tc == 0) && (u.cs || f.cs == 0) && f.imm.toNat &&& u.imm == f.imm.toNat && !vReserved op f

/-- Fields of an instruction word (R136). -/
def vFieldsOf (w : Nat) : VFields :=
  { mask := BitVec.ofNat 3 (fld w 55 53), mz := bitAt w 52, td := BitVec.ofNat 5 (fld w 51 47), ta := BitVec.ofNat 5 (fld w 46 42)
    tb := BitVec.ofNat 5 (fld w 41 37), tc := BitVec.ofNat 5 (fld w 36 32), cs := BitVec.ofNat 6 (fld w 31 26)
    imm := BitVec.ofNat 26 (fld w 25 0) }

/-! ### Tiles, masks and scalars (R126 to R128) -/

def laneCount : Nat := 2048

/-- A tile register; one that is not listed is +0. -/
def getTile (e : VecEng) (r : BitVec 5) : Tile := e.tiles.getD r.toNat (List.replicate laneCount 0)
/-- Write a tile register. -/
def setTile (r : BitVec 5) (t : Tile) (e : VecEng) : VecEng := { e with tiles := e.tiles.put r.toNat t }
/-- Lane of a tile. -/
def lane (t : Tile) (l : Nat) : F32 := t.getD l 0

/-- A mask register: m0 is all ones (R127). -/
def getMask (e : VecEng) (m : BitVec 3) : BitVec 2048 := if m = 0 then BitVec.allOnes 2048 else e.masks.getD m.toNat 0
/-- Write a mask register: a write to m0 is ignored (R127). -/
def setMask (m : BitVec 3) (v : BitVec 2048) (e : VecEng) : VecEng := if m = 0 then e else { e with masks := e.masks.put m.toNat v }

/-- Lanes of a destination: active ones from `g`, the others kept or +0 (R128). -/
def lanesOf (old : Tile) (mask : BitVec 2048) (mz : Bool) (g : Nat → F32) : Tile :=
  (List.range laneCount).map (fun l => if mask.getLsbD l then g l else if mz then 0 else lane old l)

/-- A private scalar of an instance. -/
def VecInst.getCs (i : VecInst) (c : BitVec 6) : BitVec 64 := i.cs[c.toFin]
/-- Write a private scalar. -/
def VecInst.setCs (c : BitVec 6) (v : BitVec 64) (i : VecInst) : VecInst := { i with cs := i.cs.set c.toFin v }

/-! ### Ends of instances (R135, R139, R153) -/

/-- An instance ends in fault, and its task with it (R138, R139): the detail is the instruction's number. -/
def vFault (v : Fin 64) (status : BitVec 8) (s : State) : State :=
  match s.ves[v].inst with
  | none => s
  | some i => unitFault i.task status i.pc s

/-- Scalars that an ended instance leaves to be written back (R135). -/
def backOf (d : Nat) (i : VecInst) : List (Nat × BitVec 64) :=
  ((List.range 64).filter (bitAt (vWb d))).map (fun k => (k, i.cs[Fin.ofNat 64 k]))

/-- An instance ends. -/
def vDone (v : Fin 64) (s : State) : State :=
  match s.ves[v].inst with
  | none => s
  | some i =>
    let s := freeVe v s
    if i.paired then pairEnded v i.task i.unit s
    else
      modEntry i.task (fun e => { e with run := match e.run with
        | .vector n d tot cs back => .vector n (d + 1) tot cs (if i.instance_ = 0 then backOf e.desc i else back)
        | r => r }) s

/-- End an instance that has run its last instruction, unless it waits in WCLOSE. -/
def vReap (v : Fin 64) (s : State) : State :=
  match s.ves[v].inst with
  | none => s
  | some i => if !i.closing && decide (i.count ≤ i.pc) then settle i.task.slot (vDone v s) else s

/-- The instruction after this one, under a running LOOP (R138). -/
def VecInst.next (i : VecInst) : VecInst :=
  match i.loop with
  | none => { i with pc := i.pc + 1 }
  | some l =>
    if i.pc + 1 = l.start + l.len then
      if 1 < l.left then { i with pc := l.start, loop := some { l with left := l.left - 1 } } else { i with pc := i.pc + 1, loop := none }
    else { i with pc := i.pc + 1 }

/-- Change an engine's instance. -/
def modInst (v : Fin 64) (f : VecInst → VecInst) (s : State) : State := modVe v (fun e => { e with inst := e.inst.map f }) s

/-- Go to the next instruction. -/
def vNext (v : Fin 64) (s : State) : State := vReap v (modInst v VecInst.next s)

/-- The instance that can execute an instruction on an engine: it holds its tokens and does not wait
(R520, R166). -/
def vReady (s : State) (v : Fin 64) : Option VecInst :=
  match s.ves[v].inst with
  | some i => if hasTokens s (.vector v) && !i.closing && decide (i.pc < i.count) then some i else none
  | none => none

/-- Active lanes in ascending order. -/
def activeLanes (m : BitVec 2048) : List Nat := (List.range laneCount).filter (fun l => m.getLsbD l)

/-- Count the active lanes of an instruction that names a mask (R471). -/
def countLanes (v : Fin 64) (op : Nat) (f : VFields) (i : VecInst) (s : State) : State :=
  if (vUse op).any (·.mask) then
    pmuCount (unitDie v) (some i.task.slot) 0x021 0 (ceilDiv (activeLanes (getMask s.ves[v] f.mask)).length 512) s
  else s

/-- Execute an instruction: the fields are checked first (R138). -/
def vExec (v : Fin 64) (op : Nat) (f : VFields) (g : VecInst → State → State) (s : State) : State :=
  match vReady s v with
  | none => s
  | some i => if vFieldsOk op f then g i (countLanes v op f i s) else vFault v stBAD_OPCODE s

/-- Execute an instruction that writes lanes of td. -/
def vLanes (v : Fin 64) (op : Nat) (f : VFields) (g : VecEng → VecInst → Nat → F32) (s : State) : State :=
  vExec v op f (fun i s =>
    let e := s.ves[v]
    vNext v (modVe v (setTile f.td (lanesOf (getTile e f.td) (getMask e f.mask) f.mz (g e i))) s)) s

/-! ### Lane operations (R71, R137) -/

/-- Bits of a minimum or maximum: a NaN wins, and −0 lies below +0. -/
def f32pick (max : Bool) (a b : F32) : F32 :=
  if f32isNaN a || f32isNaN b then f32nan
  else
    let less := f32lt a b || (f32eq a b && a.getLsbD 31 && !b.getLsbD 31)
    if less = max then b else a

/-- The tests of TCMP. -/
def f32test (k : Nat) (a b : F32) : Bool :=
  match k with
  | 0 => f32eq a b
  | 1 => !f32eq a b
  | 2 => f32lt a b
  | 3 => f32le a b
  | 4 => !(f32isNaN a || f32isNaN b)
  | _ => f32isNaN a || f32isNaN b

/-- The operations of MOP. -/
def maskOp (k : Nat) (a b : BitVec 2048) : BitVec 2048 :=
  match k with
  | 0 => a &&& b
  | 1 => a ||| b
  | 2 => a ^^^ b
  | 3 => a &&& ~~~b
  | _ => ~~~a

/-- One level of the pairwise tree of R147. -/
def treeLevel (op : F32 → F32 → F32) : List F32 → List F32
  | a :: b :: rest => op a b :: treeLevel op rest
  | l => l

/-- The pairwise tree over `2^n` elements. -/
def tree (op : F32 → F32 → F32) : Nat → List F32 → F32
  | 0, l => l.headD 0
  | n + 1, l => tree op n (treeLevel op l)

/-- A lane as a reduction takes it. -/
def redLane (t : Tile) (m : BitVec 2048) (unit : F32) (l : Nat) : F32 := if m.getLsbD l then lane t l else unit

/-- TRSUM and TRMAX, TCSUM and TCMAX: inactive lanes of ta enter as the unit (R147), and inactive lanes of td are merged or
zeroed as R128 says of every instruction that names a mask (DEDUCED, notes/assumptions/46). -/
def doReduceRows (v : Fin 64) (op : Nat) (f : VFields) (comb : F32 → F32 → F32) (unit : F32) (s : State) : State :=
  vExec v op f (fun _ s =>
    let e := s.ves[v]
    let t := getTile e f.ta
    let m := getMask e f.mask
    let r := (List.range 32).map (fun i => tree comb 6 ((List.range 64).map (fun j => redLane t m unit (64 * i + j))))
    vNext v (modVe v (setTile f.td (lanesOf (getTile e f.td) m f.mz (fun l => if l % 64 = 0 then r.getD (l / 64) 0 else 0))) s)) s
def doReduceCols (v : Fin 64) (op : Nat) (f : VFields) (comb : F32 → F32 → F32) (unit : F32) (s : State) : State :=
  vExec v op f (fun _ s =>
    let e := s.ves[v]
    let t := getTile e f.ta
    let m := getMask e f.mask
    let r := (List.range 64).map (fun j => tree comb 5 ((List.range 32).map (fun i => redLane t m unit (64 * i + j))))
    vNext v (modVe v (setTile f.td (lanesOf (getTile e f.td) m f.mz (fun l => if l < 64 then r.getD l 0 else 0))) s)) s

/-- A tile with one lane written. -/
def setLane (t : Tile) (l : Nat) (x : F32) : Tile := (t ++ List.replicate (laneCount - t.length) 0).set l x

/-- TCOMP (R148). -/
def doComp (v : Fin 64) (f : VFields) (s : State) : State :=
  vExec v 0x50 f (fun i s =>
    let e := s.ves[v]
    let ls := activeLanes (getMask e f.mask)
    let p0 := (i.getCs f.cs).toNat
    if !ls.isEmpty && decide (32 ≤ f.td.toNat + (p0 + ls.length - 1) / laneCount) then vFault v stBOUND s
    else
      let t := getTile e f.ta
      let e' := (List.zip (List.range ls.length) ls).foldl (fun (e : VecEng) kl =>
        let p := p0 + kl.1
        let r := BitVec.ofNat 5 (f.td.toNat + p / laneCount)
        setTile r (setLane (getTile e r) (p % laneCount) (lane t kl.2)) e) e
      vNext v (modInst v (VecInst.setCs f.cs (BitVec.ofNat 64 (p0 + ls.length))) (modVe v (fun _ => e') s))) s

/-- TEXPD (R149). -/
def doExpd (v : Fin 64) (f : VFields) (s : State) : State :=
  vExec v 0x51 f (fun i s =>
    let e := s.ves[v]
    let m := getMask e f.mask
    let ls := activeLanes m
    let p0 := (i.getCs f.cs).toNat
    if !ls.isEmpty && decide (32 ≤ f.ta.toNat + (p0 + ls.length - 1) / laneCount) then vFault v stBOUND s
    else
      let g := fun l =>
        let p := p0 + (ls.filter (fun q => decide (q < l))).length
        lane (getTile e (BitVec.ofNat 5 (f.ta.toNat + p / laneCount))) (p % laneCount)
      let s := modVe v (setTile f.td (lanesOf (getTile e f.td) m f.mz g)) s
      vNext v (modInst v (VecInst.setCs f.cs (BitVec.ofNat 64 (p0 + ls.length))) s)) s

/-! ### Function tables (R154 to R159) -/

/-- A built-in function at the values that R156 fixes; elsewhere R155 bounds the error and the value is the table's
(FunctionTables.lean states the bound). From which magnitude on a limit is reached is free (notes/assumptions/38). -/
def builtin (slot : Nat) (deriv : Bool) (x : F32) : F32 :=
  let neg := x.getLsbD 31
  let zero := f32eq x 0
  let inf : F32 := 0x7F800000
  let big := decide (min (Config.limitFrom slot).toNat 0x7F7FFFFF ≤ x.toNat % 2 ^ 31)
  let one := if neg then 0xBF800000#32 else f32one
  if f32isNaN x then f32nan
  else
    match slot, deriv with
    | 0, _ =>
      if f32le 0x42B17218#32 x then inf else if f32val x == .inf true then 0 else Config.functionTable slot deriv x
    | 1, false => if zero then f32ninf else if neg then f32nan else Config.functionTable slot deriv x
    | 1, true => if zero then (if neg then f32ninf else inf) else Config.functionTable slot deriv x
    | 2, false => if zero then (if neg then f32ninf else inf) else Config.functionTable slot deriv x
    | 3, false => if x = 0 then inf else if neg && !zero then f32nan else Config.functionTable slot deriv x
    | 4, false => if neg && !zero then f32nan else Config.functionTable slot deriv x
    | 5, false => if big then one else Config.functionTable slot deriv x
    | 5, true => if big then 0 else Config.functionTable slot deriv x
    | 6, false => if big then (if neg then 0 else f32one) else Config.functionTable slot deriv x
    | 6, true => if big then 0 else Config.functionTable slot deriv x
    | 9, true => if big then (if neg then 0 else f32one) else Config.functionTable slot deriv x
    | 10, false => if big then one else Config.functionTable slot deriv x
    | 10, true => if big then 0 else Config.functionTable slot deriv x
    | _, _ => Config.functionTable slot deriv x

/-- Word `i` of a job table: 8 header words, then four coefficients a segment (R157). -/
def FuncTable.word (t : FuncTable) (i : Nat) : F32 := t.words.getD i 0
def FuncTable.coef (t : FuncTable) (seg k : Nat) : F32 := t.word (8 + 4 * seg + k)
def FuncTable.head (t : FuncTable) : Nat := (t.word 0).toNat

/-- A segment's cubic at `x` (R159). -/
def FuncTable.cubic (t : FuncTable) (seg : Nat) (x : F32) : F32 :=
  f32fma (f32fma (f32fma (t.coef seg 3) x (t.coef seg 2)) x (t.coef seg 1)) x (t.coef seg 0)

/-- `edge` of R159. -/
def FuncTable.edge (t : FuncTable) (kind : Nat) (above : Bool) (y : F32) (seg : Nat) (x : F32) : F32 :=
  match kind with
  | 0 => t.cubic seg x
  | 1 => if above then f32fma (t.word 6) y (t.word 7) else f32fma (t.word 4) y (t.word 5)
  | _ => f32nan

/-- Exponent of a positive value, and its 23 fraction bits. -/
def expFrac (x : F32) : Int × Nat :=
  let d := (f32val x).dy
  let e := d.floorLog2
  (e, ((d.floorScale (23 - e)).toNat) % 2 ^ 23)

/-- `table_eval` of R159. -/
def FuncTable.eval (t : FuncTable) (x : F32) : F32 :=
  if f32isNaN x then f32nan
  else
    let h := t.head
    let flip := fld h 7 6 != 0 && f32lt x 0
    let y := if flip then x ^^^ 0x80000000#32 else x
    let s := if flip && fld h 7 6 == 2 then 0xBF800000#32 else f32one
    let lo := t.word 2
    let hi := t.word 3
    if f32lt y lo then f32mul s (t.edge (fld h 3 2) false y 0 0)
    else if f32le hi y then f32mul s (t.edge (fld h 5 4) true y 255 f32one)
    else if fld h 1 0 = 0 then
      let u := f32mul (f32sub y lo) (f32div 0x43800000#32 (f32sub hi lo))
      let i := if f32val u = .inf false then 255 else min ((f32val u).dy.floorScale 0).toNat 255
      f32mul s (t.cubic i (f32sub u (f32ofNat i)))
    else
      let q := expFrac y
      let i := ((q.1 - (expFrac lo).1) * 8).toNat + q.2 / 2 ^ 20
      f32mul s (t.cubic i (f32of (Val.ofDy ⟨(q.2 % 2 ^ 20 : Nat), -20⟩)))

/-- The checks of R158 on a table. -/
def FuncTable.ok (t : FuncTable) : Bool :=
  let h := t.head
  let lo := t.word 2
  let hi := t.word 3
  decide (fld h 1 0 ≤ 1) && decide (fld h 3 2 ≤ 2) && decide (fld h 5 4 ≤ 2) && decide (fld h 7 6 ≤ 2) &&
  fld h 31 8 == 0 && t.word 1 == 0 && !f32nonfinite lo && !f32nonfinite hi && f32lt lo hi &&
  (fld h 1 0 == 0 || (f32lt 0 lo && (expFrac lo).2 == 0 && ((f32val lo).dy.scale 32).eqv (f32val hi).dy))

/-- TFUNC (R155, R158). -/
def doFunc (v : Fin 64) (f : VFields) (s : State) : State :=
  let k := fld f.imm.toNat 3 0
  let deriv := bitAt f.imm.toNat 4
  let s := match vReady s v with
    | some i => if vFieldsOk 0x30 f then pmuCount (unitDie v) (some i.task.slot) 0x022 0 1 s else s
    | none => s
  vLanes v 0x30 f (fun e _ l =>
    let x := lane (getTile e f.ta) l
    if k < 12 then builtin k deriv x
    else
      match e.tables.find (2 * k + if deriv then 1 else 0) with
      | some t => t.eval x
      | none => f32nan) s

/-- TLDFT (R157, R158). -/
def doLdft (v : Fin 64) (f : VFields) (s : State) : State :=
  vExec v 0x31 f (fun i s =>
    let a := (i.getCs f.cs).toNat
    let r := jobRead s i.task.slot a 4128
    if a % 64 ≠ 0 then vFault v stBAD_FIELD s
    else if r.1.st ≠ .ok then vFault v r.1.st.code r.2
    else
      let t : FuncTable := ⟨(List.range 1032).map (fun k => BitVec.ofNat 32 (leNat ((r.1.data.drop (4 * k)).take 4)))⟩
      if !t.ok then vFault v stBAD_FIELD r.2
      else
        let key := 2 * fld f.imm.toNat 3 0 + if bitAt f.imm.toNat 4 then 1 else 0
        vNext v (modVe v (fun e => { e with tables := e.tables.put key t }) r.2)) s

/-! ### Top-k state (R160 to R162) -/

/-- Whether a candidate ranks above another (R160). -/
def ranksAbove (a b : F32 × BitVec 32) : Bool := f32lt b.1 a.1 || (f32eq a.1 b.1 && decide (a.2.toNat < b.2.toNat))

/-- Enter a candidate into a row of the state. -/
def rankIn (c : F32 × BitVec 32) : List (F32 × BitVec 32) → List (F32 × BitVec 32)
  | [] => [c]
  | x :: rest => if ranksAbove c x then c :: x :: rest else x :: rankIn c rest

/-- Row `r` of the state: entries in rank order, the empty ones left out. -/
def topRow (e : VecEng) (r : Nat) : List (F32 × BitVec 32) := e.topk.getD r []

/-- TOPK and TOPKX (R161). -/
def doTopk (v : Fin 64) (op : Nat) (f : VFields) (idx : VecEng → VecInst → Nat → BitVec 32) (s : State) : State :=
  vExec v op f (fun i s =>
    let e := s.ves[v]
    let t := getTile e f.ta
    let m := getMask e f.mask
    let rows := (List.range 32).map (fun r =>
      ((List.range 64).foldl (fun row c =>
        let l := 64 * r + c
        if m.getLsbD l && !f32isNaN (lane t l) then (rankIn (lane t l, idx e i l) row).take 16 else row) (topRow e r)))
    let nan := (List.range laneCount).any (fun l => m.getLsbD l && f32isNaN (lane t l))
    let s := if nan then countTask i.task ⟨0, 1⟩ s else s
    vNext v (modVe v (fun e => { e with topk := rows }) s)) s

/-- TOPKRD (R162). -/
def doTopkrd (v : Fin 64) (f : VFields) (s : State) : State :=
  vExec v 0x62 f (fun _ s =>
    let k := fld f.imm.toNat 4 0
    if k = 0 ∨ 16 < k ∨ f.td = 31 then vFault v stBAD_FIELD s
    else
      let e := s.ves[v]
      let m := getMask e f.mask
      let at_ := fun l => if l % 64 < k then (topRow e (l / 64)).getD (l % 64) (f32ninf, 0xFFFFFFFF#32) else (0, 0)
      let td1 := f.td + 1
      vNext v (modVe v (fun e =>
        setTile td1 (lanesOf (getTile e td1) m f.mz (fun l => (at_ l).1))
          (setTile f.td (lanesOf (getTile e f.td) m f.mz (fun l => (at_ l).2)) e)) s)) s

/-! ### Loads and stores (R140 to R146) -/

/-- Tile row and column of a load or store (R141). -/
def tileAt (i : VecInst) (f : VFields) : Nat × Nat :=
  let off := (i.getCs (f.cs + 1)).toNat
  (fld f.imm.toNat 25 13 + fld off 31 0, fld f.imm.toNat 12 0 + fld off 63 32)

/-- The array that a descriptor address names, read at its first use in the instance (R141, R142, R44):
`written` for TST. The descriptor, or the instance's fault. -/
def tileArr (i : VecInst) (a : Nat) (written : Bool) (s : State) : Except (BitVec 8) Nat × State :=
  let r := match i.descs.find a with
    | some d => ((d, MStat.ok), s)
    | none => let q := jobRead s i.task.slot a 32; ((leNat q.1.data, q.1.st), q.2)
  let d := r.1.1
  let x := arrOf d
  if a % 32 ≠ 0 then (.error stBAD_FIELD, r.2)
  else if r.1.2 ≠ .ok then (.error r.1.2.code, r.2)
  else if !arrRsvOk d || !convOk x.conv written || x.trans || x.fmt == fAC32 || x.fmt == fEA40 || x.fmt == fVOTE2 ||
      x.elem % 64 != 0 || (x.blocked && x.exp % 64 != 0) then (.error stBAD_FIELD, r.2)
  else (.ok d, r.2)

/-- A retained entry that TLD names (R295, R302): its descriptor, or the instance's fault. The task
becomes a reader of the entry. -/
def tileEntry (i : VecInst) (a : Nat) (s : State) : Except (BitVec 8) Nat × State :=
  let q := jobRead s i.task.slot a 64
  let d := leNat q.1.data
  if q.1.st ≠ .ok then (.error q.1.st.code, q.2)
  else if !entryDescOk a d then (.error stBAD_FIELD, q.2)
  else if (entryOf s i.task).reads.contains a then (.ok d, q.2)
  else
    let c := readerCheck i.task.slot a q.2
    match c.2 with
    | .ok => (.ok d, modEntry i.task (fun e => { e with reads := e.reads ++ [a] }) c.1)
    | .refused => (.error stSTATE, c.1)
    | .absent => (.error stNO_RESOURCE, c.1)

/-- Lanes of a tile that a load reads: the active ones inside the array (R129, R142). -/
def loadLanes (rows cols ti tj : Nat) (m : BitVec 2048) : List (Nat × Nat) :=
  ((List.range laneCount).filter (fun l => m.getLsbD l && decide (32 * ti + l / 64 < rows ∧ 64 * tj + l % 64 < cols))).map
    (fun l => (32 * ti + l / 64, 64 * tj + l % 64))

/-- The values of a tile of an array or entry, +0 outside it, and the worst status of the active lanes. -/
def loadTile (rows cols ti tj : Nat) (m : BitVec 2048) (val : Nat → Nat → Val × MStat) : Tile × MStat :=
  let xs := (List.range laneCount).map (fun l =>
    let r := 32 * ti + l / 64
    let c := 64 * tj + l % 64
    if m.getLsbD l && decide (r < rows ∧ c < cols) then let x := val r c; (loadF32 x.1, x.2) else (0, MStat.ok))
  (xs.map Prod.fst, xs.foldl (fun st x => st.and x.2) MStat.ok)

/-- A tile that was loaded reaches td, or its failure ends the instance (R124, R129): `rs` are the bytes read. -/
def loaded (v : Fin 64) (i : VecInst) (f : VFields) (m : BitVec 2048) (x : Tile × MStat) (rs : List (Nat × Nat)) (s : State) : State :=
  if x.2 ≠ .ok then memFault i.task x.2 i.pc rs s
  else vNext v (modVe v (fun e => setTile f.td (lanesOf (getTile e f.td) m f.mz (lane x.1)) e) (demandRead i.task (.vector v) rs s))

/-- TLD (R141 to R143). -/
def doTld (v : Fin 64) (f : VFields) (s : State) : State :=
  vExec v 0x01 f (fun i s =>
    let a := (i.getCs f.cs).toNat
    let ij := tileAt i f
    let m := getMask s.ves[v] f.mask
    let slot := i.task.slot
    if a % 2 = 1 then
      match tileEntry i (a - 1) s with
      | (.error c, s) => vFault v c s
      | (.ok d, s) =>
        let rs := (loadLanes (eRows d) (eCols d) ij.1 ij.2 m).flatMap (fun rc => entryElemRanges s slot (a - 1) d rc.1 rc.2)
        loaded v i f m (loadTile (eRows d) (eCols d) ij.1 ij.2 m (fun r c => entryVal s slot (a - 1) d r c)) rs s
    else
      match tileArr i a false s with
      | (.error c, s) => vFault v c s
      | (.ok d, s) =>
        let x := arrOf d
        let rs := (loadLanes x.rows x.cols ij.1 ij.2 m).flatMap (fun rc => x.valRanges rc.1 rc.2)
        loaded v i f m (loadTile x.rows x.cols ij.1 ij.2 m (fun r c => arrVal s slot x r c)) rs
          (modInst v (fun i => { i with descs := i.descs.put a d }) s)) s

/-- Store a tile's active lanes into an array (R142 to R145): the status and the counts. A block that holds an active lane is
written, inactive lanes as 0, but for its cells outside the array's rows and columns, which R142 says are never written
(notes/assumptions/46). A float array is stored in one plane whatever its pieces field says (R45). -/
def storeTile (slot : Fin 64) (x : Arr) (ti tj : Nat) (m : BitVec 2048) (t : Tile) (s : State) : State × MStat × Cnt :=
  let act := fun (r c : Nat) => decide (32 * ti ≤ r ∧ r < 32 * ti + 32 ∧ 64 * tj ≤ c ∧ c < 64 * tj + 64 ∧ r < x.rows ∧ c < x.cols) &&
    m.getLsbD (64 * (r - 32 * ti) + (c - 64 * tj))
  let val := fun (r c : Nat) => f32val (lane t (64 * (r - 32 * ti) + (c - 64 * tj)))
  let step := fun (acc q : State × MStat × Cnt) => (q.1, acc.2.1.and q.2.1, acc.2.2.add q.2.2)
  if x.blocked then
    let blks := if x.axis = 0 then (List.range 64).map (fun b => (32 * ti + b / 2, 2 * tj + b % 2))
      else (List.range 64).map (fun b => (64 * tj + b, ti))
    blks.foldl (fun acc ib =>
      let cells := (List.range 32).map (fun k => x.cell ib.1 ib.2 k)
      if cells.any (fun rc => act rc.1 rc.2) then
        step acc (putValsIn slot x (fun rc => decide (rc.1 < x.rows ∧ rc.2 < x.cols)) ib.1 ib.2
          (cells.map (fun rc => if act rc.1 rc.2 then val rc.1 rc.2 else .zero false)) acc.1)
      else acc) (s, .ok, Cnt.none)
  else
    let cells := ((List.range laneCount).map (fun l => (32 * ti + l / 64, 64 * tj + l % 64))).filter (fun rc => act rc.1 rc.2)
    let r := cells.foldl (fun acc rc => step acc (putVal slot x rc.1 rc.2 (val rc.1 rc.2) acc.1)) (s, .ok, Cnt.none)
    (r.1, r.2.1, r.2.2.add ⟨0, if cells.any (fun rc => (val rc.1 rc.2).nonfinite) then 1 else 0⟩)

/-- TST (R141 to R145). -/
def doTst (v : Fin 64) (f : VFields) (s : State) : State :=
  vExec v 0x02 f (fun i s =>
    let a := (i.getCs f.cs).toNat
    let ij := tileAt i f
    match tileArr i a true s with
    | (.error c, s) => vFault v c s
    | (.ok d, s) =>
      let e := s.ves[v]
      let r := storeTile i.task.slot (arrOf d) ij.1 ij.2 (getMask e f.mask) (getTile e f.ta)
        (modInst v (fun i => { i with descs := i.descs.put a d }) s)
      let s := countTask i.task r.2.2 r.1
      if r.2.1 ≠ .ok then vFault v r.2.1.code s else vNext v s) s

/-- TSTS (R146, R299): the task is the entry's writer from its first TSTS on. That imm and cs + 1 name the entry's tile as
they do for TST, that inactive lanes enter as 0, and that a tile outside the entry is passed over are DESIGN CHOICES
(notes/assumptions/46). -/
def doTsts (v : Fin 64) (f : VFields) (s : State) : State :=
  vExec v 0x03 f (fun i s =>
    let a := (i.getCs f.cs).toNat
    let ij := tileAt i f
    let slot := i.task.slot
    let q := jobRead s slot a 64
    let d := leNat q.1.data
    if q.1.st ≠ .ok then vFault v q.1.st.code q.2
    else if !entryDescOk a d || !fallbackOk q.2 slot d then vFault v stBAD_FIELD q.2
    else
      let known := match s.jobs[slot].stash.entries.find a with
        | some x => x.writer == some i.task
        | none => false
      let dropped := (entryOf s i.task).caps.find a == some d
      match (if known || dropped then (q.2, none) else openWriter slot a i.task q.2) with
      | (s, some c) => vFault v c s
      | (s, none) =>
        let s := modEntry i.task (fun e => { e with caps := e.caps.put a d }) s
        let e := s.ves[v]
        let m := getMask e f.mask
        let t := getTile e f.ta
        if ceilDiv (eRows d) 32 ≤ ij.1 ∨ ceilDiv (eCols d) 64 ≤ ij.2 then vNext v s
        else
          let b := tileBlocks d (fun r c =>
            if m.getLsbD (64 * r + c) && decide (32 * ij.1 + r < eRows d ∧ 64 * ij.2 + c < eCols d) then f32val (lane t (64 * r + c))
            else .zero false)
          let w := tileArrive i.task a ij.1 ij.2 b.1 s
          let s := countTask i.task b.2 w.1
          if w.2 ≠ .ok then vFault v w.2.code s else vNext v s) s

/-! ### Starts and landing (R130, R133, R134, R150 to R153) -/

/-- An engine cleared for an instance (R130), and bound to its task (R22): its executor time for the slot runs from the first of
the tasks that it is bound to without a break (R191). -/
def clearVe (now : Nat) (i : VecInst) (e : VecEng) : VecEng :=
  { tiles := [], masks := [], topk := [], tables := [], slot := some i.task.slot, inst := some i
    since := if e.bound.isNone then now else e.since, bound := some i.task }

/-- Private scalars of a list of values. -/
def csOf (l : List (BitVec 64)) : Vector (BitVec 64) 64 := Vector.ofFn (fun (k : Fin 64) => l.getD k.val 0)

/-- Whether a paired instance is still to start on a vector engine. -/
def awaitsPair (s : State) (v : Fin 64) : Bool := (awaited s v).isSome

/-- An instance before its first instruction. -/
def VecInst.start (t : TaskRef) (n base count : Nat) (cs : Vector (BitVec 64) 64) : VecInst :=
  { task := t, instance_ := n, base := base, count := count, pc := 0, loop := none, cs := cs, paired := false, unit := 0,
    landBase := 0, landCnt := 0, landed := 0, released := 0, groups := 0, outRows := [], drained := false, descs := [],
    closing := false, closeCs := 0 }

/-- VECTOR_INSTANCE_START (R133, R134). -/
def doInstance (t : TaskRef) (v : Fin 64) (s : State) : State :=
  let e := entryOf s t
  match e.st, e.run with
  | .running, .vector n d tot cs back =>
    if tot ≤ n || unitDie v != t.die || s.ves[v].inst.isSome || !veFor s t.slot v || awaitsPair s v || !inP0P1 s then s
    else
      let i := VecInst.start t n (vBase e.desc) (vInstr e.desc)
        (((csOf cs).set 62 (BitVec.ofNat 64 tot)).set 63 (BitVec.ofNat 64 n))
      let s := modEntry t (fun e => { e with run := .vector (n + 1) d tot cs back }) s
      modPower (Power.ask (.vector v)) (modVe v (clearVe s.clock.now i) s)
  | _, _ => s

/-- Place of a captured list of scalars among a task's records (R133). -/
def scalarKey (k : Nat) : Nat := 2 ^ 68 + k

/-- Scalars of a paired instance (R133, R151): the job context's as release captured them, and those that name the unit. -/
def pairScalars (e : Entry) (w : WorkUnit) (unit : Nat) : List (BitVec 64) :=
  (List.range 58).map (fun k => BitVec.ofNat 64 (capOf e (scalarKey k))) ++
    [BitVec.ofNat 64 (ceilDiv w.count 32), BitVec.ofNat 64 w.shape.tag, BitVec.ofNat 64 w.count, BitVec.ofNat 64 w.n0,
     BitVec.ofNat 64 w.first, BitVec.ofNat 64 unit]

/-- PAIRED_INSTANCE_START (R150, R151): for the first unit on the paired engine that waits for its instance. -/
def doPaired (v : Fin 64) (s : State) : State :=
  match awaited s v with
  | none => s
  | some (eng, u, e, w) =>
    if s.ves[v].inst.isSome || !veFor s u.task.slot v || !inP0P1 s then s
    else
      let d := capOf e (mOut0 e.desc)
      let i : VecInst := { VecInst.start u.task 0 (vBase d) (vInstr d) (csOf (pairScalars e w u.unit)) with
        paired := true, unit := u.unit, landBase := vLandBase d, landCnt := vLandTiles d, groups := ceilDiv w.count 32 }
      let s := modPower (Power.ask (.vector v)) (modVe v (clearVe s.clock.now i) s)
      let u := { u with pair := 1 }
      let s := putUnit eng u s
      vReap v (if u.ended && !u.waitParts then handRows eng u s else s)

/-- The four tiles of a landing group (R152). -/
def landTiles (rows : List (List F32)) (g : Nat) : List Tile :=
  (List.range 4).map (fun j => (List.range laneCount).map (fun l => (rows.getD (32 * g + l / 64) []).getD (64 * j + l % 64) 0))

/-- LANDING_GROUP_LAND: the next group lands once its tiles are released (R152, R153). -/
def doLand (v : Fin 64) (s : State) : State :=
  match s.ves[v].inst with
  | none => s
  | some i =>
    let g := i.landed
    let n := i.landCnt / 4
    if !i.paired || !i.drained || decide (i.groups ≤ g) || (decide (n ≤ g) && !bitAt i.released (g - n)) then s
    else
      let first := i.landBase + 4 * (g % n)
      let s := forEach (List.zip (List.range 4) (landTiles i.outRows g)) (fun p st =>
        modVe v (setTile (BitVec.ofNat 5 (first + p.1)) p.2) st) s
      modInst v (fun i => { i with landed := g + 1 }) s

/-- LWAIT (R153): the instance stays at the instruction until the group has landed. -/
def doLwait (v : Fin 64) (f : VFields) (s : State) : State :=
  vExec v 0x70 f (fun i s =>
    let g := (i.getCs f.cs).toNat
    if i.groups ≤ g then vFault v stBOUND s else if g < i.landed then vNext v s else s) s

/-- LREL (R153). -/
def doLrel (v : Fin 64) (f : VFields) (s : State) : State :=
  vExec v 0x71 f (fun i s =>
    let g := (i.getCs f.cs).toNat
    vNext v (if g < i.groups then modInst v (fun i => { i with released := i.released ||| 2 ^ g }) s else s)) s

/-! ### Control -/

/-- LOOP (R137, R138). -/
def doLoop (v : Fin 64) (f : VFields) (s : State) : State :=
  vExec v 0x7C f (fun i s =>
    let len := fld f.imm.toNat 11 0
    let n := (i.getCs f.cs).toNat % 2 ^ 32
    if i.loop.isSome || len = 0 || decide (i.count < i.pc + 1 + len) then vFault v stBAD_OPCODE s
    else if n = 0 then vReap v (modInst v (fun i => { i with pc := i.pc + 1 + len }) s)
    else modInst v (fun i => { i with pc := i.pc + 1, loop := some ⟨i.pc + 1, len, n⟩ }) s) s

/-- END (R136). -/
def doEnd (v : Fin 64) (f : VFields) (s : State) : State :=
  vExec v 0x7F f (fun _ s => vReap v (modInst v (fun i => { i with pc := i.count, loop := none }) s)) s

/-- SADD. -/
def doSadd (v : Fin 64) (f : VFields) (s : State) : State :=
  vExec v 0x7D f (fun _ s => vNext v (modInst v (fun i => i.setCs f.cs (i.getCs f.cs + f.imm.signExtend 64)) s)) s

/-- MPOP. -/
def doMpop (v : Fin 64) (f : VFields) (s : State) : State :=
  vExec v 0x22 f (fun _ s =>
    let n := (activeLanes (getMask s.ves[v] f.mask)).length
    vNext v (modInst v (VecInst.setCs f.cs (BitVec.ofNat 64 n)) s)) s

/-- Lanes of a mask register as a destination (R128). -/
def maskLanes (old m new : BitVec 2048) (mz : Bool) : BitVec 2048 := (new &&& m) ||| (if mz then 0 else old &&& ~~~m)

/-- TCMP. -/
def doTcmp (v : Fin 64) (f : VFields) (s : State) : State :=
  vExec v 0x20 f (fun _ s =>
    let e := s.ves[v]
    let i := f.imm.toNat
    let md := BitVec.ofNat 3 (fld i 5 3)
    let a := getTile e f.ta
    let b := getTile e f.tb
    let new := BitVec.ofNat 2048 ((List.range laneCount).foldr (fun l n =>
      2 * n + if f32test (fld i 2 0) (lane a l) (lane b l) then 1 else 0) 0)
    vNext v (modVe v (setMask md (maskLanes (getMask e md) (getMask e f.mask) new f.mz)) s)) s

/-- MOP. -/
def doMop (v : Fin 64) (f : VFields) (s : State) : State :=
  vExec v 0x21 f (fun _ s =>
    let e := s.ves[v]
    let i := f.imm.toNat
    let md := BitVec.ofNat 3 (fld i 5 3)
    let new := maskOp (fld i 2 0) (getMask e (BitVec.ofNat 3 (fld i 8 6))) (getMask e (BitVec.ofNat 3 (fld i 11 9)))
    vNext v (modVe v (setMask md (maskLanes (getMask e md) (getMask e f.mask) new f.mz)) s)) s

/-- The instruction that a word of a kernel is for an engine: its bits 63:56 pick the row of R137, and a word that R138 calls
undefined is none. -/
def vectorInstr (v : Fin 64) (w : BitVec 64) : Option Instr :=
  let op := fld w.toNat 63 56
  let f := vFieldsOf w.toNat
  if !vFieldsOk op f then none
  else match op with
    | 0x01 => some (.tld v f)
    | 0x02 => some (.tst v f)
    | 0x03 => some (.tsts v f)
    | 0x04 => some (.tmov v f)
    | 0x05 => some (.tbcast v f)
    | 0x06 => some (.trowb v f)
    | 0x07 => some (.tcolb v f)
    | 0x10 => some (.tadd v f)
    | 0x11 => some (.tsub v f)
    | 0x12 => some (.tmul v f)
    | 0x13 => some (.tfma v f)
    | 0x14 => some (.tmin v f)
    | 0x15 => some (.tmax v f)
    | 0x16 => some (.tdiv v f)
    | 0x17 => some (.tsqrt v f)
    | 0x18 => some (.tiadd v f)
    | 0x20 => some (.tcmp v f)
    | 0x21 => some (.mop v f)
    | 0x22 => some (.mpop v f)
    | 0x30 => some (.tfunc v f)
    | 0x31 => some (.tldft v f)
    | 0x40 => some (.trsum v f)
    | 0x41 => some (.trmax v f)
    | 0x42 => some (.tcsum v f)
    | 0x43 => some (.tcmax v f)
    | 0x50 => some (.tcomp v f)
    | 0x51 => some (.texpd v f)
    | 0x60 => some (.topk v f)
    | 0x61 => some (.topkx v f)
    | 0x62 => some (.topkrd v f)
    | 0x70 => some (.lwait v f)
    | 0x71 => some (.lrel v f)
    | 0x78 => some (.wopen v f)
    | 0x79 => some (.wloss v f)
    | 0x7A => some (.wclose v f)
    | 0x7B => some (.wverd v f)
    | 0x7C => some (.vLoop v f)
    | 0x7D => some (.sadd v f)
    | 0x7F => some (.vEnd v f)
    | _ => none

/-- VECTOR_UNDEFINED_OPCODE: the next word is not an instruction (R138). -/
def doUndefined (v : Fin 64) (w : BitVec 64) (s : State) : State :=
  match vReady s v with
  | none => s
  | some _ => if (vectorInstr v w).isSome then s else vFault v stBAD_OPCODE s

/-! ### The training watch (R165 to R168) -/

/-- WOPEN: the record of a step opens with the tally between steps (R165, R166). UPD tasks that became ready under a verdict
that drops them are dropped first (R168). -/
def doWopen (v : Fin 64) (f : VFields) (s : State) : State :=
  vExec v 0x78 f (fun i s =>
    let slot := i.task.slot
    let w := s.jobs[slot].watch
    if w.st ≠ .idle then vFault v stSTATE s
    else
      let r : WatchRec := { WatchRec.reset with
        step := i.getCs f.cs, nonfinite := satInc 0 w.tally.nonf, sat := satInc 0 w.tally.sat }
      let cfg := objBits s (jobKey oWATCH_CFG slot 0)
      let s := settleDrops slot (entryCount s slot) s
      vNext v (modWatch slot (fun w => { w with
        st := .opened, recNo := w.recNo + 1, cur := r, tally := Cnt.none, dropping := false, cfg := cfg }) s)) s

/-- WLOSS (R166). -/
def doWloss (v : Fin 64) (f : VFields) (s : State) : State :=
  vExec v 0x79 f (fun i s =>
    let slot := i.task.slot
    if s.jobs[slot].watch.st ≠ .opened then vFault v stSTATE s
    else
      let l := lane (getTile s.ves[v] f.ta) 0
      vNext v (modWatch slot (fun w => { w with cur := { w.cur with loss := l, lossReported := true } }) s)) s

/-- WCLOSE: the instance waits until the record is judged (R166). -/
def doWclose (v : Fin 64) (f : VFields) (s : State) : State :=
  vExec v 0x7A f (fun i s =>
    let slot := i.task.slot
    if s.jobs[slot].watch.st ≠ .opened then vFault v stSTATE s
    else
      let s := modWatch slot (fun w => { w with st := .closing }) s
      let s := modInst v (fun i => { VecInst.next i with closing := true, closeCs := f.cs }) s
      vReap v (settle slot s)) s

/-- WVERD (R166, R168). -/
def doWverd (v : Fin 64) (f : VFields) (s : State) : State :=
  vExec v 0x7B f (fun i s =>
    let slot := i.task.slot
    let w := s.jobs[slot].watch
    if w.st ≠ .held then vFault v stSTATE s
    else
      let given := BitVec.ofNat 2 (fld f.imm.toNat 1 0)
      let final := if w.localV.toNat < given.toNat then given else w.localV
      let s := modWatch slot (fun w => { w with last := { w.last with verdict := final, raised := decide (w.localV.toNat < given.toNat) } }) s
      vNext v (settle slot (applyVerdict slot (unitDie v) final s))) s

end Sys2Proof.Machine
end

