-- ==== Sys2Proof/Machine/Validate.lean ====
section
/-! DEFINITION. Validation of a task's operand area at release (R189): what every executor's chapter
refuses, in the order of its lists, and what release reads for the task. -/

namespace Sys2Proof.Machine

/-- A refusal at release: its code, its detail (R183), and the bytes whose read returned poison, if one did. -/
structure Unfit where
  code : BitVec 8
  detail : Nat
  poison : List (Nat × Nat)
  deriving DecidableEq, Repr

/-- A check: its value, or the refusal. -/
abbrev Chk := Except Unfit

/-- A condition of a check. -/
def need (b : Bool) (c : BitVec 8) : Chk Unit := if b then .ok () else .error ⟨c, 0, []⟩

/-- A check of one entry of a grouped task: a failure names the entry. -/
def Chk.at_ {α : Type} (i : Nat) (x : Chk α) : Chk α :=
  match x with
  | .ok a => .ok a
  | .error f => .error { f with detail := i }

/-- Read a record of a job. -/
def readRec (s : State) (slot : Fin 64) (addr n : Nat) : Chk Nat :=
  let x := jobNat s slot addr n
  if x.2 = .ok then .ok x.1 else .error ⟨x.2.code, 0, if x.2 = .integrity then [(addr, n)] else []⟩

/-- Collect the values of a check over a list. -/
def checkAll {α β : Type} (f : α → Chk β) : List α → Chk (List β)
  | [] => .ok []
  | a :: rest =>
    match f a with
    | .error e => .error e
    | .ok b =>
      match checkAll f rest with
      | .error e => .error e
      | .ok bs => .ok (b :: bs)

/-- What release learns of a task that passes: the records it read, the retained entries it reads and
writes, its run, and whether it completes at once. -/
structure Released where
  caps : AMap Nat Nat
  reads : List Nat
  writes : List Nat
  run : Run
  done : Bool
  deriving DecidableEq, Repr

/-- A task that reads nothing at release. -/
def Released.plain (run : Run) : Released := { caps := [], reads := [], writes := [], run := run, done := false }
/-- A task that completes at release. -/
def Released.nothing : Released := { Released.plain .idle with done := true }

/-- The descriptor of a template: its bases are ignored (R44, R86, R104, R661). -/
def templateArr (s : State) (slot : Fin 64) (addr : Nat) (written : Bool) : Chk Nat := do
  need (addr % 32 == 0) stBAD_FIELD
  let d ← readRec s slot addr 32
  need (arrRsvOk d && convOk (arrOf d).conv written) stBAD_FIELD
  pure d

/-- An array descriptor (R44, R86, R661). -/
def arrCheck (s : State) (slot : Fin 64) (addr : Nat) (written : Bool) : Chk Nat := do
  let d ← templateArr s slot addr written
  need ((arrOf d).elem % 64 == 0 && (!(arrOf d).blocked || (arrOf d).exp % 64 == 0)) stBAD_FIELD
  pure d

/-- A retained entry's descriptor at an address, with that of its fallback array (R44, R297). -/
def entryCheck (s : State) (slot : Fin 64) (addr : Nat) (written : Bool) : Chk Nat := do
  need (addr % 64 == 0) stBAD_FIELD
  let d ← readRec s slot addr 64
  need (entryDescOk addr d) stBAD_FIELD
  if eKind d = 1 then
    let _ ← arrCheck s slot (eFb d) written
  pure d

/-! ### Copy tasks (R349, R350) -/

/-- Sequence numbers that a FENCE covers (R351). -/
def fenceCovers (s : State) (slot : Fin 64) (d : Nat) : List (Fin 64 × BitVec 18 × BitVec 32) :=
  (s.jobs[slot].vmt.flows.filter (fun f => yScope d || f.1 == yNode d)).flatMap (fun f => f.2.out.map (fun o => (slot, f.1, o.seq)))

/-- Fields that an op of a copy task does not use are 0 (R350). -/
def copyUnused (d : Nat) : Bool :=
  let z := fun (used : List Nat) (x : Nat) => used.contains (yOp d) || x == 0
  z [2] (yB d) && z [2] (yA d) && z [2] (yAop d) && z [0, 1] (yLen d) && z [0, 1, 2, 3] (yRemote d) && z [0, 3] (yCtr d) &&
  z [0, 1, 2] (yLocal d) && z [0, 1, 2, 3, 4] (yNode d).toNat && z [4] (if yScope d then 1 else 0) &&
  z [0, 3] (if yFin d then 1 else 0) && z [0] (if yRsig d then 1 else 0)

/-- A copy task. -/
def validCopy (s : State) (t : TaskRef) (d : Nat) : Chk Released := do
  need (decide (yOp d ≤ 4) && !(yOp d == 2 && yAop d == 7) && copyUnused d && fld d 751 736 == 0 && fld d 717 712 == 0 &&
    fld d 702 512 == 0) stBAD_FIELD
  need (!(yOp d == 2) || (yLocal d % 8 == 0 && yRemote d % 8 == 0)) stBAD_FIELD
  need (!(yOp d == 0) || mapped s t.slot (yLocal d) (yLen d) true false) stBOUND
  need (!(yOp d == 1) || mapped s t.slot (yLocal d) (yLen d) false true) stBOUND
  need (!(yOp d == 2) || mapped s t.slot (yLocal d) 8 false true) stBOUND
  need ((yOp d == 4 && yScope d) || (nodeValid s && yNode d == ownNode s) || hasRoute s (yNode d)) stUNREACHABLE
  pure (Released.plain (if yOp d = 4 then .fence (fenceCovers s t.slot d) else .idle))

/-! ### Open tasks and rigger programs (R195, R197, R207) -/

/-- Argument k of an operand area. -/
def dArg (d k : Nat) : Nat := fld d (576 + 64 * k + 63) (576 + 64 * k)
/-- Kind of an open task. -/
def dKind (d : Nat) : Nat := fld d 993 992
def openRsvOk (d : Nat) : Bool := fld d 1007 994 == 0 && fld d 991 960 == 0 && fld d 575 560 == 0

/-- A WAIT task's own fields. -/
def waitOk (d : Nat) : Bool :=
  decide (dArg d 0 < 2 ^ 16) && decide (dArg d 1 < 2 ^ 32) && decide (dArg d 2 < 2 ^ 32) &&
  dArg d 3 == 0 && dArg d 4 == 0 && dArg d 5 == 0

/-- An open task. -/
def validOpen (s : State) (t : TaskRef) (d : Nat) : Chk Released := do
  need (openRsvOk d && dKind d != 3 && (dKind d == 1 || (dBudget d == 0 && dEntry d == 0)) && (dKind d != 1 || dEntry d % 4 == 0)) stBAD_FIELD
  if dKind d = 0 then pure Released.nothing
  else if dKind d = 1 then pure (Released.plain .routine)
  else
    need (waitOk d) stBAD_FIELD
    need (decide (dArg d 0 < ctrCount s t.slot)) stBOUND
    pure (Released.plain (.wait (dArg d 0) (BitVec.ofNat 32 (dArg d 1))
      (if dArg d 2 = 0 then none else some (s.clock.now + usTicks (dArg d 2)))))

/-- A rigger program. -/
def validRigger (d : Nat) : Chk Released := do
  need (openRsvOk d && dKind d == 0 && dEntry d % 4 == 0) stBAD_FIELD
  pure (Released.plain (.rigger none))

/-! ### Vector kernels (R131 to R133) -/

/-- The operand area of a vector kernel. -/
def vectorOk (d : Nat) : Bool :=
  fld d 959 928 == 0 && fld d 911 908 == 0 && fld d 903 896 == 0 && fld d 888 560 == 0 && vBase d % 8 == 0 &&
  (vWb d == 0 || vWidth d == 1) && decide (vLandBase d + vLandTiles d ≤ 32)

/-- A vector kernel task. -/
def validVector (s : State) (t : TaskRef) (d : Nat) : Chk Released := do
  need (vectorOk d) stBAD_FIELD
  if vInstr d = 0 then pure Released.nothing
  else pure (Released.plain (.vector 0 0 (vWidth d) (jobDie s t.slot t.die).cs.toList []))

/-! ### Collective steps (R419, R438, R441, R447, R327) -/

/-- Phases that an operation allows (R418, R226). -/
def phaseOk (op phase : Nat) : Bool :=
  match op with
  | 1 => decide (phase ≤ 1)
  | 2 => phase == 1
  | 3 => phase == 1
  | 4 => phase == 1
  | 5 => phase == 2
  | 6 => decide (phase ≤ 1)
  | 7 => phase == 0
  | 8 => phase == 0
  | 9 => phase == 0
  | 10 => phase == 1
  | 11 => phase == 1
  | _ => false

/-- Alignment of the descriptor of an operation. -/
def descAlign (op : Nat) : Nat := if op ≤ 4 ∨ 8 ≤ op then 128 else 64

/-- Fields that an operation does not use are 0 (R417, R419). -/
def collUnused (d : Nat) : Bool :=
  let op := cOp d
  let list := op == 2 || op == 3 || op == 6
  (decide (op ≤ 4) || cStep d == 0) && (op == 2 || cFmt d == 0) && (list || (cList d == 0 && cCount d == 0)) &&
  (op == 1 || (cExpBase d == 0 && cExpVal d == 0)) && fld d 959 902 == 0 && fld d 895 864 == 0 && fld d 695 512 == 0

/-- RING's own conditions (R438). -/
def validRing (s : State) (t : TaskRef) (d : Nat) : Chk Unit := do
  let k ← readRec s t.slot (cDesc d) 128
  let b0 ← readRec s t.slot (kBuf k false) 128
  let b1 ← readRec s t.slot (kBuf k true) 128
  need (bMode b0 == 0 && bMode b1 == 0 && kClass k == 0 && kDeadline k == 0) stBAD_FIELD
  let _ ← checkAll (fun i => readRec s t.slot (cList d + 32 * i) 32) (List.range (cCount d))
  need ((ringIndex s t.slot d).isSome) stBAD_FIELD

/-- Whether the sources of a GATHER cover the entry's rows in order (R441). That the element and exponent addresses of a source
may lie off a 64-byte boundary, as R441 states no refusal where R34 aligns arrays, is a DESIGN CHOICE (notes/assumptions/48). -/
def sourcesOk (rows : Nat) : List Nat → Nat → Bool
  | [], next => next == rows
  | e :: rest, next =>
    gsFirst e == next && gsFirst e % 32 == 0 && (rest.isEmpty || gsRows e % 32 == 0) && fld e 93 0 == 0 &&
      sourcesOk rows rest (next + gsRows e)

/-- A GATHER. -/
def validGather (s : State) (t : TaskRef) (d : Nat) : Chk Released := do
  let x ← entryCheck s t.slot (cDesc d) true
  need (eKind x == 1) stBAD_FIELD
  let es ← checkAll (fun i => readRec s t.slot (cList d + 32 * i) 32) (List.range (cCount d))
  need (sourcesOk (eRows x) es 0) stBAD_FIELD
  pure { Released.plain .idle with
    caps := (List.zip (List.range es.length) es).map (fun e => (cList d + 32 * e.1, e.2)), writes := [cDesc d] }

/-- An UPDATE (R327): it reads its descriptor and its groups' settings. A segment descriptor off 64 bytes is met when its
segment starts (R321). -/
def validUpdate (s : State) (t : TaskRef) (d : Nat) : Chk Released := do
  let x ← readRec s t.slot (cDesc d) 64
  need (decide (uCount x ≤ 65536) && fld x 382 0 == 0) stBAD_FIELD
  pure { Released.plain .idle with caps := (cDesc d, x) :: captureGroups s t.slot, done := uCount x == 0 }

/-- A PERMUTE (R444, R447). -/
def validPermute (s : State) (t : TaskRef) (d : Nat) : Chk Released := do
  let x ← readRec s t.slot (cDesc d) 64
  need (fld x 271 256 == 0 && fld x 231 0 == 0 && pmMoves x % 32 == 0 && pmSlotBase x % 4096 == 0 && pmScratch x % 4096 == 0 &&
    pmChunk x != 0) stBAD_FIELD
  need (mapped s t.slot (pmSlotBase x) (pmChunk x * pmSlots x) true true &&
    mapped s t.slot (pmScratch x) (pmChunk x * pmScratchSlots x) true true &&
    decide (ceilDiv (pmSlots x) 16 ≤ pmScratchSlots x)) stBOUND
  pure { Released.plain .idle with caps := [(cDesc d, x)] }

/-! ### Token exchange (R214, R216, R224, R226) -/

/-- RSV fields and reserved values of a token exchange descriptor. -/
def exchRsvOk (x : Nat) : Bool :=
  fld x 919 913 == 0 && fld x 846 845 == 0 && fld x 831 816 == 0 && fld x 767 763 == 0 && fld x 703 699 == 0 &&
  fld x 639 624 == 0 && fld x 575 560 == 0 && fld x 127 112 == 0 && fld x 63 0 == 0

/-- Alignment of the areas that a token exchange descriptor names (R661). -/
def exchAligned (x : Nat) : Bool :=
  xGroup x % 64 == 0 && xMap x % 64 == 0 && xLocal x % 64 == 0 && xRoute x % 64 == 0 && xMsg x % 64 == 0 && xCounts x % 32 == 0

/-- Formats of the rows that travel. -/
def rowFmtOk (c : Nat) : Bool :=
  (decide (convFmt c ≤ 4) || convFmt c == fF32 || convFmt c == fBF16) && convAxis c == 0 && convPieces c == 0 && convOk c true

/-- Formats of an output (R94). -/
def outFmtOk (a : Arr) : Bool := a.fmt != fAC32 && a.fmt != fVOTE2 && (convPieces a.conv == 0 || a.fmt == fBS8)

/-- What an exchange does with an array of rows: it only reads it, rows of row_conv land there, or it writes an output. -/
inductive RowUse where
  | read
  | land
  | out
  deriving DecidableEq, Repr

/-- An array of rows of an exchange (R44, R226). -/
def exchArr (s : State) (slot : Fin 64) (x addr rows : Nat) (use : RowUse) : Chk (Nat × Nat) := do
  let d ← arrCheck s slot addr (use != .read)
  let a := arrOf d
  if use = .out then need (outFmtOk a && !a.trans) stBAD_FIELD
  else need (a.fmt == convFmt (xConv x) && a.axis == 0 && !a.trans) stBAD_FIELD
  need (decide (rows ≤ a.rows ∧ xD x ≤ a.cols)) stBOUND
  pure (addr, d)

/-- Other running exchanges of the job on the die. -/
def otherExch (s : State) (t : TaskRef) (desc id : Nat) : Bool :=
  (jobDie s t.slot t.die).entries.any (fun p => p.1 != t.index.toNat && p.2.isExch &&
    (cDesc p.2.desc == desc || xId (xDesc p.2) == id))

/-- Entry i of a table of `w` bits each. -/
def tabAt (tab w i : Nat) : Nat := fld tab (w * i + w - 1) (w * i)

/-- A token exchange step. -/
def validExch (s : State) (t : TaskRef) (d : Nat) : Chk Released := do
  let slot := t.slot
  let x ← readRec s slot (cDesc d) 128
  need (decide (xPolicy x ≤ 1) && (xPolicy x == 1 || xRounds x == 1) && decide (xRounds x ≤ 15) && decide (xM x ≤ 16) &&
    exchRsvOk x && exchAligned x && decide (xExps x ≤ 65536 ∧ xD x ≤ 65536) && rowFmtOk (xConv x)) stBAD_FIELD
  need (decide (1 ≤ xG x ∧ xG x ≤ 4096)) stBOUND
  let grp ← readRec s slot (xGroup x) (4 * xG x)
  let ms := (List.range (xG x)).map (tabAt grp 32)
  need (ms.all (fun m => fld m 31 20 == 0) && (ms.filter (fun m => nodeValid s && fld m 17 0 == (ownNode s).toNat && fld m 19 18 == t.die.val)).length == 1)
    stBAD_FIELD
  need (decide (xNLocal x ≤ xLMax x)) stBAD_FIELD
  need (decide (xLMax x ≤ 1024)) stBOUND
  let loc ← readRec s slot (xLocal x) (64 * xNLocal x)
  let ls := (List.range (xNLocal x)).map (tabAt loc 512)
  need (ls.all (fun l => fld l 207 152 == 0 && fld l 127 20 == 0 && fld l 9 0 == 0 && lRmap l % 64 == 0) &&
    (ls.map lNum).eraseDups.length == ls.length) stBAD_FIELD
  let n := xTok x
  let own ← checkAll (fun (q : Nat × Nat × RowUse) => exchArr s slot x q.1 q.2.1 q.2.2)
    [(xSrc x, n, .read), (xStage x, n * xK x, .land), (xOut x, n, .out), (xBsrc x, n, .read), (xBstage x, n * xK x, .land),
     (xBout x, n, .out)]
  let theirs ← checkAll (fun (q : Nat × Nat × RowUse) => exchArr s slot x q.1 q.2.1 q.2.2)
    (ls.flatMap (fun l => [(lLand l, lCap l, .land), (lRet l, lCap l, .read), (lBland l, lCap l, .land), (lBret l, lCap l, .read)]))
  need (!otherExch s t (cDesc d) (xId x)) stSTATE
  if cOp d ≠ 8 then
    let recs ← checkAll (fun i => readRec s slot (xCounts x + 32 * i) 32) (List.range (xNLocal x) ++ [xLMax x])
    need (recs.all (fun r => rSeq r == xSeq x)) stSTATE
  pure { Released.plain .idle with
    caps := [(cDesc d, x), (grpTabKey (xGroup x), grp), (locTabKey (xLocal x), loc)] ++ own ++ theirs }

/-- INIT, REDUCE and CLOSE: release reads the bucket descriptor and the part list. What they hold is checked when the step or
the part starts (R189, R421, R436). -/
def validBucket (s : State) (t : TaskRef) (d : Nat) : Chk Unit := do
  let _ ← readRec s t.slot (cDesc d) 128
  let _ ← checkAll (fun i => readRec s t.slot (cList d + 32 * i) 32) (List.range (cCount d))

/-- A collective step. -/
def validColl (s : State) (t : TaskRef) (d : Nat) : Chk Released := do
  let op := cOp d
  need (phaseOk op (dPhase d)) stBAD_FIELD
  need (collUnused d && cFmt d ≤ 1) stBAD_FIELD
  need (cDesc d % descAlign op == 0 && cList d % 64 == 0) stBAD_FIELD
  need (decide (cCount d ≤ 4096)) stBOUND
  need (!((op == 3 || op == 6) && cCount d == 0)) stBAD_FIELD
  if op = 3 then
    validRing s t d
    pure (Released.plain .idle)
  else if op = 5 then validUpdate s t d
  else if op = 6 then validGather s t d
  else if op = 7 then validPermute s t d
  else if 8 ≤ op then validExch s t d
  else
    validBucket s t d
    pure (Released.plain .idle)

end Sys2Proof.Machine
end

