-- ==== Sys2Proof/Machine/ValidMatrix.lean ====
section
/-! DEFINITION. Validation of matrix, grouped matrix and sparse matrix tasks at release
(spec/03_matrix_engines.md R83 to R107, spec/07_sparse_operands.md R251 to R253). -/

namespace Sys2Proof.Machine

/-- RSV fields of the operand area of a matrix task or of a grouped one (R89, R90, R92, R104). -/
def matrixRsvOk (d : Nat) : Bool :=
  fld d 1023 992 == 0 && fld d 927 926 == 0 && fld d 919 917 == 0 && fld d 911 896 == 0 && fld d 895 888 == 0 &&
  fld d 879 868 == 0 && fld d 863 856 == 0 &&
  (if dOpcode d = 2 then fld d 863 845 == 0 && fld d 831 816 == 0
   else fld d 831 824 == 0 && fld d 799 792 == 0 && fld d 863 856 == 0)

/-- The control words of a matrix task (R90, R92, R98, R104, R247). -/
def matrixCtlOk (d : Nat) : Bool :=
  decide (mEngMax d ≤ 16) && decide (-64 ≤ mShift d ∧ mShift d ≤ 63) && mKind1 d != 3 && mKind0 d != 3 &&
  (mAccIn d || mAcc d == 0) && (mKind1 d != 0 || mOut1 d == 0) && !(mAccIn d && mSplit d != 1) &&
  (dOpcode d == 1 || (!mAccIn d && !mSparse d && mTable d % 64 == 0))

/-- Roles: block axis of a stored operand (R83). -/
def roleAxisOk (isA : Bool) (a : Arr) : Bool := !a.blocked || a.axis == (if kAlongRow isA a.trans then 0 else 1)

/-- Formats that the operand feed takes (R45). -/
def operandFmtOk (a : Arr) : Bool := isNativeFmt a.fmt || isFloatFmt a.fmt

/-- An output in an array of memory (R83, R94, R104). -/
def outCheck (s : State) (slot : Fin 64) (grouped : Bool) (addr : Nat) : Chk Nat := do
  let d ← if grouped then templateArr s slot addr true else arrCheck s slot addr true
  need (!(arrOf d).trans && outFmtOk (arrOf d)) stBAD_FIELD
  pure d

/-- The template of a paired vector engine (R150, R132). -/
def templateCheck (s : State) (t : TaskRef) (d : Nat) : Chk Nat := do
  need (mOut0 d % 128 == 0) stBAD_FIELD
  let x ← readRec s t.slot (mOut0 d) 128
  need (dOpcode x == 3 && dPhase x == dPhase d && dSlot x == t.slot.val && vWidth x == 1 && vWb x == 0 && vectorOk x) stBAD_FIELD
  pure x

/-- The scalars that a paired kernel's instances will copy (R133, R151). -/
def scalarCaps (s : State) (t : TaskRef) : AMap Nat Nat :=
  (List.range 58).map (fun k => (scalarKey k, ((jobDie s t.slot t.die).cs.toList.getD k 0).toNat))

/-- Records that the outputs of a task name. -/
def outCaps (s : State) (t : TaskRef) (d : Nat) : Chk (AMap Nat Nat) := do
  let c0 ← if mKind0 d = 0 then (do let x ← outCheck s t.slot (dOpcode d == 2) (mOut0 d); pure [(mOut0 d, x)])
    else if mKind0 d = 1 then (do let x ← entryCheck s t.slot (mOut0 d) true; pure [(mOut0 d, x)])
    else (do let x ← templateCheck s t d; pure ((mOut0 d, x) :: scalarCaps s t))
  let c1 ← if mKind1 d = 1 then (do let x ← outCheck s t.slot (dOpcode d == 2) (mOut1 d); pure [(mOut1 d, x)])
    else if mKind1 d = 2 then (do let x ← entryCheck s t.slot (mOut1 d) true; pure [(mOut1 d, x)])
    else pure ([] : AMap Nat Nat)
  pure (c0 ++ c1)

/-- An operand of a matrix task: an array, or a retained entry when bit 0 of its address is 1 (R295). -/
def operandCheck (s : State) (slot : Fin 64) (addr : Nat) : Chk (Nat × Nat) := do
  if addr % 2 = 1 then
    let d ← entryCheck s slot (addr - 1) false
    need (convFmt (eConv d) != fBS16) stBAD_FIELD
    pure (addr - 1, d)
  else
    let d ← arrCheck s slot addr false
    pure (addr, d)

/-- Whether outputs are written to arrays of memory, as far as a task has them. -/
def outArrays (d : Nat) (x : MShape) : List Arr :=
  (if mKind0 d = 0 then [x.o0] else []) ++ (if mKind1 d = 1 then [x.o1] else [])

/-- An output that is the array of the initial accumulators (R99). -/
def sameAcc (o : Arr) (acc : Option Arr) : Bool :=
  match acc with
  | some a => o.fmt == fEA40 && o.elem == a.elem && o.colsP == a.colsP
  | none => false

/-- Bytes of an operand. -/
def Opnd.bytes (s : State) (slot : Fin 64) (o : Opnd) : List (Nat × Nat) :=
  match o.entry with
  | some (a, _) => entryBytes s slot a
  | none => o.arr.ranges

/-- Retained entries that a task writes. -/
def outEntries (d : Nat) : List Nat := (if mKind0 d = 1 then [mOut0 d] else []) ++ (if mKind1 d = 2 then [mOut1 d] else [])

/-- Whether no output goes to a retained entry that is an operand or the other output (R99). -/
def entriesApart (d : Nat) (x : MShape) : Bool :=
  let outs := outEntries d
  let ins := [x.a.entry, x.b.entry].filterMap (fun o => o.map Prod.fst)
  outs.all (fun a => !ins.contains a) && outs.eraseDups.length == outs.length

/-- Overlaps that R99 refuses. For a grouped task they are looked for within each of its entries, one with skip set
included, and not between entries: a DESIGN CHOICE (notes/assumptions/45). -/
def overlapOk (s : State) (slot : Fin 64) (d : Nat) (x : MShape) : Bool :=
  let outs := outArrays d x
  let ins := x.a.bytes s slot ++ x.b.bytes s slot
  entriesApart d x && outs.all (fun o => !o.ranges.any (fun p => ins.any (rangesMeet p)) && (match x.acc with | some a => sameAcc o x.acc || !o.overlaps a | none => true)) &&
  (match outs with
    | [o0, o1] => !o0.overlaps o1
    | _ => true)

/-- Rows and columns that outputs in retained entries must have (R297). -/
def entryOutOk (caps : AMap Nat Nat) (d m n : Nat) : Bool :=
  let at_ := fun a => let e := caps.getD a 0; eRows e == m && eCols e == n
  (mKind0 d != 1 || at_ (mOut0 d)) && (mKind1 d != 2 || at_ (mOut1 d))

/-- Whether an operand covers its part of a product (R87). -/
def covers (isA : Bool) (a : Arr) (mn k : Nat) : Bool := decide (roleRows isA a.trans mn k ≤ a.rows ∧ roleCols isA a.trans mn k ≤ a.cols)

/-- The checks of one product against its operands and outputs (R45, R83, R87, R94, R98, R99). That acc_desc with trans = 1
is refused is a DESIGN CHOICE: the table of storage orientation has no row for it (notes/assumptions/45). -/
def shapeCheck (s : State) (slot : Fin 64) (caps : AMap Nat Nat) (d : Nat) (x : MShape) : Chk Unit := do
  need ((productCase x.a.arr.conv x.b.arr.conv).isSome && operandFmtOk x.a.arr && operandFmtOk x.b.arr &&
    roleAxisOk true x.a.arr && roleAxisOk false x.b.arr) stBAD_FIELD
  need (covers true x.a.arr x.m x.k && covers false x.b.arr x.n x.k) stBOUND
  need ((outArrays d x).all (fun o => decide (x.m ≤ o.rows ∧ x.n ≤ o.cols))) stBOUND
  need (entryOutOk caps d x.m x.n) stBOUND
  match x.acc with
  | some a =>
    need (a.fmt == fEA40 && !a.trans) stBAD_FIELD
    need (decide (x.m ≤ a.rows ∧ x.n ≤ a.cols)) stBOUND
  | none => pure ()
  need (overlapOk s slot d x) stBAD_FIELD

/-- Bytes of the merge area (R252). -/
def mergeBytes (sp n : Nat) : Nat := 1600 * ceilDiv n 256 * spRecs sp

/-- A sparse operand descriptor and its order table (R251, R252). -/
def sparseCheck (s : State) (slot : Fin 64) (d sp : Nat) (x : MShape) : Chk Unit := do
  need (fld sp 447 433 == 0 && fld sp 415 400 == 0 && fld sp 351 337 == 0 && fld sp 319 296 == 0 && fld sp 271 256 == 0 && fld sp 207 0 == 0)
    stBAD_FIELD
  need (isNativeFmt x.a.arr.fmt && isNativeFmt x.b.arr.fmt && convPieces x.a.arr.conv == 0 && convPieces x.b.arr.conv == 0 && !x.a.arr.trans) stBAD_FIELD
  need (covers true x.a.arr x.m x.k) stBOUND
  need (decide (spSolo sp ≤ 65536 ∧ spRecs sp ≤ 65536) && spMerge sp % 64 == 0 && spOrd sp % 64 == 0) stBAD_FIELD
  need (spOrd sp != 0 || (spMain sp == 0 && spSolo sp == 0 && spMerge sp == 0 && spRecs sp == 0)) stBAD_FIELD
  need (spOrd sp == 0 || ((outArrays d x).all (fun o => !o.blocked || o.axis == 0) && mKind0 d == 0 && decide (mKind1 d ≤ 1) && !mAccIn d))
    stBAD_FIELD
  let area := (spMerge sp, mergeBytes sp x.n)
  let others := x.a.bytes s slot ++ x.b.bytes s slot ++ (outArrays d x).flatMap Arr.ranges ++
    [(spOrd sp, 16 * (spMain sp + spSolo sp))]
  need (spRecs sp == 0 || !others.any (rangesMeet area)) stBAD_FIELD

/-- The run of a matrix task with the records that release read. -/
def matrixReleased (e : Entry) (caps : AMap Nat Nat) (reads : List Nat) : Released :=
  let d := e.desc
  let units := (unitsOf { e with caps := caps }).length
  { caps := caps, reads := reads
    writes := outEntries d
    run := .matrix 0 0 units [] none, done := units == 0 }

/-- Retained entries that a matrix task reads. -/
def matrixReads (d : Nat) : List Nat :=
  ((if mSparse d then [] else [mA d]) ++ [mB d]).filterMap (fun a => if a % 2 = 1 then some (a - 1) else none) |>.eraseDups

/-- A matrix task, dense or sparse: a product of size 0 completes before any descriptor is read (R91). -/
def validMatrix (s : State) (t : TaskRef) (e : Entry) : Chk Released := do
  let d := e.desc
  let slot := t.slot
  need (matrixRsvOk d && matrixCtlOk d) stBAD_FIELD
  need (decide (mSplit d ≤ (working s t.die).length) && (mEngMax d == 0 || decide (mSplit d ≤ mEngMax d))) stBOUND
  if mM d = 0 ∨ mN d = 0 ∨ mK d = 0 then pure Released.nothing
  else
    let a ← if mSparse d then (do
        need (mA d % 64 == 0) stBAD_FIELD
        let sp ← readRec s slot (mA d) 64
        let x ← arrCheck s slot (spArr sp) false
        pure [(mA d, sp), (spArr sp, x)])
      else (do let x ← operandCheck s slot (mA d); pure [x])
    let b ← operandCheck s slot (mB d)
    let o ← outCaps s t d
    let acc ← if mAccIn d then (do let x ← arrCheck s slot (mAcc d) false; pure [(mAcc d, x)]) else pure ([] : AMap Nat Nat)
    let caps : AMap Nat Nat := a ++ [b] ++ o ++ acc
    let x := plainShape { e with caps := caps }
    if mSparse d then sparseCheck s slot d (caps.getD (mA d) 0) x
    shapeCheck s slot caps d x
    pure (matrixReleased e caps (matrixReads d))

/-- RSV fields and alignment of a grouped table entry (R105). -/
def tableEntryOk (x : Nat) : Bool :=
  fld x 127 97 == 0 && [teA x, teAExp x, teB x, teBExp x, teO0 x, teO0Exp x, teO1 x, teO1Exp x].all (fun a => a % 64 == 0)

/-- A grouped matrix task: every entry is checked, and the first failing one is named (R106). -/
def validGrouped (s : State) (t : TaskRef) (e : Entry) : Chk Released := do
  let d := e.desc
  let slot := t.slot
  need (matrixRsvOk d && matrixCtlOk d) stBAD_FIELD
  need (decide (mCount d ≤ 4096)) stBOUND
  need (decide (mSplit d ≤ (working s t.die).length) && (mEngMax d == 0 || decide (mSplit d ≤ mEngMax d))) stBOUND
  if mCount d = 0 then pure Released.nothing
  else
    let a ← templateArr s slot (mA d) false
    let b ← templateArr s slot (mB d) false
    let o ← outCaps s t d
    let tab ← readRec s slot (mTable d) (64 * mCount d)
    let caps : AMap Nat Nat := [(tableKey (mTable d), tab), (mA d, a), (mB d, b)] ++ o
    let _ ← checkAll (fun i => Chk.at_ i (do
      need (tableEntryOk (tableEntry tab i)) stBAD_FIELD
      shapeCheck s slot caps d (groupedShape { e with caps := caps } i))) (List.range (mCount d))
    pure (matrixReleased e caps [])

/-- Validation of a task's operand area (R189). -/
def validate (s : State) (t : TaskRef) (e : Entry) : Chk Released :=
  match dOpcode e.desc with
  | 1 => validMatrix s t e
  | 2 => validGrouped s t e
  | 3 => validVector s t e.desc
  | 4 => validCopy s t e.desc
  | 5 => validColl s t e.desc
  | 6 => validRigger e.desc
  | _ => validOpen s t e.desc

end Sys2Proof.Machine
end

