-- ==== Sys2Proof/Machine/Executors.lean ====
section
/-! DEFINITION. Executors: which units are free for a task (R22, R96, R132, R207, R213) and how the jobs share them
(spec/05_tasks_stroke_riggers.md R191, R192). -/

namespace Sys2Proof.Machine

/-! ### Free units -/

/-- Executor class of a task (R175, R418): 1 matrix engines, 2 vector engines, 3 Copy Engine, 4 Token
Exchange Engine, 5 rigger cores, 6 the Task Scheduler and the stroke core. -/
def execClass (d : Nat) : Nat :=
  match dOpcode d with
  | 1 => 1
  | 2 => 1
  | 3 => 2
  | 4 => 3
  | 5 => if 8 ≤ cOp d then 4 else 3
  | 6 => 5
  | _ => 6

/-- Vector engines of a die that no instance holds and none is owed to a paired unit: those bound to no task, or to one of a
job. -/
def idleVes (s : State) (die : Fin 4) (slot : Option (Fin 64)) : Nat :=
  ((List.finRange 64).filter (fun v =>
    unitDie v == die && s.ves[v].inst.isNone && !awaitsPair s v && decide (s.ves[v].bound.map (·.slot) = slot))).length

/-- Instances of the released tasks of a job that have not started (R132). -/
def instancesOwed (s : State) (die : Fin 4) (slot : Fin 64) : Nat :=
  ((jobDie s slot die).entries.map (fun p =>
    match p.2.st, p.2.run with
    | .running, .vector n _ tot _ _ => tot - n
    | _, _ => 0)).foldl (· + ·) 0

/-- Vector engines of a die that a job may take: no instance holds them, no released task will take them, and they are not bound
to a task of another job (R22, R132). -/
def freeVes (s : State) (slot : Fin 64) (die : Fin 4) : Nat :=
  let others := ((allSlots.filter (· != slot)).map (fun i => instancesOwed s die i - idleVes s die (some i))).foldl (· + ·) 0
  idleVes s die none + idleVes s die (some slot) - (instancesOwed s die slot + others)

/-- Rigger programs released and not yet on a core, of one job or of all. -/
def riggersOwed (s : State) (die : Fin 4) (slot : Option (Fin 64)) : Nat :=
  ((allSlots.filter (fun i => slot.isNone || slot == some i)).map (fun i =>
    ((jobDie s i die).entries.filter (fun p => p.2.st == .running && p.2.run == .rigger none)).length)).foldl (· + ·) 0

/-- Whether a rigger core is free that the job may take (R207). -/
def riggerFree (s : State) (slot : Fin 64) (die : Fin 4) : Bool :=
  let free := ((List.finRange 64).filter (fun r => unitDie r == die && (s.rigs[r].task).isNone)).length
  decide (riggersOwed s die none < free) &&
  (riggerMax s slot == 0 || decide (riggersHeld s slot die + riggersOwed s die (some slot) < riggerMax s slot))

/-- Whether the stroke core of a die can take another routine task of a job (R213). -/
def routineFree (s : State) (slot : Fin 64) (die : Fin 4) : Bool :=
  (jobDie s slot die).routine.isNone && (jobDie s slot die).queue.isEmpty

/-- Whether a task's executor class has a free unit for its job (R22, R132, R207, R213). -/
def unitFree (s : State) (t : TaskRef) (d : Nat) : Bool :=
  match execClass d with
  | 1 => (dieEngines t.die).any (engineFree s t.slot t.die)
  | 2 => decide (vWidth d ≤ freeVes s t.slot t.die)
  | 3 => allSlots.all (fun i => i == t.slot || !usesEngine s i t.die Entry.usesCopy)
  | 4 => allSlots.all (fun i => i == t.slot || !usesEngine s i t.die Entry.usesExch)
  | 5 => riggerFree s t.slot t.die
  | _ => dKind d != 1 || routineFree s t.slot t.die

/-! ### Matrix units (R82, R96, R101, R102) -/

/-- Whether the vector engine paired with an engine serves a job or can: an instance of the job runs on it, a unit of the
job waits for one there, or it is free and not owed to a released task (R96, R132). -/
def pairFree (s : State) (slot : Fin 64) (e : Fin 68) : Bool :=
  let v := pairOf s e
  match s.ves[v].inst with
  | some i => i.task.slot == slot
  | none => veFor s slot v && (awaitsPair s v || decide (0 < freeVes s slot (unitDie v)))

/-- Whether an engine can take a part of a unit of a task (R81, R96). -/
def partFree (s : State) (t : TaskRef) (d : Nat) (e : Fin 68) : Bool :=
  engineFree s t.slot t.die e && (mKind0 d != 2 || pairFree s t.slot e)

/-- The engines on which the parts of a unit start together, part 0 on `eng`, when there are as many (R101). -/
def partEngines (s : State) (t : TaskRef) (d : Nat) (parts : Nat) (eng : Fin 68) : Option (List (Fin 68)) :=
  let others := (dieEngines t.die).filter (fun e => e != eng && partFree s t d e)
  let engs := eng :: others.take (parts - 1)
  if partFree s t d eng && engs.length == parts &&
      (mEngMax d == 0 || decide ((heldBy s t ++ engs).eraseDups.length ≤ mEngMax d)) then some engs else none

/-- The next unit of a task with the engines on which its parts can start, part 0 on `eng`. -/
def unitOn (s : State) (t : TaskRef) (eng : Fin 68) : Option (Nat × WorkUnit × List (Fin 68)) :=
  let e := entryOf s t
  if e.st = .running then
    (nextUnit e.run).bind (fun u => ((unitsOf e)[u]?).bind (fun w =>
      (partEngines s t e.desc w.parts eng).map (fun engs => (u, w, engs))))
  else none

/-! ### Shares (R191, R192) -/

/-- Executor time that a job's tasks have used on a die: what is counted, and what the units bound to its tasks have spent since
(R191). -/
def usedTime (s : State) (slot : Fin 64) (die : Fin 4) : Nat :=
  let now := s.clock.now
  let sum := fun (l : List Nat) => l.foldl (· + ·) 0
  let d := jobDie s slot die
  d.use + (d.copySince.map (now - ·)).getD 0 + (d.exchSince.map (now - ·)).getD 0 +
  sum (((dieEngines die).filter (fun e => (s.engines[e].bound.map (·.slot)) == some slot)).map (fun e => now - s.engines[e].since)) +
  sum (((List.finRange 64).filter (fun v => unitDie v == die && (s.ves[v].bound.map (·.slot)) == some slot)).map (fun v => now - s.ves[v].since)) +
  sum (((List.finRange 64).filter (fun r => unitDie r == die && (s.rigs[r].task.map (·.slot)) == some slot)).map (fun r => now - s.rigs[r].since))

/-- Weight of a job (R192). -/
def weightOf (s : State) (slot : Fin 64) : Nat := jobFld s oJOB_SCHED slot 0 159 144

/-- Whether an executor of a die is offered to job `i` before job `j`: its use divided by its weight is less, or it is the
lower slot of two that tie (R191). -/
def lighter (s : State) (die : Fin 4) (i j : Fin 64) : Bool :=
  let a := usedTime s i die * weightOf s j
  let b := usedTime s j die * weightOf s i
  decide (a < b ∨ (a = b ∧ i < j))

end Sys2Proof.Machine
end

