-- ==== Sys2Proof/Machine/Release.lean ====
section
/-! DEFINITION. Release and completion of tasks (spec/05_tasks_stroke_riggers.md R186 to R197, R205). -/

namespace Sys2Proof.Machine

/-! ### The conditions of a release (R189) -/

/-- What the watch does with an UPD task that is ready (R166). -/
inductive UpdGate where
  | go
  | hold
  | drop
  deriving DecidableEq, Repr

/-- The watch's rule for UPD tasks. -/
def updGate (w : Watch) : UpdGate :=
  match w.st with
  | .idle => if w.dropping then .drop else .go
  | .held => .hold
  | _ => if wEnable w.cfg then .hold else .go

/-- The moment at which an entry became READY. -/
def Entry.readyAt (e : Entry) : Option Nat :=
  match e.st with
  | .ready n => some n
  | _ => none

/-- Whether the phase barrier allows a task (R193). -/
def barrierOk (s : State) (slot : Fin 64) (d : Nat) : Bool := dPhase d != 1 || (tagOf s slot (dTag d)).st == .bwd

/-- Whether the watch holds a task (R166). -/
def watchHolds (s : State) (slot : Fin 64) (d : Nat) : Bool := dPhase d == 2 && updGate s.jobs[slot].watch == .hold

/-- Whether the watch drops a task (R166, R168). -/
def watchDrops (s : State) (slot : Fin 64) (d : Nat) : Bool := dPhase d == 2 && updGate s.jobs[slot].watch == .drop

/-- The conditions of R189 on a READY task. A task with skip set, or that the watch drops, needs no unit. -/
def releasable (s : State) (t : TaskRef) (e : Entry) : Bool :=
  e.readyAt.isSome && jobSt s t.slot == .running && releaseAllowed s && barrierOk s t.slot e.desc && !watchHolds s t.slot e.desc &&
  (dSkip e.desc || watchDrops s t.slot e.desc || unitFree s t e.desc)

/-- Order of a job's claims on an executor: prio, then the moment of READY, then the index (R190). -/
def comesBefore (i j : Nat) (a b : Entry) : Bool :=
  let p := dPrio a.desc
  let q := dPrio b.desc
  let x := a.readyAt.getD a.stamp
  let y := b.readyAt.getD b.stamp
  decide (q < p ∨ (p = q ∧ (x < y ∨ (x = y ∧ i < j))))

/-- Whether an entry claims a unit of an executor class: a READY task that can be released, or, of the matrix engines, a
RUNNING task that can start a unit (R191). `on` says which engines count. A vector task that waits for more engines than are
free claims none, so a narrower one of lower prio may pass it: DESIGN CHOICE, R190 does not say (notes/assumptions/43). -/
def claims (s : State) (cls : Nat) (on : Fin 68 → Bool) (t : TaskRef) (e : Entry) : Bool :=
  execClass e.desc == cls && !dSkip e.desc && !watchDrops s t.slot e.desc &&
  ((releasable s t e && (cls != 1 || (dieEngines t.die).any (fun g => on g && engineFree s t.slot t.die g))) ||
   (cls == 1 && (dieEngines t.die).any (fun g => on g && (unitOn s t g).isSome)))

/-- The claims of a job on a die for a unit of an executor class. -/
def claimsOf (s : State) (cls : Nat) (on : Fin 68 → Bool) (slot : Fin 64) (die : Fin 4) : List (Nat × Entry) :=
  (jobDie s slot die).entries.filter (fun p => claims s cls on ⟨slot, die, BitVec.ofNat 16 p.1⟩ p.2)

/-- Whether no claim comes before a task's: none of its own job by the order of R190, and, of the classes that have executor
units, none of a job with less weighted use (R191; notes/assumptions/43). -/
def isFirst (s : State) (on : Fin 68 → Bool) (t : TaskRef) (e : Entry) : Bool :=
  let cls := execClass e.desc
  !(claimsOf s cls on t.slot t.die).any (fun p => p.1 != t.index.toNat && comesBefore p.1 t.index.toNat p.2 e) &&
  (cls == 6 || !allSlots.any (fun i => i != t.slot && lighter s t.die i t.slot && !(claimsOf s cls on i t.die).isEmpty))

/-! ### Release -/

/-- TASK_RELEASE trace record and event. -/
def traceRelease (t : TaskRef) (d : Nat) (s : State) : State :=
  pmuCount t.die (some t.slot) 0x050 1 1
    (trace (some t.slot) t.die 0 0x10 (dCookie d <<< 128 + (dGen d).toNat <<< 18 + taskName t) s)

/-- A refusal at release (R183, R209). -/
def refuseRelease (t : TaskRef) (code : BitVec 8) (detail : Nat) (s : State) : State := taskFault t 0x03 code detail s

/-- A refusal of a task's operand area: the controllers record a read that returned poison (R282, R290). -/
def refuseUnfit (t : TaskRef) (f : Unfit) (s : State) : State :=
  refuseRelease t f.code f.detail (if f.poison = [] then s else noteReads t.slot f.poison s)

/-- The first entry that a reader cannot have, and why (R302). -/
def checkReads (slot : Fin 64) : List Nat → State → State × Option (Nat × ReadCheck)
  | [], s => (s, none)
  | a :: rest, s =>
    let r := readerCheck slot a s
    if r.2 = .ok then checkReads slot rest r.1 else (r.1, some (a, r.2))

/-- Open the entries that a task writes; the first refusal's entry and code (R302). -/
def openWrites (t : TaskRef) : List Nat → State → State × Option (Nat × BitVec 8)
  | [], s => (s, none)
  | a :: rest, s =>
    match openWriter t.slot a t s with
    | (s, none) => openWrites t rest s
    | (s, some c) => (s, some (a, c))

/-- Label of a retained entry, which records that name the entry carry as detail (R296): in a grouped task as well, for which
R183 gives the number of a grouped entry (DESIGN CHOICE, notes/assumptions/43). -/
def labelOf (s : State) (slot : Fin 64) (a : Nat) : Nat := eLabel (jobNat s slot a 64).1

/-- A task that names an absent entry waits for the recompute routine (R205). -/
def holdForRecompute (t : TaskRef) (d a : Nat) (s : State) : State :=
  if recompEntry s t.slot t.die = 0 then refuseRelease t stNO_RESOURCE (labelOf s t.slot a) s
  else
    addDepIn t.slot t.die 1
      (modDie t.slot t.die (fun k => { k with queue := k.queue ++ [.recompute t.index.toNat (dGen d) a] })
        (modEntry t (fun e => { e with st := .waiting 1 }) s))

/-- What follows a task's entry into RUNNING. -/
def afterRelease (t : TaskRef) (r : Released) (s : State) : State :=
  if r.done then settle t.slot (completeCore t true s)
  else
    match r.run with
    | .routine => modDie t.slot t.die (fun k => { k with queue := k.queue ++ [.task t.index.toNat] }) s
    | .wait n _ _ =>
      let v := counterVal s t.slot n
      if v.2 = .ok then settle t.slot s else unitFault t v.2.code n (noteCounter t.slot n v.2.code s)
    | _ => s

/-- A task that passed validation is released. -/
def startTask (t : TaskRef) (e : Entry) (r : Released) (s : State) : State :=
  let w := s.jobs[t.slot].watch
  let s := modEntry t (fun x => { x with
    st := .running, run := r.run, stamp := e.readyAt.getD 0, caps := r.caps, reads := r.reads, watchRec := if w.st = .opened then some w.recNo else none }) s
  afterRelease t r (serveTime t.slot t.die (traceRelease t e.desc s))

/-- Release of a task that runs: validation, the entries it names, and its start (R189). -/
def releaseRun (t : TaskRef) (e : Entry) (s : State) : State :=
  match validate s t e with
  | .error f => refuseUnfit t f s
  | .ok r =>
    match checkReads t.slot r.reads s with
    | (s, some (a, .absent)) => holdForRecompute t e.desc a s
    | (s, some (a, _)) => refuseRelease t stSTATE (labelOf s t.slot a) s
    | (s, none) =>
      match openWrites t r.writes s with
      | (_, some f) => refuseRelease t f.2 (labelOf s t.slot f.1) s
      | (s, none) => startTask t e r s

/-- TASK_RELEASE (R189, R190). -/
def doRelease (t : TaskRef) (s : State) : State :=
  let e := entryOf s t
  if !releasable s t e then s
  else if watchDrops s t.slot e.desc then settle t.slot (dropUpd t s)
  else if dSkip e.desc then settle t.slot (completeCore t false (traceRelease t e.desc s))
  else if isFirst s (fun _ => true) t e then releaseRun t e s
  else s

/-! ### Completion -/

/-- End the instances of a task that have nothing left to run. -/
def reapAll (t : TaskRef) (s : State) : State :=
  forEach (List.finRange 64) (fun v st => if (st.ves[v].inst.map (·.task)) = some t then vReap v st else st) s

/-- Whether a running task has done its work. -/
def workDone (s : State) (t : TaskRef) : Bool :=
  let e := entryOf s t
  match e.st, e.run with
  | .running, .copy k => k.left == 0 && k.fail.isNone
  | .running, .fence covered => fenceMet s covered
  | .running, .coll k st aux => collFinished s t e.desc k st aux
  | .running, .exch _ _ => exchFinished s t
  | .running, .matrix n d tot back f => matrixFinished (.matrix n d tot back f)
  | .running, .vector _ d tot _ _ => d == tot
  | .running, .wait n th _ => let v := counterVal s t.slot n; v.2 == .ok && reached v.1 th
  | _, _ => false

/-- What a task still does when its work is done: a GATHER stores its tiles, an exchange its records or
its sums. The failure, if any. -/
def lastActs (t : TaskRef) (s : State) : State × Option (BitVec 8) :=
  let e := entryOf s t
  match e.run with
  | .coll _ _ _ =>
    if cOp e.desc = 6 then
      let r := gatherTiles t s
      (r.1, if r.2 = .ok then none else some r.2.code)
    else (s, none)
  | .exch _ _ => exchFinish t s
  | _ => (s, none)

/-- TASK_COMPLETE (R186): a task whose work is done releases its successors. -/
def doComplete (t : TaskRef) (s : State) : State :=
  let s := reapAll t s
  if workDone s t then
    match lastActs t s with
    | (s, some c) => unitFault t c 0 s
    | (s, none) => settle t.slot (completeCore t true s)
  else s

/-- TASK_RELEASE. -/
def execTaskRelease (slot : Fin 64) (die : Fin 4) (index : BitVec 16) (s : State) : Host.Outcome State Fault Refusal :=
  .next (doRelease ⟨slot, die, index⟩ s)
/-- TASK_COMPLETE. -/
def execTaskComplete (slot : Fin 64) (die : Fin 4) (index : BitVec 16) (s : State) : Host.Outcome State Fault Refusal :=
  .next (doComplete ⟨slot, die, index⟩ s)

end Sys2Proof.Machine
end

