-- ==== Sys2Proof/Machine/Tally.lean ====
section
/-! DEFINITION. Conservation promises and their records (spec/18_service_selftest_conservation.md R623
to R628). -/

namespace Sys2Proof.Machine

/-- A tally record before it is laid out (R627). -/
structure TallyRec where
  promise : Nat
  scope : Nat
  sumOnly : Bool
  lhs : Nat
  rhs : Nat
  deriving DecidableEq, Repr

/-- The 32 bytes of a record. -/
def TallyRec.bytes (r : TallyRec) (now : Nat) : List Byte :=
  leBytes 32 ((r.rhs % 2 ^ 64) <<< 192 + (r.lhs % 2 ^ 64) <<< 128 + (now % 2 ^ 64) <<< 64 +
    (if r.sumOnly then 1 else 0) <<< 32 + r.scope <<< 8 + r.promise)

/-- A local record that does not balance (R626). -/
def TallyRec.broken (r : TallyRec) : Bool := !r.sumOnly && r.lhs != r.rhs

/-- Credits of a CREW port (R404): what the port has issued to its partner since it entered UP, the full grant and each credit
freed since, against the credits that it has returned, those that the receive buffer holds, and those with the partner or in
flight: what was issued and no frame has yet come in on. A credit that came in and is neither freed nor held breaks the balance. -/
def creditRecs (s : State) (p : Fin 32) : List TallyRec :=
  [1, 2, 3, 4, 5].flatMap (fun vl => [false, true].map (fun cls =>
    let i := creditIdx (BitVec.ofNat 3 vl) cls
    let q := port s p
    let grant := creditGrant (portEntry s p) (BitVec.ofNat 3 vl)
    let issued := grant + q.credFreed[i].toNat
    ⟨1, p.val <<< 8 + vl <<< 5 + (if cls then 16 else 0), false, issued,
      q.credHeld[i].toNat + (issued - q.credIn[i].toNat) + q.credFreed[i].toNat⟩))

/-- Pages of a die (R289). -/
def pageRec (s : State) (die : Fin 4) : TallyRec :=
  let held := asHeld s die
  ⟨2, die.val, false, held.length + ((List.range 3072).filter (fun p => !held.contains p)).length, 3072⟩

/-- Power tokens (R524). -/
def powerRec (s : State) : TallyRec := ⟨3, 0, false, s.power.granted, s.power.returned + s.power.held⟩

/-- Requests of a job that are outstanding. -/
def outstandingCount (s : State) (slot : Fin 64) : Nat :=
  (s.jobs[slot].vmt.flows.map (fun f => f.2.out.length)).foldl (· + ·) 0

/-- Requests (R372, R623). -/
def requestRec (s : State) (slot : Fin 64) : TallyRec :=
  let t := s.jobs[slot].totals
  ⟨4, 0, false, t.reqSent, t.reqApplied + t.reqRefused + t.reqFailed + outstandingCount s slot⟩

/-- Increments of the job's arrival counters (R356). -/
def arrivalRec (s : State) (slot : Fin 64) : TallyRec :=
  ⟨8, 0, false, s.jobs[slot].totals.increments, s.jobs[slot].totals.signals⟩

/-- Pool pages that entries of a kind hold. -/
def entryPages (s : State) (slot : Fin 64) (gather : Bool) : Nat :=
  ((s.jobs[slot].stash.entries.filter (fun e => e.2.gather == gather)).map (fun e => e.2.pages.length)).foldl (· + ·) 0

/-- Pages of the two pools (R305). -/
def stashRecs (s : State) (slot : Fin 64) : List TallyRec :=
  let t := s.jobs[slot].stash
  [⟨9, 0, false, entryPages s slot false + (stashPages s slot - t.stashUsed.toNat), stashPages s slot⟩,
   ⟨9, 1, false, entryPages s slot true + (gatherPages s slot - t.gatherUsed.toNat), gatherPages s slot⟩]

/-- Counts that the WAITING tasks of a job on a die hold. -/
def countsHeld (s : State) (slot : Fin 64) (die : Fin 4) : Nat :=
  ((jobDie s slot die).entries.map (fun e => match e.2.st with | .waiting n => n | _ => 0)).foldl (· + ·) 0

/-- Dependences of a die (R623). -/
def depRec (s : State) (slot : Fin 64) (die : Fin 4) : TallyRec :=
  let t := s.jobs[slot].totals
  ⟨10, die.val, false, t.depIn[die], t.depOut[die] + countsHeld s slot die⟩

/-- Records of one promise of a job. -/
def jobRecs (s : State) (slot : Fin 64) (p : Nat) : List TallyRec :=
  let t := s.jobs[slot].totals
  match p with
  | 4 => [requestRec s slot]
  | 5 => [⟨5, 0, true, t.offered, t.landed + t.dropped⟩]
  | 6 => [⟨6, 0, true, t.rowsSent, t.rowsLanded⟩]
  | 7 => [⟨7, 0, true, t.produced, t.accumulated + t.carried + t.contribDropped⟩]
  | 8 => [arrivalRec s slot]
  | 9 => stashRecs s slot
  | 10 => allDies.map (depRec s slot)
  | _ => []

/-- Records of one promise of the device. -/
def deviceRecs (s : State) (p : Nat) : List TallyRec :=
  match p with
  | 1 => (allPorts.filter (fun q => isCrew s q && (port s q).st.live)).flatMap (creditRecs s)
  | 2 => allDies.map (pageRec s)
  | 3 => [powerRec s]
  | _ => []

/-- Records that a mask selects, in ascending promise (R626). -/
def tallyRecs (s : State) (slot : Option (Fin 64)) (mask : Nat) : List TallyRec :=
  ((List.range 10).filter (bitAt mask)).flatMap (fun b =>
    match slot with
    | some i => jobRecs s i (b + 1)
    | none => deviceRecs s (b + 1))

/-- Error log records of what does not balance (R625, R626). -/
def logMismatches (slot : Option (Fin 64)) (rs : List TallyRec) (s : State) : State :=
  forEach (rs.filter TallyRec.broken) (fun r st => logError 0x08 slot r.promise (r.scope <<< 8) st) s

/-- The audit of a slot that enters SCRUBBING (R625). -/
def auditSlot (slot : Fin 64) (s : State) : State :=
  logMismatches (some slot) ([4, 8, 9, 10].flatMap (jobRecs s slot)) s

end Sys2Proof.Machine
end

