-- ==== Sys2Proof/Machine/Teardown.lean ====
section
/-! DEFINITION. The ends of jobs: teardown, scrubbing, the task-table reset and what a warm reset
leaves (spec/10_fabric_transport.md R371, R372; spec/05_tasks_stroke_riggers.md R211, R212;
spec/16_host_mailbox.md R559, R560; spec/17_reset_clocks_straps.md R588), with the measurement
registers and the close of debug sessions. -/

namespace Sys2Proof.Machine

/-! ### Measurements and debug sessions -/

/-- Change the Umpire's state. -/
def modSec (f : Security → Security) (s : State) : State := { s with sec := f s.sec }

/-- Bytes of a measurement register. -/
def measBytes (m : BitVec 384) : List Byte := leBytes 48 m.toNat

/-- Extend a measurement register: SHA-384 of its old value followed by the data (R490). -/
def extend (k : Fin 6) (data : List Byte) (s : State) : State :=
  modSec (fun c => { c with meas := c.meas.set k (Config.sha384 (measBytes c.meas[k] ++ data)) }) s

/-- Extend register 5 with a change of debug level and the token that authorised it (R490): the level
as one byte, then the token (DESIGN CHOICE, notes/assumptions/19). -/
def extendDebug (level : Nat) (token : List Byte) (s : State) : State := extend 4 (leBytes 1 level ++ token) s

/-- Resume the cores that a debug session holds halted: the stroke core context and the rigger programs of a slot, or all
(R528, R530). That a session's close resumes them is DEDUCED: no session is left that could (notes/assumptions/57). -/
def resumeCores (slot : Option (Fin 64)) (s : State) : State :=
  let go := fun (g : CoreRegs) => { g with halted := false }
  let s := forEach (allSlots.filter (fun i => slot.all (· == i))) (fun i st =>
    forEach allDies (fun d st => modDie i d (fun k => { k with regs := go k.regs }) st) st) s
  { s with rigs := s.rigs.map (fun r => if slot.all (fun i => r.slot == some i) then { r with regs := go r.regs } else r) }

/-- Resume every core of the device, the Cox among them. -/
def resumeAll (s : State) : State := let s := resumeCores none s; { s with cox := { s.cox with halted := false } }

/-- Close a slot's D2 session, if one is open (R533). -/
def closeD2 (slot : Fin 64) (s : State) : State :=
  match s.sec.d2[slot] with
  | none => s
  | some _ =>
    let s := resumeCores (some slot) (modSec (fun c => { c with d2 := c.d2.set slot none }) s)
    logEvent 0x09 (some slot) 2 2 (extendDebug 0 [] s)

/-- End every SPDM session (R533, R538). -/
def endSessions (s : State) : State := modSec (fun c => { c with sessions := Vector.replicate 4 none }) s

/-- Close the D1 or D3 session, if one is open (R533). -/
def closeDebug (s : State) : State :=
  match s.sec.debug with
  | none => s
  | some d =>
    let s := endSessions (modSec (fun c => { c with debug := none }) (if d.level = 3 then resumeAll s else s))
    logEvent 0x09 none d.level.toNat d.signer.toNat (extendDebug 0 [] s)

/-- Close every D2 session. -/
def closeAllD2 (s : State) : State := forEach allSlots closeD2 s

/-- D3 is open. -/
def d3Open (s : State) : Bool := match s.sec.debug with | some d => d.level == 3 | none => false

/-! ### Teardown (R371) -/

/-- Whether a waiting frame is a packet of a job of this device: one that goes through for another node is not. -/
def ownsFrame (id : BitVec 20) (f : QueuedFrame) : Bool :=
  match f.body with
  | .own _ _ pkt => pkt.jobId == id
  | .vmt _ pkt => !f.shim.transit && pkt.jobId == id
  | .other _ _ _ _ => false

/-- Own frames of a job that wait at a port are discarded. -/
def dropQueued (id : BitVec 20) (s : State) : State :=
  { s with fabric := { s.fabric with
      ports := s.fabric.ports.map (fun q => { q with
        queue := q.queue.filter (fun f => !ownsFrame id f) }) } }

/-- Steps 1 to 3: what the transport holds of the job ends; unanswered requests have failed (R372). The requests that it held
are dropped unanswered, and counted as those that come while it is torn down (R371, R472; DEDUCED, notes/assumptions/41). -/
def dropTransport (slot : Fin 64) (s : State) : State :=
  let n := outstandingCount s slot
  let s := match s.jobs[slot].vmt.jobId with
    | some id =>
      let s := dropQueued id s
      let mine := fun (h : Held) => h.arr.pkt.jobId == id
      let held := (s.fabric.hold.filter mine).length
      modVmtErr (fun e => { e with tornDrop := satInc e.tornDrop held })
        { s with fabric := { s.fabric with hold := s.fabric.hold.filter (fun h => !mine h) } }
    | none => s
  let s := { s with fabric := { s.fabric with cache := s.fabric.cache.filter (fun e => !(e.1.slot == slot)) } }
  modTotals slot (fun t => { t with reqFailed := t.reqFailed + n }) (modVmt slot (fun v => { v with flows := [] }) s)

/-- Every RUNNING task of a job stops without completion (R212). -/
def stopTasks (slot : Fin 64) (s : State) : State :=
  forEach allDies (fun die st =>
    let s := forEach ((jobDie st slot die).entries.filter (fun e => e.2.st == .running)) (fun e st =>
      let t : TaskRef := ⟨slot, die, BitVec.ofNat 16 e.1⟩
      modEntry t (fun x => { x with st := .faulted, run := .idle, caps := [], reads := [] }) (freeUnits t st)) st
    serveTime slot die (modDie slot die (fun d => { d with routine := none, queue := [], msgs := [] }) s)) s

/-- The engines' copies of a slot's keys are erased: the tables of the memory controllers and of the packet engines (R501). -/
def eraseTables (slot : Fin 64) (s : State) : State :=
  modSec (fun c => { c with
    memTables := c.memTables.map (fun t => t.set slot none)
    pktTables := c.pktTables.map (fun t => t.set slot none) }) s

/-- The Umpire loads the keys that a slot holds into the engines' tables (R501). -/
def loadTables (slot : Fin 64) (s : State) : State :=
  modSec (fun c => { c with
    memTables := c.memTables.map (fun t => t.set slot (c.jobKeys[slot].map (·.memKey)))
    pktTables := c.pktTables.map (fun t => t.set slot (c.jobKeys[slot].map (·.fabKey))) }) s

/-- The Umpire destroys a slot's keys (R502), and its transport counter with them (R483): the engines' copies go first (R501). -/
def destroyKeys (slot : Fin 64) (s : State) : State :=
  modVmt slot (fun v => { v with jobId := none, txc := 0 })
    (modSec (fun c => { c with jobKeys := c.jobKeys.set slot none, eph := c.eph.set slot none }) (eraseTables slot s))

/-- Record of a teardown in the job's event queues: the spec gives its status alone, so that the cause, the
detail, the name, the generation and the cookie are free values (notes/assumptions/20). -/
def tornRecords (slot : Fin 64) (s : State) : State :=
  forEach allDies (fun die st =>
    let a := draw st
    let b := draw a.2
    let v := (Config.freeValue a.1).toNat
    event slot die ⟨v % 256, stTORN, fld v 39 8, fld v 57 40, BitVec.ofNat 6 (fld v 63 58), (Config.freeValue b.1).toNat⟩ b.2) s

/-- The teardown of a job, to TORN (R371, R554, R538): its watch is IDLE and its record is discarded (R166). From EMPTY, TORN and SCRUBBING there is nothing
to tear down. -/
def tearJob (slot : Fin 64) (cause : BitVec 4) (s : State) : State :=
  match jobSt s slot with
  | .empty => s
  | .torn => s
  | .scrubbing => s
  | _ =>
    let s := modWatch slot (fun w => { w with st := .idle, cur := WatchRec.reset, last := WatchRec.reset }) (stopTasks slot (dropTransport slot s))
    let s := modJob slot (fun j => { j with buckets := [], landed := [] }) s
    let s := { s with mem := { s.mem with lines := s.mem.lines.filter (fun l => !(l.slot == slot)) } }
    let s := tornRecords slot s
    let s := setJob slot .torn (modCtl slot (fun c => { c with tearCause := cause }) s)
    let s := finishAll (fun c => c.slot == some slot) (.of stTORN) s
    faultDue (holdCheck (closeD2 slot (destroyKeys slot s)))

/-! ### Scrubbing (R560) -/

/-- Programmable counters lent to a slot are cleared and unlent (R476), each a return to its reset
values (R563). -/
def unlend (slot : Fin 64) (s : State) : State :=
  forEach (List.finRange 32) (fun i st =>
    let c := st.clock.pmu[i]
    if c.lent && c.slot == slot then
      objPut (devKey oPMU_CTR i.val) 0 { st with clock := { st.clock with pmu := st.clock.pmu.set i PmuCtr.reset } }
    else st) s

/-- The streams of a slot are disabled (R476). -/
def disableStreams (slot : Fin 64) (s : State) : State :=
  forEach allDies (fun d st =>
    let k := jobKey oTRACE slot d.val
    objPut k (setFld (objBits st k) 0 0 0) st) (modCtl slot (fun c => { c with streams := Vector.replicate 4 Stream.reset }) s)

/-- A slot enters SCRUBBING: its local promises are audited, its task entries are FREE, its retained entries EMPTY and its
streams disabled (R173, R302, R476, R625). -/
def enterScrub (slot : Fin 64) (s : State) : State :=
  let s := auditSlot slot s
  let s := unlend slot (modTasks slot (fun _ => JobTasks.reset) s)
  let s := modStash slot (fun t => { t with entries := [], stashUsed := 0, gatherUsed := 0 }) s
  setJob slot .scrubbing (disableStreams slot s)

/-- Units that hold a slot's data are cleared when another slot comes (R505); those of a slot whose
scrub ends are cleared now, since the slot number may come again. -/
def forgetSlot (slot : Fin 64) (s : State) : State :=
  { s with
    engines := s.engines.map (fun e => if e.slot = some slot then { e with slot := none, units := [], bound := none } else e)
    ves := s.ves.map (fun v => if v.slot = some slot then VecEng.reset else v)
    rigs := s.rigs.map (fun r => if r.slot = some slot then Rigger.reset else r) }

/-- Every instance of a slot returns to its reset value, with its generation 1 higher (R560, R563). -/
def resetObjects (slot : Fin 64) (s : State) : State :=
  let s := { s with objs := s.objs.map (fun o =>
    if o.1.owner = slot.succ then (o.1, { o.2 with bits := objReset s.rst.profile s.sec.macBase o.1 }) else o) }
  modCtl slot (fun c => { c with genBase := c.genBase + 1 }) s

/-- The scrub of a slot ends: its frames and pages are zero and free, and the slot is EMPTY. -/
def finishScrub (slot : Fin 64) (s : State) : State :=
  let s := forEach (ctl s slot).grants scrubFrames s
  let s := forEach allDies (fun die st => forEach ((ctl st slot).asAct[die] ++ (ctl st slot).asCache[die]) (fun p st => zeroAsPage die p st) st) s
  let s := modSec (fun x => { x with closed := x.closed &&& ~~~(1#64 <<< slot.val) }) (resetObjects slot (forgetSlot slot s))
  let c := ctl s slot
  let s := modJob slot (fun _ => { Job.reset with ctl := { JobCtl.reset with
    st := .scrubbing, incarnation := c.incarnation, genBase := c.genBase, revoking := c.revoking } }) s
  finishAll (fun b => b.work == .free slot) (.of stOK) (setJob slot .empty s)

/-- SCRUB_COMPLETE (R560). -/
def doScrubComplete (slot : Fin 64) (s : State) : State := if jobSt s slot = .scrubbing then finishScrub slot s else s

/-- The lowest revoked frame is scrubbed and free; FRAME_REVOKE replies after the last one (R569). -/
def doFrameScrub (slot : Fin 64) (s : State) : State :=
  match (ctl s slot).revoking with
  | [] => s
  | r :: rest =>
    let left := if r.2 ≤ 1 then rest else (r.1 + 1, r.2 - 1) :: rest
    let s := modCtl slot (fun c => { c with revoking := left }) (scrubFrames (r.1, 1) s)
    if left.isEmpty then finishAll (fun b => b.work == .revoke slot) (.of stOK) s else s

/-! ### The task-table reset (R211) -/

/-- A task leaves its tag at a reset (R193): a tag whose live counts become 0 returns to IDLE (R211). The tag of an UPD task
is ignored (R174). -/
def Tag.resetLeave (g : Tag) (phase : Nat) : Tag :=
  let h := g.leave phase
  if decide (phase < 2) && h.liveF == 0 && h.liveB == 0 then Tag.reset else h

/-- Free one entry: its tag, the count it held and its retained reads (R211, R623). -/
def resetEntry (t : TaskRef) (s : State) : State :=
  let e := entryOf s t
  match e.st with
  | .free _ => modEntry t (fun x => { x with st := .free 0 }) s
  | st =>
    let s := match st with | .waiting n => addDepOut t.slot t.die n s | _ => s
    let s := modTag t.slot (dTag e.desc) (fun g => g.resetLeave (dPhase e.desc)) s
    modEntry t (fun x => { x with st := .free 0, desc := 0, run := .idle, watchRec := none, caps := [], reads := [] }) s

/-- Free the WAITING, READY and FAULTED entries of a job on a die, and the early counts of its FREE
entries; `all` frees RUNNING entries as well (R211, R588). A recompute routine that runs or waits on the die is dropped: DESIGN
CHOICE, R205 and R211 do not say (notes/assumptions/43). -/
def resetTable (slot : Fin 64) (die : Fin 4) (all : Bool) (s : State) : State :=
  let s := modDie slot die (fun d => { d with routine := none, queue := [] }) s
  forEach ((jobDie s slot die).entries) (fun e st =>
    let t : TaskRef := ⟨slot, die, BitVec.ofNat 16 e.1⟩
    if e.2.st == .running then (if all then resetEntry t (freeUnits t st) else st) else resetEntry t st) s

/-! ### Warm reset (R588) -/

/-- A retained entry that was WRITING becomes ABSENT, and an ACT entry is counted (R298, R588). -/
def absentWriting (slot : Fin 64) (s : State) : State :=
  forEach (s.jobs[slot].stash.entries.filter (fun e => e.2.st == .writing)) (fun e st => dropEntry slot e.1 e.2 st) s

/-- A job whose keys survive a warm reset (R588): its CLOSE steps that wait end in fault as it leaves RUNNING (R425). Exchange
messages lie in job memory, which is kept (R228). -/
def surviveWarm (slot : Fin 64) (s : State) : State :=
  let s := if jobSt s slot = .running then faultClosers slot s else s
  let s := forEach allDies (fun die st => serveTime slot die (resetTable slot die true st)) s
  let s := modTasks slot (fun t => { t with
    tags := Vector.replicate 64 Tag.reset
    dies := t.dies.map (fun d => { d with regs := CoreRegs.reset }) }) s
  let s := modWatch slot (fun w => { w with st := .idle, cur := WatchRec.reset, tally := Cnt.none, dropping := false }) s
  let s := absentWriting slot s
  let s := { s with fabric := { s.fabric with cache := s.fabric.cache.filter (fun e => !(e.1.slot == slot)) } }
  match jobSt s slot with
  | .running => raiseCause (vfOf slot) 0 (setJob slot .paused s)
  | .draining => setJob slot .paused s
  | _ => s

end Sys2Proof.Machine
end

