-- ==== Sys2Proof/Machine/TimeOps.lean ====
section
/-! DEFINITION. Global time, its synchronisation, buoys and triggers
(spec/13_time_and_counters.md). Times of messages are in ticks of 2^-16. -/

namespace Sys2Proof.Machine

/-- Change the clock's state. -/
def modClock (f : Clock → Clock) (s : State) : State := { s with clock := f s.clock }

/-- Change global time's protocol state. -/
def modTime (f : TimeSt → TimeSt) (s : State) : State := modClock (fun c => { c with t := f c.t }) s

/-- Encoding of a state of global time (R456). -/
def ClockState.code : ClockState → Nat
  | .unset => 0
  | .free => 1
  | .locked => 2

/-- Fields of OBJ_TIME. -/
def tRole (s : State) : Nat := devFld s oTIME 0 257 256
def tUpValid (s : State) : Bool := devFld s oTIME 0 258 258 == 1
def tUpPort (s : State) : Fin 32 := Fin.ofNat 32 (devFld s oTIME 0 263 259)
def tDown (s : State) : Nat := devFld s oTIME 0 319 288
def tLimit (s : State) : Nat := devFld s oTIME 0 351 320
def tDomain (s : State) : Nat := devFld s oTIME 0 255 248

/-- Move global time to a state, with its records; a departure from LOCKED counts, and interrupts when
`quiet` is false (R453, R633). -/
def setClock (new : ClockState) (quiet : Bool) (s : State) : State :=
  let old := s.clock.t.st
  if old = new then s
  else
    let off := ofSigned 32 s.clock.t.offsetNs
    let s := modTime (fun t => { t with st := new, lockLosses := if old = .locked then satInc t.lockLosses 1 else t.lockLosses }) s
    let s := logEvent 0x0A none new.code (off <<< 32 + old.code) s
    let s := traceDev 5 0x42 (off <<< 32 + new.code <<< 4 + old.code) s
    if old = .locked && !quiet then raiseCause pf0 4 s else s

/-! ### Buoys and triggers -/

/-- Every stream: the four of the device and those of each slot. -/
def allScopes : List (Option (Fin 64)) := none :: allSlots.map some

/-- A buoy in every enabled stream (R466). -/
def buoyAll (s : State) : State :=
  forEach allScopes (fun sc st => forEach allDies (fun d st =>
    if fld (traceCfg st sc d) 0 0 = 1 then writeBuoy sc d st else st) st)
    (modClock (fun c => { c with buoys := c.now / 2 ^ 30 }) s)

/-- The buoys of a multiple of 2^30 ticks that global time has reached (R466); in P3 the streams are stopped (R476). -/
def dueBuoys (s : State) : State :=
  if s.clock.now / 2 ^ 30 ≠ s.clock.buoys ∧ s.power.mode ≠ .rest then buoyAll s else s

/-- Trigger of a scope. -/
def triggerOf (s : State) (scope : Option (Fin 64)) : Trigger :=
  match scope with
  | some i => (ctl s i).trigger
  | none => s.clock.trigger

/-- Change the trigger of a scope. -/
def modTrigger (scope : Option (Fin 64)) (f : Trigger → Trigger) (s : State) : State :=
  match scope with
  | some i => modCtl i (fun c => { c with trigger := f c.trigger }) s
  | none => modClock (fun c => { c with trigger := f c.trigger }) s

/-- What a trigger's action does to one counter (R475). -/
def PmuCtr.act (c : PmuCtr) (action : BitVec 2) : PmuCtr :=
  match action.toNat with
  | 0 => { c with snap := c.tally ++ c.count }
  | 1 => { c with frozen := true }
  | 2 => { c with frozen := false }
  | _ => { c with snap := c.tally ++ c.count, frozen := true }

/-- Whether a counter belongs to a trigger's scope (R474). -/
def PmuCtr.inScope (c : PmuCtr) (scope : Option (Fin 64)) : Bool :=
  match scope with
  | some i => c.lent && c.slot == i
  | none => !c.lent

/-- A trigger fires (R475): its counters act at once, and each die's stream gets a SNAPSHOT record. -/
def fireTrigger (scope : Option (Fin 64)) (late : Bool) (s : State) : State :=
  let t := triggerOf s scope
  let unlocked := s.clock.t.st != .locked
  let s := modClock (fun c => { c with pmu := c.pmu.map (fun k => if k.inScope scope then k.act t.action else k) }) s
  let s := modTrigger scope (fun t => { t with armed := false, late := late, unlocked := unlocked, firedAt := BitVec.ofNat 64 s.clock.now }) s
  forEach allDies (fun d st =>
    trace scope d 7 0x50 ((st.clock.now % 2 ^ 64) <<< 128 + (st.clock.cycles % 2 ^ 64) <<< 64 + t.action.toNat <<< 1 + (if unlocked then 1 else 0)) st) s

/-- Arm a trigger; one whose time has passed fires at once (R475). -/
def armTrigger (scope : Option (Fin 64)) (s : State) : State :=
  let s := modTrigger scope (fun t => { t with armed := true }) s
  if (triggerOf s scope).at_.toNat < s.clock.now then fireTrigger scope true s else s

/-- Armed triggers whose time a step of global time has reached fire; one that it jumped is late (R474,
R475). -/
def jumpTriggers (s : State) : State :=
  forEach allScopes (fun sc st =>
    let t := triggerOf st sc
    if t.armed && decide (t.at_.toNat ≤ st.clock.now) then fireTrigger sc (decide (t.at_.toNat < st.clock.now)) st else st) s

/-- Step global time (R453, R466): the penalties of ports decay on from the new time (R391), and what has passed since the last
Sync stays as it is. -/
def stepTime (t : Nat) (s : State) : State :=
  let t := t % 2 ^ 64
  let s := rebasePenalties (devFld s oLINK_CFG 0 103 96) t s
  jumpTriggers (buoyAll (modClock (fun c => { c with
    now := t, t := { c.t with lastSync := (t + c.t.lastSync + 2 ^ 64 - c.now) % 2 ^ 64 } }) s))

/-! ### Offsets (R453) -/

/-- An offset in ticks of 2^-16 as nanoseconds; which way it is rounded is not stated and is free
(notes/assumptions/21). -/
def toNs (x : Int) : Int :=
  let q := (x * 5).fdiv (4 * 65536)
  if q * (4 * 65536) = x * 5 then q else if Config.roundsUp (x * 5) then q + 1 else q

/-- An offset measurement of a device that follows. -/
def measure (off : Int) (s : State) : State :=
  let s := modTime (fun t => { t with offsetNs := toNs off }) s
  if decide (off.natAbs * 5 ≤ tLimit s * 4 * 65536) then setClock .locked true (modTime (fun t => { t with slew := off }) s)
  else if !anyActive s then
    let s := stepTime (((s.clock.now : Int) - (off + 32768) / 65536) % (2 ^ 64 : Int)).toNat s
    setClock .locked true (modTime (fun t => { t with slew := 0 }) s)
  else
    let s := modTime (fun t => { t with stepsRefused := satInc t.stepsRefused 1 }) s
    let s := if s.clock.t.st = .locked then setClock .free true s else s
    raiseCause pf0 4 s

/-- Whether a device measures offsets: it follows a port (R453). -/
def follows (s : State) : Bool := tRole s == 1 && tUpValid s

/-- Path delay to upstream in ticks of 2^-16. -/
def upDelay (s : State) : Int := (port s (tUpPort s)).pathDelay

/-- A Sync whose origin is known: it is an offset measurement (R457). -/
def syncDone (rx origin corr : Int) (s : State) : State :=
  let diff := rx - origin - corr
  let s := modTime (fun t => { t with sync := none, syncDiff := diff }) s
  measure (diff - upDelay s) s

/-! ### Messages (R457, R458) -/

/-- Whether a time message is dropped (R458). -/
def timeDropped (s : State) (p : Fin 32) (m : TimeMsg) (upOnly : Bool) : Bool :=
  !(port s p).st.live || m.domain.toNat != tDomain s || (isUplink s p && m.srcIp.toNat != devFld s oTIME 0 767 640) ||
  (upOnly && !(tUpValid s && tUpPort s == p))

/-- A time message is received: its credits are freed (R400, R401, R472). -/
def rxTime (p : Fin 32) (k : FrameKind) (s : State) : State := if (port s p).st.live then countRx p (consumeFrame p k 0 s) else s

/-- Count a dropped time message. -/
def dropTime (s : State) : State := modTime (fun t => { t with msgsDropped := satInc t.msgsDropped 1 }) s

/-- Ports in UP or DEMOTED onto which time messages are forwarded. -/
def downPorts (s : State) : List (Fin 32) := allPorts.filter (fun p => bitAt (tDown s) p.val && (port s p).st.live)

/-- Forward a Sync or a Follow_Up onto down_ports, each with its residence time in the correction field: that time is a free
value. A one-step Sync goes on in two steps: the Follow_Up that the device makes for it carries its origin time (R457). -/
def forwardTime (kind : FrameKind) (m : TimeMsg) (s : State) : State :=
  forEach (downPorts s) (fun p st =>
    let r := draw st
    let corr := ofSigned 64 (m.corr + (Config.freeValue r.1).toNat)
    if kind = .sync then
      let st := sendOther p .sync [m.seqId.toNat, 0, corr] r.2
      if m.oneStep then sendOther p .followUp [m.seqId.toNat, ofSigned 80 m.stamp, 0] st else st
    else sendOther p kind [m.seqId.toNat, ofSigned 80 m.stamp, corr] r.2) s

/-- Forward an Announce onto down_ports as it is. -/
def forwardAnnounce (m : TimeMsg) (s : State) : State :=
  forEach (downPorts s) (fun p st => sendOther p .announce [m.seqId.toNat, ofSigned 80 m.stamp, ofSigned 64 m.corr] st) s

/-- SYNC_RECEIVE: a device that follows no port acts on no Sync (R453). -/
def doSync (p : Fin 32) (m : TimeMsg) (s : State) : State :=
  let s := rxTime p .sync s
  if timeDropped s p m true then dropTime s
  else if !follows s then s
  else
    let s := forwardTime .sync m (modTime (fun t => { t with lastSync := s.clock.now }) s)
    if m.oneStep then syncDone m.rx m.stamp m.corr s
    else modTime (fun t => { t with sync := some (m.seqId, m.rx, m.corr) }) s

/-- FOLLOW_UP_RECEIVE: it completes the Sync of its sequence number. -/
def doFollowUp (p : Fin 32) (m : TimeMsg) (s : State) : State :=
  let s := rxTime p .followUp s
  if timeDropped s p m true then dropTime s
  else if !follows s then s
  else
    let s := forwardTime .followUp m s
    match s.clock.t.sync with
    | some (q, rx, corr) => if q = m.seqId then syncDone rx m.stamp (corr + m.corr) s else s
    | none => s

/-- ANNOUNCE_RECEIVE. -/
def doAnnounce (p : Fin 32) (m : TimeMsg) (s : State) : State :=
  let s := rxTime p .announce s
  if timeDropped s p m false then dropTime s
  else if tUpValid s && tUpPort s == p then forwardAnnounce m s
  else s

/-- Local time of now in ticks of 2^-16. -/
def localTime (s : State) : Int := (s.clock.now : Int) * 65536

/-- A measured path delay. -/
def setPath (p : Fin 32) (d : Int) (s : State) : State :=
  let s := modPort p (fun q => { q with pathDelay := d }) s
  if tUpValid s && tUpPort s == p then modTime (fun t => { t with pathNs := (toNs d).toNat }) s else s

/-- PDELAY_MESSAGE: the peer delay mechanism runs on CREW ports. -/
def doPdelay (p : Fin 32) (m : TimeMsg) (s : State) : State :=
  let s := rxTime p .pdelayReq s
  if timeDropped s p m false then dropTime s
  else if !isCrew s p then s
  else
    let q := port s p
    match m.kind.toNat with
    | 2 =>
      let s := sendOther p .pdelayResp [m.seqId.toNat, ofSigned 80 m.rx] s
      sendOther p .pdelayRespFollowUp [m.seqId.toNat, ofSigned 80 (localTime s)] s
    | 3 =>
      match q.delaySent with
      | some (n, t1) =>
        if n = m.seqId then modPort p (fun q => { q with delaySent := none, delayResp := some (n, m.rx - t1 + m.stamp - m.corr) }) s else s
      | none => s
    | 10 =>
      match q.delayResp with
      | some (n, x) =>
        if n = m.seqId then setPath p ((x - m.stamp - m.corr) / 2) (modPort p (fun q => { q with delayResp := none }) s) else s
      | none => s
    | _ => s

/-- DELAY_RESP_RECEIVE: the end-to-end mechanism on an UPLINK up_port. -/
def doDelayResp (p : Fin 32) (m : TimeMsg) (s : State) : State :=
  let s := rxTime p .pdelayResp s
  if timeDropped s p m false then dropTime s
  else
    match s.clock.t.delaySent with
    | some (n, t3) =>
      if n = m.seqId && isUplink s p && tUpValid s && tUpPort s == p then
        setPath p ((s.clock.t.syncDiff + (m.stamp - m.corr - t3)) / 2) (modTime (fun t => { t with delaySent := none }) s)
      else s
    | none => s

/-- DELAY_REQUEST_TRANSMIT. -/
def doDelayReq (p : Fin 32) (s : State) : State :=
  if !(port s p).st.live then s
  else
    let n := s.clock.t.seq
    let now := localTime s
    if isCrew s p then
      sendOther p .pdelayReq [n.toNat] (modPort p (fun q => { q with delaySent := some (n, now), delayResp := none }) (modTime (fun t => { t with seq := n + 1 }) s))
    else if isUplink s p && tUpValid s && tUpPort s == p then
      sendOther p .delayReq [n.toNat, devFld s oTIME 0 767 640] (modTime (fun t => { t with seq := n + 1, delaySent := some (n, now) }) s)
    else s

/-- SYNC_TRANSMIT: a grandmaster sends two-step Sync and Follow_Up. -/
def doSyncSend (s : State) : State :=
  if tRole s != 2 then s
  else
    let n := s.clock.t.seq
    let s := modTime (fun t => { t with seq := n + 1 }) s
    forEach (downPorts s) (fun p st =>
      sendOther p .followUp [n.toNat, ofSigned 80 (localTime st), 0] (sendOther p .sync [n.toNat, 0, 0] st)) s

/-- Ticks of 16 sync intervals of 2^n s, n from -7 to 0 (R453, R456). -/
def syncBound (s : State) : Nat := 16 * 800000000 / 2 ^ (-(toSigned 4 (devFld s oTIME 0 247 244))).toNat

/-- SYNC_LOSS_TIMEOUT (R453): no Sync was accepted for 16 sync intervals. -/
def doSyncLoss (s : State) : State :=
  if s.clock.t.st = .locked && follows s && decide (syncBound s ≤ (s.clock.now + 2 ^ 64 - s.clock.t.lastSync) % 2 ^ 64) then setClock .free false s
  else s

/-- TRIGGER_FIRE (R475): an armed trigger whose time has come fires. -/
def doTriggerFire (scope : Option (Fin 64)) (s : State) : State :=
  if (triggerOf s scope).armed && decide ((triggerOf s scope).at_.toNat ≤ s.clock.now) then fireTrigger scope false s else s

/-- Armed triggers whose time has come fire (R475). -/
def dueTriggers (s : State) : State := forEach allScopes doTriggerFire s

/-! ### Meanings -/

/-- SYNC_RECEIVE (R457, R458). -/
def execSyncReceive (p : Fin 32) (m : TimeMsg) (s : State) : Host.Outcome State Fault Refusal := .next (doSync p m s)
/-- FOLLOW_UP_RECEIVE (R453, R457). -/
def execFollowUpReceive (p : Fin 32) (m : TimeMsg) (s : State) : Host.Outcome State Fault Refusal := .next (doFollowUp p m s)
/-- ANNOUNCE_RECEIVE (R457). -/
def execAnnounceReceive (p : Fin 32) (m : TimeMsg) (s : State) : Host.Outcome State Fault Refusal := .next (doAnnounce p m s)
/-- PDELAY_MESSAGE (R457). -/
def execPdelayMessage (p : Fin 32) (m : TimeMsg) (s : State) : Host.Outcome State Fault Refusal := .next (doPdelay p m s)
/-- DELAY_RESP_RECEIVE (R457). -/
def execDelayRespReceive (p : Fin 32) (m : TimeMsg) (s : State) : Host.Outcome State Fault Refusal := .next (doDelayResp p m s)
/-- DELAY_REQUEST_TRANSMIT (R457). -/
def execDelayRequestTransmit (p : Fin 32) (s : State) : Host.Outcome State Fault Refusal := .next (doDelayReq p s)
/-- SYNC_TRANSMIT (R457). -/
def execSyncTransmit (s : State) : Host.Outcome State Fault Refusal := .next (doSyncSend s)
/-- SYNC_LOSS_TIMEOUT (R453). -/
def execSyncLossTimeout (s : State) : Host.Outcome State Fault Refusal := .next (doSyncLoss s)
/-- BUOY_TIMER (R466). -/
def execBuoyTimer (s : State) : Host.Outcome State Fault Refusal := .next (dueBuoys s)
/-- TRIGGER_FIRE (R475). -/
def execTriggerFire (scope : Option (Fin 64)) (s : State) : Host.Outcome State Fault Refusal := .next (doTriggerFire scope s)

end Sys2Proof.Machine
end

