-- ==== Sys2Proof/Machine/Objects.lean ====
section
/-! DEFINITION. Firmware objects: the catalogue, what a GET returns, what a SET checks and what it does
(spec/16_host_mailbox.md R561 to R565 and the field tables of the chapters that own the objects). -/

namespace Sys2Proof.Machine

/-! ### The catalogue (R564) -/

/-- Known object IDs. -/
def objKnown (id : Nat) : Bool :=
  [0x01, 0x02, 0x03, 0x04, 0x10, 0x11, 0x12, 0x13, 0x14, 0x15, 0x16, 0x17, 0x18, 0x19, 0x1A, 0x1B, 0x1C, 0x1D,
   0x20, 0x30, 0x31, 0x32, 0x33, 0x34, 0x40, 0x41, 0x42, 0x43, 0x44].contains id

/-- Bytes of one instance. -/
def objSize (s : State) (id sub : Nat) : Nat :=
  match id with
  | 0x01 => 128 | 0x02 => 272 | 0x03 => 64 | 0x04 => 16
  | 0x10 => 32 | 0x11 => 8 | 0x12 => 32 | 0x13 => 32 | 0x14 => 512 | 0x15 => 16 | 0x16 => 48 | 0x17 => 8
  | 0x18 => 64 | 0x19 => 32 | 0x1A => 64 | 0x1B => 64 | 0x1C => 64 | 0x1D => 16
  | 0x20 => 4 + 4 * bandCount s
  | 0x30 => 16 | 0x31 => 16 | 0x32 => 64 | 0x33 => 32 | 0x34 => 32
  | 0x40 => 96 | 0x41 => 32 | 0x42 => 32 | 0x43 => 24
  | _ => if sub < 32 then 16 else if sub < 64 then 40 else 32

/-- Whether a sub-index lies in the object's range. -/
def subOk (id sub : Nat) : Bool :=
  match id with
  | 0x10 | 0x11 | 0x12 => decide (sub < 64)
  | 0x13 | 0x14 | 0x17 | 0x41 => decide (sub < 4)
  | 0x19 => decide (sub < 256)
  | 0x1B => decide (sub < 4096)
  | 0x31 | 0x33 | 0x42 => decide (sub < 32)
  | 0x44 => decide (sub < 20) || (decide (32 ≤ sub) && decide (sub ≤ 64))
  | _ => sub == 0

/-- Objects that PF0, and that a virtual function, may GET. -/
def pfGets (id : Nat) : Bool := [0x01, 0x02, 0x03, 0x04, 0x10, 0x11, 0x12, 0x20, 0x30, 0x31, 0x32, 0x33, 0x34, 0x40, 0x41, 0x42, 0x43, 0x44].contains id
def vfGets (id : Nat) : Bool :=
  [0x01, 0x03, 0x10, 0x11, 0x13, 0x14, 0x15, 0x16, 0x17, 0x18, 0x19, 0x1A, 0x1B, 0x1C, 0x1D, 0x41, 0x42, 0x43].contains id
/-- Objects that PF0, and that a virtual function, may SET. -/
def pfSets (id : Nat) : Bool := [0x04, 0x11, 0x12, 0x20, 0x30, 0x31, 0x32, 0x34, 0x40, 0x41, 0x42, 0x43].contains id
def vfSets (id : Nat) : Bool := [0x13, 0x14, 0x15, 0x17, 0x18, 0x19, 0x1B, 0x1C, 0x1D, 0x41, 0x42, 0x43].contains id

/-- Whether a function may reach an instance: "own slot" objects and lent counters beside the
catalogue's columns (R564, R469). -/
def objGranted (s : State) (fn : Fin 65) (id sub : Nat) (set : Bool) : Bool :=
  match slotOfFn fn with
  | none => if set then pfSets id else pfGets id
  | some i =>
    (if set then vfSets id else vfGets id) &&
    (match id with
      | 0x10 | 0x11 => sub == i.val
      | 0x42 => let c := s.clock.pmu[Fin.ofNat 32 sub]; decide (32 ≤ sub) || (c.lent && c.slot == i)
      | _ => true)

/-- The instance that a function reaches by an ID and a sub-index. -/
def objKey (fn : Fin 65) (id sub : Nat) : ObjKey :=
  let oid := BitVec.ofNat 16 id
  match id with
  | 0x10 | 0x11 | 0x12 => jobKey oid (Fin.ofNat 64 sub) 0
  | 0x13 | 0x14 | 0x15 | 0x16 | 0x17 | 0x18 | 0x19 | 0x1A | 0x1B | 0x1C | 0x1D | 0x41 | 0x43 =>
    match slotOfFn fn with
    | some i => jobKey oid i sub
    | none => devKey oid sub
  | _ => devKey oid sub

/-! ### GET -/

/-- Physical engine that carries a logical number, 0xFF when none (R565). -/
def meOf (s : State) (l : Nat) : Nat :=
  match (List.finRange 68).find? (fun e => s.engines[e].logical.toNat == l) with
  | some e => e.val
  | none => 0xFF

/-- Encoding of the lifecycle (R494). -/
def Lifecycle.code : Lifecycle → Nat
  | .blank => 0
  | .provisioned => 1
  | .deployed => 2
  | .retired => 3

/-- Sum of fields placed at their bits. -/
def packed (fs : List (Nat × Nat)) : Nat := fs.foldl (fun a f => a + f.1 <<< f.2) 0

/-- OBJ_DEVICE_INFO (R565). -/
def imgInfo (s : State) : Nat :=
  let i := s.cox.image
  packed ((List.range 64).map (fun k => (meOf s k, 512 + 8 * k))) +
  packed [(s.sec.serial.toNat, 448), (i.version.toNat, 384), (i.major.toNat, 376), (i.maxMinor.toNat, 368), (grantable s, 344),
    (0x20, 336), (i.svn.toNat, 328), (if s.sec.moduleB then 1 else 0, 324), (s.sec.stepping.toNat, 320), (s.sec.lifecycle.code, 318),
    (if s.cox.bootSlot then 1 else 0, 317), (s.rst.profile.val, 313)]

/-- OBJ_ME_HEALTH (R123). -/
def imgHealth (s : State) : Nat :=
  packed ((List.finRange 68).map (fun e =>
    let k := s.engines[e]
    (k.logical.toNat <<< 16 + k.st.toNat <<< 12 + k.err.toNat, 32 * e.val)))

/-- Debug level of a CFG_SEL profile (R601), and the level a cold reset opens (R536). -/
def profileDebug (p : Fin 16) : Nat := if 12 ≤ p.val then 1 else 0
def coldDebug (s : State) : Nat :=
  if s.sec.lifecycle = .blank || s.sec.lifecycle = .retired then profileDebug s.rst.profile else 0

/-- Level of debug of the device (R535). -/
def debugLevel (s : State) : Nat := match s.sec.debug with | some d => d.level.toNat | none => 0

/-- Earliest not_after of the open sessions, 0 when none applies (R535). -/
def earliestExpiry (s : State) : Nat :=
  let all := (match s.sec.debug with | some d => [d.notAfter.toNat] | none => []) ++ (s.sec.d2.toList.filterMap id).map BitVec.toNat
  match all.filter (· != 0) with
  | [] => 0
  | x :: xs => xs.foldl min x

/-- d2_mask. -/
def d2Mask (s : State) : Nat := packed (allSlots.map (fun i => (if s.sec.d2[i].isSome then 1 else 0, i.val)))

/-- OBJ_DEBUG: a virtual function reads the nonce and its own bit (R535). -/
def imgDebug (s : State) (fn : Fin 65) : Nat :=
  match slotOfFn fn with
  | some i => packed [(s.sec.nonce.toNat, 256), (if s.sec.d2[i].isSome then 2 ^ i.val else 0, 192)]
  | none =>
    packed [(s.sec.nonce.toNat, 256), (d2Mask s, 192), (earliestExpiry s, 128),
      ((match s.sec.debug with | some d => d.signer.toNat | none => 3), 6), (coldDebug s, 4), (debugLevel s, 0)]

/-- ÷12 is forced (R522): a hot die, or an input over 1.05 × limit_w for 100 µs. -/
def forced12 (s : State) : Bool :=
  s.power.hotDies != 0 || (match s.power.overSince with | some t => decide (80000 ≤ s.clock.now - t) | none => false)

/-- OBJ_POWER (R525). -/
def imgPower (s : State) : Nat :=
  let p := s.power
  objBits s (devKey oPOWER 0) +
  packed [(p.inputW.toNat, 112), (p.floorW.toNat, 96), (p.budget.toNat, 80), (p.held % 65536, 64), (p.aclk.toNat, 24),
    (profileClass s.rst.profile, 20), (if forced12 s then 1 else 0, 3), (pstate s, 0)]

/-- OBJ_JOB_STATUS (R561). -/
def imgStatus (s : State) (i : Fin 64) : Nat :=
  let c := ctl s i
  packed ([(c.since % 2 ^ 64, 192), (runsCount c.grants, 160), (c.tearCause.toNat, 108), (c.st.code, 16),
    (if c.st = .empty then 0 else (jobTag s i).toNat, 0)] ++ allDies.map (fun d => (c.asQuota[d], 112 + 12 * d.val)))

/-- OBJ_JOB_RING (R177). -/
def imgRing (s : State) (i : Fin 64) (d : Fin 4) (bits : Nat) : Nat :=
  let x := jobDie s i d
  bits + packed [(x.sqHead.toNat, 80), (x.evqTail.toNat, 48), (x.evqLost.toNat, 32)]

/-- OBJ_JOB_SCALARS (R204). -/
def imgScalars (s : State) (i : Fin 64) (d : Fin 4) : Nat :=
  packed ((List.finRange 64).map (fun k => ((jobDie s i d).cs[k].toNat, 64 * k.val)))

/-- One bit. -/
def bit (b : Bool) (k : Nat) : Nat × Nat := (if b then 1 else 0, k)

/-- OBJ_WATCH_REC (R170): the last closed record. -/
def imgWatch (s : State) (i : Fin 64) : Nat :=
  let r := s.jobs[i].watch.last
  packed [(r.closeTime % 2 ^ 64, 320), (r.step.toNat, 256), (r.mean.toNat, 224), (r.var.toNat, 192), (r.loss.toNat, 160),
    (r.nonfinite.toNat, 128), (r.sat.toNat, 96), (r.accepted.toNat, 80), (r.dropped.toNat, 64), bit r.lossReported 8,
    bit r.lossNonfinite 7, bit r.spike 6, bit r.satFired 5, bit r.nonfiniteFired 4, (r.verdict.toNat, 2), bit r.raised 1]

/-- OBJ_JOB_STASH (R298). -/
def imgStash (s : State) (i : Fin 64) (bits : Nat) : Nat :=
  let t := s.jobs[i].stash
  bits + packed [(t.regathers.toNat, 480), (t.absentFound.toNat, 448), (t.spills.toNat, 416), (t.tilesDropped.toNat, 384),
    (t.entriesDropped.toNat, 352), (t.rawTiles.toNat, 320), (t.compTiles.toNat, 288), (t.stashPeak.toNat, 264),
    (t.stashUsed.toNat, 240), (liveEntries s i, 176), (t.gatherUsed.toNat, 0)]

/-- OBJ_JOB_UPD (R334). -/
def imgUpd (s : State) (i : Fin 64) : Nat :=
  let u := s.jobs[i].upd
  packed [(u.sealedStep.toNat, 448), (u.segsApplied.toNat, 416), (u.segsSkipped.toNat, 384), (u.subtilesSkipped.toNat, 352),
    (u.tagErrors.toNat, 320), (u.mastersNonfinite.toNat, 288), (u.mastersClipped.toNat, 256), (u.gradNonfinite.toNat, 224),
    (u.lifts.toNat, 192), (u.voteSat.toNat, 160), (u.late.toNat, 128), bit u.sealedValid 0]

/-- OBJ_JOB_VMT (R374). -/
def imgVmt (s : State) (i : Fin 64) (bits : Nat) : Nat :=
  let c := s.jobs[i].vmt.counts
  bits + packed [(c.unreachable.toNat, 480), (c.stale.toNat, 448), (c.busy.toNat, 416), (c.refusedIn.toNat, 384),
    (c.refusedOut.toNat, 352), (c.dup.toNat, 320), (c.retransmits.toNat, 288), (c.pathSwitches.toNat, 256)]

/-- Frames of a band that are granted to jobs (R272). -/
def bandGranted (s : State) (b : Nat) : Nat :=
  (allSlots.map (fun i => runsOverlap (ctl s i).grants (10240 * b) 10240)).foldl (· + ·) 0

/-- OBJ_MEM_CFG (R272). -/
def imgMem (s : State) (bits : Nat) : Nat :=
  bits + packed ((List.range (bandCount s)).map (fun b => (bandGranted s b, 32 + 32 * b + 12)))

/-- OBJ_PORT_MAP entry (R377). -/
def imgPort (s : State) (p : Fin 32) (bits : Nat) : Nat :=
  let q := port s p
  bits + (if q.subValid then packed [(q.subLane.toNat, 52), (q.subPos.toNat, 49), (1, 48)] else 0)

/-- OBJ_PORT_STATUS (R392). -/
def imgPortStatus (s : State) (p : Fin 32) : Nat :=
  let q := port s p
  packed [(q.peerKey.toNat, 192), (q.authFail.toNat, 176), (q.flaps.toNat, 160), (q.stalls.toNat, 144), (penaltyNow s p % 65536, 128),
    (q.peerNode.toNat, 110), bit q.peerValid 109, (q.peerPort.toNat, 104), (q.reason.toNat, 4), (q.st.code, 0)]

/-- OBJ_TIME (R456). -/
def imgTime (s : State) (bits : Nat) : Nat :=
  let t := s.clock.t
  bits + packed [(s.clock.now % 2 ^ 64, 576), (ofSigned 32 t.offsetNs, 480), (t.pathNs % 2 ^ 32, 448), (t.stepsRefused.toNat, 416),
    (t.lockLosses.toNat, 384), (t.msgsDropped.toNat, 352), (t.st.code, 0)]

/-- OBJ_TRACE (R463). -/
def imgTrace (t : Stream) (bits : Nat) : Nat := bits + packed [(t.wr.toNat, 160), (t.lost.toNat, 128)]

/-- OBJ_PMU_CTR (R468, R469): through PF0 a lent counter shows only lent and slot. -/
def imgPmu (c : PmuCtr) (pf : Bool) : Nat :=
  if pf && c.lent then packed [(c.slot.val, 58), (1, 57)]
  else
    packed [(c.snap.toNat, 192), (c.tally.toNat, 176), (c.count.toNat, 128), (c.slot.val, 58), bit c.lent 57, bit c.tallySat 56,
      (c.umask.toNat, 32), (c.event.toNat, 12), bit c.frozen 1, bit c.enable 0]

/-- OBJ_PMU_TRIGGER (R474). -/
def imgTrigger (t : Trigger) : Nat :=
  packed [(t.firedAt.toNat, 128), (t.at_.toNat, 64), bit t.unlocked 5, bit t.late 4, bit t.armed 3, (t.action.toNat, 1)]

/-- OBJ_DEV_ERRCNT (R472). -/
def imgErr (s : State) (sub : Nat) : Nat :=
  if sub < 20 then
    let k := s.mem.memStacks[Fin.ofNat 20 sub]
    packed [(k.tagMismatch.toNat, 96), (k.poisoned.toNat, 64), (k.corrected.toNat, 32), (k.patrols.toNat, 0)]
  else if sub < 64 then
    let e := s.fabric.portErr[Fin.ofNat 32 (sub - 32)]
    packed [(e.fecCorrected.toNat, 256), (e.fecUncorrectable.toNat, 192), (e.framesRx.toNat, 128), (e.framesTx.toNat, 64), (e.dropped.toNat, 0)]
  else
    let v := s.fabric.vmtErr
    packed [(v.notMine.toNat, 224), (v.badHdr.toNat, 192), (v.noJob.toNat, 160), (v.tagFail.toNat, 128), (v.staleTime.toNat, 96),
      (v.relayDrop.toNat, 64), (v.tornDrop.toNat, 32), (v.beyondWindow.toNat, 0)]

/-- Configuration-space identity of a function (R540): device ID, class code, TotalVFs and InitialVFs of its SR-IOV capability,
MSI-X vectors, bytes of BAR0 and of BAR2 (0: not implemented), and the largest Max_Payload_Size and Max_Read_Request_Size. -/
structure FnIdentity where
  device : BitVec 16
  class_ : BitVec 24
  totalVfs : Nat
  vectors : Nat
  bar0 : Nat
  bar2 : Nat
  maxPayload : Nat
  maxRead : Nat
  deriving DecidableEq, Repr

/-- What a function shows of itself in configuration space (R540). -/
def fnIdentity (s : State) (fn : Fin 65) : FnIdentity :=
  let pf := fn = pf0
  { device := if pf then 0xD5A0 else 0xD5A1, class_ := 0x120000, totalVfs := if pf then 64 else 0, vectors := if pf then 2 else 6
    bar0 := 65536, bar2 := if pf then 0 else s.bar2Size, maxPayload := 512, maxRead := 4096 }

/-- What a GET through a function returns of an instance. -/
def objImage (s : State) (fn : Fin 65) (id sub : Nat) : Nat :=
  let bits := objBits s (objKey fn id sub)
  let i : Fin 64 := (slotOfFn fn).getD 0
  let d : Fin 4 := Fin.ofNat 4 sub
  match id with
  | 0x01 => imgInfo s
  | 0x02 => imgHealth s
  | 0x03 => imgDebug s fn
  | 0x04 => imgPower s
  | 0x10 => imgStatus s (Fin.ofNat 64 sub)
  | 0x13 => imgRing s i d bits
  | 0x14 => imgScalars s i d
  | 0x16 => imgWatch s i
  | 0x17 => bits + (ctl s i).asQuota[d] <<< 32
  | 0x18 => imgStash s i bits
  | 0x1A => imgUpd s i
  | 0x1C => imgVmt s i bits
  | 0x20 => imgMem s bits
  | 0x31 => imgPort s (Fin.ofNat 32 sub) bits
  | 0x33 => imgPortStatus s (Fin.ofNat 32 sub)
  | 0x40 => imgTime s bits
  | 0x41 => imgTrace (getStream s (slotOfFn fn) d) bits
  | 0x42 => imgPmu s.clock.pmu[Fin.ofNat 32 sub] (fn == pf0)
  | 0x43 => imgTrigger (triggerOf s (slotOfFn fn))
  | 0x44 => imgErr s sub
  | _ => bits

/-! ### What a SET checks -/

/-- The rules of one SET: RW and RSV fields, a refusal with DENIED or STATE, illegal values by the lowest
bit of their field, and bounds. -/
structure SetRule where
  rw : List (Nat × Nat)
  rsv : List (Nat × Nat)
  denied : Bool
  state : Bool
  bad : List (Nat × Bool)
  bound : List (Nat × Bool)
  noRes : Bool
  deriving DecidableEq, Repr

/-- A rule that refuses nothing but RSV bits. -/
def SetRule.of (rw rsv : List (Nat × Nat)) : SetRule := ⟨rw, rsv, false, false, [], [], false⟩

/-- The bits of `v` that lie in a list of fields. -/
def keepFields (v : Nat) (fs : List (Nat × Nat)) : Nat := packed (fs.map (fun f => (fld v f.1 f.2, f.2)))

/-- A binary32 that is not finite, or negative; −0 counts as 0. -/
def badF32 (v : Nat) : Bool := decide (0x7F800000 ≤ v % 2 ^ 31) || (bitAt v 31 && v % 2 ^ 31 != 0)

/-- READY, RUNNING or PAUSED. -/
def jobSettable (st : JobState) : Bool := st == .ready || st == .running || st == .paused

/-- A range of job addresses is wholly mapped; pages and aperture pages are multiples of 64 KiB. -/
def rangeMapped (s : State) (slot : Fin 64) (va len : Nat) (r w : Bool) : Bool :=
  len == 0 || ((List.range ((va + len - 1) / 65536 - va / 65536 + 1)).map (· + va / 65536)).all
    (fun k => (translate s slot (65536 * k) r w).isSome)

/-- OBJ_JOB_SCHED (R192). -/
def ruleSched (s : State) (i : Fin 64) (v old : Nat) : SetRule :=
  let q := fun (x : Nat) (d : Fin 4) => fld x (32 * d.val + 16) (32 * d.val)
  let changed := allDies.any (fun d => q v d != q old d)
  let others := fun (d : Fin 4) => ((allSlots.filter (· != i)).map (fun j => quotaOf s j d)).foldl (· + ·) 0
  { SetRule.of [(207, 192), (180, 176), (159, 144), (112, 96), (80, 64), (48, 32), (16, 0)]
      [(255, 208), (191, 181), (175, 160), (143, 113), (95, 81), (63, 49), (31, 17)] with
    state := changed && !(jobSt s i == .created || jobSt s i == .keyed)
    bad := [(192, fld v 207 192 == 0), (176, decide (16 < fld v 180 176)), (144, fld v 159 144 == 0)]
    bound := allDies.map (fun d => (32 * d.val, decide (65536 < q v d)))
    noRes := allDies.any (fun d => decide (65536 < others d + q v d)) }

/-- OBJ_JOB_RING (R177). -/
def ruleRing (s : State) (i : Fin 64) (v old : Nat) : SetRule :=
  let st := jobSt s i
  let rw := [(159, 112), (207, 160), (11, 8), (7, 4), (0, 0)]
  { SetRule.of ((255, 208) :: rw) [(31, 12), (3, 1)] with
    state := !(st == .keyed || st == .ready || st == .paused) || (bitAt old 0 && keepFields v rw != keepFields old rw)
    bad := [(160, fld v 207 160 % 4096 != 0), (112, fld v 159 112 % 4096 != 0), (8, decide (10 < fld v 11 8)), (4, decide (10 < fld v 7 4))] }

/-- OBJ_WATCH_CFG (R163). -/
def ruleWatch (s : State) (i : Fin 64) (v : Nat) : SetRule :=
  { SetRule.of [(127, 96), (95, 64), (63, 48), (39, 36), (31, 31), (30, 30), (29, 28), (27, 26), (25, 24)] [(47, 40), (35, 32), (23, 0)] with
    state := !jobSettable (jobSt s i)
    bad := [(64, badF32 (fld v 95 64) || fld v 94 64 == 0), (36, decide (fld v 39 36 < 1) || decide (10 < fld v 39 36)),
      (28, fld v 29 28 == 3), (26, fld v 27 26 == 3), (24, fld v 25 24 == 3)] }

/-- READY or PAUSED. -/
def readyPaused (st : JobState) : Bool := st == .ready || st == .paused

/-- OBJ_JOB_STASH (R298). -/
def ruleStash (s : State) (i : Fin 64) (v : Nat) : SetRule :=
  { SetRule.of [(239, 216), (215, 192), (159, 112), (111, 64)] [(175, 160), (63, 24)] with
    state := !readyPaused (jobSt s i) || liveEntries s i != 0
    bad := [(112, fld v 159 112 % 65536 != 0), (64, fld v 111 64 % 65536 != 0)]
    bound := [(112, !rangeMapped s i (fld v 159 112) (65536 * fld v 239 216) true true),
      (64, !rangeMapped s i (fld v 111 64) (65536 * fld v 215 192) true true)] }

/-- OBJ_JOB_UPD_GROUPS (R323). -/
def ruleGroup (s : State) (i : Fin 64) (v : Nat) : SetRule :=
  { SetRule.of [(255, 224), (223, 192), (191, 160), (159, 128), (1, 0)] [(127, 2)] with
    state := !jobSettable (jobSt s i)
    bad := [(224, badF32 (fld v 255 224)), (192, badF32 (fld v 223 192) || decide (0x3F800000 ≤ fld v 222 192)),
      (160, badF32 (fld v 191 160)), (128, badF32 (fld v 159 128)), (0, fld v 1 0 == 3)] }

/-- The buffer descriptor at `buf`, where it can be read, has its acc_base at a multiple of 4 KiB (R307): the window
SET that names it checks that. -/
def accBaseOk (s : State) (i : Fin 64) (buf : Nat) : Bool :=
  let d := jobNat s i buf 128
  d.2 != .ok || fld d.1 1023 976 % 4096 == 0

/-- OBJ_JOB_WINDOW (R307, R357, R358). -/
def ruleWindow (s : State) (i : Fin 64) (v : Nat) : SetRule :=
  let valid := bitAt v 0
  let acc := bitAt v 4
  let writes := acc || bitAt v 3 || bitAt v 2
  let buf := fld v 511 464
  { SetRule.of [(511, 464), (463, 416), (415, 368), (367, 320), (319, 304), (303, 288), (287, 270), (269, 252), (5, 0)] [(251, 6)] with
    state := !(jobSt s i).active
    bad := [(464, valid && (if acc then buf == 0 || buf % 128 != 0 || !accBaseOk s i buf else buf != 0)),
      (368, valid && (fld v 415 368 == 0 || decide (2 ^ 48 < fld v 367 320 + fld v 415 368))),
      (288, valid && bitAt v 5 && decide (fld v 319 304 < fld v 303 288))]
    bound := [(416, valid && (bitAt v 1 || writes) && !rangeMapped s i (fld v 463 416) (fld v 415 368) true writes)] }

/-- OBJ_JOB_VMT (R374). -/
def ruleVmt (s : State) (i : Fin 64) (v : Nat) : SetRule :=
  { SetRule.of [(255, 208), (207, 191), (180, 176), (175, 128)] [(190, 181), (127, 0)] with
    state := !(jobSt s i == .keyed || jobSt s i == .ready)
    bad := [(208, fld v 255 208 % 64 != 0), (191, decide (65536 < fld v 207 191)),
      (176, decide (fld v 180 176 < 10) || decide (18 < fld v 180 176)), (128, fld v 175 128 % 4096 != 0)]
    bound := [(208, !rangeMapped s i (fld v 255 208) (4 * fld v 207 191) true true),
      (128, !rangeMapped s i (fld v 175 128) (2048 * 2 ^ fld v 180 176) true true)] }

/-- OBJ_JOB_HOSTWIN (R544). -/
def ruleHostwin (s : State) (i : Fin 64) (v : Nat) : SetRule :=
  { SetRule.of [(111, 64), (0, 0)] [(127, 112), (63, 1)] with
    state := !(jobSt s i).active
    bad := [(64, fld v 111 64 % s.bar2Size != 0)] }

/-- OBJ_MEM_CFG (R272, R620). -/
def ruleMem (s : State) (v old : Nat) : SetRule :=
  let bands := List.range (bandCount s)
  let mode := fun (x b : Nat) => fld x (32 + 32 * b + 1) (32 + 32 * b)
  { SetRule.of ((7, 0) :: bands.map (fun b => (32 + 32 * b + 1, 32 + 32 * b))) ((31, 8) :: bands.map (fun b => (32 + 32 * b + 11, 32 + 32 * b + 2))) with
    state := bands.any (fun b => mode v b != mode old b &&
      (bandGranted s b != 0 || (anyStackBad s && decide (withdrawnFirst s < 10240 * (b + 1)))))
    bad := (0, fld v 7 0 == 0 || decide (168 < fld v 7 0)) :: bands.map (fun b => (32 + 32 * b, decide (2 ≤ mode v b))) }

/-- OBJ_VMT_CFG (R373). -/
def ruleVmtCfg (v : Nat) : SetRule :=
  { SetRule.of [(127, 110), (109, 109), (63, 56), (55, 53), (47, 32), (31, 16), (15, 0)] [(108, 64), (52, 48)] with
    bad := [(56, fld v 63 56 == 0), (32, decide (fld v 47 32 < 32 * fld v 63 56 + 164)),
      (16, fld v 31 16 == 0 || decide (16384 < fld v 31 16)), (0, decide (fld v 15 0 < 100))] }

/-- Lanes of a port entry. -/
def entryLanes (e : Nat) : List Nat := if pKind e = 0 then [] else (List.range (pLanes e)).map (· + pFirstLane e)

/-- OBJ_PORT_MAP (R377 to R379): the checks hold of the whole map as it would stand. -/
def rulePort (s : State) (p : Fin 32) (v old : Nat) : SetRule :=
  let rw := [(127, 80), (75, 64), (36, 32), (15, 15), (14, 14), (13, 12), (11, 10), (9, 8), (5, 0)]
  let new := keepFields v rw
  let at_ := fun (q : Fin 32) => if q = p then new else portEntry s q
  let mine := entryLanes new
  let k := pKind new
  let spareBad := allPorts.any (fun q =>
    pKind (at_ q) == 3 && (let t := at_ (Fin.ofNat 32 (pServes (at_ q)))
      pKind t != 1 || decide (32 ≤ pFirstLane t) != decide (32 ≤ pFirstLane (at_ q))))
  { SetRule.of rw [(79, 76), (63, 58), (47, 37), (31, 16), (7, 6)] with
    state := (port s p).swap.isSome && new != keepFields old rw
    bad := [(80, k != 2 && fld v 127 80 != 0), (64, fld v 75 64 == 4095 || (k != 2 && fld v 75 64 != 0)), (32, spareBad),
      (12, fld v 13 12 == 3), (10, k != 3 && fld v 11 10 == 3),
      (0, k != 0 && (pFirstLane new % pLanes new != 0 ||
        allPorts.any (fun q => q != p && (entryLanes (at_ q)).any (fun l => mine.contains l))))] }

/-- OBJ_FABRIC_NODE (R385, R386). -/
def ruleNode (s : State) (v old : Nat) : SetRule :=
  let place := [(511, 448), (239, 222), (0, 0)]
  let et := fld v 255 240
  { SetRule.of ([(447, 384), (383, 338), (319, 272), (271, 256), (255, 240)] ++ place) [(337, 320), (221, 1)] with
    state := anyActive s && keepFields v place != keepFields old place
    bad := [(256, [0, 319, 320].contains (fld v 271 256)),
      (240, decide (et < 0x600) || [0x800, 0x86DD, 0x8100, 0x88A8, 0x88CC, 0x88F7].contains et)] }

/-- OBJ_LINK_CFG (R405). -/
def ruleLink (v : Nat) : SetRule :=
  { SetRule.of [(255, 208), (207, 184), (183, 168), (167, 152), (151, 136), (135, 120), (119, 104), (103, 96), (95, 88), (87, 72), (71, 56)]
      [(55, 0)] with
    bad := [(168, [168, 172, 176, 180].any (fun b => fld v (b + 3) b == 0)), (152, fld v 167 152 == 0), (136, fld v 151 136 == 0),
      (104, decide (fld v 135 120 ≤ fld v 119 104)), (96, fld v 103 96 == 0), (88, fld v 95 88 == 0)] }

/-- OBJ_TIME (R453, R456). -/
def ruleTime (s : State) (v : Nat) : SetRule :=
  let up := bitAt v 258
  { SetRule.of [(767, 640), (351, 320), (319, 288), (263, 259), (258, 258), (257, 256), (255, 248), (247, 244)] [(287, 264), (243, 2)] with
    state := fld v 575 512 != 0 && anyActive s
    bad := [(320, decide (fld v 351 320 < 100) || decide (1000000 < fld v 351 320)), (288, up && bitAt (fld v 319 288) (fld v 263 259)),
      (258, !up && fld v 257 256 == 1), (256, fld v 257 256 == 3), (244, fld v 247 244 != 0 && decide (fld v 247 244 < 9))] }

/-- OBJ_TRACE (R463). -/
def ruleTrace (s : State) (scope : Option (Fin 64)) (v old : Nat) : SetRule :=
  let rw := [(255, 192), (39, 32), (11, 8)]
  { SetRule.of (rw ++ [(0, 0)]) [(127, 40), (31, 12), (7, 1)] with
    state := (match scope with | some i => !jobSettable (jobSt s i) | none => false) || (bitAt old 0 && keepFields v rw != keepFields old rw)
    bad := [(192, fld v 255 192 % 4096 != 0),
      (32, (match scope with | some _ => fld v 38 37 != 0 | none => fld v 36 32 != 0)), (8, decide (12 < fld v 11 8))]
    bound := [(192, match scope with
      | some i => !rangeMapped s i (fld v 255 192) (32 * traceSize v) false true
      | none => false)] }

/-- Events of the catalogue (R471), and those of device scope only. -/
def eventKnown (e : Nat) : Bool :=
  [0x001, 0x010, 0x011, 0x012, 0x013, 0x020, 0x021, 0x022, 0x030, 0x040, 0x041, 0x042, 0x043, 0x044, 0x045, 0x050, 0x060, 0x061, 0x062,
   0x070, 0x071, 0x072, 0x080, 0x081, 0x090].contains e
def eventDevice (e : Nat) : Bool := e == 0x013 || e == 0x090

/-- Whether a SET of a counter reaches its other fields than lent and slot: through PF0 only when it is
not lent, before and after (R469). -/
def pmuReached (c : PmuCtr) (pf : Bool) (v : Nat) : Bool := !pf || (!c.lent && !bitAt v 57)

/-- OBJ_PMU_CTR (R468, R469). -/
def rulePmu (c : PmuCtr) (pf : Bool) (v : Nat) : SetRule :=
  let rest := [(175, 128), (47, 32), (21, 12), (0, 0)]
  let reached := pmuReached c pf v
  let e := fld v 21 12
  { SetRule.of ([(63, 58), (57, 57)] ++ rest) [(127, 64), (55, 48), (31, 22), (11, 2)] with
    denied := !reached && keepFields v rest != 0
    bad := [(12, reached && (!eventKnown e || (!pf && eventDevice e)))] }

/-- The rules of a SET of an instance. -/
def setRule (s : State) (fn : Fin 65) (id sub v : Nat) : SetRule :=
  let old := objBits s (objKey fn id sub)
  let i : Fin 64 := (slotOfFn fn).getD 0
  let t : Fin 64 := Fin.ofNat 64 sub
  let st := jobSt s i
  match id with
  | 0x04 => { SetRule.of [(47, 36), (35, 28), (27, 26)] [(63, 48), (19, 4)] with
      bad := [(36, decide (fld v 47 36 < 1000) || decide (3000 < fld v 47 36))] }
  | 0x11 => { SetRule.of [(2, 0)] [(63, 3)] with
      state := jobSt s t == .scrubbing || (fld v 2 1 != fld old 2 1 && !(jobSt s t == .empty || jobSt s t == .created)) }
  | 0x12 => ruleSched s t v old
  | 0x13 => ruleRing s i v old
  | 0x14 => { SetRule.of [(4095, 0)] [] with state := !readyPaused st }
  | 0x15 => ruleWatch s i v
  | 0x17 => { SetRule.of [(27, 16), (11, 0)] [(63, 44), (31, 28), (15, 12)] with
      state := !readyPaused st
      bound := [(0, decide ((ctl s i).asQuota[Fin.ofNat 4 sub] < fld v 27 16 + fld v 11 0))] }
  | 0x18 => ruleStash s i v
  | 0x19 => ruleGroup s i v
  | 0x1B => ruleWindow s i v
  | 0x1C => ruleVmt s i v
  | 0x1D => ruleHostwin s i v
  | 0x20 => ruleMem s v old
  | 0x30 => ruleVmtCfg v
  | 0x31 => rulePort s (Fin.ofNat 32 sub) v old
  | 0x32 => ruleNode s v old
  | 0x34 => ruleLink v
  | 0x40 => ruleTime s v
  | 0x41 => ruleTrace s (slotOfFn fn) v old
  | 0x42 => rulePmu s.clock.pmu[Fin.ofNat 32 sub] (fn == pf0) v
  | _ => SetRule.of [(127, 64), (2, 1)] [(63, 6)]

/-- Offset of the lowest failing field of a list, in bytes. -/
def lowestBad (fs : List (Nat × Bool)) : Option Nat :=
  match (fs.filter Prod.snd).map Prod.fst with
  | [] => none
  | x :: xs => some ((xs.foldl min x) / 8)

/-- The outcome of a SET's own checks: the order is DENIED, STATE, fields, bounds (DEDUCED,
notes/assumptions/23). `off` is where the instance starts. -/
def SetRule.check (r : SetRule) (v off : Nat) : Option ReplyBody :=
  if r.denied then some (.of stDENIED)
  else if r.state then some (.of stSTATE)
  else
    match lowestBad (r.bad ++ r.rsv.map (fun f => (f.2, fld v f.1 f.2 != 0))), lowestBad r.bound with
    | some x, _ => some (.at_ stBAD_FIELD (off + x))
    | none, some x => some (.at_ stBOUND (off + x))
    | none, none => if r.noRes then some (.of stNO_RESOURCE) else none

/-! ### What a SET does -/

/-- Take `n` pages of a die from the free ones, each filled with 0 (R289). -/
def takePages (s : State) (die : Fin 4) (n : Nat) : List Nat × State :=
  let ps := asFree s die n
  (ps, forEach ps (fun p st => zeroAsPage die p st) s)

/-- OBJ_JOB_AS (R288, R289): pages are released from the top, then taken. -/
def setAs (i : Fin 64) (die : Fin 4) (v : Nat) (s : State) : State :=
  let act := fld v 11 0
  let cache := fld v 27 16
  let less := decide (cache < (ctl s i).asCache[die].length)
  let s := modCtl i (fun c => { c with
    asAct := c.asAct.set die (c.asAct[die].take act), asCache := c.asCache.set die (c.asCache[die].take cache) }) s
  let s := if less then { s with mem := { s.mem with lines := s.mem.lines.filter (fun l => !(l.slot == i && l.die == die)) } } else s
  let a := takePages s die (act - (ctl s i).asAct[die].length)
  let s := modCtl i (fun c => { c with asAct := c.asAct.set die (c.asAct[die] ++ a.1) }) a.2
  let b := takePages s die (cache - (ctl s i).asCache[die].length)
  modCtl i (fun c => { c with asCache := c.asCache.set die (c.asCache[die] ++ b.1) }) b.2

/-- Enabling a ring (R178). -/
def enableRing (i : Fin 64) (die : Fin 4) (s : State) : State :=
  modDie i die (fun d => { d with
    sqTail := 0, sqHead := 0, evqTail := 0, evqHead := 0, evqLost := 0, lostSince := 0, evqArmed := true }) s

/-- OBJ_TIME: set_time, and a role that follows nothing (R453). -/
def setTimeObj (v : Nat) (s : State) : State :=
  let t := fld v 575 512
  let s := if t = 0 then s else setClock .free true (stepTime t (modTime (fun x => { x with slew := 0 }) s))
  if fld v 257 256 != 1 && s.clock.t.st == .locked then setClock .free true s else s

/-- OBJ_PMU_CTR (R468, R469): lending clears count, tally, snap and enable; count is written only while
the counter is not enabled. -/
def PmuCtr.assign (c : PmuCtr) (pf : Bool) (v : Nat) : PmuCtr :=
  let lent := if pf then bitAt v 57 else c.lent
  let slot := if pf then Fin.ofNat 64 (fld v 63 58) else c.slot
  let d := if pmuReached c pf v then
      { c with
        umask := BitVec.ofNat 16 (fld v 47 32), event := BitVec.ofNat 10 (fld v 21 12), enable := bitAt v 0
        count := if c.enable then c.count else BitVec.ofNat 48 (fld v 175 128) }
    else c
  if lent == c.lent && slot == c.slot then d
  else { d with lent := lent, slot := slot, count := 0, tally := 0, tallySat := false, snap := 0, enable := false, frozen := false }

/-- Effects of a SET beside the bits it stores: `old` and `new` are the stored bits, `v` the whole
instance as it was sent. -/
def setEffect (fn : Fin 65) (id sub old new v : Nat) (s : State) : State :=
  let i : Fin 64 := (slotOfFn fn).getD 0
  let d : Fin 4 := Fin.ofNat 4 sub
  match id with
  | 0x13 => if bitAt new 0 && !bitAt old 0 then enableRing i d s else s
  | 0x14 => modDie i d (fun x => { x with cs := Vector.ofFn (fun (k : Fin 64) => BitVec.ofNat 64 (fld v (64 * k.val + 63) (64 * k.val))) }) s
  | 0x15 =>
    if wAlpha new = wAlpha old && wWarm new = wWarm old then s else modWatch i (fun w => { w with n := 0, mu := 0, var := 0 }) s
  | 0x17 => setAs i d v s
  | 0x18 => modStash i (fun t => { t with stashPeak := t.stashUsed }) s
  | 0x31 =>
    if new = old then s
    else
      let p : Fin 32 := Fin.ofNat 32 sub
      modPort p (fun q => { q with subValid := false, subPos := 0, subLane := 0 }) (setPort p (if pKind new = 0 then .disabled else .down) 0 s)
  | 0x32 =>
    let place := [(511, 448), (239, 222), (0, 0)]
    let renamed := [(511, 448), (239, 222)]
    if keepFields new place = keepFields old place then s
    else
      forEach (allPorts.filter (fun p => isCrew s p && ((port s p).st.live || (port s p).st == .quarantined ||
        ((port s p).st == .discovering && keepFields new renamed != keepFields old renamed)))) enterDiscovery s
  | 0x34 =>
    let s := if fld old 103 96 = fld new 103 96 then s else rebasePenalties (fld old 103 96) s.clock.now s
    forEach allPorts drainPort s
  | 0x40 => setTimeObj v s
  | 0x41 =>
    if bitAt new 0 && !bitAt old 0 then writeBuoy (slotOfFn fn) d (setStream (slotOfFn fn) d (fun _ => Stream.reset) s) else s
  | 0x42 => modClock (fun c => { c with pmu := vmod c.pmu (Fin.ofNat 32 sub) (fun k => k.assign (fn == pf0) v) }) s
  | 0x43 =>
    let s := modTrigger (slotOfFn fn) (fun t => { t with at_ := BitVec.ofNat 64 (fld v 127 64), action := BitVec.ofNat 2 (fld v 2 1) }) s
    if bitAt v 0 then armTrigger (slotOfFn fn) s else s
  | _ => s

/-- Objects whose fields another part of the state holds. -/
def heldElsewhere (id : Nat) : Bool := id == 0x14 || id == 0x42 || id == 0x43

/-- A SET that has passed its checks (R563, R564). -/
def applySet (fn : Fin 65) (id sub v : Nat) (s : State) : State :=
  let k := objKey fn id sub
  let old := objBits s k
  let new := if heldElsewhere id then 0 else keepFields v (setRule s fn id sub v).rw
  setEffect fn id sub old new v (objPut k new s)

end Sys2Proof.Machine
end

