-- ==== Sys2Proof/Machine/UnlorBase.lean ====
section
/-! DEFINITION. Unlor commands as the Cox holds them, and the checks that every command meets
(spec/16_host_mailbox.md R546 to R554, R566, R567). -/

namespace Sys2Proof.Machine

/-- A command as the Cox copied it from its slot, or found it in a MGMT frame (R546, R511). -/
structure Cmd where
  fn : Fin 65
  mb : Fin 16
  seq : BitVec 16
  opcode : BitVec 16
  handle : BitVec 16
  length : Nat
  ind : Bool
  indAddr : BitVec 64
  indLen : Nat
  rsv : BitVec 95
  payload : Nat
  dma : IndBuf
  mgmt : Option (Fin 32 × BitVec 18)
  deriving DecidableEq, Repr

/-- The 256 bytes of a command slot that hold a command (R547). -/
def slotImage (opcode : BitVec 16) (c : HostCmd) : BitVec 2048 :=
  let r := c.rsv.toNat
  BitVec.ofNat 2048 (opcode.toNat + c.seq.toNat <<< 16 + c.length.toNat <<< 32 + c.handle.toNat <<< 48 +
    fld r 62 31 <<< 64 + (if c.ind then 1 else 0) <<< 96 + fld r 30 0 <<< 97 + c.indAddr.toNat <<< 128 +
    c.indLen.toNat <<< 192 + fld r 94 63 <<< 224 + c.payload.toNat <<< 256)

/-- The command in a slot's 256 bytes (R547). -/
def Cmd.ofImage (fn : Fin 65) (mb : Fin 16) (img : BitVec 2048) (dma : IndBuf) (mgmt : Option (Fin 32 × BitVec 18)) : Cmd :=
  let v := img.toNat
  { fn := fn, mb := mb, opcode := BitVec.ofNat 16 (fld v 15 0), seq := BitVec.ofNat 16 (fld v 31 16),
    length := fld v 47 32, handle := BitVec.ofNat 16 (fld v 63 48), ind := bitAt v 96,
    indAddr := BitVec.ofNat 64 (fld v 191 128), indLen := fld v 223 192,
    rsv := BitVec.ofNat 95 (fld v 127 97 + fld v 95 64 <<< 31 + fld v 255 224 <<< 63),
    payload := fld v 2047 256, dma := dma, mgmt := mgmt }

/-- Bits of the inline payload. -/
def Cmd.pl (c : Cmd) (hi lo : Nat) : Nat := fld c.payload hi lo

/-- The job slot that the handle names. -/
def Cmd.slot (c : Cmd) : Fin 64 := Fin.ofNat 64 (c.handle.toNat / 1024)

/-- The bulk data of a command, as a number; a buffer shorter than ind_len is read as zeros. -/
def Cmd.bulk (c : Cmd) : Nat := leNat (c.dma.data.take c.indLen)

/-- What a command's own checks and effect come to: a final reply, a final reply with a new handle,
ACCEPTED and the work that goes on (R552), or a wait before the only reply (R359). -/
inductive Res where
  | done (b : ReplyBody)
  | created (h : BitVec 16)
  | start (w : BgWork) (go : State → State)
  | wait (w : BgWork)

/-- A refusal. -/
def no (st : BitVec 8) : Res := .done (.of st)

/-- A refusal that names a byte of the command slot. -/
def noAt (st : BitVec 8) (off : Nat) : Res := .done (.at_ st off)

/-- OK without payload. -/
def resOk : Res := .done (.of stOK)

/-! ### The catalogue (R566, R567) -/

/-- Opcodes of the catalogue. -/
def opKnown (op : Nat) : Bool :=
  [0x01, 0x02, 0x03, 0x10, 0x11, 0x12, 0x13, 0x14, 0x15, 0x16, 0x17, 0x18, 0x19, 0x1A, 0x20, 0x21, 0x22, 0x23, 0x24,
   0x30, 0x31, 0x32, 0x33, 0x40, 0x41, 0x42, 0x43, 0x44, 0x45, 0x46, 0x47, 0x48, 0x50, 0x51, 0x60, 0x61, 0x62].contains op

/-- Opcodes that PF0, and that a virtual function, may send. -/
def opPf (op : Nat) : Bool := op != 0x22 && op != 0x23
def opVf (op : Nat) : Bool :=
  [0x01, 0x02, 0x03, 0x11, 0x12, 0x13, 0x14, 0x15, 0x16, 0x17, 0x22, 0x23, 0x46, 0x47, 0x60].contains op

/-- Whether a payload length matches its opcode. -/
def opLength (op len : Nat) (ind : Bool) : Bool :=
  match op with
  | 0x03 => if ind then len == 8 else decide (8 ≤ len)
  | 0x01 | 0x02 | 0x10 | 0x17 | 0x18 | 0x24 | 0x30 | 0x31 | 0x32 | 0x33 | 0x47 | 0x48 | 0x51 | 0x60 | 0x61 | 0x62 => len == 8
  | 0x11 => len == 32
  | 0x12 => len == 216
  | 0x20 | 0x21 | 0x22 | 0x23 => len == 24
  | 0x40 => len == 200
  | 0x41 | 0x42 | 0x43 => len == 128
  | 0x44 => len == 8 || len == 152
  | 0x46 => len == 160
  | 0x50 => len == 16
  | _ => len == 0

/-- Commands that take an indirect buffer. -/
def opIndirect (op : Nat) : Bool := [0x02, 0x03, 0x11, 0x30, 0x50, 0x60, 0x61].contains op

/-- Commands that name a job by handle, and those that may (R567). -/
def opJob (op : Nat) : Bool := (decide (0x12 ≤ op) && decide (op ≤ 0x1A)) || (decide (0x20 ≤ op) && decide (op ≤ 0x24))
def opJobMay (op : Nat) : Bool := op == 0x11 || op == 0x60

/-- Commands that R554 refuses while a command marked A runs for the job. -/
def opBusy (op : Nat) : Bool := [0x13, 0x14, 0x15, 0x16, 0x17, 0x1A, 0x20, 0x21, 0x22, 0x23, 0x24].contains op

/-! ### Checks (R553) -/

/-- Whether an outstanding command of the same sender carries the sequence number (R551). -/
def seqTaken (s : State) (c : Cmd) : Bool :=
  s.cox.running.any (fun d => d.seq == c.seq && d.fn == c.fn && d.mgmt.map Prod.snd == c.mgmt.map Prod.snd)

/-- The first offending byte of the header (R547, R551, R567). -/
def headerFault (s : State) (c : Cmd) : Option Nat :=
  let r := c.rsv.toNat
  if seqTaken s c then some 2
  else if fld r 62 31 != 0 then some 8
  else if fld r 30 0 != 0 then some 12
  else if fld r 94 63 != 0 then some 28
  else none

/-- The check of the handle (R553, check 5; R567). -/
def handleCheck (s : State) (c : Cmd) : Option ReplyBody :=
  let op := c.opcode.toNat
  if op = 0x60 && c.fn = pf0 then (if c.handle = 0 then none else some (.at_ stBAD_FIELD 6))
  else if op = 0x60 && c.handle = 0 then none
  else if opJob op || (opJobMay op && c.handle != 0) then
    if c.handle = 0 then some (.of stSTATE)
    else if c.fn != pf0 && slotOfFn c.fn != some c.slot then some (.of stDENIED)
    else if (ctl s c.slot).incarnation.toNat = c.handle.toNat % 1024 && jobSt s c.slot ≠ .empty then none
    else some (.of stSTATE)
  else if opJobMay op then (if c.fn != pf0 then some (.of stDENIED) else none)
  else if c.handle != 0 then some (.at_ stBAD_FIELD 6)
  else none

/-- The checks of the indirect buffer (R547, R549, R578). -/
def indirectCheck (c : Cmd) : Option ReplyBody :=
  if !c.ind then none
  else if !opIndirect c.opcode.toNat then some (.at_ stBAD_FIELD 12)
  else if c.indAddr.toNat % 64 != 0 then some (.at_ stBAD_FIELD 16)
  else if 4194304 < c.indLen then some (.at_ stBOUND 24)
  else none

/-- A command that R554 refuses. -/
def busyCheck (s : State) (c : Cmd) : Option ReplyBody :=
  if opBusy c.opcode.toNat && s.cox.running.any (fun d => d.slot == some c.slot) then some (.of stBUSY) else none

/-- The checks of R553 before the command's own. -/
def preCheck (s : State) (c : Cmd) : Option ReplyBody :=
  let op := c.opcode.toNat
  if op != 1 && s.host[c.fn].version.isNone then some (.of stVERSION)
  else if !opKnown op then some (.of stBAD_OPCODE)
  else if !(if c.fn = pf0 then opPf op else opVf op) then some (.of stDENIED)
  else if 224 < c.length || !opLength op c.length c.ind then some (.at_ stBAD_LENGTH 4)
  else
    match headerFault s c with
    | some o => some (.at_ stBAD_FIELD o)
    | none => ((handleCheck s c).orElse (fun _ => indirectCheck c)).orElse (fun _ => busyCheck s c)

/-! ### Replies -/

/-- Write by DMA to the host for a function (R509). -/
def sendDma (fn : Fin 65) (addr : BitVec 64) (data : List Byte) (s : State) : State := emit (.dmaWrite fn addr data (fnLocked s fn)) s

/-- Write a bulk reply by DMA (R549): how many bytes of it the host takes decides the status. -/
def bulkReply (c : Cmd) (data : List Byte) (s : State) : State × ReplyBody :=
  match c.dma.writeFail with
  | some k =>
    if k < data.length then (sendDma c.fn c.indAddr (data.take k) s, ⟨stINTEGRITY, 0, k, 0, 0⟩)
    else (sendDma c.fn c.indAddr data s, ⟨stOK, 0, data.length, 0, 0⟩)
  | none => (sendDma c.fn c.indAddr data s, ⟨stOK, 0, data.length, 0, 0⟩)

/-- A command goes on without its final reply. -/
def runOn (c : Cmd) (w : BgWork) (s : State) : State :=
  let b : BgCmd := { fn := c.fn, mb := c.mb, seq := c.seq, opcode := c.opcode, handle := c.handle, indLen := c.indLen,
                     indAddr := c.indAddr, payload := c.payload, dma := c.dma, mgmt := c.mgmt, work := w }
  { s with cox := { s.cox with running := s.cox.running ++ [b] } }

/-- Write the replies of a command that has been taken, and let its work go on (R548, R552). -/
def settleCmd (c : Cmd) (r : State × Res) : State :=
  match r.2 with
  | .done b => answer c.fn c.mb c.mgmt (replyImage r.1 c.opcode c.seq c.handle b) true r.1
  | .created h => answer c.fn c.mb c.mgmt (replyImage r.1 c.opcode c.seq h (.of stOK)) true r.1
  | .start w go =>
    go (runOn c w (answer c.fn c.mb c.mgmt (replyImage r.1 c.opcode c.seq c.handle (.of stACCEPTED)) false r.1))
  | .wait w => runOn c w r.1

end Sys2Proof.Machine
end

