-- ==== Sys2Proof/Machine/JobCmds.lean ====
section
/-! DEFINITION. Commands that negotiate, that read and write objects, and that act on jobs, frames and
mappings (spec/16_host_mailbox.md R556 to R569; spec/14_secrecy.md R490 to R498; spec/08_memory.md R275,
R276). Effects only: the checks of R553 come before them. -/

namespace Sys2Proof.Machine

/-! ### VERSION, GET, SET -/

/-- VERSION (R556): the highest of 5.0 to 5.2 in the host's range. -/
def cmdVersion (c : Cmd) (s : State) : State × Res :=
  let p := fun (m : Nat) => 256 * 5 + m
  let hi := c.pl 63 48
  let lo := c.pl 47 32
  if c.pl 31 16 != 0 then (s, noAt stBAD_FIELD 34)
  else
    match [2, 1, 0].find? (fun m => decide (lo ≤ p m ∧ p m ≤ hi)) with
    | none => (s, no stVERSION)
    | some m =>
      (modHost c.fn (fun h => { h with version := some (BitVec.ofNat 8 m) }) s,
       .done (.data 16 (c.pl 63 32 <<< 32 + p m + s.cox.image.version.toNat <<< 64)))

/-- GET (R562 to R564). -/
def cmdGet (c : Cmd) (s : State) : State × Res :=
  let id := c.pl 15 0
  let sub := c.pl 31 16
  if c.pl 63 32 != 0 then (s, noAt stBAD_FIELD 36)
  else if !objKnown id then (s, noAt stBAD_FIELD 32)
  else if !objGranted s c.fn id sub false then (s, no stDENIED)
  else if !subOk id sub then (s, noAt stBOUND 34)
  else
    let n := objSize s id sub
    let gen := (objGen s (objKey c.fn id sub)).toNat
    let img := objImage s c.fn id sub
    if c.ind then
      if c.indLen < n then (s, noAt stBOUND 24)
      else
        let r := bulkReply c (leBytes n img) s
        (r.1, .done { r.2 with length := 8, payload := gen })
    else if 216 < n then (s, noAt stBOUND 12)
    else (s, .done (.data (8 + n) (gen + img <<< 64)))

/-- The reply of a SET that has passed its checks: a window's comes once every request that was checked
against the old entry has been applied (R359). -/
def setAnswer (fn : Fin 65) (id sub : Nat) (s : State) : Res :=
  match slotOfFn fn with
  | some i => if id = 0x1B && windowHeld s i sub then .wait (.window i (BitVec.ofNat 16 sub)) else resOk
  | none => resOk

/-- SET (R359, R562 to R564): entries of OBJ_MEM_CFG beyond the device's bands are past a bound (R306). -/
def cmdSet (c : Cmd) (s : State) : State × Res :=
  let id := c.pl 15 0
  let sub := c.pl 31 16
  if !objKnown id then (s, noAt stBAD_FIELD 32)
  else if !objGranted s c.fn id sub true then (s, no stDENIED)
  else if !subOk id sub then (s, noAt stBOUND 34)
  else
    let n := objSize s id sub
    let len := if c.ind then c.indLen else c.length - 8
    if id = 0x20 && n < len && (len - n) % 4 = 0 then (s, noAt stBOUND (n + if c.ind then 2 ^ 63 else 40))
    else if c.ind && c.indLen < n then (s, noAt stBOUND 24)
    else if len != n then (s, noAt stBAD_LENGTH (if c.ind then 24 else 4))
    else if c.ind && !c.dma.readOk then (s, no stINTEGRITY)
    else
      let v := (if c.ind then c.bulk else c.payload >>> 64) % 2 ^ (8 * n)
      if c.pl 63 32 != 0xFFFFFFFF && c.pl 63 32 != (objGen s (objKey c.fn id sub)).toNat then (s, no stSTATE)
      else
        match (setRule s c.fn id sub v).check v (if c.ind then 2 ^ 63 else 40) with
        | some b => (s, .done b)
        | none => (applySet c.fn id sub v s, setAnswer c.fn id sub s)

/-! ### Jobs -/

/-- JOB_CREATE (R559, R567): the incarnation is never 0 (R557). -/
def cmdCreate (c : Cmd) (s : State) : State × Res :=
  let i : Fin 64 := Fin.ofNat 64 (c.pl 5 0)
  if c.pl 63 6 != 0 then (s, noAt stBAD_FIELD 32)
  else if jobSt s i ≠ .empty || decide (s.numVfs ≤ i.val) || d3Open s then (s, no stSTATE)
  else
    let inc := (ctl s i).incarnation + 1
    let s := modCtl i (fun k => { k with incarnation := if inc = 0 then 1 else inc, tearCause := 0 }) s
    let s := setJob i .created s
    (s, .created (jobTag s i))

/-- A report of R494, unsigned part: 288 bytes. -/
def reportBody (s : State) (slot inc debug : Nat) (nonce : Nat) (pub : List Byte) : List Byte :=
  let digest := Config.sha384 (s.sec.meas.toList.flatMap measBytes)
  leBytes 288 (packed [(leNat pub, 1536), (digest.toNat, 1152), (nonce, 896), (s.clock.now % 2 ^ 64, 832), (s.sec.serial.toNat, 768),
    (1, 56), (s.cox.image.svn.toNat, 48), (s.sec.lifecycle.code, 26), (debug, 24), (slot, 10), (inc, 0)])

/-- A signature under the identity key that the boot derived (R486). In RETIRED none is derived and nothing is signed (R485);
with none outside it, which no run reaches, the key counts as 0. -/
def identitySign (s : State) (body : List Byte) : List Byte := Config.ecSign (s.sec.identity.getD 0) body

/-- A report with its signature under the identity key (R494). -/
def signReport (s : State) (body : List Byte) : List Byte := body ++ identitySign s body

/-- Level of debug of a slot (R494): D2 stands above D1. -/
def slotDebug (s : State) (i : Fin 64) : Nat := max (debugLevel s) (if s.sec.d2[i].isSome then 2 else 0)

/-- JOB_ATTEST (R493, R567). -/
def cmdAttest (c : Cmd) (s : State) : State × Res :=
  let nonce := c.pl 255 0
  let job := c.handle != 0
  let st := jobSt s c.slot
  if !c.ind then (s, noAt stBOUND 12)
  else if c.indLen < 384 then (s, noAt stBOUND 24)
  else if s.sec.lifecycle = .retired || (job && (st == .torn || st == .scrubbing)) then (s, no stSTATE)
  else if job && st != .created then
    let r := bulkReply c (signReport s (reportBody s c.slot.val (ctl s c.slot).incarnation.toNat (slotDebug s c.slot) nonce [])) s
    (r.1, .done r.2)
  else
    let d := draw s
    let k := Config.random d.1
    let body := reportBody d.2 (if job then c.slot.val else 0) (if job then (ctl s c.slot).incarnation.toNat else 0)
      (if job then slotDebug s c.slot else debugLevel s) nonce (Config.ecPublic k)
    let rep := signReport s body
    let e : Ephemeral := { scalar := k, nonce := leBytes 32 nonce, report := rep }
    let s := if job then modSec (fun x => { x with eph := x.eph.set c.slot (some e) }) d.2 else modSec (fun x => { x with devEph := some e }) d.2
    let r := bulkReply c rep s
    (r.1, .done r.2)

/-- `unwrap` of R496 for a bundle with `n` bytes of ciphertext at bit 128. -/
def unwrap (b n slot inc : Nat) (e : Ephemeral) : Option Nat :=
  let pub := leBytes 96 (b >>> (128 + 8 * n))
  let ct := leBytes n (b >>> 128)
  if !Config.onCurve pub then none
  else
    let okm := Config.hkdf e.nonce (Config.ecdh e.scalar pub)
      (("DK5 job bundle".toList.map (fun ch => BitVec.ofNat 8 ch.toNat)) ++ leBytes 1 slot ++ leBytes 2 inc) 44
    let key := BitVec.ofNat 256 (leNat (okm.take 32))
    let iv := BitVec.ofNat 96 (leNat (okm.drop 32))
    if Config.gcmTag key iv (e.report.take 288) ct = BitVec.ofNat 128 b then some (leNat (Config.gcmOpen key iv ct)) else none

/-- Keys of a sealed content (R495). -/
def keysOf (v : Nat) : JobKeys :=
  { memKey := BitVec.ofNat 512 (fld v 831 320), fabKey := BitVec.ofNat 256 (fld v 319 64), jobId := BitVec.ofNat 20 (fld v 63 44),
    minSvn := BitVec.ofNat 8 (fld v 43 36), hostLock := bitAt v 2, authOnly := bitAt v 1, surviveWarm := bitAt v 0 }

/-- JOB_KEY (R497): the Umpire loads the keys into the engines' tables (R501). -/
def cmdKey (c : Cmd) (s : State) : State × Res :=
  let i := c.slot
  let pol := objBits s (jobKey oJOB_POLICY i 0)
  if s.sec.lifecycle ≠ .deployed || jobSt s i ≠ .created || s.clock.t.st = .unset then (s, no stSTATE)
  else
    match s.sec.eph[i] with
    | none => (s, no stSTATE)
    | some e =>
      match unwrap (c.pl 1727 0) 104 i.val (ctl s i).incarnation.toNat e with
      | none => (modSec (fun x => { x with eph := x.eph.set i none }) s, no stINTEGRITY)
      | some v =>
        let k := keysOf v
        if fld v 35 3 != 0 then (s, noAt stBAD_FIELD 48)
        else if (k.authOnly && bitAt pol 1) || (k.surviveWarm && !bitAt pol 2) then (s, no stDENIED)
        else if s.cox.image.svn < k.minSvn then (s, no stVERSION)
        else if allSlots.any (fun j => j != i && s.jobs[j].vmt.jobId == some k.jobId) then (s, no stSTATE)
        else
          let s := modSec (fun x => { x with jobKeys := x.jobKeys.set i (some k), eph := x.eph.set i none }) s
          (setJob i .keyed (loadTables i (modVmt i (fun w => { w with jobId := some k.jobId, txc := 0 }) s)), resOk)

/-- JOB_READY (R559). -/
def cmdReady (c : Cmd) (s : State) : State × Res :=
  if jobSt s c.slot = .keyed then (setJob c.slot .ready s, resOk) else (s, no stSTATE)

/-- JOB_START (R559). -/
def cmdStart (c : Cmd) (s : State) : State × Res :=
  if jobSt s c.slot = .ready then (settle c.slot (setJob c.slot .running s), resOk) else (s, no stSTATE)

/-- JOB_PAUSE (R559): the final reply comes at PAUSED, and a record that closes is judged once nothing runs under it (R166). -/
def cmdPause (c : Cmd) (s : State) : State × Res :=
  match jobSt s c.slot with
  | .running => (s, .start (.pause c.slot) (fun s => settle c.slot (drainJob c.slot s)))
  | .draining => (s, .start (.pause c.slot) id)
  | .paused => (s, .start .made id)
  | _ => (s, no stSTATE)

/-- JOB_RESUME (R210, R559). -/
def cmdResume (c : Cmd) (s : State) : State × Res :=
  if jobSt s c.slot = .paused then (settle c.slot (setJob c.slot .running s), resOk) else (s, no stSTATE)

/-- TASK_RESET (R211, R567). -/
def cmdTaskReset (c : Cmd) (s : State) : State × Res :=
  let mask := c.pl 3 0
  if c.pl 63 4 != 0 || mask == 0 then (s, noAt stBAD_FIELD 32)
  else if jobSt s c.slot ≠ .paused then (s, no stSTATE)
  else (forEach (allDies.filter (fun d => bitAt mask d.val)) (fun d st => resetTable c.slot d false st) s, resOk)

/-- JOB_SEAL (R333). -/
def cmdSeal (c : Cmd) (s : State) : State × Res :=
  let st := jobSt s c.slot
  if st == .ready || st == .running || st == .draining || st == .paused then
    (modJob c.slot (fun j => { j with upd := { j.upd with
        sealedStep := BitVec.ofNat 64 (max j.upd.sealedStep.toNat (c.pl 63 0)), sealedValid := true } }) s, resOk)
  else (s, no stSTATE)

/-- JOB_TEAR (R371). -/
def cmdTear (c : Cmd) (s : State) : State × Res :=
  match jobSt s c.slot with
  | .scrubbing => (s, no stSTATE)
  | .empty => (s, no stSTATE)
  | _ => (tearJob c.slot 1 s, resOk)

/-- JOB_FREE (R560). -/
def cmdFree (c : Cmd) (s : State) : State × Res :=
  if jobSt s c.slot = .torn then (s, .start (.free c.slot) (enterScrub c.slot)) else (s, no stSTATE)

/-! ### Frames and pages (R568, R569) -/

/-- CREATED, KEYED, READY, RUNNING, DRAINING or PAUSED (R559). -/
def grantState (st : JobState) : Bool := st == .created || st.active

/-- The first byte of a frame or mapping payload that holds an RSV bit, or a field that the command does
not use, that is not 0 (R568). -/
def unusedFault (c : Cmd) (fs : List (Nat × Nat)) : Option Nat :=
  ((fs.filter (fun f => c.pl f.1 f.2 != 0)).map (fun f => 32 + f.2 / 8)).head?

/-- Frames that are granted to some job, or wait for their scrub. -/
def frameHeld (s : State) (first n : Nat) : Bool :=
  allSlots.any (fun i => ((ctl s i).grants ++ (ctl s i).revoking).any (runsMeet (first, n)))

/-- FRAME_GRANT (R569). -/
def cmdGrant (c : Cmd) (s : State) : State × Res :=
  let first := c.pl 63 32
  let n := c.pl 95 64
  match unusedFault c [(0, 0), (1, 1), (2, 2), (3, 3), (4, 4), (31, 5), (143, 96), (191, 144)] with
  | some o => (s, noAt stBAD_FIELD o)
  | none =>
    if n = 0 then (s, noAt stBAD_FIELD 40)
    else if !grantState (jobSt s c.slot) then (s, no stSTATE)
    else if grantable s ≤ first then (s, noAt stBOUND 36)
    else if grantable s < first + n then (s, noAt stBOUND 40)
    else if frameHeld s first n then (s, no stNO_RESOURCE)
    else (modCtl c.slot (fun k => { k with grants := runsInsert k.grants (first, n) }) s, resOk)

/-- Frames of a page as a run. -/
def Page.run (p : Page) : Nat × Nat := (p.frame, p.bytes / frameBytes)

/-- FRAME_REVOKE (R569). -/
def cmdRevoke (c : Cmd) (s : State) : State × Res :=
  let first := c.pl 63 32
  let n := c.pl 95 64
  let k := ctl s c.slot
  match unusedFault c [(0, 0), (1, 1), (2, 2), (3, 3), (4, 4), (31, 5), (143, 96), (191, 144)] with
  | some o => (s, noAt stBAD_FIELD o)
  | none =>
    if n = 0 then (s, noAt stBAD_FIELD 40)
    else if !grantState (jobSt s c.slot) then (s, no stSTATE)
    else if runsOverlap k.grants first n != n then (s, noAt stBAD_FIELD 36)
    else if k.pages.any (fun p => runsMeet p.run (first, n)) then (s, no stSTATE)
    else (s, .start (.revoke c.slot) (modCtl c.slot (fun k =>
      { k with grants := runsRemove k.grants first n, revoking := runsInsert k.revoking (first, n) })))

/-- Pages that a MAP describes. -/
def mapPages (va first n : Nat) (big r w : Bool) : List Page :=
  let p := if big then 512 else 1
  (List.range n).map (fun i => { va := va + i * p * frameBytes, big := big, frame := first + i * p, r := r, w := w })

/-- Bytes in a page of a size. -/
def sizeBytes (big : Bool) : Nat := if big then 2 ^ 30 else frameBytes

/-- MAP (R275). -/
def cmdMap (c : Cmd) (s : State) : State × Res :=
  let i := c.slot
  let big := c.pl 1 1 == 1
  let va := c.pl 143 96
  let first := c.pl 63 32
  let n := c.pl 95 64
  let per := if big then 512 else 1
  let st := jobSt s i
  if !(st == .keyed || st == .ready || st == .paused) then (s, no stSTATE)
  else
    match unusedFault c [(0, 0), (2, 2), (31, 5), (191, 144)] with
    | some o => (s, noAt stBAD_FIELD o)
    | none =>
      if big && (List.range (min n 65536)).any (fun k => (first + 512 * k) / 10240 != (first + 512 * k + 511) / 10240) then (s, noAt stBAD_FIELD 36)
      else if va % sizeBytes big != 0 then (s, noAt stBAD_FIELD 44)
      else if totalFrames s < first + per * n then (s, noAt stBOUND 36)
      else if n = 0 || 65536 < n then (s, noAt stBOUND 40)
      else if runsOverlap (ctl s i).grants first (per * n) != per * n then (s, no stDENIED)
      else if allSlots.any (fun j => (ctl s j).pages.any (fun p => runsMeet p.run (first, per * n))) ||
          (ctl s i).pages.any (fun p => runsMeet (p.va, p.bytes) (va, n * sizeBytes big)) ||
          decide (0xFFF000000000 < va + n * sizeBytes big) then (s, no stSTATE)
      else (modCtl i (fun k => { k with pages := k.pages ++ mapPages va first n big (c.pl 3 3 == 1) (c.pl 4 4 == 1) }) s, resOk)

/-- A valid window of a job that names a byte of a range of its addresses (R276). -/
def windowNames (s : State) (i : Fin 64) (va len : Nat) : Bool :=
  s.objs.any (fun o => o.1.id == oJOB_WINDOW && o.1.owner == i.succ && bitAt o.2.bits 0 &&
    runsMeet (fld o.2.bits 463 416, fld o.2.bits 415 368) (va, len))

/-- The sectors of the stream cache in a range of a job's addresses go (R276). -/
def dropRange (i : Fin 64) (va len : Nat) (s : State) : State :=
  { s with mem := { s.mem with lines := s.mem.lines.filter (fun l =>
      !(l.slot == i && decide (va / 64 ≤ l.sector ∧ l.sector < (va + len) / 64))) } }

/-- UNMAP (R276, R569). -/
def cmdUnmap (c : Cmd) (s : State) : State × Res :=
  let i := c.slot
  let big := c.pl 1 1 == 1
  let va := c.pl 143 96
  let n := c.pl 95 64
  let st := jobSt s i
  let len := n * sizeBytes big
  if !(st == .ready || st == .paused) then (s, no stSTATE)
  else
    match unusedFault c [(0, 0), (2, 2), (3, 3), (4, 4), (31, 5), (63, 32), (191, 144)] with
    | some o => (s, noAt stBAD_FIELD o)
    | none =>
      if va % sizeBytes big != 0 then (s, noAt stBAD_FIELD 44)
      else if n = 0 || 65536 < n then (s, noAt stBOUND 40)
      else if !((List.range n).all (fun k => (ctl s i).pages.any (fun p => p.big == big && p.va == va + k * sizeBytes big))) then
        (s, noAt stBAD_FIELD 44)
      else if windowNames s i va len then (s, no stSTATE)
      else (dropRange i va len (modCtl i (fun k => { k with pages := k.pages.filter (fun p => !runsMeet (p.va, p.bytes) (va, len)) }) s), resOk)

/-- AS_GRANT (R568, R569). -/
def cmdAsGrant (c : Cmd) (s : State) : State × Res :=
  let i := c.slot
  let q := fun (d : Fin 4) => c.pl (12 * d.val + 11) (12 * d.val)
  if c.pl 63 48 != 0 then (s, noAt stBAD_FIELD 38)
  else if !grantState (jobSt s i) then (s, no stSTATE)
  else if allDies.any (fun d => decide (q d < (ctl s i).asAct[d].length + (ctl s i).asCache[d].length)) then (s, no stSTATE)
  else if allDies.any (fun d => decide (3072 <
      ((allSlots.filter (· != i)).map (fun j => (ctl s j).asQuota[d])).foldl (· + ·) 0 + q d)) then (s, no stNO_RESOURCE)
  else (modCtl i (fun k => { k with asQuota := Vector.ofFn q }) s, resOk)

/-! ### Completions of scrubs -/

/-- SCRUB_COMPLETE. -/
def execScrubComplete (slot : Fin 64) (s : State) : Host.Outcome State Fault Refusal := .next (doScrubComplete slot s)
/-- FRAME_SCRUB_COMPLETE. -/
def execFrameScrubComplete (slot : Fin 64) (s : State) : Host.Outcome State Fault Refusal := .next (doFrameScrub slot s)

end Sys2Proof.Machine
end

