-- ==== Sys2Proof/Machine/Ports.lean ====
section
/-! DEFINITION. The commands of the ports family but for MGMT frames
(spec/11_ports_discovery_routing.md). A timed event acts whatever global time reads
(notes/assumptions/2), and an event that the port's state rules out changes nothing
(notes/assumptions/5). -/

namespace Sys2Proof.Machine

/-- Signal on every lane (R391). -/
def doSignal (p : Fin 32) (s : State) : State := if (port s p).st = .down then setPort p .training 0 s else s

/-- Training complete (R391). -/
def doTrained (p : Fin 32) (s : State) : State :=
  if (port s p).st ≠ .training then s
  else
    let s := modCalib (fun c => { c with ports := c.ports.set p c.loaded.serdes }) s
    if isCrew s p then enterDiscovery p s
    else if isUplink s p then setPort p .up 0 s
    else s

/-- Training not complete in 1 s (R391). -/
def doTrainTimeout (p : Fin 32) (s : State) : State := if (port s p).st = .training then setPort p .down 0 s else s

/-- No frame for 1 ms on a CREW port that is UP or DEMOTED (R391). -/
def doSilence (p : Fin 32) (s : State) : State := if isCrew s p && (port s p).st.live then losePort p s else s

/-- A DISC frame arrives (R391, R406): a port that discovers acts on it; one that is UP or DEMOTED accepts it, and it changes
nothing there (DESIGN CHOICE, notes/assumptions/17). -/
def takeDisc (p : Fin 32) (kind : FrameKind) (n : Nat) (act : State → State) (s : State) : State :=
  if !isCrew s p || !(discovers s p || (port s p).st.live) then dropFrame p s
  else
    let r := ctlAccept p (consumeFrame p kind n s)
    if r.2 && discovers s p then act r.1 else r.1

/-- A partner's HELLO (R388, R406). -/
def doHello (p : Fin 32) (h : Hello) (s : State) : State := takeDisc p .hello (helloOf h).length (takeHello p h) s

/-- A partner's PROOF (R388, R406). -/
def doProof (p : Fin 32) (sig : List Byte) (s : State) : State := takeDisc p .proof sig.length (takeProof p sig) s

/-- HELLO again, at most disc_tries times in all (R388, R405). -/
def doHelloResend (p : Fin 32) (s : State) : State :=
  if discovers s p && (port s p).hello.isNone && decide ((port s p).tries < devFld s oLINK_CFG 0 95 88) then sendHello p s else s

/-- No HELLO or PROOF within the bound (R389). -/
def doDiscTimeout (p : Fin 32) (s : State) : State := if isCrew s p && discovers s p then quarantine p 4 s else s

/-- Discovery once per second in QUARANTINED (R389). -/
def doRetry (p : Fin 32) (s : State) : State :=
  if isCrew s p && (port s p).st = .quarantined then startDiscovery p s else s

/-- LLDP once per second (R387): chassis, port, time to live and the node ID. -/
def doLldp (p : Fin 32) (s : State) : State :=
  match (port s p).st with
  | .disabled => s
  | .damped => s
  | _ => sendOther p .lldp [devFld s oFABRIC_NODE 0 319 272, p.val, 4, if nodeValid s then 1 else 0, (ownNode s).toNat] s

/-- A received LLDP frame (R387, R391, R406). -/
def doLldpRx (p : Fin 32) (tlvs : List Byte) (s : State) : State :=
  if (port s p).st.live || discovers s p then
    let r := ctlAccept p s
    if r.2 then modPort p (fun q => { q with lldp := tlvs }) r.1 else r.1
  else dropFrame p s

/-- A CREDIT frame (R401). -/
def doCredit (p : Fin 32) (freed : List (BitVec 32)) (s : State) : State :=
  if isCrew s p && (port s p).st.live then
    drainPort p (countRx p (modPort p (fun q => { q with
      credBack := Vector.ofFn (fun (i : Fin 16) => (freed[i.val]?).getD q.credBack[i]) }) (consumeFrame p .credit 16 s)))
  else dropFrame p s

/-- A CREDIT frame is sent (R401). -/
def doCreditSend (p : Fin 32) (s : State) : State :=
  if isCrew s p && (port s p).st.live then sendOther p .credit ((port s p).credFreed.toList.map BitVec.toNat) s else s

/-- A virtual lane of a port is stalled (R402): a frame of it waits with too few credits; on an UPLINK, its priority is
paused. -/
def stalled (s : State) (p : Fin 32) (vl : BitVec 3) : Bool :=
  lanePaused s p vl || (port s p).queue.any (fun f => f.shim.vl == vl && short s p f)

/-- A stall of credit_timeout_us (R402, R391). -/
def doStall (p : Fin 32) (vl : BitVec 3) (s : State) : State :=
  if (port s p).st.live && stalled s p vl then
    let s := modPort p (fun q => { q with stalls := satInc16 q.stalls 1 }) s
    if (port s p).st = .up then setPort p .demoted 0 s else s
  else s

/-- promote_ms without a stall (R391). -/
def doPromote (p : Fin 32) (s : State) : State := if (port s p).st = .demoted then setPort p .up 0 s else s

/-- The penalty has fallen below damp_reuse (R391). -/
def doReuse (p : Fin 32) (s : State) : State := if (port s p).st = .damped then setPort p .down 0 s else s

/-- A PFC frame (R403), a frame received like any other (R472). -/
def doPfc (p : Fin 32) (prio : BitVec 3) (pause : Bool) (s : State) : State :=
  if isUplink s p && (port s p).st.live then
    let bit : BitVec 8 := 1 <<< prio.toNat
    drainPort p (countRx p (modPort p (fun q => { q with paused := if pause then q.paused ||| bit else q.paused &&& ~~~bit }) s))
  else dropFrame p s

/-- A Neighbor Solicitation (R383): the answer names the address, who asked, and the port's MAC. -/
def doSolicit (p : Fin 32) (target source : BitVec 128) (s : State) : State :=
  if isUplink s p && (port s p).st.live && target = nodeAddress s (ownNode s) then
    sendOther p .advert [target.toNat, source.toNat, (portMac s p).toNat] (countRx p s)
  else dropFrame p s

/-- Whether a LINKCTL frame is taken: on a live CREW port, within the rate, under the link key (R390,
R406). -/
def linkctlOk (p : Fin 32) (content : List Byte) (tag : BitVec 128) (s : State) : State × Bool :=
  if !isCrew s p || !(port s p).st.live then (dropFrame p s, false)
  else
    let r := ctlAccept p (consumeFrame p .swap (content.length / 8 + 1) s)
    if !r.2 then r
    else if linkTag r.1 p content = some tag then r
    else (dropFrame p r.1, false)

/-- A partner asks for a swap (R409): with no idle spare the request is refused and the port
retrains (R410). The marker is the device's own choice, which the spec leaves open. -/
def doSwapRequest (p : Fin 32) (pos : BitVec 3) (tag : BitVec 128) (s : State) : State :=
  let r := linkctlOk p (leBytes 8 pos.toNat) tag s
  if !r.2 then r.1
  else
    let s := r.1
    let back := (port s p).subValid && (port s p).subPos == pos
    if (port s p).swap.isSome || ((port s p).subValid && !back) || (!back && (idleSpare s p).isNone) ||
        decide (pLanes (portEntry s p) ≤ pos.toNat) then
      laneEvent p 1 true (if back then 1 else 0) (setPort p .training 0 (sendLinkctl p .accept [0, 0] s))
    else
      let d := draw s
      let marker := (Config.freeValue d.1).toNat
      let s := modPort p (fun q => { q with
        swap := some { pos := pos, back := back, accepted := true, marker := marker, deadline := s.clock.now + usTicks 25000 } })
        (sendLinkctl p .accept [1, marker] d.2)
      laneEvent p 2 false (if back then 1 else 0) s

/-- A partner's ACCEPT, or its refusal (R409, R410). -/
def doAccept (p : Fin 32) (accept : Bool) (marker : Nat) (tag : BitVec 128) (s : State) : State :=
  let r := linkctlOk p (leBytes 8 (if accept then 1 else 0) ++ leBytes 8 marker) tag s
  if !r.2 then r.1
  else
    match (port r.1 p).swap with
    | none => r.1
    | some w =>
      if w.accepted then r.1
      else if accept then
        laneEvent p 2 false w.op (modPort p (fun q => { q with swap := some { w with accepted := true, marker := marker } }) r.1)
      else failSwap p stTIMEOUT r.1

/-- The alignment marker of a swap arrives (R409). -/
def doMarker (p : Fin 32) (marker : Nat) (s : State) : State :=
  match (port s p).swap with
  | none => s
  | some w => if w.accepted && w.marker == marker then finishSwap p w s else s

/-- A bound of a swap passes (R410). -/
def doSwapTimeout (p : Fin 32) (s : State) : State := failSwap p stTIMEOUT s

/-- Port whose lanes hold a physical lane, with the position the lane carries (R376, R409). -/
def laneHome (s : State) (lane : Fin 64) : Option (Fin 32 × Nat) :=
  (allPorts.find? (fun p =>
    let e := portEntry s p
    (pKind e == 1 || pKind e == 2) && decide (pFirstLane e ≤ lane.val ∧ lane.val < pFirstLane e + pLanes e))).map
      (fun p => (p, lane.val - pFirstLane (portEntry s p)))

/-- A lane's error ratio has exceeded 1e-4 for 1 s (R411). -/
def doAutoSpare (lane : Fin 64) (s : State) : State :=
  let s' := raiseCause pf0 2 s
  match laneHome s lane with
  | none => s'
  | some (p, pos) =>
    if isCrew s p && pAutoSpare (portEntry s p) && (port s p).st.live && (port s p).swap.isNone && !(port s p).subValid &&
        (idleSpare s p).isSome then startSwap p (BitVec.ofNat 3 pos) false s'
    else s'

/-- Congestion penalties halve (R395). -/
def doCongestion (s : State) : State :=
  { s with fabric := { s.fabric with routes := { s.fabric.routes with
      congestion := (s.fabric.routes.congestion.map (fun c => (c.1, c.2 / 2))).filter (fun c => c.2 != 0) } } }

/-- PORT_SIGNAL_DETECT. -/
def execPortSignalDetect (port : Fin 32) (s : State) : Host.Outcome State Fault Refusal := .next (doSignal port s)
/-- TRAINING_COMPLETE. -/
def execTrainingComplete (port : Fin 32) (s : State) : Host.Outcome State Fault Refusal := .next (doTrained port s)
/-- TRAINING_TIMEOUT. -/
def execTrainingTimeout (port : Fin 32) (s : State) : Host.Outcome State Fault Refusal := .next (doTrainTimeout port s)
/-- PORT_LOST. -/
def execPortLost (port : Fin 32) (s : State) : Host.Outcome State Fault Refusal := .next (losePort port s)
/-- PORT_SILENCE_TIMEOUT. -/
def execPortSilenceTimeout (port : Fin 32) (s : State) : Host.Outcome State Fault Refusal := .next (doSilence port s)
/-- HELLO_RECEIVE. -/
def execHelloReceive (port : Fin 32) (h : Hello) (s : State) : Host.Outcome State Fault Refusal := .next (doHello port h s)
/-- PROOF_RECEIVE. -/
def execProofReceive (port : Fin 32) (sig : List Byte) (s : State) : Host.Outcome State Fault Refusal := .next (doProof port sig s)
/-- HELLO_RESEND. -/
def execHelloResend (port : Fin 32) (s : State) : Host.Outcome State Fault Refusal := .next (doHelloResend port s)
/-- DISCOVERY_TIMEOUT. -/
def execDiscoveryTimeout (port : Fin 32) (s : State) : Host.Outcome State Fault Refusal := .next (doDiscTimeout port s)
/-- QUARANTINE_RETRY. -/
def execQuarantineRetry (port : Fin 32) (s : State) : Host.Outcome State Fault Refusal := .next (doRetry port s)
/-- LLDP_TIMER. -/
def execLldpTimer (port : Fin 32) (s : State) : Host.Outcome State Fault Refusal := .next (doLldp port s)
/-- LLDP_RECEIVE. -/
def execLldpReceive (port : Fin 32) (tlvs : List Byte) (s : State) : Host.Outcome State Fault Refusal := .next (doLldpRx port tlvs s)
/-- CREDIT_FRAME. -/
def execCreditFrame (port : Fin 32) (freed : List (BitVec 32)) (s : State) : Host.Outcome State Fault Refusal := .next (doCredit port freed s)
/-- CREDIT_FRAME_SEND. -/
def execCreditFrameSend (port : Fin 32) (s : State) : Host.Outcome State Fault Refusal := .next (doCreditSend port s)
/-- CREDIT_STALL_TIMEOUT. -/
def execCreditStallTimeout (port : Fin 32) (vl : BitVec 3) (s : State) : Host.Outcome State Fault Refusal := .next (doStall port vl s)
/-- PROMOTE_TIMEOUT. -/
def execPromoteTimeout (port : Fin 32) (s : State) : Host.Outcome State Fault Refusal := .next (doPromote port s)
/-- DAMP_REUSE. -/
def execDampReuse (port : Fin 32) (s : State) : Host.Outcome State Fault Refusal := .next (doReuse port s)
/-- PFC_FRAME. -/
def execPfcFrame (port : Fin 32) (prio : BitVec 3) (pause : Bool) (s : State) : Host.Outcome State Fault Refusal := .next (doPfc port prio pause s)
/-- NEIGHBOR_SOLICITATION. -/
def execNeighborSolicitation (port : Fin 32) (target source : BitVec 128) (s : State) : Host.Outcome State Fault Refusal :=
  .next (doSolicit port target source s)
/-- LINKCTL_SWAP. -/
def execLinkctlSwap (port : Fin 32) (pos : BitVec 3) (tag : BitVec 128) (s : State) : Host.Outcome State Fault Refusal :=
  .next (doSwapRequest port pos tag s)
/-- LINKCTL_ACCEPT. -/
def execLinkctlAccept (port : Fin 32) (accept : Bool) (marker : Nat) (tag : BitVec 128) (s : State) : Host.Outcome State Fault Refusal :=
  .next (doAccept port accept marker tag s)
/-- SWAP_MARKER. -/
def execSwapMarker (port : Fin 32) (marker : Nat) (s : State) : Host.Outcome State Fault Refusal := .next (doMarker port marker s)
/-- LANE_SWAP_TIMEOUT. -/
def execLaneSwapTimeout (port : Fin 32) (s : State) : Host.Outcome State Fault Refusal := .next (doSwapTimeout port s)
/-- AUTO_SPARE_TRIGGER. -/
def execAutoSpareTrigger (lane : Fin 64) (s : State) : Host.Outcome State Fault Refusal := .next (doAutoSpare lane s)
/-- CONGESTION_DECAY. -/
def execCongestionDecay (s : State) : Host.Outcome State Fault Refusal := .next (doCongestion s)

end Sys2Proof.Machine
end

