-- ==== Sys2Proof/Machine/DevCmds.lean ====
section
/-! DEFINITION. Commands on routes, lanes, ports and engines, on the lifecycle, the management key, the
rollback counter and debug sessions (spec/16_host_mailbox.md R567, R570, R571; spec/14_secrecy.md R484,
R485, R489; spec/15_power_debug_security.md R531 to R536). -/

namespace Sys2Proof.Machine

/-! ### Routes -/

/-- The first byte of a load's entries that holds an RSV bit or a reserved kind (R393, R570). -/
def routeFault (bulk n : Nat) : Option Nat :=
  (List.range (4 * n)).findSome? (fun k =>
    let e := fld bulk (32 * k + 31) (32 * k)
    if bitAt e 18 then some (4 * k + 2) else if fld e 31 28 != 0 || peKind e == 3 then some (4 * k + 3) else none)

/-- Replace the entries of one I/O die in ascending node order. -/
def loadTable (bulk first n : Nat) (t : AMap Nat (BitVec 128)) : AMap Nat (BitVec 128) :=
  (List.range n).foldl (fun (m : AMap Nat (BitVec 128)) i => m.put (first + i) (BitVec.ofNat 128 (fld bulk (128 * i + 127) (128 * i)))) t

/-- Load route entries (R570): requests on a path that is withdrawn move (R365). -/
def loadRoutes (bulk first n dies : Nat) (s : State) : State :=
  withdraw { s with fabric := { s.fabric with routes := { s.fabric.routes with
      x0 := if bitAt dies 0 then loadTable bulk first n s.fabric.routes.x0 else s.fabric.routes.x0
      x1 := if bitAt dies 1 then loadTable bulk first n s.fabric.routes.x1 else s.fabric.routes.x1 } } }

/-- Change the work of a running command. -/
def setWork (c : BgCmd) (w : BgWork) (s : State) : State :=
  { s with cox := { s.cox with running := s.cox.running.map (fun d => if d == c then { d with work := w } else d) } }

/-- A ROUTE_LOAD that runs replaces its next entries, at most `k` of them, in ascending node order (R570). -/
def routeStep (k : Nat) (c : BgCmd) (s : State) : State :=
  match c.work with
  | .routes bulk first n dies done =>
    let m := min k (n - done)
    if m = 0 then s
    else loadRoutes (bulk >>> (128 * done)) (first + done) m dies (setWork c (.routes bulk first n dies (done + m)) s)
  | _ => s

/-- A ROUTE_LOAD replaces the entries that are left and replies (R570). -/
def routeEnd (c : BgCmd) (s : State) : State :=
  match c.work with
  | .routes bulk first n dies done => finishBg c (.of stOK) (if done < n then loadRoutes (bulk >>> (128 * done)) (first + done) (n - done) dies s else s)
  | _ => s

/-- ROUTE_LOAD (R570): a load that replies at once makes its replacements before its reply, in one step of the model; a longer
one replaces one entry a tick until its final reply (DESIGN CHOICE, notes/assumptions/2). -/
def cmdRouteLoad (c : Cmd) (s : State) : State × Res :=
  let dies := c.pl 1 0
  let first := c.pl 27 10
  let n := c.pl 45 28 + 1
  if dies == 0 || c.pl 9 2 != 0 then (s, noAt stBAD_FIELD 32)
  else if c.pl 63 46 != 0 then (s, noAt stBAD_FIELD 37)
  else if 262144 < first + n then (s, noAt stBOUND 33)
  else if !c.ind then (s, noAt stBOUND 12)
  else if c.indLen < 16 * n then (s, noAt stBOUND 24)
  else if !c.dma.readOk then (s, no stINTEGRITY)
  else
    match routeFault c.bulk n with
    | some k => (s, noAt stBAD_FIELD (2 ^ 63 + k))
    | none =>
      if 4096 < n then (s, .start (.routes c.bulk first n dies 0) id) else (loadRoutes c.bulk first n dies s, resOk)

/-! ### Ports and engines (R571) -/

/-- The checks of a target word: `limit` targets, operations up to `ops`. -/
def targetFault (c : Cmd) (limit ops : Nat) : Option ReplyBody :=
  if ops < c.pl 19 16 || (c.pl 22 20 != 0 && !(ops == 2 && c.pl 19 16 == 0)) then some (.at_ stBAD_FIELD 34)
  else if c.pl 63 23 != 0 then some (.at_ stBAD_FIELD 34)
  else if limit ≤ c.pl 15 0 then some (.at_ stBOUND 32)
  else none

/-- A valid path entry of either I/O die names a port (R593). -/
def routesName (s : State) (p : Fin 32) : Bool :=
  let names := fun (t : AMap Nat (BitVec 128)) => t.any (fun e => (List.range 4).any (fun k =>
    let x := fld e.2.toNat (32 * k + 31) (32 * k)
    peValid x && pePort x == p))
  names s.fabric.routes.x0 || names s.fabric.routes.x1

/-- A swap that cannot start for want of a spare lane fails at its first step (R410). -/
def swapOrFail (p : Fin 32) (pos : BitVec 3) (back : Bool) (s : State) : State :=
  let s' := startSwap p pos back s
  if back || (idleSpare s p).isSome then s' else failSwap p stTIMEOUT s'

/-- LANE (R409, R410, R593). -/
def cmdLane (c : Cmd) (s : State) : State × Res :=
  match targetFault c 32 2 with
  | some b => (s, .done b)
  | none =>
    let p : Fin 32 := Fin.ofNat 32 (c.pl 15 0)
    let q := port s p
    let op := c.pl 19 16
    if op = 2 then
      if q.st == .disabled || q.swap.isSome || routesName s p then (s, no stSTATE)
      else (s, .start .made (setPort p .down 0))
    else if op = 0 && decide (pLanes (portEntry s p) ≤ c.pl 22 20) then (s, noAt stBAD_FIELD 34)
    else if !isCrew s p || !q.st.live then (s, no stSTATE)
    else if q.swap.isSome || (op == 0 && q.subValid) then (s, no stNO_RESOURCE)
    else if op = 1 && !q.subValid then (s, no stSTATE)
    else (s, .start (.lane p) (swapOrFail p (if op = 1 then q.subPos else BitVec.ofNat 3 (c.pl 22 20)) (op == 1)))

/-- LINK_CLEAR (R391). -/
def cmdLinkClear (c : Cmd) (s : State) : State × Res :=
  match targetFault c 32 0 with
  | some b => (s, .done b)
  | none =>
    let p : Fin 32 := Fin.ofNat 32 (c.pl 15 0)
    let clear := modPort p (fun q => { q with penalty := 0, penaltyAt := s.clock.now })
    match (port s p).st with
    | .disabled => (s, resOk)
    | .quarantined => (setPort p .down 0 (clear s), resOk)
    | .damped => (setPort p .down 0 (clear s), resOk)
    | _ => (clear s, resOk)

/-- Fence an engine now, or at the end of the units it holds (R118). -/
def askFence (e : Fin 68) (s : State) : State :=
  if s.engines[e].units.isEmpty then fenceEngine e s else modEngine e (fun k => { k with fence := true }) s

/-- A FENCED engine is reset alone and tested (R592, R611). -/
def returnEngine (e : Fin 68) (s : State) : State :=
  setEngine e 0xFF meTESTING (modEngine e (fun k => { k with
    units := [], fence := false, slot := none, standIn := none, returned := true }) s)

/-- ME_FENCE (R118, R592). -/
def cmdFence (c : Cmd) (s : State) : State × Res :=
  match targetFault c 68 1 with
  | some b => (s, .done b)
  | none =>
    let e : Fin 68 := Fin.ofNat 68 (c.pl 15 0)
    let st := s.engines[e].st
    if c.pl 19 16 = 1 then
      if st = meFENCED then (s, .start (.engineTest e) (returnEngine e)) else (s, no stSTATE)
    else if st = meTESTING then (s, no stSTATE)
    else if st = meFENCED then (s, .start .made id)
    else if st = meSPARE then (s, .start (.fence e) (setEngine e 0xFF meFENCED))
    else (s, .start (.fence e) (askFence e))

/-- The array test of a returned engine ends (R611). The record of a failure is INTERNAL, with a unit
class and a detail that are free (notes/assumptions/24). -/
def engineTestEnd (e : Fin 68) (pass : Bool) (s : State) : State :=
  if s.engines[e].st ≠ meTESTING || !s.engines[e].returned then s
  else
    let s := modEngine e (fun k => { k with returned := false }) s
    let mine := fun (b : BgCmd) => b.work == .engineTest e
    if pass then
      let s := match missing s (engineDie e) with
        | l :: _ => setEngine e (BitVec.ofNat 8 l) meACTIVE s
        | [] => setEngine e 0xFF meSPARE s
      finishAll mine (.of stOK) s
    else
      let seq := s.logs.seq.toNat
      let d := draw s
      let v := (Config.freeValue d.1).toNat
      finishAll mine ⟨stINTERNAL, seq, 0, 0, 0⟩ (logError 0x0E none (v % 65536) (v / 65536) (setEngine e 0xFF meFENCED d.2))

/-! ### Lifecycle (R485) -/

/-- A fresh nonce of OBJ_DEBUG. -/
def newNonce (s : State) : State :=
  let d := draw s
  modSec (fun x => { x with nonce := (Config.random d.1).setWidth 256 }) d.2

/-- Open the default level after a cold reset or a lifecycle change (R536, R538): D1 as a NONE session. -/
def openDefault (s : State) : State :=
  if coldDebug s = 1 then
    let s := modSec (fun x => { x with debug := some { level := 1, signer := 3, notAfter := 0 } }) s
    logEvent 0x09 none 1 7 (extendDebug 1 [] s)
  else s

/-- The record that tells DEPLOYED from PROVISIONED, as the Umpire signs it (R485): the serial and the state. The spec gives its
signature and no layout (DESIGN CHOICE, notes/assumptions/36). -/
def lcSign (s : State) (l : Lifecycle) : List Byte := identitySign s (leBytes 8 s.sec.serial.toNat ++ leBytes 1 l.code)

/-- The lifecycle that a boot reads from the fuses and the record: a record whose signature is not the Umpire's over DEPLOYED
reads as PROVISIONED (R485). -/
def lcAtBoot (s : State) : Lifecycle :=
  match s.sec.lifecycle with
  | .deployed => if s.sec.lcRecord = lcSign s .deployed then .deployed else .provisioned
  | l => l

/-- A change of lifecycle state (R538, R633): the record in flash follows (R485). -/
def changeLifecycle (l : Lifecycle) (s : State) : State :=
  let old := s.sec.lifecycle
  let s := closeAllD2 (closeDebug s)
  openDefault (logEvent 0x08 none l.code old.code (modSec (fun x => { x with lifecycle := l, lcRecord := lcSign s l }) s))

/-- LC_PROVISION (R485, R567): the hash of the operator key is fused, and the key goes into slot 66. -/
def cmdProvision (c : Cmd) (s : State) : State × Res :=
  let key := leBytes 96 c.payload
  let msg := leBytes 8 s.sec.serial.toNat ++ measBytes (Config.sha384 key)
  if s.sec.lifecycle ≠ .blank || d3Open s then (s, no stSTATE)
  else if c.pl 1599 1536 != s.sec.serial.toNat || !Config.ecVerify Config.falruineKey msg (leBytes 96 (c.payload >>> 768)) then (s, no stINTEGRITY)
  else (s, .start .made (fun s => changeLifecycle .provisioned (modSec (fun x => { x with opKey := some key, opKeyHash := some (Config.sha384 key) }) s)))

/-- The signature of LC_DEPLOY, LC_HOLD and LC_RETIRE, over the opcode, the serial and the nonce (R567). -/
def lcSigned (c : Cmd) (s : State) : Bool :=
  let msg := leBytes 2 c.opcode.toNat ++ leBytes 8 s.sec.serial.toNat ++ leBytes 32 s.sec.nonce.toNat
  let key := if s.sec.lifecycle = .blank then some Config.falruineKey else s.sec.opKey
  c.pl 255 0 == s.sec.nonce.toNat && (match key with | some k => Config.ecVerify k msg (leBytes 96 (c.payload >>> 256)) | none => false)

/-- Every job slot is EMPTY. -/
def allEmpty (s : State) : Bool := allSlots.all (fun i => jobSt s i == .empty)

/-- LC_DEPLOY (R485, R534). -/
def cmdDeploy (c : Cmd) (s : State) : State × Res :=
  let l := s.sec.lifecycle
  if l == .blank || l == .retired || (l == .provisioned && s.sec.mgmtKey.isNone) || d3Open s then (s, no stSTATE)
  else
    let ok := lcSigned c s
    let s := newNonce s
    if !ok then (s, no stINTEGRITY)
    else (if l = .provisioned then changeLifecycle .deployed s else s, resOk)

/-- LC_HOLD (R485). -/
def cmdHold (c : Cmd) (s : State) : State × Res :=
  let l := s.sec.lifecycle
  if l == .blank || l == .retired || (l == .deployed && !allEmpty s) then (s, no stSTATE)
  else
    let ok := lcSigned c s
    let s := newNonce s
    if !ok then (s, no stINTEGRITY)
    else (if l = .deployed then changeLifecycle .provisioned s else s, resOk)

/-- Empty every key slot (R485, R502), the engines' copies first (R501); no identity key is left to attest with (R485). -/
def emptyKeys (s : State) : State :=
  endSessions (modSec (fun x => { x with
    identity := none, opKey := none, jobKeys := Vector.replicate 64 none, mgmtKey := none, mgmtNext := none, coxKey := none
    spareKeys := Vector.replicate 8 none, eph := Vector.replicate 64 none, devEph := none }) (forEach allSlots eraseTables s))

/-- LC_RETIRE (R485): every job is torn down and crypto-erased. -/
def cmdRetire (c : Cmd) (s : State) : State × Res :=
  if s.sec.lifecycle = .retired then (s, .start .made id)
  else
    let ok := lcSigned c s
    let s := newNonce s
    if !ok then (s, no stINTEGRITY)
    else (s, .start .made (fun s => emptyKeys (changeLifecycle .retired (forEach allSlots (fun i st => tearJob i 6 st) s))))

/-- OP_MGMT_KEY (R484, R567). -/
def cmdMgmtKey (c : Cmd) (s : State) : State × Res :=
  let promote := c.pl 0 0 == 1
  let moved := modSec (fun x => if promote then { x with mgmtKey := x.mgmtNext, mgmtNext := none } else x)
  if c.pl 63 1 != 0 then (s, noAt stBAD_FIELD 32)
  else if s.sec.lifecycle == .blank || s.sec.lifecycle == .retired || (promote && s.sec.mgmtNext.isNone) then (s, no stSTATE)
  else if c.length = 8 then (moved s, resOk)
  else
    match s.sec.devEph with
    | none => (s, no stSTATE)
    | some e =>
      let s' := modSec (fun x => { x with devEph := none }) s
      match unwrap (c.pl 1215 64) 32 0 0 e with
      | none => (s', no stINTEGRITY)
      | some v => (modSec (fun x => { x with mgmtNext := some (BitVec.ofNat 256 v) }) (moved s'), resOk)

/-- FW_COMMIT (R489): the fuses are blown between ACCEPTED and the final reply. -/
def cmdCommit (_c : Cmd) (s : State) : State × Res := (s, .start .fwCommit id)

/-- Blow the rollback fuses up to the running image's svn (R489). -/
def commitFuses (s : State) : State :=
  let old := s.sec.rollback
  let new : Byte := BitVec.ofNat 8 (max old.toNat (min 64 s.cox.image.svn.toNat))
  if old = new then s else logEvent 0x0D none 0 (old.toNat + new.toNat <<< 8) (modSec (fun x => { x with rollback := new }) s)

/-! ### Debug (R531 to R533) -/

/-- Whether the state allows a pairing of signer and level (R532, check 3): D3 opens only with every slot EMPTY (R538). -/
def debugState (s : State) (signer level : Nat) (slot : Fin 64) (notAfter : Nat) : Bool :=
  let l := s.sec.lifecycle
  (match signer, level with
    | 1, 1 => l == .provisioned || l == .deployed
    | 1, _ => (l == .provisioned || l == .deployed) && allEmpty s
    | 2, _ => l == .deployed && (jobSt s slot).active
    | _, 3 => (l == .blank || l == .retired) && allEmpty s
    | _, _ => l == .blank || l == .retired) &&
  (notAfter == 0 || (s.clock.t.st != .unset && decide (s.clock.now < notAfter)))

/-- Whether a token is authentic (R531, R532 check 5). -/
def debugAuth (c : Cmd) (s : State) (signer : Nat) (slot : Fin 64) : Bool :=
  let body := leBytes 64 c.payload
  let auth := leBytes 96 (c.payload >>> 512)
  match signer with
  | 0 => Config.ecVerify Config.falruineDebugKey body auth
  | 1 => (match s.sec.opKey with | some k => Config.ecVerify k body auth | none => false)
  | 2 =>
    (match s.sec.jobKeys[slot] with
      | some k =>
        let key := Config.hkdf (leBytes 32 s.sec.nonce.toNat) (leBytes 32 k.fabKey.toNat)
          (("DK5 debug".toList.map (fun ch => BitVec.ofNat 8 ch.toNat)) ++ leBytes 1 slot.val ++ leBytes 2 (ctl s slot).incarnation.toNat) 48
        auth == measBytes (Config.hmac key body) ++ List.replicate 48 0
      | none => false)
  | _ => auth == List.replicate 96 0

/-- The session of a token opens (R532, check 6). -/
def openDebug (c : Cmd) (signer level : Nat) (slot : Fin 64) (s : State) : State :=
  let na := BitVec.ofNat 64 (c.pl 255 192)
  let s := extendDebug level (leBytes 160 c.payload) s
  if level = 2 then
    logEvent 0x09 (some slot) 2 (signer + 4) (modSec (fun x => { x with d2 := x.d2.set slot (some na) }) s)
  else
    logEvent 0x09 none level (signer + 4) (endSessions (modSec (fun x => { x with
      debug := some { level := BitVec.ofNat 2 level, signer := BitVec.ofNat 2 signer, notAfter := na } }) s))

/-- DBG_OPEN (R532). -/
def cmdDbgOpen (c : Cmd) (s : State) : State × Res :=
  let signer := c.pl 17 16
  let level := c.pl 19 18
  let slot : Fin 64 := Fin.ofNat 64 (c.pl 15 10)
  let pair := (signer == 0 && level == 3) || (signer == 1 && level == 1) || (signer == 1 && level == 3) || (signer == 2 && level == 2) ||
    (signer == 3 && level == 1)
  if (if signer = 2 then slotOfFn c.fn != some slot else c.fn != pf0) then (s, no stDENIED)
  else if level != 2 && c.pl 15 0 != 0 then (s, noAt stBAD_FIELD 32)
  else if !pair || c.pl 127 20 != 0 then (s, noAt stBAD_FIELD 34)
  else if (signer == 1 || signer == 2) && c.pl 255 192 == 0 then (s, noAt stBAD_FIELD 56)
  else if !debugState s signer level slot (c.pl 255 192) then (s, no stSTATE)
  else
    let ok := c.pl 191 128 == s.sec.serial.toNat && c.pl 511 256 == s.sec.nonce.toNat &&
      (level != 2 || c.pl 9 0 == (ctl s slot).incarnation.toNat) && debugAuth c s signer slot
    let s := newNonce s
    if ok then (openDebug c signer level slot s, resOk) else (s, no stINTEGRITY)

/-- DBG_CLOSE (R533). -/
def cmdDbgClose (c : Cmd) (s : State) : State × Res :=
  let slot : Fin 64 := Fin.ofNat 64 (c.pl 7 2)
  let target := c.pl 1 0
  if c.fn != pf0 && (target != 1 || slotOfFn c.fn != some slot) then (s, no stDENIED)
  else if 2 ≤ target then (s, noAt stBAD_FIELD 32)
  else if c.pl 63 8 != 0 then (s, noAt stBAD_FIELD 33)
  else (if target = 0 then closeDebug s else closeD2 slot s, resOk)

/-- Global time passes a session's not_after (R533, R545). -/
def doDebugExpiry (d2 : Option (Fin 64)) (s : State) : State :=
  match d2 with
  | some i =>
    match s.sec.d2[i] with
    | some _ => raiseCause (vfOf i) 3 (closeD2 i s)
    | none => s
  | none =>
    match s.sec.debug with
    | some d => if d.notAfter = 0 then s else closeDebug s
    | none => s

/-- ENGINE_TEST_DONE. -/
def execEngineTestDone (eng : Fin 68) (pass : Bool) (s : State) : Host.Outcome State Fault Refusal := .next (engineTestEnd eng pass s)
/-- DEBUG_EXPIRY. -/
def execDebugExpiry (d2 : Option (Fin 64)) (s : State) : Host.Outcome State Fault Refusal := .next (doDebugExpiry d2 s)

end Sys2Proof.Machine
end

