-- ==== Sys2Proof/Machine/Falruine.lean ====
section
/-! DEFINITION. The Falruine instructions of the stroke cores and rigger cores
(spec/05_tasks_stroke_riggers.md R198 to R208) and the counter CSRs (R470). An instruction on a core
that runs no program changes nothing (notes/assumptions/5). -/

namespace Sys2Proof.Machine

/-! ### Stroke core instructions -/

/-- TSUBMIT (R201): the status goes to rd, a refusal writes no record. -/
def doTsubmit (die : Fin 4) (slot : Fin 64) (rd rs1 : BitVec 5) (s : State) : State :=
  let c := CoreId.stroke die slot
  if (coreSlot s c).isNone then s
  else
    let a := (getX s c rs1).toNat
    let r := if a % 128 ≠ 0 then (s, stBAD_FIELD, none) else admitAt slot die a s
    nextPc c 4 (setX c rd (r.2.1.setWidth 64) r.1)

/-- A routine that changes a task it may not change ends in fault with cause UNIT_FAULT and the
task's name as detail (R200; notes/assumptions/16). -/
def patchFault (die : Fin 4) (slot : Fin 64) (status : BitVec 8) (name : Nat) (s : State) : State :=
  coreFault (.stroke die slot) 0x04 status name s

/-- TPATCH (R200): BOUND for a word outside 8 to 15 (DESIGN CHOICE, notes/assumptions/16). -/
def doTpatch (die : Fin 4) (slot : Fin 64) (rs1 rs2 : BitVec 5) (s : State) : State :=
  let c := CoreId.stroke die slot
  if (coreSlot s c).isNone then s
  else
    let a := (getX s c rs1).toNat
    let t := refOf slot (fld a 17 0)
    let w := fld a 23 20
    let e := entryOf s t
    match e.st with
    | .waiting _ =>
      if t.die ≠ die || !dFillable e.desc then patchFault die slot stSTATE (taskName t) s
      else if w < 8 then patchFault die slot stBOUND (taskName t) s
      else nextPc c 4 (modEntry t (fun e => { e with desc := setFld e.desc (64 * w + 63) (64 * w) (getX s c rs2).toNat }) s)
    | _ => patchFault die slot stSTATE (taskName t) s

/-- TSKIP (R200). -/
def doTskip (die : Fin 4) (slot : Fin 64) (rs1 : BitVec 5) (s : State) : State :=
  let c := CoreId.stroke die slot
  if (coreSlot s c).isNone then s
  else
    let t := refOf slot (fld (getX s c rs1).toNat 17 0)
    let e := entryOf s t
    match e.st with
    | .waiting _ =>
      if t.die ≠ die || !dFillable e.desc then patchFault die slot stSTATE (taskName t) s
      else nextPc c 4 (modEntry t (fun e => { e with desc := setFld e.desc 116 116 1 }) s)
    | _ => patchFault die slot stSTATE (taskName t) s

/-- TREARM (R200). With n = 0 a READY task, which no count of 0 may leave WAITING (R173), becomes READY anew, from that moment on:
DESIGN CHOICE (notes/assumptions/43). -/
def doTrearm (die : Fin 4) (slot : Fin 64) (rs1 rs2 : BitVec 5) (s : State) : State :=
  let c := CoreId.stroke die slot
  if (coreSlot s c).isNone then s
  else
    let t := refOf slot (fld (getX s c rs1).toNat 17 0)
    let n := fld (getX s c rs2).toNat 15 0
    if t.die ≠ die then patchFault die slot stSTATE (taskName t) s
    else
      match (entryOf s t).st with
      | .waiting m =>
        if 65535 < m + n then patchFault die slot stBOUND (taskName t) s
        else nextPc c 4 (addDepIn slot die n (modEntry t (fun e => { e with st := .waiting (m + n) }) s))
      | .ready _ =>
        let s := addDepIn slot die n s
        nextPc c 4 (if n = 0 then makeReady t s else modEntry t (fun e => { e with st := .waiting n }) s)
      | _ => patchFault die slot stSTATE (taskName t) s

/-- TDONE (R198). -/
def doTdone (c : CoreId) (rs1 : BitVec 5) (s : State) : State :=
  if (coreSlot s c).isNone then s else coreDone c (getX s c rs1) s

/-! ### Rigger instructions -/

/-- Run a rigger instruction on the values of two registers, for the job and the task of the core; a core that stands still runs none. -/
def rigOp (r : Fin 64) (rs1 rs2 : BitVec 5) (f : TaskRef → Nat → Nat → State → State) (s : State) : State :=
  match s.rigs[r].task, coreSlot s (.rigger r) with
  | some t, some _ => f t (getX s (.rigger r) rs1).toNat (getX s (.rigger r) rs2).toNat s
  | _, _ => s

/-- Trap of a rigger instruction. -/
def rigTrap (r : Fin 64) (status : BitVec 8) (addr : Nat) (s : State) : State := trap (.rigger r) status addr s

/-- SLD (R208): the core's read of job memory may open a stream (R292). The address that a failure records is rs1: a DESIGN
CHOICE, where a later byte of the range fails (notes/assumptions/54). -/
def doSld (r : Fin 64) (rs1 rs2 : BitVec 5) (s : State) : State :=
  rigOp r rs1 rs2 (fun t a b s =>
    let n := fld b 49 32
    let off := fld b 17 0
    if !inScratch off n then rigTrap r stBOUND off s
    else
      let rd := jobRead (demandRead t (.rigger r) [(a, n)] s) t.slot a n
      match rd.1.st with
      | .ok => nextPc (.rigger r) 4 (scrPut r off rd.1.data rd.2)
      | e => rigTrap r e.code a rd.2) s

/-- SST (R208). The address that a failure records is rs1: a DESIGN CHOICE, where a later byte of the range fails
(notes/assumptions/54). -/
def doSst (r : Fin 64) (rs1 rs2 : BitVec 5) (s : State) : State :=
  rigOp r rs1 rs2 (fun t a b s =>
    let n := fld b 49 32
    let off := fld b 17 0
    if !inScratch off n then rigTrap r stBOUND off s
    else
      let w := jobWrite t.slot a (scrGet s r off n) s
      match w.2 with
      | .ok => nextPc (.rigger r) 4 w.1
      | e => rigTrap r e.code a w.1) s

/-- CONV words under which BLKQ forms a block: a format of to_block (R44, R46, R208). The pieces field plays no part in one
block (DESIGN CHOICE, notes/assumptions/54). -/
def blkConvOk (c : Nat) : Bool := convOk c true && isBlockFmt (convFmt c)

/-- CONV words under which BLKX reads a block: a block format or AC32 (R44, R73, R208). -/
def blkxConvOk (c : Nat) : Bool := convOk c false && (isBlockFmt (convFmt c) || convFmt c == fAC32)

/-- Bytes of a block's exponent, or of the header of an AC32 block (R40). -/
def blkExpBytes (f : Nat) : Nat := if f = fAC32 then 2 else 1

/-- Bytes of the 32 elements of a block. -/
def blkBytes (f : Nat) : Nat := 4 * fmtBits f

/-- Elements packed from the lowest bits up. -/
def packElems (w : Nat) (qs : List Int) : Nat := qs.foldr (fun q acc => ofSigned w q + acc * 2 ^ w) 0

/-- The 32 binary32 values of 128 bytes. -/
def f32sOf (bs : List Byte) (n : Nat) : List Nat := (List.range n).map (fun k => leNat ((bs.drop (4 * k)).take 4))

/-- BLKQ (R208): element saturations go to rd. -/
def doBlkq (r : Fin 64) (rd rs1 rs2 : BitVec 5) (s : State) : State :=
  rigOp r rs1 rs2 (fun _ a b s =>
    let c := s.rigs[r].conv.toNat
    let n := blkBytes (convFmt c)
    if !blkConvOk c then rigTrap r stBAD_FIELD a s
    else if !inScratch a 128 then rigTrap r stBOUND a s
    else if !inScratch b (n + 1) then rigTrap r stBOUND b s
    else
      let xs := (f32sOf (scrGet s r a 128) 32).map (fun v => f32val (BitVec.ofNat 32 v))
      let q := toBlock xs (convFmt c) (convFixed c)
      let s' := scrPut r b (leBytes n (packElems (fmtBits (convFmt c)) q.1.q) ++ leBytes 1 q.1.e) s
      let s' := match s.rigs[r].task with | some t => countTask t q.2 s' | none => s'
      nextPc (.rigger r) 4 (setX (.rigger r) rd (BitVec.ofNat 64 q.2.sat) s')) s

/-- An element of a block as binary32, and whether it saturated: exact for the block formats, and with one rounding for AC32
(R73, R74). -/
def blkElem (f e q : Nat) : F32 × Bool :=
  let v := blockVal f e (elemInt f q)
  if f = fAC32 then let r := fmtF32.encodeSat v; (BitVec.ofNat 32 r.1, r.2) else (loadF32 v, false)

/-- BLKX (R208, R73, R74): saturations count for the task (R48). -/
def doBlkx (r : Fin 64) (rs1 rs2 : BitVec 5) (s : State) : State :=
  rigOp r rs1 rs2 (fun t a b s =>
    let c := s.rigs[r].conv.toNat
    let f := convFmt c
    let n := blkBytes f
    if !blkxConvOk c then rigTrap r stBAD_FIELD a s
    else if !inScratch a (n + blkExpBytes f) then rigTrap r stBOUND a s
    else if !inScratch b 128 then rigTrap r stBOUND b s
    else
      let bs := scrGet s r a (n + blkExpBytes f)
      let x := leNat (bs.take n)
      let e := leNat (bs.drop n) % 256
      let w := fmtBits f
      let out := (List.range 32).map (fun k => blkElem f e (fld x (w * k + w - 1) (w * k)))
      nextPc (.rigger r) 4 (scrPut r b (out.flatMap (fun v => leBytes 4 v.1.toNat)) (countTask t ⟨(out.filter Prod.snd).length, 0⟩ s))) s

/-- Insert a pair after every pair whose key is not greater. -/
def insertKv (p : Nat × Nat) : List (Nat × Nat) → List (Nat × Nat)
  | [] => [p]
  | q :: rest => if p.1 < q.1 then p :: q :: rest else q :: insertKv p rest

/-- Stable ascending sort by key. -/
def sortKv (l : List (Nat × Nat)) : List (Nat × Nat) := l.foldl (fun acc p => insertKv p acc) []

/-- SORTKV (R208). -/
def doSortkv (r : Fin 64) (rs1 rs2 : BitVec 5) (s : State) : State :=
  rigOp r rs1 rs2 (fun _ a n s =>
    if 16384 < n || !inScratch a (8 * n) then rigTrap r stBOUND a s
    else
      let bs := scrGet s r a (8 * n)
      let ps := (List.range n).map (fun k => (leNat ((bs.drop (8 * k)).take 4), leNat ((bs.drop (8 * k + 4)).take 4)))
      nextPc (.rigger r) 4 (scrPut r a ((sortKv ps).flatMap (fun p => leBytes 4 p.1 ++ leBytes 4 p.2)) s)) s

/-- HIST (R208). -/
def doHist (r : Fin 64) (rs1 rs2 : BitVec 5) (s : State) : State :=
  rigOp r rs1 rs2 (fun _ a b s =>
    let n := fld b 31 0
    let base := fld b 49 32
    if !inScratch a (2 * n) then rigTrap r stBOUND a s
    else
      let bs := scrGet s r a (2 * n)
      let keys := (List.range n).map (fun k => leNat ((bs.drop (2 * k)).take 2))
      match keys.find? (fun k => !inScratch (base + 4 * k) 4) with
      | some k => rigTrap r stBOUND (base + 4 * k) s
      | none =>
        nextPc (.rigger r) 4 (forEach keys (fun k st =>
          scrPut r (base + 4 * k) (leBytes 4 ((leNat (scrGet st r (base + 4 * k) 4) + 1) % 2 ^ 32)) st) s)) s

/-- Exclusive prefix sums, with the total. -/
def prefixSums (acc : Nat) : List Nat → List Nat × Nat
  | [] => ([], acc)
  | x :: rest => let r := prefixSums (acc + x) rest; (acc :: r.1, r.2)

/-- PSUM (R208): sums wrap at 2^32, the total is a u64. -/
def doPsum (r : Fin 64) (rd rs1 rs2 : BitVec 5) (s : State) : State :=
  rigOp r rs1 rs2 (fun _ a n s =>
    if !inScratch a (4 * n) then rigTrap r stBOUND a s
    else
      let p := prefixSums 0 (f32sOf (scrGet s r a (4 * n)) n)
      nextPc (.rigger r) 4 (setX (.rigger r) rd (BitVec.ofNat 64 p.2) (scrPut r a (p.1.flatMap (leBytes 4)) s))) s

/-- NNZB (R208). -/
def doNnzb (r : Fin 64) (rd rs1 rs2 : BitVec 5) (s : State) : State :=
  rigOp r rs1 rs2 (fun _ a n s =>
    if !inScratch a n then rigTrap r stBOUND a s
    else nextPc (.rigger r) 4 (setX (.rigger r) rd (BitVec.ofNat 64 ((scrGet s r a n).filter (· != 0)).length) s)) s

/-- LAPP (R208). -/
def doLapp (r : Fin 64) (rd rs1 rs2 : BitVec 5) (s : State) : State :=
  rigOp r rs1 rs2 (fun _ a v s =>
    if !inScratch a 8 then rigTrap r stBOUND a s
    else
      let n := leNat (scrGet s r a 4)
      let cap := leNat (scrGet s r (a + 4) 4)
      if cap ≤ n then nextPc (.rigger r) 4 (setX (.rigger r) rd 1 s)
      else if !inScratch (a + 8 + 8 * n) 8 then rigTrap r stBOUND (a + 8 + 8 * n) s
      else
        let s := scrPut r a (leBytes 4 (n + 1)) (scrPut r (a + 8 + 8 * n) (leBytes 8 v) s)
        nextPc (.rigger r) 4 (setX (.rigger r) rd 0 s)) s

/-- A read of a counter CSR (R470). -/
def doHpmRead (c : CoreId) (csr : BitVec 12) (rd : BitVec 5) (s : State) : State :=
  match coreSlot s c with
  | none => s
  | some slot =>
    match counterCsr s slot (coreDie c) csr with
    | some v => nextPc c 4 (setX c rd v s)
    | none => trap c stBAD_OPCODE (coreRegs s c).pc.toNat s

/-! ### Meanings -/

/-- TSUBMIT. -/
def execTsubmit (die : Fin 4) (slot : Fin 64) (rd rs1 : BitVec 5) (s : State) : Host.Outcome State Fault Refusal :=
  .next (doTsubmit die slot rd rs1 s)
/-- TPATCH. -/
def execTpatch (die : Fin 4) (slot : Fin 64) (rs1 rs2 : BitVec 5) (s : State) : Host.Outcome State Fault Refusal :=
  .next (doTpatch die slot rs1 rs2 s)
/-- TSKIP. -/
def execTskip (die : Fin 4) (slot : Fin 64) (rs1 : BitVec 5) (s : State) : Host.Outcome State Fault Refusal :=
  .next (doTskip die slot rs1 s)
/-- TREARM. -/
def execTrearm (die : Fin 4) (slot : Fin 64) (rs1 rs2 : BitVec 5) (s : State) : Host.Outcome State Fault Refusal :=
  .next (doTrearm die slot rs1 rs2 s)
/-- TDONE. -/
def execTdone (core : CoreId) (rs1 : BitVec 5) (s : State) : Host.Outcome State Fault Refusal := .next (doTdone core rs1 s)
/-- SLD. -/
def execSld (rig : Fin 64) (rs1 rs2 : BitVec 5) (s : State) : Host.Outcome State Fault Refusal := .next (doSld rig rs1 rs2 s)
/-- SST. -/
def execSst (rig : Fin 64) (rs1 rs2 : BitVec 5) (s : State) : Host.Outcome State Fault Refusal := .next (doSst rig rs1 rs2 s)
/-- BLKQ. -/
def execBlkq (rig : Fin 64) (rd rs1 rs2 : BitVec 5) (s : State) : Host.Outcome State Fault Refusal := .next (doBlkq rig rd rs1 rs2 s)
/-- BLKX. -/
def execBlkx (rig : Fin 64) (rs1 rs2 : BitVec 5) (s : State) : Host.Outcome State Fault Refusal := .next (doBlkx rig rs1 rs2 s)
/-- SORTKV. -/
def execSortkv (rig : Fin 64) (rs1 rs2 : BitVec 5) (s : State) : Host.Outcome State Fault Refusal := .next (doSortkv rig rs1 rs2 s)
/-- HIST. -/
def execHist (rig : Fin 64) (rs1 rs2 : BitVec 5) (s : State) : Host.Outcome State Fault Refusal := .next (doHist rig rs1 rs2 s)
/-- PSUM. -/
def execPsum (rig : Fin 64) (rd rs1 rs2 : BitVec 5) (s : State) : Host.Outcome State Fault Refusal := .next (doPsum rig rd rs1 rs2 s)
/-- NNZB. -/
def execNnzb (rig : Fin 64) (rd rs1 rs2 : BitVec 5) (s : State) : Host.Outcome State Fault Refusal := .next (doNnzb rig rd rs1 rs2 s)
/-- LAPP. -/
def execLapp (rig : Fin 64) (rd rs1 rs2 : BitVec 5) (s : State) : Host.Outcome State Fault Refusal := .next (doLapp rig rd rs1 rs2 s)
/-- HPM_CSR_READ. -/
def execHpmCsrRead (core : CoreId) (csr : BitVec 12) (rd : BitVec 5) (s : State) : Host.Outcome State Fault Refusal :=
  .next (doHpmRead core csr rd s)

end Sys2Proof.Machine
end

