-- ==== Sys2Proof/Machine/RvFloat.lean ====
section
/-! DEFINITION. The binary32 arithmetic of the rigger cores' F extension, with rounding modes and
exception flags (R206; the RISC-V extension itself is PRESUMED, notes/assumptions/13). -/

namespace Sys2Proof.Machine

/-- Exception flags: NV 16, DZ 8, OF 4, UF 2, NX 1. -/
abbrev FlagBits := Nat

/-- A result with its flags. -/
abbrev FRes := F32 × FlagBits

/-- Rounding modes: 0 to nearest even, 1 toward zero, 2 down, 3 up, 4 to nearest away. -/
def roundUp (rm : Nat) (neg : Bool) (fl r half : Nat) : Bool :=
  match rm with
  | 0 => decide (half < 2 * r) || (2 * r == half && fl % 2 == 1)
  | 1 => false
  | 2 => neg && r != 0
  | 3 => !neg && r != 0
  | _ => decide (half ≤ 2 * r) && r != 0

/-- A magnitude in units of 2^q, rounded: the integer, and whether it is inexact. -/
def roundMagAt (rm : Nat) (d : Dy) (q : Int) : Nat × Bool :=
  let m := d.m.natAbs
  if q ≤ d.e then (m <<< (d.e - q).toNat, false)
  else
    let sh := 2 ^ (q - d.e).toNat
    let r := m % sh
    (m / sh + (if roundUp rm (decide (d.m < 0)) (m / sh) r sh then 1 else 0), r != 0)

/-- Round a non-zero exact value to binary32. -/
def rvRound (rm : Nat) (d : Dy) : FRes :=
  let neg := decide (d.m < 0)
  let l := d.floorLog2
  let q := max (l - 23) (-149)
  let n := roundMagAt rm d q
  let mag := (q + 149).toNat * 2 ^ 23 + n.1
  let sgn := if neg then 2 ^ 31 else 0
  if 0x7F800000 ≤ mag then
    let toInf := rm == 0 || rm == 4 || (rm == 2 && neg) || (rm == 3 && !neg)
    (BitVec.ofNat 32 ((if toInf then 0x7F800000 else 0x7F7FFFFF) + sgn), 5)
  else
    let tiny := decide (l < -127) || (l == -127 && (roundMagAt rm d (l - 23)).1 != 2 ^ 24)
    (BitVec.ofNat 32 (mag + sgn), (if n.2 then 1 else 0) + (if n.2 && tiny then 2 else 0))

/-- A signed zero. -/
def f32zero (neg : Bool) : F32 := if neg then 0x80000000#32 else 0
/-- A signed infinity. -/
def f32inf (neg : Bool) : F32 := if neg then 0xFF800000#32 else 0x7F800000#32

/-- A signalling NaN. -/
def isSnan (a : F32) : Bool := f32isNaN a && !a.getLsbD 22

/-- NV when an operand is a signalling NaN. -/
def nvOf (l : List F32) : FlagBits := if l.any isSnan then 16 else 0

/-- Round a value that is not a NaN; an exact zero made from a sum is negative only when rounding down. -/
def rvVal (rm : Nat) (v : Val) : FRes :=
  match v with
  | .nan => (f32nan, 0)
  | .inf n => (f32inf n, 0)
  | .zero n => (f32zero n, 0)
  | .fin d => if d.m = 0 then (f32zero (rm == 2), 0) else rvRound rm d

/-- Sum of two values that are no NaN, rounded. -/
def rvSum (rm : Nat) (a b : Val) : FRes :=
  match a, b with
  | .inf x, .inf y => if x = y then (f32inf x, 0) else (f32nan, 16)
  | .zero x, .zero y => (f32zero (if x = y then x else rm == 2), 0)
  | .fin x, .fin y => rvVal rm (.fin (x.add y))
  | a, b => rvVal rm (a.add b)

/-- FADD.S. -/
def rvAdd (rm : Nat) (a b : F32) : FRes :=
  if f32isNaN a || f32isNaN b then (f32nan, nvOf [a, b]) else rvSum rm (f32val a) (f32val b)
/-- FSUB.S. -/
def rvSub (rm : Nat) (a b : F32) : FRes :=
  if f32isNaN a || f32isNaN b then (f32nan, nvOf [a, b]) else rvSum rm (f32val a) (f32val b).neg
/-- Whether a product is infinity times zero. -/
def infTimesZero (a b : Val) : Bool :=
  match a, b with
  | .inf _, .zero _ => true
  | .zero _, .inf _ => true
  | _, _ => false
/-- FMUL.S. -/
def rvMul (rm : Nat) (a b : F32) : FRes :=
  if f32isNaN a || f32isNaN b then (f32nan, nvOf [a, b])
  else if infTimesZero (f32val a) (f32val b) then (f32nan, 16)
  else rvVal rm ((f32val a).mul (f32val b))
/-- Fused multiply-add of the values `±(a × b) ± c`. -/
def rvFma (rm : Nat) (negP negC : Bool) (a b c : F32) : FRes :=
  let va := f32val a
  let vb := f32val b
  if infTimesZero va vb then (f32nan, 16)
  else if f32isNaN a || f32isNaN b || f32isNaN c then (f32nan, nvOf [a, b, c])
  else
    let p := va.mul vb
    let vc := f32val c
    rvSum rm (if negP then p.neg else p) (if negC then vc.neg else vc)
/-- FDIV.S. -/
def rvDiv (rm : Nat) (a b : F32) : FRes :=
  if f32isNaN a || f32isNaN b then (f32nan, nvOf [a, b])
  else
    let va := f32val a
    let vb := f32val b
    let sg := xor va.negative vb.negative
    match va, vb with
    | .inf _, .inf _ => (f32nan, 16)
    | .zero _, .zero _ => (f32nan, 16)
    | .inf _, _ => (f32inf sg, 0)
    | _, .inf _ => (f32zero sg, 0)
    | .zero _, _ => (f32zero sg, 0)
    | _, .zero _ => (f32inf sg, 8)
    | .fin x, .fin y => rvRound rm (x.divSticky y)
    | _, _ => (f32nan, 0)
/-- FSQRT.S. -/
def rvSqrt (rm : Nat) (a : F32) : FRes :=
  match f32val a with
  | .nan => (f32nan, nvOf [a])
  | .zero n => (f32zero n, 0)
  | .inf n => if n then (f32nan, 16) else (f32inf false, 0)
  | .fin d => if d.m < 0 then (f32nan, 16) else rvRound rm d.sqrtSticky

/-- FMIN.S and FMAX.S. -/
def rvMinMax (isMax : Bool) (a b : F32) : FRes :=
  let fl := nvOf [a, b]
  if f32isNaN a && f32isNaN b then (f32nan, fl)
  else if f32isNaN a then (b, fl)
  else if f32isNaN b then (a, fl)
  else
    let less := f32lt a b || (f32eq a b && a.getLsbD 31 && !b.getLsbD 31)
    (if xor isMax less then a else b, fl)

/-- FEQ.S, FLT.S and FLE.S: the result bit and the flags. -/
def rvCmp (f3 : Nat) (a b : F32) : Bool × FlagBits :=
  let nan := f32isNaN a || f32isNaN b
  if f3 = 2 then (f32eq a b, nvOf [a, b])
  else if nan then (false, 16)
  else (if f3 = 1 then f32lt a b else f32le a b, 0)

/-- FCLASS.S. -/
def rvClass (a : F32) : Nat :=
  let neg := a.getLsbD 31
  match f32val a with
  | .nan => if a.getLsbD 22 then 512 else 256
  | .inf _ => if neg then 1 else 128
  | .zero _ => if neg then 8 else 16
  | .fin _ =>
    let sub := a.extractLsb' 23 8 == 0
    if neg then (if sub then 4 else 2) else (if sub then 32 else 64)

/-- Conversion to an integer between `lo` and `hi`: the integer and the flags. -/
def rvToInt (rm : Nat) (a : F32) (lo hi : Int) : Int × FlagBits :=
  match f32val a with
  | .nan => (hi, 16)
  | .inf n => (if n then lo else hi, 16)
  | .zero _ => (0, 0)
  | .fin d =>
    let r := roundMagAt rm d 0
    let v : Int := if d.m < 0 then -(r.1 : Int) else r.1
    if v < lo then (lo, 16) else if hi < v then (hi, 16) else (v, if r.2 then 1 else 0)

/-- Conversion from an integer. -/
def rvOfInt (rm : Nat) (v : Int) : FRes := if v = 0 then (0, 0) else rvRound rm ⟨v, 0⟩

/-- Sign injection: FSGNJ, FSGNJN, FSGNJX. -/
def rvSgnj (f3 : Nat) (a b : F32) : F32 :=
  let sb := b &&& 0x80000000#32
  let sg := if f3 = 0 then sb else if f3 = 1 then sb ^^^ 0x80000000#32 else (a ^^^ b) &&& 0x80000000#32
  (a &&& 0x7FFFFFFF#32) ||| sg

end Sys2Proof.Machine
end

