-- ==== Sys2Proof/Machine/Riscv.lean ====
section
/-! DEFINITION. RV64_INSTRUCTION: one instruction of a routine or rigger program at the core's pc
(R202, R203, R206). The encodings and effects of RV64IMAC, F, Zba and Zbb are those of the RISC-V
unprivileged architecture, which the spec names and does not repeat (PRESUMED, notes/assumptions/13). -/

namespace Sys2Proof.Machine

/-! ### Encodings -/

def encI (imm : Int) (rs1 f3 rd op : Nat) : Nat := ofSigned 12 imm <<< 20 + rs1 <<< 15 + f3 <<< 12 + rd <<< 7 + op
def encR (f7 rs2 rs1 f3 rd op : Nat) : Nat := f7 <<< 25 + rs2 <<< 20 + rs1 <<< 15 + f3 <<< 12 + rd <<< 7 + op
def encS (imm rs2 rs1 f3 op : Nat) : Nat := fld imm 11 5 <<< 25 + rs2 <<< 20 + rs1 <<< 15 + f3 <<< 12 + fld imm 4 0 <<< 7 + op
def encB (imm : Int) (rs2 rs1 f3 : Nat) : Nat :=
  let u := ofSigned 13 imm
  fld u 12 12 <<< 31 + fld u 10 5 <<< 25 + rs2 <<< 20 + rs1 <<< 15 + f3 <<< 12 + fld u 4 1 <<< 8 + fld u 11 11 <<< 7 + 0x63
def encJ (imm : Int) (rd : Nat) : Nat :=
  let u := ofSigned 21 imm
  fld u 20 20 <<< 31 + fld u 10 1 <<< 21 + fld u 11 11 <<< 20 + fld u 19 12 <<< 12 + rd <<< 7 + 0x6F
def encU (imm : Int) (rd op : Nat) : Nat := ofSigned 20 imm <<< 12 + rd <<< 7 + op

/-- Quadrant 0 of the compressed instructions. -/
def expandQ0 (h : Nat) : Option Nat :=
  let rd := 8 + fld h 4 2
  let rs1 := 8 + fld h 9 7
  let uw := fld h 12 10 <<< 3 + fld h 6 6 <<< 2 + fld h 5 5 <<< 6
  let ud := fld h 12 10 <<< 3 + fld h 6 5 <<< 6
  match fld h 15 13 with
  | 0 =>
    let u := fld h 12 11 <<< 4 + fld h 10 7 <<< 6 + fld h 6 6 <<< 2 + fld h 5 5 <<< 3
    if u = 0 then none else some (encI u 2 0 rd 0x13)
  | 2 => some (encI uw rs1 2 rd 0x03)
  | 3 => some (encI ud rs1 3 rd 0x03)
  | 6 => some (encS uw rd rs1 2 0x23)
  | 7 => some (encS ud rd rs1 3 0x23)
  | _ => none

/-- Quadrant 1 of the compressed instructions. -/
def expandQ1 (h : Nat) : Option Nat :=
  let rd := fld h 11 7
  let rp := 8 + fld h 9 7
  let imm6 := toSigned 6 (fld h 12 12 <<< 5 + fld h 6 2)
  let sh := fld h 12 12 <<< 5 + fld h 6 2
  let jo := toSigned 12 (fld h 12 12 <<< 11 + fld h 11 11 <<< 4 + fld h 10 9 <<< 8 + fld h 8 8 <<< 10 + fld h 7 7 <<< 6 +
    fld h 6 6 <<< 7 + fld h 5 3 <<< 1 + fld h 2 2 <<< 5)
  let bo := toSigned 9 (fld h 12 12 <<< 8 + fld h 11 10 <<< 3 + fld h 6 5 <<< 6 + fld h 4 3 <<< 1 + fld h 2 2 <<< 5)
  match fld h 15 13 with
  | 0 => some (encI imm6 rd 0 rd 0x13)
  | 1 => if rd = 0 then none else some (encI imm6 rd 0 rd 0x1B)
  | 2 => some (encI imm6 0 0 rd 0x13)
  | 3 =>
    if rd = 2 then
      let i := toSigned 10 (fld h 12 12 <<< 9 + fld h 6 6 <<< 4 + fld h 5 5 <<< 6 + fld h 4 3 <<< 7 + fld h 2 2 <<< 5)
      if i = 0 then none else some (encI i 2 0 2 0x13)
    else if imm6 = 0 then none else some (encU imm6 rd 0x37)
  | 4 =>
    match fld h 11 10 with
    | 0 => some (encI sh rp 5 rp 0x13)
    | 1 => some (encI (sh + 0x400 : Nat) rp 5 rp 0x13)
    | 2 => some (encI imm6 rp 7 rp 0x13)
    | _ =>
      let r2 := 8 + fld h 4 2
      match fld h 12 12, fld h 6 5 with
      | 0, 0 => some (encR 0x20 r2 rp 0 rp 0x33)
      | 0, 1 => some (encR 0 r2 rp 4 rp 0x33)
      | 0, 2 => some (encR 0 r2 rp 6 rp 0x33)
      | 0, 3 => some (encR 0 r2 rp 7 rp 0x33)
      | 1, 0 => some (encR 0x20 r2 rp 0 rp 0x3B)
      | 1, 1 => some (encR 0 r2 rp 0 rp 0x3B)
      | _, _ => none
  | 5 => some (encJ jo 0)
  | 6 => some (encB bo 0 rp 0)
  | _ => some (encB bo 0 rp 1)

/-- Quadrant 2 of the compressed instructions. -/
def expandQ2 (h : Nat) : Option Nat :=
  let rd := fld h 11 7
  let rs2 := fld h 6 2
  match fld h 15 13 with
  | 0 => some (encI (fld h 12 12 <<< 5 + fld h 6 2 : Nat) rd 1 rd 0x13)
  | 2 => if rd = 0 then none else some (encI (fld h 12 12 <<< 5 + fld h 6 4 <<< 2 + fld h 3 2 <<< 6 : Nat) 2 2 rd 0x03)
  | 3 => if rd = 0 then none else some (encI (fld h 12 12 <<< 5 + fld h 6 5 <<< 3 + fld h 4 2 <<< 6 : Nat) 2 3 rd 0x03)
  | 4 =>
    if fld h 12 12 = 0 then
      if rs2 = 0 then (if rd = 0 then none else some (encI 0 rd 0 0 0x67)) else some (encR 0 rs2 0 0 rd 0x33)
    else if rs2 = 0 then (if rd = 0 then some 0x00100073 else some (encI 0 rd 0 1 0x67))
    else some (encR 0 rs2 rd 0 rd 0x33)
  | 6 => some (encS (fld h 12 9 <<< 2 + fld h 8 7 <<< 6) rs2 2 2 0x23)
  | 7 => some (encS (fld h 12 10 <<< 3 + fld h 9 7 <<< 6) rs2 2 3 0x23)
  | _ => none

/-- The 32-bit form of a compressed instruction; none where it is illegal. -/
def expandC (h : Nat) : Option Nat :=
  match fld h 1 0 with
  | 0 => expandQ0 h
  | 1 => expandQ1 h
  | _ => expandQ2 h

/-- An encoded shift amount of six bits above 31 encodes as an unsigned 12-bit immediate. -/
def shamt (w : Nat) : Nat := fld w 25 20

/-! ### Integer arithmetic -/

abbrev X := BitVec 64

/-- Sign-extend the low 32 bits. -/
def sext32 (v : X) : X := (v.setWidth 32).signExtend 64
/-- Zero-extend the low 32 bits. -/
def zext32 (v : X) : X := (v.setWidth 32).setWidth 64

/-- Leading zeros of the low `n` bits. -/
def clzN (n : Nat) (v : Nat) : Nat := if v = 0 then n else n - 1 - Nat.log2 v
/-- Trailing zeros of the low `n` bits. -/
def ctzN (n v : Nat) : Nat := ((List.range n).find? (fun i => v.testBit i)).getD n
/-- Number of bits set. -/
def popN (n v : Nat) : Nat := ((List.range n).filter (fun i => v.testBit i)).length
/-- Each byte becomes all ones unless it is 0. -/
def orcB (v : Nat) : Nat := ((List.range 8).map (fun i => (if fld v (8 * i + 7) (8 * i) = 0 then 0 else 255) <<< (8 * i))).foldl (· + ·) 0
/-- Byte reversal. -/
def rev8 (v : Nat) : Nat := ((List.range 8).map (fun i => fld v (8 * i + 7) (8 * i) <<< (8 * (7 - i)))).foldl (· + ·) 0

/-- DIV, DIVU, REM and REMU at width `n`, with the results RISC-V gives for 0 and for overflow. -/
def divRem (n : Nat) (f3 : Nat) (a b : BitVec n) : BitVec n :=
  match f3 with
  | 4 => if b = 0 then BitVec.allOnes n else a.sdiv b
  | 5 => if b = 0 then BitVec.allOnes n else a / b
  | 6 => if b = 0 then a else a.srem b
  | _ => if b = 0 then a else a % b

/-- High half of a product of two integers. -/
def mulHigh (a b : Int) : X := BitVec.ofInt 64 (a * b / (2 ^ 64 : Nat))

/-- OP: register-register instructions. -/
def aluOp (f7 f3 : Nat) (a b : X) : Option X :=
  let sh := b.toNat % 64
  match f7, f3 with
  | 0x00, 0 => some (a + b)
  | 0x00, 1 => some (a <<< sh)
  | 0x00, 2 => some (if a.slt b then 1 else 0)
  | 0x00, 3 => some (if a.ult b then 1 else 0)
  | 0x00, 4 => some (a ^^^ b)
  | 0x00, 5 => some (a >>> sh)
  | 0x00, 6 => some (a ||| b)
  | 0x00, 7 => some (a &&& b)
  | 0x20, 0 => some (a - b)
  | 0x20, 4 => some (~~~(a ^^^ b))
  | 0x20, 5 => some (a.sshiftRight sh)
  | 0x20, 6 => some (a ||| ~~~b)
  | 0x20, 7 => some (a &&& ~~~b)
  | 0x01, 0 => some (a * b)
  | 0x01, 1 => some (mulHigh a.toInt b.toInt)
  | 0x01, 2 => some (mulHigh a.toInt b.toNat)
  | 0x01, 3 => some (mulHigh a.toNat b.toNat)
  | 0x01, 4 => some (divRem 64 4 a b)
  | 0x01, 5 => some (divRem 64 5 a b)
  | 0x01, 6 => some (divRem 64 6 a b)
  | 0x01, 7 => some (divRem 64 7 a b)
  | 0x10, 2 => some (a <<< 1 + b)
  | 0x10, 4 => some (a <<< 2 + b)
  | 0x10, 6 => some (a <<< 3 + b)
  | 0x05, 4 => some (if a.slt b then a else b)
  | 0x05, 5 => some (if a.ult b then a else b)
  | 0x05, 6 => some (if a.slt b then b else a)
  | 0x05, 7 => some (if a.ult b then b else a)
  | 0x30, 1 => some (a.rotateLeft sh)
  | 0x30, 5 => some (a.rotateRight sh)
  | _, _ => none

/-- OP-IMM: `i` is bits 31:20 of the word. -/
def aluImm (f3 i : Nat) (a : X) : Option X :=
  let imm := BitVec.ofInt 64 (toSigned 12 i)
  let sh := i % 64
  let n := a.toNat
  match f3 with
  | 0 => some (a + imm)
  | 2 => some (if a.slt imm then 1 else 0)
  | 3 => some (if a.ult imm then 1 else 0)
  | 4 => some (a ^^^ imm)
  | 6 => some (a ||| imm)
  | 7 => some (a &&& imm)
  | 1 =>
    if i / 64 = 0 then some (a <<< sh)
    else if i = 0x600 then some (BitVec.ofNat 64 (clzN 64 n))
    else if i = 0x601 then some (BitVec.ofNat 64 (ctzN 64 n))
    else if i = 0x602 then some (BitVec.ofNat 64 (popN 64 n))
    else if i = 0x604 then some ((a.setWidth 8).signExtend 64)
    else if i = 0x605 then some ((a.setWidth 16).signExtend 64)
    else none
  | _ =>
    if i / 64 = 0 then some (a >>> sh)
    else if i / 64 = 0x10 then some (a.sshiftRight sh)
    else if i / 64 = 0x18 then
      if i = 0x6B8 then some (BitVec.ofNat 64 (rev8 n)) else some (a.rotateRight sh)
    else if i = 0x287 then some (BitVec.ofNat 64 (orcB n))
    else if i = 0x6B8 then some (BitVec.ofNat 64 (rev8 n))
    else none

/-- OP-32. -/
def aluOp32 (f7 f3 rs2 : Nat) (a b : X) : Option X :=
  let aw : BitVec 32 := a.setWidth 32
  let bw : BitVec 32 := b.setWidth 32
  let sh := b.toNat % 32
  match f7, f3 with
  | 0x00, 0 => some (sext32 (a + b))
  | 0x00, 1 => some ((aw <<< sh).signExtend 64)
  | 0x00, 5 => some ((aw >>> sh).signExtend 64)
  | 0x20, 0 => some (sext32 (a - b))
  | 0x20, 5 => some ((aw.sshiftRight sh).signExtend 64)
  | 0x01, 0 => some (sext32 (a * b))
  | 0x01, 4 => some ((divRem 32 4 aw bw).signExtend 64)
  | 0x01, 5 => some ((divRem 32 5 aw bw).signExtend 64)
  | 0x01, 6 => some ((divRem 32 6 aw bw).signExtend 64)
  | 0x01, 7 => some ((divRem 32 7 aw bw).signExtend 64)
  | 0x04, 0 => some (zext32 a + b)
  | 0x04, 4 => if rs2 = 0 then some ((a.setWidth 16).setWidth 64) else none
  | 0x10, 2 => some (zext32 a <<< 1 + b)
  | 0x10, 4 => some (zext32 a <<< 2 + b)
  | 0x10, 6 => some (zext32 a <<< 3 + b)
  | 0x30, 1 => some ((aw.rotateLeft sh).signExtend 64)
  | 0x30, 5 => some ((aw.rotateRight sh).signExtend 64)
  | _, _ => none

/-- OP-IMM-32. -/
def aluImm32 (f3 i : Nat) (a : X) : Option X :=
  let aw : BitVec 32 := a.setWidth 32
  let sh := i % 32
  match f3 with
  | 0 => some (sext32 (a + BitVec.ofInt 64 (toSigned 12 i)))
  | 1 =>
    if i / 32 = 0 then some ((aw <<< sh).signExtend 64)
    else if i / 64 = 2 then some (zext32 a <<< (i % 64))
    else if i = 0x600 then some (BitVec.ofNat 64 (clzN 32 aw.toNat))
    else if i = 0x601 then some (BitVec.ofNat 64 (ctzN 32 aw.toNat))
    else if i = 0x602 then some (BitVec.ofNat 64 (popN 32 aw.toNat))
    else none
  | 5 =>
    if i / 32 = 0 then some ((aw >>> sh).signExtend 64)
    else if i / 32 = 0x20 then some ((aw.sshiftRight sh).signExtend 64)
    else if i / 32 = 0x30 then some ((aw.rotateRight sh).signExtend 64)
    else none
  | _ => none

/-- Branch conditions. -/
def branchTaken (f3 : Nat) (a b : X) : Option Bool :=
  match f3 with
  | 0 => some (a == b)
  | 1 => some (a != b)
  | 4 => some (a.slt b)
  | 5 => some (!a.slt b)
  | 6 => some (a.ult b)
  | 7 => some (!a.ult b)
  | _ => none

/-- Read-modify-write of an AMO on `n` bytes. -/
def amoFn (f5 n old : Nat) (b : X) : Option Nat :=
  let m := 2 ^ (8 * n)
  let y := b.toNat % m
  let so := toSigned (8 * n) old
  let sy := toSigned (8 * n) y
  match f5 with
  | 0x01 => some y
  | 0x00 => some ((old + y) % m)
  | 0x04 => some (old ^^^ y)
  | 0x0C => some (old &&& y)
  | 0x08 => some (old ||| y)
  | 0x10 => some (if so < sy then old else y)
  | 0x14 => some (if so < sy then y else old)
  | 0x18 => some (min old y)
  | 0x1C => some (max old y)
  | _ => none

/-! ### Execution -/

/-- What an instruction comes to: the next instruction follows, the pc is set, or a trap with its
status and address. -/
inductive RvRes where
  | next (s : State)
  | jump (s : State) (pc : X)
  | trapped (s : State) (status : BitVec 8) (addr : Nat)
  /-- The instruction moved the pc itself. -/
  | done (s : State)

def reg5 (w hi lo : Nat) : BitVec 5 := BitVec.ofNat 5 (fld w hi lo)

/-- Write a result, or take an illegal instruction. -/
def wr (c : CoreId) (s : State) (rd : BitVec 5) (v : Option X) (pc : Nat) : RvRes :=
  match v with
  | some v => .next (setX c rd v s)
  | none => .trapped s stBAD_OPCODE pc

/-- A load: width, and whether it is signed. -/
def rvLoad (c : CoreId) (slot : Fin 64) (rd : BitVec 5) (a : X) (n : Nat) (signed : Bool) (s : State) : RvRes :=
  match coreLoad c slot a.toNat n s with
  | (.ok v, s) => .next (setX c rd (if signed then BitVec.ofInt 64 (toSigned (8 * n) v) else BitVec.ofNat 64 v) s)
  | (.error e, s) => .trapped s e a.toNat

/-- A store. -/
def rvStore (c : CoreId) (slot : Fin 64) (a : X) (n v : Nat) (s : State) : RvRes :=
  let r := coreStore c slot a.toNat n v s
  if r.2 = stOK then .next r.1 else .trapped r.1 r.2 a.toNat

/-- LR, SC and the AMOs (R286). -/
def rvAmo (c : CoreId) (slot : Fin 64) (w : Nat) (pc : Nat) (s : State) : RvRes :=
  let f5 := fld w 31 27
  let n := if fld w 14 12 = 2 then 4 else 8
  let rd := reg5 w 11 7
  let a := (getX s c (reg5 w 19 15)).toNat
  let b := getX s c (reg5 w 24 20)
  let ext := fun (v : Nat) => BitVec.ofInt 64 (toSigned (8 * n) v)
  if fld w 14 12 ≠ 2 ∧ fld w 14 12 ≠ 3 then .trapped s stBAD_OPCODE pc
  else if f5 = 0x02 then
    if fld w 24 20 ≠ 0 then .trapped s stBAD_OPCODE pc
    else
      match coreLoad c slot a n s with
      | (.ok v, s) => .next (modCore c (fun g => { g with resv := some a }) (setX c rd (ext v) s))
      | (.error e, s) => .trapped s e a
  else if f5 = 0x03 then
    if a % n ≠ 0 then .trapped s stBAD_FIELD a
    else if (coreRegs s c).resv = some a then
      let r := coreStore c slot a n (b.toNat % 2 ^ (8 * n)) (modCore c (fun g => { g with resv := none }) s)
      if r.2 = stOK then .next (setX c rd 0 r.1) else .trapped r.1 r.2 a
    else .next (setX c rd 1 (modCore c (fun g => { g with resv := none }) s))
  else
    match amoFn f5 n 0 b with
    | none => .trapped s stBAD_OPCODE pc
    | some _ =>
      match coreLoad c slot a n s with
      | (.error e, s) => .trapped s e a
      | (.ok old, s) =>
        let r := coreStore c slot a n ((amoFn f5 n old b).getD 0) s
        if r.2 = stOK then .next (setX c rd (ext old) r.1) else .trapped r.1 r.2 a

/-- Read a CSR that a core has: the scalars of a stroke core context (R204), the conversion word and
the floating-point CSRs of a rigger (R206, R208), and the counters (R470). -/
def csrRead (s : State) (c : CoreId) (slot : Fin 64) (n : Nat) : Option X :=
  match c with
  | .stroke die sl =>
    if 0x800 ≤ n ∧ n ≤ 0x83F then some ((jobDie s sl die).cs[Fin.ofNat 64 (n - 0x800)])
    else counterCsr s slot die (BitVec.ofNat 12 n)
  | .rigger r =>
    if n = 0x840 then some (s.rigs[r].conv.setWidth 64)
    else if n = 1 then some ((s.rigs[r].fcsr &&& 0x1F).setWidth 64)
    else if n = 2 then some ((s.rigs[r].fcsr >>> 5).setWidth 64)
    else if n = 3 then some (s.rigs[r].fcsr.setWidth 64)
    else counterCsr s slot (unitDie r) (BitVec.ofNat 12 n)

/-- Write a rigger's CONV word (R43): 1s in its RSV bits are ignored and counted (R4). -/
def writeConv (r : Fin 64) (v : BitVec 32) (s : State) : State :=
  let s := modRig r (fun k => { k with conv := v &&& 0x000FF8FF }) s
  if v &&& 0xFFF00700 = 0 then s else countRsvWrite s

/-- Write a CSR; `none` where it cannot be written. -/
def csrWrite (s : State) (c : CoreId) (n : Nat) (v : X) : Option State :=
  match c with
  | .stroke die sl =>
    if 0x800 ≤ n ∧ n ≤ 0x83F then some (modDie sl die (fun d => { d with cs := d.cs.set (Fin.ofNat 64 (n - 0x800)) v }) s) else none
  | .rigger r =>
    if n = 0x840 then some (writeConv r (v.setWidth 32) s)
    else if n = 1 then some (modRig r (fun k => { k with fcsr := (k.fcsr &&& 0xE0) ||| (v.setWidth 8 &&& 0x1F) }) s)
    else if n = 2 then some (modRig r (fun k => { k with fcsr := (k.fcsr &&& 0x1F) ||| (v.setWidth 8 <<< 5) }) s)
    else if n = 3 then some (modRig r (fun k => { k with fcsr := v.setWidth 8 }) s)
    else none

/-- SYSTEM: CSR instructions; everything else is illegal in user mode (R203). -/
def rvSystem (c : CoreId) (slot : Fin 64) (w pc : Nat) (s : State) : RvRes :=
  let f3 := fld w 14 12
  let rd := reg5 w 11 7
  let rs1 := fld w 19 15
  let n := fld w 31 20
  let src := if 4 ≤ f3 then BitVec.ofNat 64 rs1 else getX s c (reg5 w 19 15)
  let op := f3 % 4
  if op = 0 then .trapped s stBAD_OPCODE pc
  else
    match csrRead s c slot n with
    | none => .trapped s stBAD_OPCODE pc
    | some old =>
      if op ≠ 1 && rs1 = 0 then .next (setX c rd old s)
      else
        let v := if op = 1 then src else if op = 2 then old ||| src else old &&& ~~~src
        match csrWrite s c n v with
        | none => .trapped s stBAD_OPCODE pc
        | some s => .next (setX c rd old s)

/-- Read and write the F registers of a rigger. -/
def getF (s : State) (r : Fin 64) (k : Nat) : F32 := s.rigs[r].f[Fin.ofNat 32 k]
def setF (r : Fin 64) (k : Nat) (v : F32) (s : State) : State := modRig r (fun g => { g with f := g.f.set (Fin.ofNat 32 k) v }) s

/-- Add exception flags to fcsr. -/
def addFlags (r : Fin 64) (fl : FlagBits) (s : State) : State :=
  modRig r (fun g => { g with fcsr := g.fcsr ||| BitVec.ofNat 8 fl }) s

/-- Rounding mode of an instruction; `none` where it is reserved. -/
def rmOf (s : State) (r : Fin 64) (f3 : Nat) : Option Nat :=
  let m := if f3 = 7 then (s.rigs[r].fcsr >>> 5).toNat else f3
  if m ≤ 4 then some m else none

/-- Write a floating-point result with its flags. -/
def wrF (r : Fin 64) (rd : Nat) (v : FRes) (s : State) : RvRes := .next (addFlags r v.2 (setF r rd v.1 s))

/-- OP-FP (F extension). -/
def rvOpFp (r : Fin 64) (w pc : Nat) (s : State) : RvRes :=
  let c := CoreId.rigger r
  let f7 := fld w 31 25
  let f3 := fld w 14 12
  let rd := fld w 11 7
  let rdX := reg5 w 11 7
  let r1 := fld w 19 15
  let r2 := fld w 24 20
  let a := getF s r r1
  let b := getF s r r2
  let ill := RvRes.trapped s stBAD_OPCODE pc
  let rounded := fun (f : Nat → FRes) => match rmOf s r f3 with | some m => wrF r rd (f m) s | none => ill
  match f7 with
  | 0x00 => rounded (fun m => rvAdd m a b)
  | 0x04 => rounded (fun m => rvSub m a b)
  | 0x08 => rounded (fun m => rvMul m a b)
  | 0x0C => rounded (fun m => rvDiv m a b)
  | 0x2C => if r2 = 0 then rounded (fun m => rvSqrt m a) else ill
  | 0x10 => if f3 ≤ 2 then .next (setF r rd (rvSgnj f3 a b) s) else ill
  | 0x14 => if f3 ≤ 1 then wrF r rd (rvMinMax (f3 == 1) a b) s else ill
  | 0x50 =>
    if f3 ≤ 2 then
      let v := rvCmp f3 a b
      .next (addFlags r v.2 (setX c rdX (if v.1 then 1 else 0) s))
    else ill
  | 0x60 =>
    match rmOf s r f3, r2 with
    | some m, 0 => let v := rvToInt m a (-(2 ^ 31)) (2 ^ 31 - 1); .next (addFlags r v.2 (setX c rdX (BitVec.ofInt 64 v.1) s))
    | some m, 1 => let v := rvToInt m a 0 (2 ^ 32 - 1); .next (addFlags r v.2 (setX c rdX (sext32 (BitVec.ofInt 64 v.1)) s))
    | some m, 2 => let v := rvToInt m a (-(2 ^ 63)) (2 ^ 63 - 1); .next (addFlags r v.2 (setX c rdX (BitVec.ofInt 64 v.1) s))
    | some m, 3 => let v := rvToInt m a 0 (2 ^ 64 - 1); .next (addFlags r v.2 (setX c rdX (BitVec.ofInt 64 v.1) s))
    | _, _ => ill
  | 0x68 =>
    let x := getX s c (reg5 w 19 15)
    match r2 with
    | 0 => rounded (fun m => rvOfInt m (x.setWidth 32).toInt)
    | 1 => rounded (fun m => rvOfInt m (x.setWidth 32).toNat)
    | 2 => rounded (fun m => rvOfInt m x.toInt)
    | 3 => rounded (fun m => rvOfInt m x.toNat)
    | _ => ill
  | 0x70 =>
    if r2 ≠ 0 then ill
    else if f3 = 0 then .next (setX c rdX (a.signExtend 64) s)
    else if f3 = 1 then .next (setX c rdX (BitVec.ofNat 64 (rvClass a)) s)
    else ill
  | 0x78 => if r2 = 0 ∧ f3 = 0 then .next (setF r rd ((getX s c (reg5 w 19 15)).setWidth 32) s) else ill
  | _ => ill

/-- The F extension's opcodes, which a rigger has and a stroke core has not (R202, R206). -/
def rvFp (c : CoreId) (slot : Fin 64) (w pc : Nat) (s : State) : RvRes :=
  let ill := RvRes.trapped s stBAD_OPCODE pc
  match c with
  | .stroke _ _ => ill
  | .rigger r =>
    let op := fld w 6 0
    let f3 := fld w 14 12
    let base := getX s c (reg5 w 19 15)
    let rd := fld w 11 7
    if op = 0x07 then
      if f3 ≠ 2 then ill
      else
        let a := base + BitVec.ofInt 64 (toSigned 12 (fld w 31 20))
        match coreLoad c slot a.toNat 4 s with
        | (.ok v, s) => .next (setF r rd (BitVec.ofNat 32 v) s)
        | (.error e, s) => .trapped s e a.toNat
    else if op = 0x27 then
      if f3 ≠ 2 then ill
      else
        let a := base + BitVec.ofInt 64 (toSigned 12 (fld w 31 25 <<< 5 + fld w 11 7))
        rvStore c slot a 4 (getF s r (fld w 24 20)).toNat s
    else if op = 0x53 then rvOpFp r w pc s
    else if fld w 26 25 ≠ 0 then ill
    else
      match rmOf s r f3 with
      | none => ill
      | some m =>
        let negP := op == 0x4B || op == 0x4F
        let negC := op == 0x47 || op == 0x4F
        wrF r rd (rvFma m negP negC (getF s r (fld w 19 15)) (getF s r (fld w 24 20)) (getF s r (fld w 31 27))) s

/-- custom-0: the Falruine instructions (R208). -/
def rvCustom (c : CoreId) (w pc : Nat) (s : State) : RvRes :=
  let rd := reg5 w 11 7
  let r1 := reg5 w 19 15
  let r2 := reg5 w 24 20
  match c, fld w 31 25, fld w 14 12 with
  | .stroke die slot, 0x00, 0 => .done (doTsubmit die slot rd r1 s)
  | .stroke die slot, 0x01, 0 => .done (doTpatch die slot r1 r2 s)
  | .stroke die slot, 0x02, 0 => .done (doTskip die slot r1 s)
  | .stroke die slot, 0x03, 0 => .done (doTrearm die slot r1 r2 s)
  | c, 0x08, 0 => .done (doTdone c r1 s)
  | .rigger r, 0x10, 1 => .done (doSld r r1 r2 s)
  | .rigger r, 0x11, 1 => .done (doSst r r1 r2 s)
  | .rigger r, 0x12, 2 => .done (doBlkq r rd r1 r2 s)
  | .rigger r, 0x13, 2 => .done (doBlkx r r1 r2 s)
  | .rigger r, 0x14, 3 => .done (doSortkv r r1 r2 s)
  | .rigger r, 0x15, 3 => .done (doHist r r1 r2 s)
  | .rigger r, 0x16, 3 => .done (doPsum r rd r1 r2 s)
  | .rigger r, 0x17, 3 => .done (doNnzb r rd r1 r2 s)
  | .rigger r, 0x18, 3 => .done (doLapp r rd r1 r2 s)
  | _, _, _ => .trapped s stBAD_OPCODE pc

/-- One 32-bit instruction; `len` is the length of the encoding it came from. -/
def rvExec (c : CoreId) (slot : Fin 64) (w len : Nat) (s : State) : RvRes :=
  let pcX := (coreRegs s c).pc
  let pc := pcX.toNat
  let rd := reg5 w 11 7
  let a := getX s c (reg5 w 19 15)
  let b := getX s c (reg5 w 24 20)
  let f3 := fld w 14 12
  let f7 := fld w 31 25
  let immI := BitVec.ofInt 64 (toSigned 12 (fld w 31 20))
  let immS := BitVec.ofInt 64 (toSigned 12 (f7 <<< 5 + fld w 11 7))
  let immB := BitVec.ofInt 64 (toSigned 13 (fld w 31 31 <<< 12 + fld w 7 7 <<< 11 + fld w 30 25 <<< 5 + fld w 11 8 <<< 1))
  let immU := BitVec.ofInt 64 (toSigned 32 (fld w 31 12 <<< 12))
  let immJ := BitVec.ofInt 64 (toSigned 21 (fld w 31 31 <<< 20 + fld w 19 12 <<< 12 + fld w 20 20 <<< 11 + fld w 30 21 <<< 1))
  let link := pcX + BitVec.ofNat 64 len
  let ill := RvRes.trapped s stBAD_OPCODE pc
  match fld w 6 0 with
  | 0x37 => .next (setX c rd immU s)
  | 0x17 => .next (setX c rd (pcX + immU) s)
  | 0x6F => .jump (setX c rd link s) (pcX + immJ)
  | 0x67 => if f3 = 0 then .jump (setX c rd link s) ((a + immI) &&& ~~~1#64) else ill
  | 0x63 =>
    match branchTaken f3 a b with
    | some true => .jump s (pcX + immB)
    | some false => .next s
    | none => ill
  | 0x03 =>
    match f3 with
    | 0 => rvLoad c slot rd (a + immI) 1 true s
    | 1 => rvLoad c slot rd (a + immI) 2 true s
    | 2 => rvLoad c slot rd (a + immI) 4 true s
    | 3 => rvLoad c slot rd (a + immI) 8 false s
    | 4 => rvLoad c slot rd (a + immI) 1 false s
    | 5 => rvLoad c slot rd (a + immI) 2 false s
    | 6 => rvLoad c slot rd (a + immI) 4 false s
    | _ => ill
  | 0x23 => if f3 ≤ 3 then rvStore c slot (a + immS) (2 ^ f3) (b.toNat % 2 ^ (8 * 2 ^ f3)) s else ill
  | 0x13 => wr c s rd (aluImm f3 (fld w 31 20) a) pc
  | 0x1B => wr c s rd (aluImm32 f3 (fld w 31 20) a) pc
  | 0x33 => wr c s rd (aluOp f7 f3 a b) pc
  | 0x3B => wr c s rd (aluOp32 f7 f3 (fld w 24 20) a b) pc
  | 0x0F => if f3 = 0 then .next s else ill
  | 0x2F => rvAmo c slot w pc s
  | 0x73 => rvSystem c slot w pc s
  | 0x0B => rvCustom c w pc s
  | 0x07 => rvFp c slot w pc s
  | 0x27 => rvFp c slot w pc s
  | 0x43 => rvFp c slot w pc s
  | 0x47 => rvFp c slot w pc s
  | 0x4B => rvFp c slot w pc s
  | 0x4F => rvFp c slot w pc s
  | 0x53 => rvFp c slot w pc s
  | _ => ill

/-- Finish an instruction of `len` bytes. -/
def rvFinish (c : CoreId) (len : Nat) (r : RvRes) : State :=
  match r with
  | .next s => nextPc c len s
  | .jump s pc => modCore c (fun g => { g with pc := pc }) s
  | .trapped s st a => trap c st a s
  | .done s => s

/-- Fetch and run the instruction at a core's pc (R202). -/
def rvStep (c : CoreId) (s : State) : State :=
  match coreSlot s c with
  | none => s
  | some slot =>
    let pc := (coreRegs s c).pc.toNat
    if pc % 2 ≠ 0 then trap c stBAD_FIELD pc s
    else
      let lo := jobRead s slot pc 2
      match lo.1.st with
      | .bound => trap c stBOUND pc lo.2
      | .integrity => trap c stINTEGRITY pc lo.2
      | .ok =>
        let h := leNat lo.1.data
        if h % 4 ≠ 3 then
          match expandC h with
          | some w => rvFinish c 2 (rvExec c slot w 2 lo.2)
          | none => trap c stBAD_OPCODE pc lo.2
        else
          let hi := jobRead lo.2 slot (pc + 2) 2
          match hi.1.st with
          | .bound => trap c stBOUND (pc + 2) hi.2
          | .integrity => trap c stINTEGRITY (pc + 2) hi.2
          | .ok => rvFinish c 4 (rvExec c slot (h + leNat hi.1.data * 65536) 4 hi.2)

/-- RV64_INSTRUCTION. -/
def execRv64Instruction (core : CoreId) (s : State) : Host.Outcome State Fault Refusal := .next (rvStep core s)

end Sys2Proof.Machine
end

