-- ==== Sys2Proof/Machine/Queue.lean ====
section
/-! DEFINITION. Doorbells, admission, decrements and the starts and bounds of programs
(spec/05_tasks_stroke_riggers.md). An event that the state rules out changes nothing
(notes/assumptions/5). -/

namespace Sys2Proof.Machine

/-- A doorbell value that is ignored writes a DOORBELL record (R180). -/
def doorbellRecord (slot : Fin 64) (die : Fin 4) (value : BitVec 32) (s : State) : State :=
  event slot die ⟨0x0A, stBOUND, value.toNat, 0, 0, 0⟩ s

/-- Doorbells of a job in a state that does not take them are ignored, and counted but in TORN and
SCRUBBING (R212). -/
def doorbellIgnored (st : JobState) (s : State) : State :=
  match st with
  | .torn => s
  | .scrubbing => s
  | _ => countIgnored s

/-- DB_SQ (R180, R212). -/
def doDbSq (slot : Fin 64) (die : Fin 4) (value : BitVec 32) (s : State) : State :=
  if !depsApply (jobSt s slot) then doorbellIgnored (jobSt s slot) s
  else if !ringOn s slot die then countIgnored s
  else if sqSize (ringBits s slot die) < (value - (jobDie s slot die).sqHead).toNat then doorbellRecord slot die value s
  else modDie slot die (fun d => { d with sqTail := value }) s

/-- DB_EQ (R180, R545). -/
def doDbEq (slot : Fin 64) (die : Fin 4) (value : BitVec 32) (s : State) : State :=
  let d := jobDie s slot die
  if !depsApply (jobSt s slot) then doorbellIgnored (jobSt s slot) s
  else if !ringOn s slot die then countIgnored s
  else if (d.evqTail - d.evqHead).toNat < (value - d.evqHead).toNat then doorbellRecord slot die value s
  else modDie slot die (fun d => { d with evqHead := value, evqArmed := true }) s

/-- Take the next descriptor of a ring (R181, R182). The ring position in a refusal's detail is the free-running head (DESIGN
CHOICE, notes/assumptions/43). -/
def doAdmit (slot : Fin 64) (die : Fin 4) (s : State) : State :=
  let jd := jobDie s slot die
  if !coresRun s || !depsApply (jobSt s slot) || !ringOn s slot die || jd.sqHead = jd.sqTail then s
  else
    let ring := ringBits s slot die
    let pos := jd.sqHead.toNat
    let s := modDie slot die (fun d => { d with sqHead := d.sqHead + 1 }) s
    match admitAt slot die (fld ring 159 112 + 128 * (pos % sqSize ring)) s with
    | (s, st, none) => event slot die ⟨0x02, st, pos, 0, 0, 0⟩ s
    | (s, st, some d) =>
      if st = stOK then s
      else event slot die ⟨0x02, st, pos, die.val * 65536 + dIndex d, dGen d, dCookie d⟩ s

/-- DECREMENT (R185): the Task Scheduler stands still with its clock in P3 (R581). -/
def doDecrement (slot : Fin 64) (name : BitVec 18) (gen : BitVec 6) (s : State) : State :=
  if coresRun s then settle slot (decrement (refOf slot name.toNat) gen s) else s

/-- ROUTINE_START (R198): stroke cores run in P0 to P2. A queued routine, of a recompute as well, starts in every state of its job
but TORN and SCRUBBING, and a drain does not wait for one: DESIGN CHOICE (R205; notes/assumptions/43). -/
def doRoutineStart (slot : Fin 64) (die : Fin 4) (s : State) : State :=
  if !coresRun s || jobSt s slot = .torn || jobSt s slot = .scrubbing then s else startRoutine slot die s

/-- RIGGER_PROGRAM_START (R206, R207): riggers are gated outside P0 and P1 (R518). -/
def doRiggerStart (slot : Fin 64) (die : Fin 4) (index : BitVec 16) (rig : Fin 64) (s : State) : State :=
  let t : TaskRef := ⟨slot, die, index⟩
  let e := entryOf s t
  if e.st == .running && e.run == .rigger none && unitDie rig == die && (s.rigs[rig].task).isNone && inP0P1 s &&
      (riggerMax s slot == 0 || decide (riggersHeld s slot die < riggerMax s slot)) then
    startRigger t rig s
  else s

/-- BUDGET_EXPIRY (R199): no budget is spent while the core stands still (R530, R581). -/
def doBudget (c : CoreId) (s : State) : State :=
  if (coreSlot s c).isNone then s else coreFault c 0x07 stTIMEOUT (coreBudget s c) s

/-- WAIT_TIMEOUT (R197). -/
def doWaitTimeout (t : TaskRef) (s : State) : State :=
  let e := entryOf s t
  match e.st, e.run with
  | .running, .wait n th (some _) =>
    let v := counterVal s t.slot n
    if v.2 ≠ .ok then taskFault t 0x04 v.2.code n (noteCounter t.slot n v.2.code s)
    else if reached v.1 th then taskDone t s
    else taskFault t 0x0B stTIMEOUT v.1 s
  | _, _ => s

/-- ADMIT_DESCRIPTOR. -/
def execAdmitDescriptor (slot : Fin 64) (die : Fin 4) (s : State) : Host.Outcome State Fault Refusal :=
  .next (doAdmit slot die s)
/-- DECREMENT. -/
def execDecrement (slot : Fin 64) (name : BitVec 18) (gen : BitVec 6) (s : State) : Host.Outcome State Fault Refusal :=
  .next (doDecrement slot name gen s)
/-- ROUTINE_START. -/
def execRoutineStart (slot : Fin 64) (die : Fin 4) (s : State) : Host.Outcome State Fault Refusal :=
  .next (doRoutineStart slot die s)
/-- RIGGER_PROGRAM_START. -/
def execRiggerProgramStart (slot : Fin 64) (die : Fin 4) (index : BitVec 16) (rig : Fin 64) (s : State) : Host.Outcome State Fault Refusal :=
  .next (doRiggerStart slot die index rig s)
/-- BUDGET_EXPIRY. -/
def execBudgetExpiry (core : CoreId) (s : State) : Host.Outcome State Fault Refusal := .next (doBudget core s)
/-- WAIT_TIMEOUT. -/
def execWaitTimeout (slot : Fin 64) (die : Fin 4) (index : BitVec 16) (s : State) : Host.Outcome State Fault Refusal :=
  .next (doWaitTimeout ⟨slot, die, index⟩ s)

end Sys2Proof.Machine
end

