-- ==== Sys2Proof/Machine/Resets.lean ====
section
/-! DEFINITION. The health record and the retirement of stacks (spec/18_service_selftest_conservation.md R613
to R619, R637 to R642), the cold and warm resets and boot (spec/17_reset_clocks_straps.md). -/

namespace Sys2Proof.Machine

/-- Change the reset controller. -/
def modRst (f : ResetSt → ResetSt) (s : State) : State := { s with rst := f s.rst }

/-- Change the module. -/
def modBoard (f : ModuleSt → ModuleSt) (s : State) : State := { s with board := f s.board }

/-! ### Pins (R651) -/

/-- Whether a reset is asserted in the sense of R587. -/
def resetAsserted (s : State) : Bool :=
  match s.rst.phase with
  | .running => false
  | _ => true

/-- Level of ALERT_N: low while an unmasked alert stands or a reset is asserted. -/
def alertLow (s : State) : Bool := (s.board.alert &&& ~~~s.board.alertMask) != 0 || resetAsserted s

/-- Set a bit of SMB_ALERT. -/
def alert (k : Nat) : State → State := modBoard (fun b => { b with alert := b.alert ||| (1#8 <<< k) })

/-! ### Stacks (R613 to R619) -/

/-- Code of a stack state (R633). -/
def StackState.code : StackState → Nat
  | .ok => 0
  | .failing => 1
  | .migrating => 2
  | .retired => 3

/-- Change a stack's state, with its event and the health record. -/
def setStack (k : Fin 20) (st : StackState) (s : State) : State :=
  let old := s.mem.memStacks[k].st
  let s := logEvent 0x06 none k.val (old.code + st.code <<< 2) (modStack k (fun x => { x with st := st }) s)
  writeHealth (fun h => { h with memStacks := h.memStacks.set k.val (BitVec.ofNat 2 st.code) }) s

/-- A stack meets a criterion of R613: only the first stack of a device is retired. A second one is reported as it becomes
FAILING, once, and stays in service (R619). -/
def failStack (k : Fin 20) (criterion : Nat) (s : State) : State :=
  if s.mem.memStacks[k].st ≠ .ok || s.mem.memStacks[k].reported then s
  else
    let first := !anyStackBad s
    let s := logError 0x0B none k.val criterion (modStack k (fun x => { x with reported := true }) s)
    if first then setStack k .failing s else s

/-! ### Calibration (R622) -/

/-- The Cox loads the tables of its image. -/
def loadCalib (img : FlashImage) : State → State := modCalib (fun c => { c with loaded := CalibTables.ofImage img.digest })

/-- At a cold reset the strap converter takes the trim that was loaded; every other unit is back at its factory values
(notes/assumptions/52). -/
def Calib.cold (c : Calib) : Calib := { Calib.reset with strap := c.loaded.strap }

/-! ### Boot -/

/-- Lower edges of the accepted ranges of CFG_SEL in ohms, and the last upper edge (R601). -/
def strapEdges : List Nat :=
  [820, 1220, 1820, 2690, 3940, 5650, 8250, 12200, 18200, 26900, 39400, 56500, 82500, 122000, 182000, 269000, 404000]

/-- Profile of a converter code (R600): a reading on a shared edge takes the upper profile (DEDUCED, notes/assumptions/52). -/
def strapProfile (c : Nat) : Option (Fin 16) :=
  let atLeast := fun (e : Nat) => decide (e * (4096 - c) ≤ 10000 * c)
  if 4096 ≤ c || 404000 * (4096 - c) < 10000 * c then none
  else
    match (strapEdges.filter atLeast).length with
    | 0 => none
    | n + 1 => some (Fin.ofNat 16 (min n 15))

/-- Boot source of a profile: 0 flash slot A, 1 flash slot B, 2 PCIe (R601). -/
def profileSource (p : Fin 16) : Nat :=
  if [1, 5].contains p.val then 1 else if [8, 9, 11, 13].contains p.val then 2 else 0

/-- Ports at the start of training under a profile's map (R587, R602). -/
def portsFor (p : Fin 16) : Vector Port 32 :=
  Vector.ofFn (fun (k : Fin 32) => if pKind (portMapReset p k.val) = 0 then Port.reset else Port.down)

/-- Engines as the health record holds them (R122, R123). -/
def enginesOf (h : Health) : Vector Engine 68 :=
  Vector.ofFn (fun (k : Fin 68) => match h.me[k.val]? with
    | some e => Engine.idle e.1 e.2
    | none => Engine.idle 0xFF 1)

/-- What the Umpire keeps when every volatile key is gone (R483, R485, R486, R502): the fuses, the signed record of the lifecycle
and the operator's key. The identity key is derived again at the boot. -/
def Security.wiped (x : Security) (nonce : BitVec 256) : Security :=
  { Security.reset with
    lifecycle := x.lifecycle, deviceSecret := x.deviceSecret, identity := none, opKeyHash := x.opKeyHash, lcRecord := x.lcRecord
    serial := x.serial, moduleB := x.moduleB, stepping := x.stepping, rollback := x.rollback,
    macBase := x.macBase, opKey := x.opKey, coxKey := none, nonce := nonce, meas := Vector.replicate 6 0 }

/-- Everything volatile is lost (R584, COLD): the fuses, the flash, the health record, the strap's profile and what the
always-on domain counts stay (R598); the SMBus port's registers are at their reset values (R650). A stack that was FAILING or
MIGRATING is RETIRED (R618). -/
def wipe (s : State) : State :=
  let d := draw s
  { State.reset with
    pending := s.pending
    out := s.out
    fresh := d.2.fresh
    stamps := s.stamps
    cox := { Cox.reset with
      alive := false, image := s.cox.image, bootSlot := s.cox.bootSlot, flash := s.cox.flash.map (fun f => { f with loading := false, bytes := [], staged := false }) }
    engines := enginesOf s.health
    mem := { Mem.reset with memStacks := s.mem.memStacks.map (fun k => { Stack.reset with st := if k.st = .ok then .ok else .retired }) }
    fabric := { Fabric.reset with ports := Vector.replicate 32 Port.reset, accepting := false }
    logs := { Logs.reset with events := [], eventSeq := 0 }
    health := s.health
    healthFlash := s.healthFlash
    sec := s.sec.wiped ((Config.random d.1).setWidth 256)
    calib := s.calib.cold
    rst := { s.rst with devResetAt := none, bootPcie := false, late := [] }
    board := { s.board with tempC := 0, pinW := 0, alert := 0, alertMask := 0 } }

/-- Restarts of the option-loading phase are counted, on REFCLK's time (R598): the record of a hold shows up to 15 of them. -/
def ResetSt.note (n : Nat) (r : ResetSt) : ResetSt :=
  { r with restarts := (r.restarts ++ List.replicate n r.refTicks).drop (r.restarts.length + n - 15) }

/-- The eighth restart fell within 1 s of the first of the eight (R598). -/
def ResetSt.spent (r : ResetSt) : Bool :=
  decide (8 ≤ r.restarts.length) && decide (r.restarts.getD (r.restarts.length - 1) 0 ≤ r.restarts.getD (r.restarts.length - 8) 0 + 800000000)

/-- Hold in BOOT_HOLD (R599): the health record takes the cause and the restarts that were counted (R640). -/
def bootHold (cause : Nat) (s : State) : State :=
  let s := modRst (fun r => { r with phase := .hold (BitVec.ofNat 4 cause) }) { s with cox := { s.cox with alive := false } }
  alert 3 (writeHealth (fun h => { h with
    holdCause := BitVec.ofNat 4 cause, restarts := BitVec.ofNat 4 (if cause = 1 then 8 else s.rst.restarts.length) }) s)

/-- Why an image is no candidate: the hold cause, or `none` for a candidate (R605). Its header, its signature, its hash and the
range of its svn are checked (R604). -/
def imageFault (readable : Bool) (i : FlashImage) (rollback : Byte) : Option Nat :=
  if !readable then some 3 else if !i.valid || !i.sigOk || !i.hashOk || decide (64 < i.svn.toNat) then some 4 else if i.svn < rollback then some 5 else none

/-- Items of the self-test that run at boot, and those among them that are not skipped (R637, R641). -/
def bootItems (h : Health) : List Nat :=
  [0, 4, 5, 6, 7].filter (fun i => !(h.valid && h.clean && h.stRun.getLsbD i && h.stPass.getLsbD i))

/-- A set of items as a mask. -/
def itemMask (l : List Nat) : BitVec 16 := BitVec.ofNat 16 (packed (l.map (fun i => (1, i))))

/-- Sensors that a run of item 5 excludes: at most 2 on a die (R642). -/
def excluded (bad : List (Fin 32)) : BitVec 32 :=
  BitVec.ofNat 32 (packed ((bad.eraseDups.filter (fun k => decide ((bad.eraseDups.filter (fun j => j.val / 8 == k.val / 8)).length ≤ 2))).map (fun k => (1, k.val))))

/-- Mask of lanes. -/
def laneMask (l : List (Fin 64)) : BitVec 64 := BitVec.ofNat 64 (packed (l.eraseDups.map (fun k => (1, k.val))))

/-- Lanes that an item of the self-test has for a subject (R637): those of no DISABLED port, by the port map, for item 0, and
those of CREW ports in UP for item 1. -/
def itemLanes (s : State) (i : Nat) : List (Fin 64) :=
  (List.finRange 64).filter (fun l =>
    i == 3 || allPorts.any (fun p =>
      let e := portEntry s p
      pKind e != 0 && decide (pFirstLane e ≤ l.val ∧ l.val < pFirstLane e + pLanes e) && (i == 0 || (isCrew s p && (port s p).st == .up))))

/-- Stacks that item 7 has for a subject: those not RETIRED. -/
def itemStacks (s : State) : List (Fin 20) := (List.finRange 20).filter (fun k => s.mem.memStacks[k].st != .retired)

/-- Whether an item's test has a subject: without one it counts as run and passed (R637). -/
def hasSubject (s : State) (i : Nat) : Bool :=
  if i = 0 || i = 1 then !(itemLanes s i).isEmpty else if i = 7 then !(itemStacks s).isEmpty else true

/-- Record of a failed item whose detail nothing that the model knows gives: a free value. -/
def failFree (i : Nat) (s : State) : State :=
  let d := draw s
  logError 0x0D none i (Config.freeValue d.1).toNat d.2

/-- What a failed item leads to, at boot or at shutdown (R642): its records and its consequences. Item 4
names a monitor, and items 2, 6 and 8 nothing that the model knows. A stack that fails at shutdown becomes FAILING at the next
boot. -/
def failItem (i : Nat) (lanes : List (Fin 64)) (sensors : List (Fin 32)) (memStacks : List (Fin 20)) (boot : Bool) (s : State) : State :=
  if i = 0 || i = 1 || i = 3 then
    let mine := laneMask (lanes.filter (itemLanes s i).contains)
    writeHealth (fun h => { h with laneFail := h.laneFail ||| mine }) (logError 0x0D none i mine.toNat s)
  else if i = 5 && !sensors.isEmpty then forEach sensors.eraseDups (fun k st => logError 0x0D none i k.val st) s
  else if i = 7 && !(memStacks.filter (itemStacks s).contains).isEmpty then
    let mine := (memStacks.filter (itemStacks s).contains).eraseDups
    let s := forEach mine (fun k st => logError 0x0D none i k.val st) s
    if boot then forEach mine (fun k st => failStack k 2 st) s else writeHealth (fun h => { h with item7 := mine }) s
  else failFree i s

/-- Results of items that ran to completion (R640, R642): the record's bits, and what follows each failure. -/
def recordItems (ran failed : List Nat) (lanes : List (Fin 64)) (sensors : List (Fin 32)) (memStacks : List (Fin 20)) (boot : Bool) (s : State) : State :=
  let bad := ran.filter (fun i => failed.contains i && hasSubject s i)
  let pass := ran.filter (fun i => !bad.contains i)
  let s := writeHealth (fun h => { h with
    stTime := if s.clock.t.st = .unset then 0 else BitVec.ofNat 64 s.clock.now
    stRun := h.stRun ||| itemMask ran, stPass := (h.stPass &&& ~~~itemMask ran) ||| itemMask pass
    tempExcl := if ran.contains 5 then (if bad.contains 5 then excluded sensors else 0) else h.tempExcl }) s
  forEach bad (fun i st => failItem i lanes sensors memStacks boot st) s

/-- The SELFTEST event of a run (R633). -/
def selfTestEvent (ran : List Nat) (boot : Bool) (s : State) : State :=
  if ran.isEmpty then s
  else logEvent 0x0C none (if boot then 1 else 0) ((itemMask ran).toNat + (s.health.stPass &&& itemMask ran).toNat <<< 16) s

/-- At boot, for a logical number that no engine of a die carries, steps 4 and 5 of R119 run with the die's spare: it is
tested, and takes the number (R122). -/
def bootSpares (failed : List (Fin 68)) (s : State) : State :=
  forEach allDies (fun die st => forEach (missing st die) (fun l st =>
    match spareOf st die with
    | none => st
    | some e =>
      spareTest die (!failed.contains e) (setEngine e 0xFF meTESTING (modEngine e (fun k => { k with standIn := some l }) st))) st) s

/-- Step 1 of a measured boot (R487): the fuses and the record are read, and register 1 is extended with the ROM version, the
fuse configuration and the lifecycle state. -/
def measureRom (s : State) : State :=
  let s := modSec (fun x => { x with lifecycle := lcAtBoot s }) s
  extend 0 (leBytes 48 (Config.imageDigest 1).toNat ++ leBytes 1 s.sec.lifecycle.code) s

/-- Steps 4 and 5 (R483, R486, R487): registers 2 and 3 are extended with the image and with the profile and the source; the
identity key and the Cox sealing key are derived, but in RETIRED (R485). -/
def measureImage (img : FlashImage) (source : Nat) (s : State) : State :=
  let s := extend 2 (leBytes 1 s.rst.profile.val ++ leBytes 1 source) (extend 1 (measBytes img.digest) s)
  modSec (fun x => if x.lifecycle = .retired then { x with identity := none, coxKey := none }
    else { x with identity := some (Config.identityKey x.deviceSecret), coxKey := some (coxSeal x.deviceSecret x.meas[1]) }) s

/-- The Cox starts (R487 steps 4 to 6, R587 steps 9 to 11): image, source (0 slot A, 1 slot B, 2 PCIe), and
whether the default debug level opens (R536, R538). Register 4 is extended with the hash of the function tables. -/
def bootCox (img : FlashImage) (source : Nat) (dflt : Bool) (s : State) : State :=
  let s := extend 3 (leBytes 48 (Config.imageDigest 4).toNat) (measureImage img source s)
  let s := { s with
    cox := { s.cox with image := img, bootSlot := source == 1, alive := true }
    fabric := { s.fabric with ports := portsFor s.rst.profile, accepting := true } }
  let s := loadCalib img (modRst (fun r => { r with phase := .running, bootPcie := source == 2 }) s)
  if dflt then openDefault s else s

/-- The current copy of the health record: the valid one of higher seq (R640). -/
def currentHealth (v : Vector Health 2) : Option Health :=
  if v[0].valid && (!v[1].valid || decide (v[1].seq.toNat ≤ v[0].seq.toNat)) then some v[0] else if v[1].valid then some v[1] else none

/-- What the boot flash holds as a boot begins: an image that was put in from outside, and the copies of the health record that
are undamaged. -/
def flashAtBoot (b : BootEnv) (s : State) : State :=
  let put := fun (f : FlashSlot) (o : Option FlashImage) => match o with | some i => FlashSlot.holding i | none => f
  { s with
    cox := { s.cox with flash := #v[put s.cox.flash[0] b.slotA, put s.cox.flash[1] b.slotB] }
    healthFlash := #v[{ s.healthFlash[0] with valid := s.healthFlash[0].valid && b.healthA },
      { s.healthFlash[1] with valid := s.healthFlash[1].valid && b.healthB }] }

/-- The current health record is read: engines and stacks stand as it says, and with no valid copy as if no engine were fenced,
no stack had failed and no test had passed (R122, R618, R640). -/
def takeHealth (s : State) : State :=
  let h := (currentHealth s.healthFlash).getD { Health.reset with valid := false, seq := 0, boots := 0 }
  { s with
    health := h
    engines := enginesOf h
    mem := { s.mem with memStacks := Vector.ofFn (fun (k : Fin 20) =>
      { Stack.reset with st := if h.memStacks.getD k.val 0 = 0 then .ok else .retired }) } }

/-- A stack that the record had FAILING or MIGRATING is RETIRED at once, with its event and its error record (R618). -/
def stackEvents (s : State) : State :=
  forEach (List.finRange 20) (fun k st =>
    let old := (st.health.memStacks.getD k.val 0).toNat
    if old == 1 || old == 2 then logEvent 0x06 none k.val (old + 3 <<< 2) (logError 0x0C none k.val 0 st) else st) s

/-- The boot-time items, after the stacks that failed item 7 of the last shutdown have become FAILING (R613, R641, R642). -/
def bootTests (b : BootEnv) (s : State) : State :=
  let items := bootItems s.health
  let s := logEvent 0x01 none s.rst.lastCause.toNat 0 s
  let failed := s.health.item7
  let s := writeHealth (fun h => { h with
    clean := false, boots := satInc h.boots 1, resetCause := s.rst.lastCause, item7 := []
    memStacks := s.mem.memStacks.toList.map (fun k => BitVec.ofNat 2 k.st.code) }) s
  let s := forEach failed (fun k st => failStack k 2 st) s
  let s := selfTestEvent items true (recordItems items b.failedItems b.failedLanes b.failedSensors b.failedStacks true s)
  bootSpares b.failedEngines s

/-- Steps 2 and 3 of a measured boot (R487, R597, R605, R606): the image is chosen, and a boot from PCIe waits for one. -/
def bootImage (dflt : Bool) (b : BootEnv) (s : State) : State :=
  let a := s.cox.flash[0].image
  let c := s.cox.flash[1].image
  let fa := imageFault b.readA a s.sec.rollback
  let fb := imageFault b.readB c s.sec.rollback
  if profileSource s.rst.profile = 2 then modRst (fun r => { r with phase := .loader }) s
  else if profileSource s.rst.profile = 0 then
    (match fa, fb with
      | none, _ => bootCox a 0 dflt s
      | some _, none => bootCox c 1 dflt s
      | some k, some _ => bootHold k s)
  else
    (match fb, fa with
      | none, _ => bootCox c 1 dflt s
      | some _, none => bootCox a 0 dflt s
      | some k, some _ => bootHold k s)

/-- The boot under a profile, from a state already wiped (R587, R597 to R606).
The whole boot takes place in this one step (DESIGN CHOICE, notes/assumptions/26). -/
def bootFrom (p : Fin 16) (dflt : Bool) (b : BootEnv) (s : State) : State :=
  let s := modRst (fun r => { r with profile := p }) { s with fabric := { s.fabric with ports := Vector.replicate 32 Port.reset } }
  let s := measureRom s
  if !b.stackTrainOk then bootHold 7 s else bootImage dflt b (bootTests b (stackEvents s))

/-- The cold release: `strap` says whether CFG_SEL is read (R584). Resets that arrived in the option-loading phase have restarted
it (R598). -/
def coldRelease (strap : Bool) (b : BootEnv) (s : State) : State :=
  let s := takeHealth (flashAtBoot b (modRst (ResetSt.note b.restarts) s))
  if s.rst.spent then bootHold 1 s
  else
    match (if strap then strapProfile b.strapCode else some s.rst.profile) with
    | none => bootHold 2 s
    | some p => bootFrom p strap b s

/-- What a boot meets that a reset within the option-loading phase starts again: the strap, the fuses and the flash read as they
did, and every test passes (DESIGN CHOICE, notes/assumptions/26). -/
def BootEnv.again : BootEnv :=
  { refclkOk := true, strapCode := 0, slotA := none, slotB := none, stackTrainOk := true, healthA := true, healthB := true, restarts := 0,
    readA := true, readB := true, failedItems := [], failedStacks := [], failedLanes := [], failedEngines := [], failedSensors := [] }

/-- A reset that arrives in the option-loading phase, here while the loader waits for an image, restarts it from its first step
(R591, R598). -/
def restartLoading (s : State) : State :=
  let s := takeHealth (wipe (modRst (ResetSt.note 1) s))
  if s.rst.spent then bootHold 1 s else bootFrom s.rst.profile (s.rst.lastCause != 6) BootEnv.again s

/-- A reset of COLD or SECURITY reach is asserted: its cause is recorded first (R584). -/
def assertCold (cause : Nat) (s : State) : State :=
  let s := writeHealth (fun h => { h with resetCause := BitVec.ofNat 4 cause }) s
  modRst (fun r => { r with phase := .held, lastCause := BitVec.ofNat 4 cause }) (wipe s)

/-! ### Warm reset (R587, R588) -/

/-- A function's mailbox state after a reset (R555). -/
def clearBox (h : HostFn) : HostFn :=
  { h with cmd := Vector.replicate 16 0, reply := Vector.replicate 16 0, busy := 0, irq := 0, intCause := 0, version := none }

/-- The Activation Store pages of a slice of the self-test, of every die (R638). -/
def inSlice (slice : Nat) (a : Nat) : Bool :=
  decide (asBase ≤ a) && decide (slice * 96 ≤ (a - asBase) % 0x10000000 / 65536) && decide ((a - asBase) % 0x10000000 / 65536 < slice * 96 + 96)

/-- The slice that a self-test saved is restored (R638, R639). -/
def restoreSlice (s : State) : State :=
  match s.power.slice with
  | none => s
  | some saved =>
    let kept := s.mem.cells.filter (fun c => !inSlice s.health.asSlice.toNat c.1)
    modPower (fun p => { p with slice := none }) { s with mem := { s.mem with cells := saved.foldl (fun m c => cellPut m c.1 c.2) kept } }

/-- Ports that the map uses train again. -/
def retrainAll (s : State) : State :=
  forEach (allPorts.filter (fun p => pKind (portEntry s p) != 0)) (fun p st => setPort p .down 0 st) s

/-- A power command that is abandoned ends as if it had not been taken: release resumes, an entry into P3 and a shutdown
self-test end (R555, R639). -/
def undoPower (c : BgCmd) (s : State) : State :=
  match c.work with
  | .power _ _ => modPower (fun p => { p with stopping := false }) s
  | .rest => modPower (fun p => { p with stopping := false, entry := none, wake := false }) s
  | .shutdown k =>
    let s := modPower (fun p => { p with stopping := false }) (restoreSlice s)
    if 4 < k then retrainAll s else s
  | _ => s

/-- Commands of a function in flight are abandoned without a reply (R555). A changeover is abandoned at its next step
(`doQuiesced`, `doReady`). -/
def abandon (fn : Fin 65) (s : State) : State :=
  let mine := fun (c : BgCmd) => c.fn == fn && c.mgmt.isNone
  let gone := s.cox.running.filter mine
  let s := { s with cox := { s.cox with
      running := s.cox.running.filter (fun c => !mine c)
      rung := s.cox.rung.filter (fun l => l.fn != fn)
      change := s.cox.change.map (fun x => { x with latched := x.latched.filter (fun l => l.fn != fn) }) } }
  forEach gone undoPower s

/-- The tasks that run stop where they are, and the executor time of their units is counted (R191, R587 step 1); a fence that
waited is lost with its command. -/
def haltTasks (s : State) : State :=
  let s := { s with engines := s.engines.map (fun e => { e with fence := false }) }
  forEach allSlots (fun slot st => forEach allDies (fun die st =>
    serveTime slot die (forEach ((jobDie st slot die).entries.filter (fun e => e.2.st == .running)) (fun e st =>
      let t : TaskRef := ⟨slot, die, BitVec.ofNat 16 e.1⟩
      modEntry t (fun x => { x with run := .idle }) (freeUnits t st)) st)) st) s

/-- Stop every unit (R587, step 1): an engine under test returns to its recorded state (R122). -/
def stopUnits (s : State) : State :=
  let s := haltTasks s
  { s with
    engines := Vector.ofFn (fun (k : Fin 68) =>
      let e := s.engines[k]
      if e.st = meTESTING then (match s.health.me[k.val]? with
        | some x => { Engine.idle x.1 x.2 with err := e.err }
        | none => { Engine.idle 0xFF 1 with err := e.err })
      else { Engine.idle e.logical e.st with err := e.err })
    ves := Vector.replicate 64 VecEng.reset
    rigs := Vector.replicate 64 Rigger.reset
    claims := []
    mem := { s.mem with misses := [] } }

/-- Programmable counters are cleared; lending stays for slots whose keys survive (R476). -/
def clearCounters (keep : Fin 64 → Bool) (s : State) : State :=
  forEach (List.finRange 32) (fun i st =>
    let c := st.clock.pmu[i]
    let lent := c.lent && keep c.slot
    objPut (devKey oPMU_CTR i.val) 0
      (modClock (fun k => { k with pmu := k.pmu.set i { PmuCtr.reset with lent := lent, slot := if lent then c.slot else 0 } }) st)) s

/-- Whether a slot's keys survive a warm reset. -/
def survives (s : State) (i : Fin 64) : Bool := match s.sec.jobKeys[i] with | some k => k.surviveWarm | none => false

/-- Slots whose keys a warm reset or the entry into P3 destroys are torn down (R502, R528). -/
def tearLost (s : State) : State :=
  forEach (allSlots.filter (fun i => s.sec.jobKeys[i].isSome && !survives s i)) (fun i st => tearJob i 4 st) s

/-- D2 and D3 close, and SPDM sessions end (R538). -/
def closeForReset (s : State) : State := endSessions (closeAllD2 (if d3Open s then closeDebug s else s))

/-- The power manager at a warm reset: P0, with what is not Held at its reset values (R525, R527); a shutdown self-test ends, its
slice restored (R639), and so does an entry into P3 (R529). -/
def warmPower (s : State) : State :=
  let old := pstate s
  let s := restoreSlice s
  let s := modPower (fun p => { p with
    mode := .run, aclk := 0, pending := none, lowerCalls := 0, stopping := false, entry := none, wake := false
    inputW := 0, floorW := 0, budget := 0, hotDies := 0, overSince := none
    returned := p.returned + p.held, holders := [], waiting := [] }) s
  if pstate s = old then s else powerChange s

/-- The start of a warm reset, up to step 3 (R587): a changeover that runs is lost with its old image
restarted (R591). -/
def warmStart (cause : Nat) (s : State) : State :=
  let s := writeHealth (fun h => { h with resetCause := BitVec.ofNat 4 cause }) s
  let s := { s with
    cox := { s.cox with running := [], change := none, alive := false, halted := false, rung := [] }
    fabric := { s.fabric with accepting := false } }
  let s := modSec (fun x => { x with spareKeys := Vector.replicate 8 none }) s
  let s := modRst (fun r => { r with phase := .warm, lastCause := BitVec.ofNat 4 cause, devResetAt := none, late := [] }) s
  let s := warmPower (stopUnits s)
  let s := closeForReset (tearLost s)
  let s := modTime (fun t => { t with offsetNs := 0, pathNs := 0 }) s
  let s := { s with fabric := { s.fabric with
      cache := [], hold := [], staleUntil := s.clock.now + usTicks (replyHoldUs s)
      ports := s.fabric.ports.map (fun (q : Port) => { q with queue := [], subValid := false, subPos := 0, subLane := 0 }) } }
  { s with host := s.host.map (fun h => { clearBox h with irqMask := 0xFFFF, intMask := 0xFFFFFFFF, dbIgnored := 0, rsvWrites := 0 }) }

/-- Device objects whose fields a warm reset does not hold return to their reset values (R584): the
configuration of the transport and of the links, and the device's trigger; route tables hold nothing. -/
def warmObjects (s : State) : State :=
  let s := objClear (devKey oPMU_TRIGGER 0) (objClear (devKey oLINK_CFG 0) (objClear (devKey oVMT_CFG 0) s))
  modClock (fun c => { c with trigger := Trigger.reset })
    { s with fabric := { s.fabric with routes := { x0 := [], x1 := [], congestion := [] } } }

/-- Enabled streams of the device and of surviving jobs resume with a buoy (R476). -/
def resumeStreams (s : State) : State :=
  forEach (none :: (allSlots.filter (survives s)).map some) (fun sc st => forEach allDies (fun d st =>
    if fld (traceCfg st sc d) 0 0 = 1 then writeBuoy sc d st else st) st) s

/-- The image that runs, read again, is the one that the boot kept the hash of (R587 step 4, R589). -/
def imageSame (s : State) : Bool :=
  s.rst.bootPcie || s.cox.flash[if s.cox.bootSlot then (1 : Fin 2) else 0].image.digest == s.cox.image.digest

/-- Slots that a reset tore down enter SCRUBBING (R528, R587). -/
def scrubLost (s : State) : State :=
  forEach (allSlots.filter (fun i => jobSt s i == .torn && (ctl s i).tearCause == 4)) enterScrub s

/-- Sessions that a function's DOE mailbox carries end with its reset (DEDUCED, notes/assumptions/32). -/
def endDoe (fn : Fin 65) (s : State) : State :=
  let s := modSec (fun x => { x with sessions := x.sessions.map (fun e => match e with
    | some y => if y.src = .doe fn then none else some y
    | none => none) }) s
  { s with cox := { s.cox with change := s.cox.change.map (fun c => { c with spdm := c.spdm.filter (fun q => match q with
    | .plain src _ _ _ => src != .doe fn
    | _ => true) }) } }

/-- The mailbox state of a function is cleared and its commands are abandoned (R555). -/
def resetBox (fn : Fin 65) (s : State) : State := endDoe fn (modHost fn clearBox (abandon fn s))

/-- A function-level reset of a virtual function (R555, R584). -/
def flrSlot (slot : Fin 64) (s : State) : State := tearJob slot 2 (resetBox (vfOf slot) s)

/-- A hot reset (R584, R586): VF Enable clears, and BAR2 has its size after reset (R540). -/
def hotReset (s : State) : State :=
  let s := writeHealth (fun h => { h with resetCause := 8 }) s
  let s := forEach allFns resetBox s
  let s := forEach allSlots (fun i st => tearJob i 2 st) { s with numVfs := 0, bar2Size := 2 ^ 36 }
  logEvent 0x01 none 8 0 (modRst (fun r => { r with lastCause := 8 }) s)

/-- A reset of a function, or a hot reset. -/
def runReset (r : LateReset) (s : State) : State :=
  match r with
  | .vf slot => flrSlot slot s
  | .pf0 => resetBox pf0 s
  | .hot => hotReset s

/-- Such a reset is applied once a warm reset that runs completes (R590). -/
def meetReset (r : LateReset) (s : State) : State :=
  if s.rst.phase = .warm then modRst (fun x => { x with late := x.late ++ [r] }) s else runReset r s

/-- Steps 4 to 7 of a warm reset (R587, R588), with what struck meanwhile (R590). -/
def warmEnd (s : State) : State :=
  if !imageSame s then bootHold 6 s
  else
    let late := s.rst.late
    let s := forEach (allSlots.filter (survives s)) (fun i st => loadTables i (surviveWarm i st)) s
    let s := retrainAll (warmObjects (scrubLost s))
    let s := loadCalib s.cox.image (newNonce (resumeStreams (clearCounters (survives s) s)))
    let s := { s with
      cox := { s.cox with alive := true, flash := s.cox.flash.map (fun f => { f with loading := false, bytes := [] }) }
      fabric := { s.fabric with accepting := true } }
    let s := modRst (fun r => { r with phase := .running, late := [] }) s
    forEach late runReset (logEvent 0x01 none s.rst.lastCause.toNat 0 s)

/-- A warm reset from its start to its end (DEV_RESET, watchdog, critical-state error). -/
def warmReset (cause : Nat) (s : State) : State := if s.rst.wrstLow then warmStart cause s else warmEnd (warmStart cause s)

end Sys2Proof.Machine
end

