-- ==== Sys2Proof/Machine/PowerCmds.lean ====
section
/-! DEFINITION. The power manager's measurements and decisions, PWR_SET, and the ways into and out of P2, P3
and P4 (spec/15_power_debug_security.md R518 to R529; spec/18_service_selftest_conservation.md R637 to
R639). -/

namespace Sys2Proof.Machine

/-! ### Measurements and divisors (R521 to R523) -/

/-- Fields of OBJ_POWER. -/
def limitW (s : State) : Nat := devFld s oPOWER 0 47 36
def reserveW (s : State) : Nat := devFld s oPOWER 0 35 28
def p1Mode (s : State) : Nat := devFld s oPOWER 0 27 26

/-- P0, P1 or P2, up to the step of the entry into P3 after which the Cox is stopped and the PCIe link is in L2 (R528). -/
def awake (s : State) : Bool :=
  (s.power.mode == .run || s.power.mode == .hold) && (match s.power.entry with | some k => decide (k < 3) | none => true)

/-- The Cox and the power manager run: P0, P1 or P2. -/
def powered (s : State) : Bool := s.rst.phase == .running && awake s

/-- Hottest sensor of a die, sensors excluded by a self-test apart (R642): sensor j of die n is element
8n + j. -/
def dieTemp (s : State) (temps : List Nat) (n : Nat) : Nat :=
  ((List.range 8).map (fun j => if s.health.tempExcl.getLsbD (8 * n + j) then 0 else temps.getD (8 * n + j) 0)).foldl max 0

/-- Dies that hold ÷12 forced: one above 100 °C starts it, and it ends when every die is below 90 °C. -/
def hotAfter (s : State) (temps : List Nat) : BitVec 4 :=
  let hot := BitVec.ofNat 4 (packed ((List.range 4).map (fun n => (if 100 < dieTemp s temps n then 1 else 0, n))))
  if (List.range 4).all (fun n => decide (dieTemp s temps n < 90)) then 0 else s.power.hotDies ||| hot

/-- POWER_MEASURE (R521): floor and budget are computed in half watts; which way floor_w rounds a half watt is
free (notes/assumptions/27). After the sample the trims that are loaded take effect (R622). -/
def doMeasure (inputW : BitVec 16) (temps : List Nat) (s : State) : State :=
  if !powered s then s
  else
    let floor2 := 2 * inputW.toNat - s.power.held
    let budget := min 65535 (2 * limitW s - 2 * reserveW s - floor2)
    let hot := hotAfter s temps
    let excess := decide (limitW s * 105 < inputW.toNat * 100)
    let top := ((List.range 4).map (dieTemp s temps)).foldl max 0
    let s := modPower (fun p => ({ p with
      inputW := inputW, floorW := BitVec.ofNat 16 ((floor2 + (if Config.roundsUp floor2 then 1 else 0)) / 2), budget := BitVec.ofNat 16 budget, hotDies := hot
      overSince := if excess then some (p.overSince.getD s.clock.now) else none }).grant) s
    let s := modBoard (fun b => { b with pinW := inputW, tempC := BitVec.ofNat 8 top }) s
    let s := modCalib (fun c => { c with sensor := c.loaded.sensor, monitor := c.loaded.monitor }) s
    if 100 < top then alert 1 s else s

/-- Demand at a divisor: every unit that holds or awaits tokens (R522). -/
def demand (s : State) (d : BitVec 2) : Nat :=
  ((s.power.holders.map Prod.fst ++ s.power.waiting).map (fun u => tokenCost u d)).foldl (· + ·) 0

/-- The divisor that AUTO calls for. -/
def autoDivisor (s : State) : BitVec 2 :=
  if demand s 0 ≤ s.power.budget.toNat then 0 else if demand s 1 ≤ s.power.budget.toNat then 1 else 2

/-- DIVISOR_DECISION (R522): a smaller divisor waits as long as decisions call for it, through P2 as well (R527). -/
def doDecision (s : State) : State :=
  if !powered s then s
  else
    let now := s.power.aclk
    let set := fun (d : BitVec 2) (n : Nat) => modPower (fun p => { p with pending := if d = now then none else some d, lowerCalls := n })
    if forced12 s then set 2 0 (if now = 2 then s else raiseCause pf0 5 s)
    else
      match p1Mode s with
      | 0 =>
        let want := autoDivisor s
        if want < now then
          let calls := s.power.lowerCalls + 1
          set (if 2 ≤ calls then want else now) calls s
        else set want 0 s
      | 1 => set 0 0 s
      | 2 => set 1 0 s
      | _ => set 2 0 s

/-- DIVISOR_APPLY (R523): outside P2. -/
def doApply (s : State) : State := if !powered s || s.power.mode == .hold then s else applyPending s

/-! ### P3 (R528) -/

/-- P3 is refused while a job runs or ends (R528). -/
def restBlocked (s : State) : Bool :=
  allSlots.any (fun i => match jobSt s i with
    | .running => true
    | .draining => true
    | .torn => true
    | .scrubbing => true
    | _ => false)

/-- Steps 1 and 2 of the entry into P3 (R528): release stops, D2 sessions close, halted cores are resumed, and slots whose keys
do not survive are torn down. A divisor change that waits goes first (R523). -/
def restBegin (s : State) : State :=
  tearLost (resumeAll (closeAllD2 (modPower (fun p => { p with stopping := true, entry := some 2, wake := false }) (applyPending s))))

/-- Step 3 (R528): ports are disabled, SPDM sessions end, PWR_SET replies OK, and the link goes to L2. -/
def restPorts (c : BgCmd) (s : State) : State :=
  let s := forEach (allPorts.filter (fun p => (port s p).st ≠ .disabled)) (fun p st => setPort p .disabled 0 st) s
  let s := finishBg c (.of stOK) (endSessions s)
  modPower (fun p => { p with entry := some 3 }) { s with cox := { s.cox with alive := false }, fabric := { s.fabric with accepting := false } }

/-- The exit from P3 (R528): the image is read and compared first; surviving keys are loaded into the engines. -/
def exitRest (s : State) : State :=
  let s := modPower (fun p => { p with aclk := 0, pending := none, lowerCalls := 0 }) s
  let s := setPower .run s
  if !imageSame s then bootHold 6 s
  else
    let s := { s with cox := { s.cox with alive := true }, fabric := { s.fabric with accepting := true } }
    resumeStreams (scrubLost (retrainAll (forEach allSlots loadTables s)))

/-- Step 5 (R528): P3. Global time that was LOCKED is FREE, and programmable counters are cleared (R476); no die is measured
(R650). A wake that came meanwhile starts the exit (R529). -/
def restEnter (s : State) : State :=
  let wake := s.power.wake
  let s := if s.clock.t.st = .locked then setClock .free false s else s
  let s := clearCounters (fun _ => true) s
  let s := setPower .rest (modPower (fun p => { p with stopping := false, entry := none, wake := false }) (applyPending s))
  let s := modBoard (fun b => { b with tempC := 0 }) s
  if wake then exitRest s else s

/-- The steps of the entry that follow the reply, one a tick (R528; DESIGN CHOICE, notes/assumptions/2). -/
def restStep (s : State) : State :=
  match s.power.entry with
  | some 3 => modPower (fun p => { p with entry := some 4 }) (forEach allSlots eraseTables s)
  | some 4 => restEnter s
  | _ => s

/-- SMB_WAKE (R527): during the entry it is kept for its end (R529). -/
def doWake (s : State) : State :=
  if s.rst.phase ≠ .running then s
  else if s.power.mode = .rest then exitRest s
  else if s.power.entry.isSome then modPower (fun p => { p with wake := true }) s
  else s

/-! ### P4 -/

/-- Everything volatile is lost and the core rails are off (R518, R584). In the thermal hold the always-on domain stays powered
and keeps the SMBus port's alerts (R655). -/
def powerOff (ph : BootPhase) (s : State) : State :=
  let w := modRst (fun r => { r with phase := ph }) (modPower (fun p => { p with mode := .off }) (wipe s))
  modBoard (fun b =>
    if ph = .thermal then { b with pwrgd := false, alert := s.board.alert ||| 0x10, alertMask := s.board.alertMask } else { b with pwrgd := false }) w

/-- Items of one step of the shutdown self-test (R638): which of those with a subject fail, and which lanes, sensors and stacks
they name, are free values. -/
def shutdownItems (items : List Nat) (s : State) : State :=
  let a := draw s
  let b := draw a.2
  let c := draw b.2
  let bits := fun (n : Nat) (v : BitVec 64) => (List.range n).filter v.getLsbD
  let v := Config.freeValue c.1
  recordItems items (bits 9 (Config.freeValue a.1)) ((bits 64 (Config.freeValue b.1)).map (Fin.ofNat 64)) ((bits 32 v).map (Fin.ofNat 32))
    ((bits 20 (v >>> 32)).map (Fin.ofNat 20)) false c.2

/-- Step `k` of the shutdown self-test of a PWR_SET OFF (R638). Steps 2 to 9; step 1 ends once nothing runs. -/
def shutdownStep (c : BgCmd) (k : Nat) (s : State) : State :=
  let next := setWork c (.shutdown (k + 1))
  match k with
  | 2 =>
    let slice := s.health.asSlice.toNat
    next (writeHealth (fun h => { h with clean := false }) (modPower (fun p => { p with
      slice := some (s.mem.cells.filter (fun x => inSlice slice x.1)) }) s))
  | 3 => next (shutdownItems [7] s)
  | 4 =>
    let s := shutdownItems [1] s
    let s := forEach (allPorts.filter (fun p => (port s p).st ≠ .disabled)) (fun p st => setPort p .disabled 0 st) s
    next (shutdownItems [0] s)
  | 5 => next (shutdownItems [2, 3] s)
  | 6 => next (shutdownItems [4, 5, 6] s)
  | 7 => next (restoreSlice (shutdownItems [8] s))
  | 8 =>
    next (selfTestEvent (List.range 9) false
      (writeHealth (fun h => { h with clean := true, asSlice := BitVec.ofNat 8 ((h.asSlice.toNat + 1) % 32) }) s))
  | _ => powerOff .off (finishBg c (.of stOK) (modPower (fun p => { p with stopping := false }) s))

/-! ### PWR_SET (R527, R572) -/

/-- A PWR_SET that waits for running work. -/
def BgCmd.waitsPower (c : BgCmd) : Bool :=
  match c.work with
  | .power _ _ => true
  | _ => false

/-- A PWR_SET runs: it has no final reply yet (R552, R574). -/
def powerRuns (s : State) : Bool := s.cox.running.any (fun b => b.opcode == 0x48 || b.waitsPower)

/-- PWR_SET: one that finds another under way is BUSY (DESIGN CHOICE, notes/assumptions/28). -/
def cmdPower (c : Cmd) (s : State) : State × Res :=
  let wait := c.pl 31 16
  let deadline := s.clock.now + 800000 * wait
  if c.pl 15 2 != 0 then (s, noAt stBAD_FIELD 32)
  else if wait == 0 then (s, noAt stBAD_FIELD 34)
  else if c.pl 63 32 != 0 then (s, noAt stBAD_FIELD 36)
  else if powerRuns s then (s, no stBUSY)
  else
    match c.pl 1 0 with
    | 0 =>
      if s.power.mode = .hold then
        (s, .start .made (fun st =>
          let st := applyPending st
          setPower .run (modPower (fun p => { p with stopping := false }) st)))
      else (s, .start .made id)
    | 1 =>
      if s.power.mode = .hold then (s, .start .made id)
      else (s, .start (.power 1 deadline) (fun st => holdCheck (modPower (fun p => { p with stopping := true }) st)))
    | 2 =>
      if restBlocked s || d3Open s || s.cox.change.isSome then (s, no stSTATE)
      else (s, .start .rest restBegin)
    | _ =>
      if s.cox.change.isSome then (s, no stSTATE)
      else (s, .start (.power 3 deadline) (modPower (fun p => { p with stopping := true })))

/-- wait_ms passes with work still running (R527, R638). -/
def doHoldTimeout (s : State) : State :=
  if s.power.stopping && deviceRuns s && s.cox.running.any BgCmd.waitsPower then
    finishAll BgCmd.waitsPower (.of stTIMEOUT)
      (modPower (fun p => { p with stopping := false }) s)
  else s

/-- POWER_MEASURE. -/
def execPowerMeasure (inputW : BitVec 16) (temps : List Nat) (s : State) : Host.Outcome State Fault Refusal := .next (doMeasure inputW temps s)
/-- DIVISOR_DECISION. -/
def execDivisorDecision (s : State) : Host.Outcome State Fault Refusal := .next (doDecision s)
/-- DIVISOR_APPLY. -/
def execDivisorApply (s : State) : Host.Outcome State Fault Refusal := .next (doApply s)
/-- SMB_WAKE. -/
def execSmbWake (s : State) : Host.Outcome State Fault Refusal := .next (doWake s)
/-- PWR_HOLD_TIMEOUT. -/
def execPwrHoldTimeout (s : State) : Host.Outcome State Fault Refusal := .next (doHoldTimeout s)

end Sys2Proof.Machine
end

