-- ==== Sys2Proof/Machine/Firmware.lean ====
section
/-! DEFINITION. Firmware loads and the start of a changeover (spec/16_host_mailbox.md R573, R574), TALLY,
LOG_READ (spec/18_service_selftest_conservation.md R626, R634) and DEV_RESET. -/

namespace Sys2Proof.Machine

/-! ### FW_LOAD -/

/-- What a boot header says (R604), its svn from 0 to 64, whether the image has the hash that the header holds (R605), and the
hash of header and image that register 2 is extended with. -/
def headerImage (bytes : List Byte) : FlashImage :=
  let h := leNat (bytes.take 256)
  let len := fld h 703 672
  { valid := fld h 31 0 == 0x46354B44 && fld h 647 640 == 1 && fld h 895 768 == 0 && fld h 639 32 == 0 &&
      decide (1 ≤ len ∧ len ≤ 33554432) && decide (fld h 655 648 ≤ 64)
    hashOk := (Config.sha384 ((bytes.drop 4096).take len)).toNat == fld h 1279 896
    sigOk := Config.ecVerify Config.falruineKey (leBytes 160 h) (leBytes 96 (h >>> 1280))
    svn := BitVec.ofNat 8 (fld h 655 648), version := BitVec.ofNat 64 (fld h 767 704), major := BitVec.ofNat 8 (fld h 671 664),
    minMinor := 0, maxMinor := BitVec.ofNat 8 (fld h 663 656)
    digest := Config.sha384 (bytes.take 256 ++ (bytes.drop 4096).take len) }

/-- The flash slot that FW_LOAD writes (R573, R606). -/
def loadSlot (s : State) : Fin 2 := if s.rst.bootPcie then 0 else if s.cox.bootSlot then 0 else 1

/-- A slot with a chunk written to it: the first one overwrites what the slot held. -/
def FlashSlot.write (f : FlashSlot) (offset total : Nat) (data : List Byte) : FlashSlot :=
  if offset = 0 then { f with image := FlashImage.none, bytes := data, loadTotal := total, loading := true, staged := false }
  else { f with bytes := f.bytes ++ data }

/-- A slot whose load is complete. -/
def FlashSlot.complete (f : FlashSlot) : FlashSlot :=
  { image := headerImage f.bytes, bytes := [], loadTotal := 0, loading := false, staged := true }

/-- A load that its last chunk ended (R573). -/
def FlashSlot.spoiled (f : FlashSlot) : FlashSlot := { f with bytes := [], loading := false, staged := false }

/-- Change the place that a load goes to. -/
def modLoad (f : FlashSlot → FlashSlot) (s : State) : State :=
  if s.rst.phase = .loader then { s with cox := { s.cox with reserve := f s.cox.reserve } }
  else { s with cox := { s.cox with flash := vmod s.cox.flash (loadSlot s) f } }

/-- FW_LOAD (R573): the image hash is checked by the loader of a boot from PCIe (R606), and else at the boot (R605). -/
def cmdLoad (c : Cmd) (s : State) : State × Res :=
  let loader := decide (s.rst.phase = .loader)
  let f := if loader then s.cox.reserve else s.cox.flash[loadSlot s]
  let offset := c.pl 31 0
  let total := c.pl 63 32
  let final := c.pl 64 64 == 1
  let data := leBytes c.indLen c.bulk
  if s.cox.change.isSome then (s, no stSTATE)
  else if offset % 4096 != 0 then (s, noAt stBAD_FIELD 32)
  else if c.pl 95 65 != 0 then (s, noAt stBAD_FIELD 40)
  else if c.pl 127 96 != 0 then (s, noAt stBAD_FIELD 44)
  else if 33554432 < total then (s, noAt stBOUND 36)
  else if !c.ind then (s, noAt stBOUND 12)
  else if offset != 0 && (!f.loading || offset != f.bytes.length) then (s, noAt stBAD_FIELD 32)
  else if offset != 0 && total != f.loadTotal then (s, noAt stBAD_FIELD 36)
  else if total < offset + c.indLen then (s, noAt stBOUND 24)
  else if final && offset + c.indLen != total then (s, noAt stBAD_FIELD 40)
  else if !c.dma.readOk then (s, no stINTEGRITY)
  else if final then
    let bytes := if offset = 0 then data else f.bytes ++ data
    let i := headerImage bytes
    if !i.valid || !i.sigOk || (loader && !i.hashOk) then (modLoad FlashSlot.spoiled s, no stINTEGRITY)
    else if i.svn < s.sec.rollback then (modLoad FlashSlot.spoiled s, no stVERSION)
    else
      let go := modLoad (fun f => (f.write offset total data).complete)
      if loader then
        (s, .start .made (fun st =>
          let st := go st
          let st := finishAll (fun b => b.work == .made) (.of stOK) st
          modHost pf0 (fun h => { h with version := none }) (bootCox st.cox.reserve.image 2 (st.rst.lastCause != 6) st)))
      else (s, .start .made go)
  else (s, .start .made (modLoad (fun f => f.write offset total data)))

/-! ### FW_CHANGEOVER -/

/-- The flash slot that holds a staged image. -/
def stagedSlot (s : State) : Option (Fin 2) := (List.finRange 2).find? (fun k => s.cox.flash[k].staged)

/-- Whether an image serves every negotiated minor (R574). -/
def serves (s : State) (i : FlashImage) : Bool :=
  i.major == 5 && allFns.all (fun fn => match s.host[fn].version with
    | some m => decide (i.minMinor ≤ m ∧ m ≤ i.maxMinor)
    | none => true)

/-- FW_CHANGEOVER (R574): FW_COMMIT may have raised the counter above the staged svn since the load (R488). -/
def cmdChangeover (c : Cmd) (s : State) : State × Res :=
  if c.pl 15 0 == 0 then (s, noAt stBAD_FIELD 32)
  else if c.pl 63 16 != 0 then (s, noAt stBAD_FIELD 34)
  else
    match stagedSlot s with
    | none => (s, no stSTATE)
    | some k =>
      if d3Open s || powerRuns s || s.power.mode != .run || s.cox.change.isSome then (s, no stSTATE)
      else if s.cox.flash[k].image.svn < s.sec.rollback then (s, no stVERSION)
      else if !serves s s.cox.flash[k].image then (s, no stVERSION)
      else
        let ch : Changeover := { phase := .quiesce, deadline := s.clock.now + 800000 * c.pl 15 0, latched := [], mgmt := [], spdm := [] }
        (s, .start .changeover (fun st => { st with cox := { st.cox with change := some ch } }))

/-! ### TALLY, LOG_READ, DEV_RESET -/

/-- TALLY (R626): the sample is taken when the command is accepted. -/
def cmdTally (c : Cmd) (s : State) : State × Res :=
  let mask := c.pl 15 0
  let slot := slotOfFn c.fn
  let dev := c.fn == pf0
  if c.pl 63 16 != 0 then (s, noAt stBAD_FIELD 34)
  else if mask == 0 || decide (1024 ≤ mask) then (s, noAt stBAD_FIELD 32)
  else if (if dev then decide (8 ≤ mask) else mask % 8 != 0) then (s, no stDENIED)
  else
    let st := match slot with | some i => jobSt s i | none => .running
    if st == .empty || st == .created || st == .scrubbing then (s, no stSTATE)
    else
      let rs := tallyRecs s slot mask
      if !c.ind then (s, noAt stBOUND 12)
      else if c.indLen < 32 * rs.length then (s, noAt stBOUND 24)
      else
        let r := bulkReply c (rs.flatMap (fun x => x.bytes s.clock.now)) s
        let s' := logMismatches slot rs r.1
        (s', .start (.tally r.2.status r.2.indDone rs.length (rs.filter TallyRec.broken).length) id)

/-- The 64 bytes of a log record (R631). -/
def LogRec.bytes (r : LogRec) : List Byte :=
  leBytes 64 (packed [(r.time % 2 ^ 64, 448), (r.seq.toNat, 416), (r.code.toNat, 408), (if r.slot.isSome then 1 else 0, 400),
    ((match r.slot with | some i => i.val | none => 0), 394), (r.unit.toNat, 368), (r.detail % 2 ^ 368, 0)])

/-- The 512 bytes of the health record, its mac under the key derived from the device secret (R640). -/
def Health.bytes (secret : BitVec 256) (h : Health) : List Byte :=
  let body := leBytes 464 (packed ([(h.seq.toNat, 3648), (h.written.toNat, 3584), (h.tempExcl.toNat, 2424), (h.holdCause.toNat, 2420),
      (h.resetCause.toNat, 2416), (h.stTime.toNat, 2352), (h.stRun.toNat, 2336), (h.stPass.toNat, 2320), (h.laneFail.toNat, 2256),
      (h.asSlice.toNat, 2248), (h.boots.toNat, 2216), (h.restarts.toNat, 2212), bit h.clean 2211] ++
    ((List.range 68).map (fun k => let e := h.me.getD k (0xFF, 0); (e.1.toNat <<< 8 + e.2.toNat <<< 4, 2496 + 16 * k))) ++
    ((List.range 20).map (fun k => ((h.memStacks.getD k 0).toNat, 2456 + 2 * k)))))
  body ++ measBytes (Config.hmac (leBytes 48 (Config.healthKey secret).toNat) body)

/-- LOG_READ (R634). -/
def cmdLogRead (c : Cmd) (s : State) : State × Res :=
  let source := c.pl 1 0
  let clear := c.pl 2 2 == 1
  let count := c.pl 31 16
  let l := s.logs
  let recs := ((if source = 0 then l.first ++ l.ring else l.events).filter (fun r => decide (c.pl 63 32 ≤ r.seq.toNat))).take count
  let want := if source = 2 then 512 else 64 * count
  if source == 3 || c.pl 15 3 != 0 || (clear && source != 0) then (s, noAt stBAD_FIELD 32)
  else if source != 2 && (count == 0 || decide (8192 < count)) then (s, noAt stBAD_FIELD 34)
  else if !c.ind then (s, noAt stBOUND 12)
  else if c.indLen < want then (s, noAt stBOUND 24)
  else
    let r := bulkReply c (if source = 2 then s.health.bytes s.sec.deviceSecret else recs.flatMap LogRec.bytes) s
    let head := packed [((if source = 0 then l.lost.toNat else if source = 1 then l.overwritten.toNat else 0), 0),
      ((if source = 0 then l.seq.toNat else if source = 1 then l.eventSeq.toNat else 0), 32),
      (l.rsvWrites.toNat, 64), (l.dpaAccesses.toNat, 96), (l.ignored.toNat, 128)]
    let s' := if clear then { r.1 with logs := { r.1.logs with
        first := [], ring := [], lost := 0, seq := 0, rsvWrites := 0, dpaAccesses := 0, ignored := 0 } } else r.1
    (s', .done { r.2 with length := 32, payload := head })

/-- DEV_RESET (R567, R587): the reset starts 10 µs after the reply. -/
def cmdDevReset (c : Cmd) (s : State) : State × Res :=
  if c.pl 63 0 != 0 then (s, noAt stBAD_FIELD 32)
  else if s.cox.change.isSome then (s, no stSTATE)
  else (modRst (fun r => { r with devResetAt := some (s.clock.now + usTicks 10) }) s, resOk)

end Sys2Proof.Machine
end

