-- ==== Sys2Proof/Machine/Spdm.lean ====
section
/-! DEFINITION. SPDM requests, IDE key programming and TDISP interfaces (spec/14_secrecy.md R491, R492, R509,
R510). The spec names the DMTF messages and lays none of them out: request and response codes are those
of the standard, and a response body is its parts in the order in which R491 names them (PRESUMED,
notes/assumptions/29). -/

namespace Sys2Proof.Machine

/-- A response: version 1.2, its code, two parameters, its content. It goes over DOE, or in a MGMT frame to the node that asked
(R492, R511). -/
def spdmReply (src : SpdmPort) (code p1 p2 : Nat) (content : List Byte) (s : State) : State :=
  let data := [BitVec.ofNat 8 0x12, BitVec.ofNat 8 code, BitVec.ofNat 8 p1, BitVec.ofNat 8 p2] ++ content
  match src with
  | .doe _ => emit (.spdm src data) s
  | .mgmt p node => sendMgmtOn p .mgmtReply node 0 data s

/-- An ERROR response. -/
def spdmError (src : SpdmPort) (err data : Nat) (s : State) : State := spdmReply src 0x7F err data [] s

/-- Whether the Umpire answers: not in P3, P4 or a reset, and over DOE only on an enabled function. -/
def spdmOpen (s : State) (src : SpdmPort) : Bool :=
  powered s && (match src with | .doe fn => decide (fn.val ≤ s.numVfs) | .mgmt _ _ => true)

/-- What needs the identity key is an error in RETIRED (R485), and for a certificate slot that is empty, all but slot 0: the
first byte of such a request names the slot (R491; PRESUMED, notes/assumptions/29). -/
def withIdentity (src : SpdmPort) (code : Nat) (msg : List Byte) (f : State → State) (s : State) : State :=
  if s.sec.lifecycle = .retired then spdmError src 0x07 code s else if msg.headD 0 ≠ 0 then spdmError src 0x01 0 s else f s

/-- A signed response: content and signature under the identity key. -/
def spdmSigned (src : SpdmPort) (code p1 : Nat) (msg content : List Byte) (s : State) : State :=
  spdmReply src code p1 0 (content ++ identitySign s (msg ++ content)) s

/-- The six measurement registers as blocks 1 to 6. -/
def measBlocks (s : State) : List Byte :=
  (List.finRange 6).flatMap (fun k => BitVec.ofNat 8 (k.val + 1) :: measBytes s.sec.meas[k])

/-- KEY_EXCHANGE: a free session slot, or Busy (R491). The requester's share follows the certificate slot. -/
def spdmExchange (src : SpdmPort) (msg : List Byte) (s : State) : State :=
  match (List.finRange 4).find? (fun k => s.sec.sessions[k].isNone) with
  | none => spdmError src 0x03 0 s
  | some k =>
    let d := draw s
    let e := Config.random d.1
    let key := Config.kdf (Config.ecdh e (msg.drop 1)) (msg ++ Config.ecPublic e)
    let s := modSec (fun x => { x with sessions := x.sessions.set k (some { src := src, key := key, finished := false }) }) d.2
    spdmSigned src 0x64 k.val msg (Config.ecPublic e) s

/-- FINISH: the session is complete when its check value holds. -/
def spdmFinish (src : SpdmPort) (k : Fin 4) (msg : List Byte) (s : State) : State :=
  match s.sec.sessions[k] with
  | none => spdmError src 0x02 k.val s
  | some x =>
    if x.src ≠ src || x.finished then spdmError src 0x02 k.val s
    else if msg.take 48 = measBytes (Config.hmac (leBytes 32 x.key.toNat) []) then
      spdmReply src 0x65 k.val 0 [] (modSec (fun y => { y with sessions := y.sessions.set k (some { x with finished := true }) }) s)
    else spdmError src 0x06 k.val s

/-- A request in a session of its own port. -/
def inSession (src : SpdmPort) (k : Fin 4) (f : State → State) (s : State) : State :=
  match s.sec.sessions[k] with
  | none => spdmError src 0x02 k.val s
  | some x => if x.src = src then f s else spdmError src 0x02 k.val s

/-- A request by its code (R491). -/
def spdmRequest (src : SpdmPort) (code : Byte) (k : Fin 4) (msg : List Byte) (s : State) : State :=
  if !spdmOpen s src then s
  else
    match code.toNat with
    | 0x84 => spdmReply src 0x04 0 0 (leBytes 2 0x1200) s
    | 0xE1 => spdmReply src 0x61 0 0 (leBytes 4 0) s
    | 0xE3 => spdmReply src 0x63 0 0 ("P384 SHA384 secp384r1 AES256GCM".toList.map (fun ch => BitVec.ofNat 8 ch.toNat)) s
    | 0x81 => spdmReply src 0x01 0 1 (measBytes (Config.sha384 (ownChain s))) s
    | 0x82 => if (msg.headD 0) = 0 then spdmReply src 0x02 0 0 (ownChain s) s else spdmError src 0x01 0 s
    | 0x83 => withIdentity src 0x83 msg (spdmSigned src 0x03 0 msg (measBytes (Config.sha384 (ownChain s)))) s
    | 0xE0 => withIdentity src 0xE0 msg (spdmSigned src 0x60 6 msg (measBlocks s)) s
    | 0xE4 => withIdentity src 0xE4 msg (spdmExchange src msg) s
    | 0xE5 => spdmFinish src k msg s
    | 0xEC => inSession src k (fun s => spdmReply src 0x6C 0 0 [] (modSec (fun x => { x with sessions := x.sessions.set k none }) s)) s
    | 0xE8 => inSession src k (spdmReply src 0x68 0 0 []) s
    | c => spdmError src 0x07 c s

/-! ### IDE and TDISP (R509, R510) -/

/-- A finished session that may act on a virtual function's interface, with its port: one over the DOE mailbox of that function,
since no other actor holds that right (R478, R509; DEDUCED, notes/assumptions/29). -/
def securePort (s : State) (k : Fin 4) (slot : Fin 64) : Option SpdmPort :=
  match s.sec.sessions[k] with
  | some x => if x.finished && x.src == .doe (vfOf slot) then some x.src else none
  | none => none

/-- IDE_KM: program the key of a virtual function's stream, or activate it. -/
def ideKm (k : Fin 4) (slot : Fin 64) (activate : Bool) (key : BitVec 256) (s : State) : State :=
  match securePort s k slot with
  | none => s
  | some src =>
    if !spdmOpen s src then s
    else if activate then
      match s.sec.ide[slot] with
      | some x => spdmReply src 0x7E 1 0 [] (modSec (fun y => { y with ide := y.ide.set slot (some { x with active := true }) }) s)
      | none => spdmError src 0x01 0 s
    else spdmReply src 0x7E 0 0 [] (modSec (fun y => { y with ide := y.ide.set slot (some { key := key, active := false }) }) s)

/-- Code of an interface's state. -/
def Tdisp.code : Tdisp → Nat
  | .unlocked => 0
  | .locked => 1
  | .run => 2
  | .error => 3

/-- Put an interface into a state: leaving RUN closes BAR2, entering RUN opens it (R510). -/
def setTdisp (slot : Fin 64) (t : Tdisp) (s : State) : State :=
  let m : BitVec 64 := 1#64 <<< slot.val
  modSec (fun x => { x with
    tdisp := x.tdisp.set slot t
    closed := if t = .run then x.closed &&& ~~~m else if x.tdisp[slot] = .run then x.closed ||| m else x.closed }) s

/-- A TDISP message in a secure session. -/
def tdispMsg (k : Fin 4) (slot : Fin 64) (req : TdispReq) (s : State) : State :=
  match securePort s k slot with
  | none => s
  | some src =>
    if !spdmOpen s src then s
    else
      let t := s.sec.tdisp[slot]
      match req with
      | .lock => if t = .unlocked then spdmReply src 0x7E 2 1 [] (setTdisp slot .locked s) else spdmError src 0x01 t.code s
      | .start => if t = .locked then spdmReply src 0x7E 2 2 [] (setTdisp slot .run s) else spdmError src 0x01 t.code s
      | .stop => spdmReply src 0x7E 2 0 [] (setTdisp slot .unlocked s)
      | .getState => spdmReply src 0x7E 2 t.code [] s
      | .getReport =>
        if t = .locked || t = .run then
          spdmReply src 0x7E 3 t.code (leBytes 2 (jobTag s slot).toNat ++ leBytes 8 s.bar2Size) s
        else spdmError src 0x01 t.code s

/-- TDISP_LEAVE_RUN (R510): an interface in ERROR tears down its job. -/
def leaveRun (slot : Fin 64) (toError : Bool) (s : State) : State :=
  if s.sec.tdisp[slot] ≠ .run then s
  else if toError then tearJob slot 3 (raiseCause (vfOf slot) 2 (setTdisp slot .error s))
  else setTdisp slot .unlocked s

/-- Requests on DOE wait for the end of a changeover (R577); those of a MGMT frame are taken with it. -/
def spdmOrWait (r : SpdmReq) (f : State → State) (s : State) : State :=
  match s.cox.change with
  | some ch => { s with cox := { s.cox with change := some { ch with spdm := ch.spdm ++ [r] } } }
  | none => f s

/-- Take a request. -/
def runSpdm (r : SpdmReq) (s : State) : State :=
  match r with
  | .plain src code k msg => spdmRequest src code k msg s
  | .ide k slot a key => ideKm k slot a key s
  | .tdisp k slot q => tdispMsg k slot q s

/-- A request as it arrives. -/
def doSpdm (r : SpdmReq) (s : State) : State := spdmOrWait r (runSpdm r) s

/-- GET_VERSION. -/
def execGetVersion (src : SpdmPort) (msg : List Byte) (s : State) : Host.Outcome State Fault Refusal := .next (doSpdm (.plain src 0x84 0 msg) s)
/-- GET_CAPABILITIES. -/
def execGetCapabilities (src : SpdmPort) (msg : List Byte) (s : State) : Host.Outcome State Fault Refusal := .next (doSpdm (.plain src 0xE1 0 msg) s)
/-- NEGOTIATE_ALGORITHMS. -/
def execNegotiateAlgorithms (src : SpdmPort) (msg : List Byte) (s : State) : Host.Outcome State Fault Refusal := .next (doSpdm (.plain src 0xE3 0 msg) s)
/-- GET_DIGESTS. -/
def execGetDigests (src : SpdmPort) (msg : List Byte) (s : State) : Host.Outcome State Fault Refusal := .next (doSpdm (.plain src 0x81 0 msg) s)
/-- GET_CERTIFICATE. -/
def execGetCertificate (src : SpdmPort) (msg : List Byte) (s : State) : Host.Outcome State Fault Refusal := .next (doSpdm (.plain src 0x82 0 msg) s)
/-- CHALLENGE. -/
def execSpdmChallenge (src : SpdmPort) (msg : List Byte) (s : State) : Host.Outcome State Fault Refusal := .next (doSpdm (.plain src 0x83 0 msg) s)
/-- GET_MEASUREMENTS. -/
def execGetMeasurements (src : SpdmPort) (msg : List Byte) (s : State) : Host.Outcome State Fault Refusal := .next (doSpdm (.plain src 0xE0 0 msg) s)
/-- KEY_EXCHANGE. -/
def execKeyExchange (src : SpdmPort) (msg : List Byte) (s : State) : Host.Outcome State Fault Refusal := .next (doSpdm (.plain src 0xE4 0 msg) s)
/-- FINISH. -/
def execSpdmFinish (src : SpdmPort) (session : Fin 4) (msg : List Byte) (s : State) : Host.Outcome State Fault Refusal := .next (doSpdm (.plain src 0xE5 session msg) s)
/-- END_SESSION. -/
def execEndSession (src : SpdmPort) (session : Fin 4) (msg : List Byte) (s : State) : Host.Outcome State Fault Refusal := .next (doSpdm (.plain src 0xEC session msg) s)
/-- HEARTBEAT. -/
def execSpdmHeartbeat (src : SpdmPort) (session : Fin 4) (msg : List Byte) (s : State) : Host.Outcome State Fault Refusal := .next (doSpdm (.plain src 0xE8 session msg) s)
/-- SPDM_UNSUPPORTED_REQUEST: a code of R491's list is none. -/
def execSpdmUnsupportedRequest (src : SpdmPort) (code : Byte) (msg : List Byte) (s : State) : Host.Outcome State Fault Refusal :=
  .next (doSpdm (.plain src code 0 msg) s)
/-- IDE_KM_REQUEST. -/
def execIdeKmRequest (session : Fin 4) (slot : Fin 64) (activate : Bool) (key : BitVec 256) (s : State) : Host.Outcome State Fault Refusal :=
  .next (doSpdm (.ide session slot activate key) s)
/-- TDISP_REQUEST. -/
def execTdispRequest (session : Fin 4) (slot : Fin 64) (req : TdispReq) (s : State) : Host.Outcome State Fault Refusal :=
  .next (doSpdm (.tdisp session slot req) s)
/-- TDISP_LEAVE_RUN. -/
def execTdispLeaveRun (slot : Fin 64) (toError : Bool) (s : State) : Host.Outcome State Fault Refusal := .next (leaveRun slot toError s)

end Sys2Proof.Machine
end

