-- ==== Sys2Proof/Machine/Unlor.lean ====
section
/-! DEFINITION. The Cox takes commands: the dispatch of the catalogue, doorbells, MGMT frames, the ends of
background work and live changeovers (spec/16_host_mailbox.md R543 to R556, R566, R575 to R577;
spec/14_secrecy.md R511, R512). -/

namespace Sys2Proof.Machine

/-! ### Taking a command -/

/-- The own checks and the effect of a command, by opcode (R566). -/
def perform (c : Cmd) (s : State) : State × Res :=
  match c.opcode.toNat with
  | 0x01 => cmdVersion c s
  | 0x02 => cmdGet c s
  | 0x03 => cmdSet c s
  | 0x10 => cmdCreate c s
  | 0x11 => cmdAttest c s
  | 0x12 => cmdKey c s
  | 0x13 => cmdReady c s
  | 0x14 => cmdStart c s
  | 0x15 => cmdPause c s
  | 0x16 => cmdResume c s
  | 0x17 => cmdTaskReset c s
  | 0x18 => cmdSeal c s
  | 0x19 => cmdTear c s
  | 0x1A => cmdFree c s
  | 0x20 => cmdGrant c s
  | 0x21 => cmdRevoke c s
  | 0x22 => cmdMap c s
  | 0x23 => cmdUnmap c s
  | 0x24 => cmdAsGrant c s
  | 0x30 => cmdRouteLoad c s
  | 0x31 => cmdLane c s
  | 0x32 => cmdLinkClear c s
  | 0x33 => cmdFence c s
  | 0x40 => cmdProvision c s
  | 0x41 => cmdDeploy c s
  | 0x42 => cmdHold c s
  | 0x43 => cmdRetire c s
  | 0x44 => cmdMgmtKey c s
  | 0x45 => cmdCommit c s
  | 0x46 => cmdDbgOpen c s
  | 0x47 => cmdDbgClose c s
  | 0x48 => cmdPower c s
  | 0x50 => cmdLoad c s
  | 0x51 => cmdChangeover c s
  | 0x60 => cmdTally c s
  | 0x61 => cmdLogRead c s
  | 0x62 => cmdDevReset c s
  | _ => (s, no stBAD_OPCODE)

/-- A command that has been taken (R553). The loader of a boot from PCIe takes VERSION and FW_LOAD only
(R606). -/
def runCmd (c : Cmd) (s : State) : State :=
  settleCmd c
    (match preCheck s c with
      | some b => (s, .done b)
      | none =>
        if s.rst.phase = .loader && c.opcode != 1 && c.opcode != 0x50 then (s, no stSTATE) else perform c s)

/-- Whether writes to a function's mailboxes have an effect: not in BOOT_HOLD, a reset, P3 or P4, nor for a
virtual function that is not enabled (R541, R597, R599); the loader serves slot 0 of PF0. -/
def boxOpen (s : State) (fn : Fin 65) : Bool :=
  match s.rst.phase with
  | .running => awake s && decide (fn.val ≤ s.numVfs)
  | .loader => fn == pf0
  | _ => false

/-- Whether a request to a virtual function's BARs is refused because its job locks the host path (R509):
the interface must be in RUN and the request on its IDE stream. -/
def hostLocked (s : State) (slot : Fin 64) (ide : Bool) : Bool :=
  match s.sec.jobKeys[slot] with
  | some k => k.hostLock && !(s.sec.tdisp[slot] == .run && ide && (match s.sec.ide[slot] with | some x => x.active | none => false))
  | none => false

/-- Count a refused host access of a job (R509, R544). -/
def countHostError (slot : Fin 64) (s : State) : State := modCtl slot (fun c => { c with hostErrors := c.hostErrors + 1 }) s

/-- A request to BAR0 of a function, on its IDE stream or off it: an Unsupported Request, counted, where the host path is locked
(R509). -/
def bar0 (fn : Fin 65) (ide : Bool) (f : State → State) (s : State) : State :=
  if !boxOpen s fn then s
  else
    match slotOfFn fn with
    | some i => if hostLocked s i ide then countHostError i s else f s
    | none => f s

/-- A buffer that nothing answers for. -/
def IndBuf.none : IndBuf := { data := [], readOk := false, writeFail := some 0 }

/-- The Cox takes a slot (R546). The indirect buffer of a function whose host path is locked cannot be reached without its IDE
stream (R509). -/
def takeSlot (fn : Fin 65) (mb : Fin 16) (dma : IndBuf) (s : State) : State :=
  let c := Cmd.ofImage fn mb s.host[fn].cmd[mb] (if dmaOpen s fn then dma else IndBuf.none) none
  runCmd c (modHost fn (fun h => { h with busy := h.busy ||| (1#16 <<< mb.val) }) s)

/-- Latch a doorbell: a slot that is rung again keeps its place. -/
def latch (l : Latched) (ls : List Latched) : List Latched :=
  let same := fun (x : Latched) => x.fn == l.fn && x.mb == l.mb
  if ls.any same then ls.map (fun x => if same x then l else x) else ls ++ [l]

/-- A doorbell bit (R543): ignored and counted for a busy slot, latched in a changeover (R575), and while D3 holds the Cox halted
(R530; DEDUCED, notes/assumptions/57). -/
def ring (fn : Fin 65) (mb : Fin 16) (dma : IndBuf) (s : State) : State :=
  let l : Latched := { fn := fn, mb := mb, dma := dma }
  if s.rst.phase = .loader && mb != 0 then s
  else if s.host[fn].busy.getLsbD mb.val then modHost fn (fun h => { h with dbIgnored := satInc16 h.dbIgnored 1 }) s
  else if s.cox.halted then { s with cox := { s.cox with rung := latch l s.cox.rung } }
  else
    match s.cox.change with
    | none => takeSlot fn mb dma s
    | some ch => { s with cox := { s.cox with change := some { ch with latched := latch l ch.latched } } }

/-- The Cox, no longer halted, takes the doorbells that were rung meanwhile. -/
def takeRung (s : State) : State :=
  match s.cox.rung with
  | [] => s
  | ls => if s.cox.halted || !powered s then s else forEach ls (fun l st => ring l.fn l.mb l.dma st) { s with cox := { s.cox with rung := [] } }

/-- A write to MB_DB (R542, R543): its upper half is RSV (R4). -/
def writeDoorbell (fn : Fin 65) (bits : BitVec 32) (dma : List IndBuf) (s : State) : State :=
  let s := if bits.toNat / 65536 = 0 then s else countRsvWrite s
  forEach ((List.finRange 16).filter (fun k => bits.getLsbD k.val)) (fun k st => ring fn k ((dma[k.val]?).getD IndBuf.none) st) s

/-- A row of the catalogue: the command is written into its slot and the slot is rung (R546). -/
def sendCmd (opcode : BitVec 16) (c : HostCmd) (s : State) : State :=
  bar0 c.fn c.ide (fun s =>
    ring c.fn c.mb c.dma (modHost c.fn (fun h => { h with cmd := h.cmd.set c.mb (slotImage opcode c) }) s)) s

/-- A command with bits of its payload put to what its row fixes. -/
def fixPayload (c : HostCmd) (hi lo v : Nat) : HostCmd :=
  { c with payload := BitVec.ofNat 1792 (setFld c.payload.toNat hi lo v) }

/-! ### MGMT frames (R511, R512) -/

/-- The body of a MGMT frame as it travels: a command is a slot image. -/
def mgmtBytes (m : MgmtFrame) : List Byte :=
  match m.body with
  | .unlor op c => leBytes 256 (slotImage op c).toNat
  | .spdm code msg => code :: msg
  | .report data => data
  | .other kind => [kind]

/-- The tag of a MGMT frame passes under a management key (R511). -/
def mgmtTagOk (m : MgmtFrame) (key : BitVec 256) : Bool := mgmtTag key m.dst m.src m.ctr m.time.toNat (mgmtBytes m) == m.tag

/-- Whether a MGMT frame passes its checks: its tag under the key of slot 64 or of slot 65 (R484), its time and its counter (R512). -/
def mgmtOk (s : State) (m : MgmtFrame) : Bool :=
  (s.sec.mgmtKey.any (mgmtTagOk m) || s.sec.mgmtNext.any (mgmtTagOk m)) &&
  decide (s.clock.now ≤ m.time.toNat + 131072) && decide (m.time.toNat ≤ s.clock.now + 4096) &&
  (match s.sec.mgmtHigh.find m.src.toNat with | some h => decide (h < m.ctr) | none => true)

/-- What an accepted MGMT frame asks for (R511): a command has the rights of PF0. -/
def takeMgmt (p : Fin 32) (m : MgmtFrame) (s : State) : State :=
  match m.body with
  | .unlor op c => runCmd (Cmd.ofImage pf0 0 (slotImage op c) c.dma (some (p, m.src))) s
  | .spdm code msg => spdmRequest (.mgmt p m.src) code (Fin.ofNat 4 (msg.headD 0).toNat) msg s
  | .report _ => s
  | .other _ => s

/-- MGMT_FRAME: drops are counted; frames wait through a changeover, at most 64 (R406, R512, R575). One that comes while D3
holds the Cox halted is dropped (DESIGN CHOICE, notes/assumptions/57). -/
def doMgmt (p : Fin 32) (m : MgmtFrame) (s : State) : State :=
  let got := consumeFrame p .mgmtReply (5 + (mgmtBytes m).length) s
  if !(port s p).st.live || !powered s then dropFrame p s
  else if s.cox.halted then dropFrame p got
  else
    let r := ctlAccept p got
    if !r.2 then r.1
    else
      let drop := modVmtErr (fun v => { v with mgmtDrop := satInc v.mgmtDrop 1 }) r.1
      if m.dst ≠ ownNode s || !nodeValid s || !mgmtOk s m then drop
      else
        let s := modSec (fun x => { x with mgmtHigh := x.mgmtHigh.put m.src.toNat m.ctr }) r.1
        match s.cox.change with
        | none => takeMgmt p m s
        | some ch =>
          if ch.mgmt.length < 64 then { s with cox := { s.cox with change := some { ch with mgmt := ch.mgmt ++ [(p, m)] } } }
          else modVmtErr (fun v => { v with mgmtDrop := satInc v.mgmtDrop 1 }) s

/-! ### Changeovers (R575 to R577) -/

/-- Running commands other than the changeover itself. -/
def othersRun (s : State) : Bool := s.cox.running.any (fun b => b.work != .changeover)

/-- CHANGEOVER event and cause 7 of PF0 at the end of a changeover (R545, R633). -/
def changeEnds (status : BitVec 8) (old new : BitVec 64) (s : State) : State :=
  raiseCause pf0 7 (logEvent 0x07 none status.toNat (old.toNat + new.toNat <<< 64) s)

/-- Take one queued MGMT frame, or queue it again. -/
def retakeMgmt (p : Fin 32) (m : MgmtFrame) (s : State) : State :=
  match s.cox.change with
  | none => takeMgmt p m s
  | some ch => { s with cox := { s.cox with change := some { ch with mgmt := ch.mgmt ++ [(p, m)] } } }

/-- Taking resumes: latched doorbells in their order, queued MGMT frames, waiting SPDM requests; CREW ports in
DISCOVERING start again (R575, R577). What is left waits again when one of them starts another changeover. -/
def resumeTaking (ch : Changeover) (s : State) : State :=
  let s := forEach ch.latched (fun l st => ring l.fn l.mb l.dma st) s
  let s := forEach ch.mgmt (fun f st => retakeMgmt f.1 f.2 st) s
  let s := forEach ch.spdm (fun r st => spdmOrWait r (runSpdm r) st) s
  forEach (allPorts.filter (fun p => isCrew s p && (port s p).st == .discovering)) startDiscovery s

/-- Version of the staged image, of the running one when none is staged. -/
def incomingVersion (s : State) : BitVec 64 :=
  match stagedSlot s with
  | some k => s.cox.flash[k].image.version
  | none => s.cox.image.version

/-- The running changeover's command, if it has not been abandoned. -/
def changeRuns (s : State) : Bool := s.cox.running.any (fun b => b.work == .changeover)

/-- A changeover ends: the command replies before the Cox takes what waited (R575 step 6, R576). -/
def endChange (ch : Changeover) (b : ReplyBody) (s : State) : State :=
  resumeTaking ch (finishAll (fun c => c.work == .changeover) b { s with cox := { s.cox with change := none } })

/-- The next step of a changeover whose command a reset of PF0 abandoned (R555): the old image goes on, and taking resumes. The
outcome that its event names is a free value (notes/assumptions/32). -/
def abandonChange (ch : Changeover) (s : State) : State :=
  let d := draw (modSec (fun x => { x with spareKeys := Vector.replicate 8 none }) s)
  endChange ch (.of stOK) (changeEnds (BitVec.ofNat 8 (Config.freeValue d.1).toNat) s.cox.image.version (incomingVersion s) d.2)

/-- CHANGEOVER_QUIESCED: steps 3 and 4. Spare slots take the incoming image's keys: its sealing key, the only one that the spec
names (R483). -/
def doQuiesced (s : State) : State :=
  match s.cox.change with
  | some ch =>
    if !changeRuns s then abandonChange ch s
    else if ch.phase = .quiesce && !othersRun s then
      let img := match stagedSlot s with | some k => s.cox.flash[k].image | none => s.cox.image
      modSec (fun x => { x with spareKeys := x.spareKeys.set 0 (some (coxSeal x.deviceSecret (extendReg 0 (measBytes img.digest)))) })
        { s with cox := { s.cox with change := some { ch with phase := .incoming, deadline := s.clock.now + 160000000 } } }
    else s
  | none => s

/-- QUIESCE_TIMEOUT: the changeover is abandoned. -/
def doQuiesceTimeout (s : State) : State :=
  match s.cox.change with
  | some ch =>
    if !changeRuns s then abandonChange ch s
    else if ch.phase = .quiesce && othersRun s then
      endChange ch (.of stTIMEOUT) (changeEnds stTIMEOUT s.cox.image.version (incomingVersion s) s)
    else s
  | none => s

/-- Step 5 of a changeover (R575, R622): slot 67 takes the incoming image's sealing key, which RETIRED has none of (R485), slots 72
to 79 are emptied, register 6 is extended, and the calibration tables of the image are loaded. -/
def startIncoming (k : Fin 2) (s : State) : State :=
  let img := s.cox.flash[k].image
  let s := modSec (fun x => { x with
    coxKey := if x.lifecycle = .retired then none else x.spareKeys[0], spareKeys := Vector.replicate 8 none }) s
  let s := extend 5 (measBytes img.digest) s
  let s := { s with cox := { s.cox with
      image := img, bootSlot := k == 1, flash := vmod s.cox.flash k (fun f => { f with staged := false }) } }
  loadCalib img (modRst (fun r => { r with bootPcie := false }) s)

/-- INCOMING_READY_TIMEOUT (R576): the old image restarts; its record names step 4. -/
def doIncomingTimeout (s : State) : State :=
  match s.cox.change with
  | some ch =>
    if !changeRuns s then abandonChange ch s
    else if ch.phase = .incoming then
      let seq := s.logs.seq.toNat
      let new := incomingVersion s
      let s := modSec (fun x => { x with spareKeys := Vector.replicate 8 none }) (logError 0x0A none 4 new.toNat s)
      endChange ch ⟨stINTERNAL, seq, 0, 0, 0⟩ (changeEnds stINTERNAL s.cox.image.version new s)
    else s
  | none => s

/-- CHANGEOVER_READY: steps 5 and 6. An image whose svn is below the counter is refused (R488): a FW_COMMIT that ran when the
changeover was accepted may have raised it. -/
def doReady (s : State) : State :=
  match s.cox.change, stagedSlot s with
  | some ch, some k =>
    if !changeRuns s then abandonChange ch s
    else if s.cox.flash[k].image.svn < s.sec.rollback then doIncomingTimeout s
    else if ch.phase = .incoming then
      let old := s.cox.image.version
      endChange ch (.of stOK) (changeEnds stOK old s.cox.flash[k].image.version (startIncoming k s))
    else s
  | _, _ => s

/-! ### The end of background work (R552) -/

/-- What is left to do when the background work of a command ends; work that ends by an event of its own does
not end here. -/
def endWork (b : BgCmd) (s : State) : State :=
  match b.work with
  | .made => finishBg b (.of stOK) s
  | .fwCommit => finishBg b (.of stOK) (commitFuses s)
  | .tally st n count broken => finishBg b ⟨st, 0, n, 8, count + broken <<< 32⟩ s
  | .fence e => if s.engines[e].st = meFENCED then finishBg b (.of stOK) s else s
  | .window i sub => if windowHeld s i sub.toNat then s else finishBg b (.of stOK) s
  | .power t _ => if t = 3 && s.power.stopping && !deviceRuns s then shutdownStep b 2 s else s
  | .shutdown k => shutdownStep b k s
  | .rest => restPorts b s
  | .routes _ _ _ _ _ => routeEnd b s
  | _ => s

/-- BACKGROUND_WORK_END: of a shutdown self-test and of an entry into P3, the end of its next step (R528, R638). A Cox that D3
holds halted ends no work (R530). -/
def doWorkEnd (fn : Fin 65) (mb : Fin 16) (s : State) : State :=
  if s.cox.halted || !(powered s || s.rst.phase == .loader) then s
  else match s.cox.running.find? (fun b => b.fn == fn && b.mb == mb) with
  | some b => endWork b s
  | none => s

end Sys2Proof.Machine
end

