-- ==== Sys2Proof/Machine/HostRows.lean ====
section
/-! DEFINITION. The rows that a host function sends: each Unlor command, register writes, BAR2, the resets of
functions and the ends of the Cox's work (spec/16_host_mailbox.md, spec/17_reset_clocks_straps.md R584 to
R590). -/

namespace Sys2Proof.Machine

/-! ### Register writes (R542 to R545) -/

/-- MB_IRQ is W1C. -/
def clearIrq (fn : Fin 65) (bits : BitVec 32) (s : State) : State :=
  modHost fn (fun h => { h with irq := h.irq &&& ~~~(bits.setWidth 16) }) s

/-- INT_CAUSE is W1C. -/
def clearCause (fn : Fin 65) (bits : BitVec 32) (s : State) : State :=
  modHost fn (fun h => { h with intCause := h.intCause &&& ~~~bits }) s

/-- Vectors of a function (R540). -/
def vectorCount (fn : Fin 65) : Nat := if fn = pf0 then 2 else 6

/-- A 32-bit word of a wider register replaced. -/
def putWord {w : Nat} (v : BitVec w) (k : Nat) (x : BitVec 32) : BitVec w := BitVec.ofNat w (setFld v.toNat (32 * k + 31) (32 * k) x.toNat)

/-- A word of the MSI-X table: a vector that is pending and no longer masked is sent (R542). -/
def writeMsix (fn : Fin 65) (v : Fin 6) (k : Nat) (x : BitVec 32) (s : State) : State :=
  let s := modHost fn (fun h => { h with msix := vmod h.msix v (fun e => putWord e k x) }) s
  if s.host[fn].msixPending.getLsbD v.val && !s.host[fn].msix[v].getLsbD 96 then
    sendMsix fn v.val (modHost fn (fun h => { h with msixPending := h.msixPending &&& ~~~(1#6 <<< v.val) }) s)
  else s

/-- A write to a reserved offset is ignored and counted (R542). -/
def reservedWrite (fn : Fin 65) (s : State) : State := modHost fn (fun h => { h with rsvWrites := satInc16 h.rsvWrites 1 }) s

/-- A write to a reply slot, which is read-only: a 1 in an RSV bit of its header is counted (R4, R548). -/
def writeReplySlot (o : Nat) (v : BitVec 32) (s : State) : State := if o % 256 = 8 ∧ v &&& 0xFF00FF00 ≠ 0 then countRsvWrite s else s

/-- What a read of a 32-bit register of BAR0 returns (R542): 0 at a reserved offset and, where the table says WO and no more, too
(DESIGN CHOICE, notes/assumptions/31). In BOOT_HOLD every read returns 0 (R599). No row of the table reads BAR0. -/
def readBar0 (s : State) (fn : Fin 65) (offset : Nat) : BitVec 32 :=
  let o := offset / 4 * 4
  let h := s.host[fn]
  let word := fun {w : Nat} (v : BitVec w) (k : Nat) => BitVec.ofNat 32 (fld v.toNat (32 * k + 31) (32 * k))
  match s.rst.phase with
  | .hold _ => 0
  | _ =>
    if o < 0x1000 then word h.cmd[Fin.ofNat 16 (o / 256)] (o % 256 / 4)
    else if o < 0x2000 then word h.reply[Fin.ofNat 16 (o / 256)] (o % 256 / 4)
    else if o = 0x2004 then h.busy.setWidth 32
    else if o = 0x2008 then h.irq.setWidth 32
    else if o = 0x200C then h.irqMask.setWidth 32
    else if o = 0x2010 then h.dbIgnored ++ h.rsvWrites
    else if o = 0x2020 then h.intCause
    else if o = 0x2024 then h.intMask
    else if 0x8000 ≤ o && o < 0x8000 + 16 * vectorCount fn then word h.msix[Fin.ofNat 6 ((o - 0x8000) / 16)] (o % 16 / 4)
    else if o = 0x9000 then h.msixPending.setWidth 32
    else 0

/-- A write of a 32-bit register of BAR0 (R542): the low two bits of the offset name no register
(DEDUCED, notes/assumptions/31). -/
def writeBar0 (fn : Fin 65) (offset : Nat) (v : BitVec 32) (s : State) : State :=
  let o := offset / 4 * 4
  if o < 0x1000 then
    modHost fn (fun h => { h with cmd := vmod h.cmd (Fin.ofNat 16 (o / 256)) (fun c => putWord c (o % 256 / 4) v) }) s
  else if o < 0x2000 then writeReplySlot o v s
  else if o = 0x2000 then writeDoorbell fn v [] s
  else if o = 0x2004 then s
  else if o = 0x2008 then clearIrq fn v s
  else if o = 0x200C then modHost fn (fun h => { h with irqMask := v.setWidth 16 }) s
  else if o = 0x2010 then s
  else if o = 0x2020 then clearCause fn v s
  else if o = 0x2024 then modHost fn (fun h => { h with intMask := v }) s
  else if 0x3000 ≤ o && o < 0x3040 && (o % 16 == 0 || o % 16 == 4) then
    (match slotOfFn fn with
      | none => reservedWrite fn s
      | some i => if o % 16 = 0 then doDbSq i (Fin.ofNat 4 ((o - 0x3000) / 16)) v s else doDbEq i (Fin.ofNat 4 ((o - 0x3000) / 16)) v s)
  else if 0x8000 ≤ o && o < 0x8000 + 16 * vectorCount fn then writeMsix fn (Fin.ofNat 6 ((o - 0x8000) / 16)) (o % 16 / 4) v s
  else if 0x9000 ≤ o && o < 0x9008 then s
  else if o < 0x10000 then reservedWrite fn s
  else s

/-! ### The SMBus port (R650, R651) -/

/-- The port answers: not in P4, and not while VIN is invalid. -/
def smbusOn (s : State) : Bool := s.board.vinValid && s.rst.phase != .off

/-- Alerts whose condition still holds. -/
def standing (s : State) : BitVec 8 :=
  BitVec.ofNat 8 ((if s.board.underWarn then 1 else 0) + (if 100 < s.board.tempC.toNat then 2 else 0) +
    (if s.rst.phase = .thermal then 4 else 0) + (match s.rst.phase with | .hold _ => 8 | _ => 0) + (if s.board.currentTrip then 32 else 0))

/-- A write to SMB_ALERT, which is W1C (R651); its bits 7:6 are RSV (R4, R650). -/
def clearAlert (bits : BitVec 8) (s : State) : State :=
  if !smbusOn s then s
  else
    modBoard (fun b => { b with alert := (b.alert &&& ~~~bits) ||| (b.alert &&& standing s) })
      (if bits.toNat / 64 = 0 then s else countRsvWrite s)

/-- A write to SMB_ALERT_MASK and to the registers that are read-only, whose RSV bits are counted (R4, R650), and the wake. -/
def putSmbus (offset : Nat) (v : BitVec 8) (s : State) : State :=
  if offset = 0x00 then (if v.toNat / 32 = 0 then s else countRsvWrite s)
  else if offset = 0x01 then (if v.toNat / 16 = 0 then s else countRsvWrite s)
  else if offset = 0x02 then clearAlert v s
  else if offset = 0x03 then modBoard (fun b => { b with alertMask := v }) s
  else if offset = 0x0F then (if v = 0xA5 then doWake s else s)
  else s

/-- The packet error code of SMBus: the CRC-8 x^8 + x^2 + x + 1 over the bytes of a transfer (PRESUMED, as the SMBus
specification has it; notes/assumptions/31). -/
def smbPec (bs : List Byte) : Byte :=
  bs.foldl (fun c b => (List.range 8).foldl (fun (x : Byte) _ => if x.getLsbD 7 then (x <<< 1) ^^^ 0x07 else x <<< 1) (c ^^^ b)) 0

/-- A write to a register of the port (R650): one whose PEC fails is not applied. -/
def writeSmbus (pec : Option Byte) (offset : Nat) (v : BitVec 8) (s : State) : State :=
  if !smbusOn s || !pec.all (fun p => p == smbPec [0xA8, BitVec.ofNat 8 offset, v]) then s else putSmbus offset v s

/-- SMB_STATE (R650): pstate, the thermal hold and BOOT_HOLD. -/
def smbState (s : State) : Byte :=
  BitVec.ofNat 8 (pstate s + (if s.rst.phase = .thermal then 8 else 0) + (match s.rst.phase with | .hold _ => 16 | _ => 0))

/-- SMB_HOLD: the cause of the hold. -/
def smbHold (s : State) : Byte :=
  match s.rst.phase with
  | .hold c => c.setWidth 8
  | _ => 0

/-- A byte that a register of the port reads (R650): 0 at a reserved offset and of the write-only wake (DESIGN CHOICE,
notes/assumptions/31). -/
def readSmbus (s : State) (offset : Nat) : Byte :=
  match offset with
  | 0x00 => smbState s
  | 0x01 => smbHold s
  | 0x02 => s.board.alert
  | 0x03 => s.board.alertMask
  | 0x04 => s.board.tempC
  | 0x05 => BitVec.ofNat 8 (s.board.vinMv / 10)
  | 0x06 => BitVec.ofNat 8 (s.board.vinMv / 10 / 256)
  | 0x07 => BitVec.ofNat 8 s.board.pinW.toNat
  | 0x08 => BitVec.ofNat 8 (s.board.pinW.toNat / 256)
  | _ => 0

/-- Bytes of a read of the port: a byte, a word, which is little-endian, or the 8 bytes of SMB_SERIAL by Block Read (R650). -/
def smbusBytes (s : State) (offset n : Nat) : List Byte :=
  if offset = 0x10 then leBytes 8 s.sec.serial.toNat else (List.range n).map (fun k => readSmbus s (offset + k))

/-- A read of the port, with the PEC where the controller asks for one. It changes nothing, and no row of the table is one. -/
def smbusRead (offset n : Nat) (pec : Bool) (s : State) : State :=
  let d := smbusBytes s offset n
  if smbusOn s then emit (.smbus (if pec then d ++ [smbPec ([0xA8, BitVec.ofNat 8 offset, 0xA9] ++ d)] else d)) s else s

/-- REGISTER_WRITE. -/
def doRegWrite (bus : RegBus) (offset : Nat) (v : BitVec 32) (s : State) : State :=
  match bus with
  | .bar0 fn ide => bar0 fn ide (writeBar0 fn offset v) s
  | .smbus pec => writeSmbus pec offset (v.setWidth 8) s

/-! ### BAR2 (R544, R509, R510) -/

/-- Whether BAR2 serves an access, mapped or not: the window, the job's state and the interface. -/
def bar2Serves (s : State) (slot : Fin 64) : Bool :=
  jobFld s oJOB_HOSTWIN slot 0 0 0 == 1 && (jobSt s slot).active && !s.sec.closed.getLsbD slot.val

/-- Address of a BAR2 offset. -/
def bar2Addr (s : State) (slot : Fin 64) (offset : Nat) : Nat := jobFld s oJOB_HOSTWIN slot 0 111 64 + offset

/-- The function decodes the access: it is enabled and the link is up, and the access lies in the BAR. -/
def bar2Hit (s : State) (slot : Fin 64) (offset len : Nat) : Bool :=
  boxOpen s (vfOf slot) && decide (0 < len) && decide (offset + len ≤ s.bar2Size)

/-- BAR2_READ: a completion with data, with poisoned data, or an abort. -/
def doBar2Read (slot : Fin 64) (offset len : Nat) (ide : Bool) (s : State) : State :=
  let va := bar2Addr s slot offset
  if !bar2Hit s slot offset len then s
  else if hostLocked s slot ide then emit (.bar2 slot .unsupported) (countHostError slot s)
  else if !bar2Serves s slot || 0xFFF000000000 < va + len || !mapped s slot va len true false then emit (.bar2 slot .abort) s
  else
    let r := jobRead s slot va len
    emit (.bar2 slot (.data r.1.data (r.1.st != .ok))) r.2

/-- BAR2_WRITE: written, or dropped and counted. -/
def doBar2Write (slot : Fin 64) (offset : Nat) (data : List Byte) (ide : Bool) (s : State) : State :=
  let va := bar2Addr s slot offset
  if !bar2Hit s slot offset data.length then s
  else if hostLocked s slot ide then countHostError slot s
  else if !bar2Serves s slot || 0xFFF000000000 < va + data.length || !mapped s slot va data.length false true then countHostError slot s
  else (jobWrite slot va data s).1

/-! ### Resets of functions (R541, R555, R584, R586, R590) -/

/-- The configuration space of the functions is served: in P0 to P2, while a warm reset keeps it, and PF0's in BOOT_HOLD (R599),
where no virtual function is enabled. -/
def linkUp (s : State) : Bool :=
  match s.rst.phase with
  | .running => awake s
  | .warm => true
  | .loader => true
  | .hold _ => true
  | _ => false

/-- VF_FLR: of an enabled function. -/
def doVfFlr (slot : Fin 64) (s : State) : State := if linkUp s && decide (slot.val < s.numVfs) then meetReset (.vf slot) s else s

/-- PF0_FLR. -/
def doPf0Flr (s : State) : State := if linkUp s then meetReset .pf0 s else s

/-- PCIE_HOT_RESET. -/
def doHotReset (s : State) : State := if linkUp s then meetReset .hot s else s

/-- NUMVFS_LOWER: each virtual function that goes meets a function-level reset (R541), after a warm reset that runs (R590). -/
def doLower (n : Fin 65) (s : State) : State :=
  if linkUp s && decide (n.val < s.numVfs) then
    let gone := allSlots.filter (fun i => decide (n.val ≤ i.val) && decide (i.val < s.numVfs))
    { forEach gone (fun i st => meetReset (.vf i) st) s with numVfs := n.val }
  else s

/-- NUMVFS_RAISE. -/
def doRaise (n : Fin 65) (s : State) : State :=
  if linkUp s && decide (s.numVfs < n.val) then { s with numVfs := n.val } else s

/-! ### Commands, in the order of the table -/

/-- VERSION. -/
def execUnlorVersion (c : HostCmd) (s : State) : Host.Outcome State Fault Refusal := .next (sendCmd 0x0001 c s)
/-- GET. -/
def execUnlorGet (c : HostCmd) (s : State) : Host.Outcome State Fault Refusal := .next (sendCmd 0x0002 c s)
/-- SET. -/
def execUnlorSet (c : HostCmd) (s : State) : Host.Outcome State Fault Refusal := .next (sendCmd 0x0003 c s)
/-- SET_TIME: bits 15:0 of the payload are 0x40. -/
def execSetTime (c : HostCmd) (s : State) : Host.Outcome State Fault Refusal := .next (sendCmd 0x0003 (fixPayload c 15 0 0x40) s)
/-- PMU_TRIGGER_ARM: bits 15:0 of the payload are 0x43. -/
def execPmuTriggerArm (c : HostCmd) (s : State) : Host.Outcome State Fault Refusal := .next (sendCmd 0x0003 (fixPayload c 15 0 0x43) s)
/-- JOB_CREATE. -/
def execJobCreate (c : HostCmd) (s : State) : Host.Outcome State Fault Refusal := .next (sendCmd 0x0010 c s)
/-- JOB_ATTEST. -/
def execJobAttest (c : HostCmd) (s : State) : Host.Outcome State Fault Refusal := .next (sendCmd 0x0011 c s)
/-- JOB_KEY. -/
def execJobKey (c : HostCmd) (s : State) : Host.Outcome State Fault Refusal := .next (sendCmd 0x0012 c s)
/-- JOB_READY. -/
def execJobReady (c : HostCmd) (s : State) : Host.Outcome State Fault Refusal := .next (sendCmd 0x0013 c s)
/-- JOB_START. -/
def execJobStart (c : HostCmd) (s : State) : Host.Outcome State Fault Refusal := .next (sendCmd 0x0014 c s)
/-- JOB_PAUSE. -/
def execJobPause (c : HostCmd) (s : State) : Host.Outcome State Fault Refusal := .next (sendCmd 0x0015 c s)
/-- JOB_RESUME. -/
def execJobResume (c : HostCmd) (s : State) : Host.Outcome State Fault Refusal := .next (sendCmd 0x0016 c s)
/-- TASK_RESET. -/
def execTaskReset (c : HostCmd) (s : State) : Host.Outcome State Fault Refusal := .next (sendCmd 0x0017 c s)
/-- JOB_SEAL. -/
def execJobSeal (c : HostCmd) (s : State) : Host.Outcome State Fault Refusal := .next (sendCmd 0x0018 c s)
/-- JOB_TEAR. -/
def execJobTear (c : HostCmd) (s : State) : Host.Outcome State Fault Refusal := .next (sendCmd 0x0019 c s)
/-- JOB_FREE. -/
def execJobFree (c : HostCmd) (s : State) : Host.Outcome State Fault Refusal := .next (sendCmd 0x001A c s)
/-- FRAME_GRANT. -/
def execFrameGrant (c : HostCmd) (s : State) : Host.Outcome State Fault Refusal := .next (sendCmd 0x0020 c s)
/-- FRAME_REVOKE. -/
def execFrameRevoke (c : HostCmd) (s : State) : Host.Outcome State Fault Refusal := .next (sendCmd 0x0021 c s)
/-- MAP. -/
def execJobMap (c : HostCmd) (s : State) : Host.Outcome State Fault Refusal := .next (sendCmd 0x0022 c s)
/-- UNMAP. -/
def execJobUnmap (c : HostCmd) (s : State) : Host.Outcome State Fault Refusal := .next (sendCmd 0x0023 c s)
/-- AS_GRANT. -/
def execAsGrant (c : HostCmd) (s : State) : Host.Outcome State Fault Refusal := .next (sendCmd 0x0024 c s)
/-- ROUTE_LOAD. -/
def execRouteLoad (c : HostCmd) (s : State) : Host.Outcome State Fault Refusal := .next (sendCmd 0x0030 c s)
/-- LANE_SWAP: bits 19:16 of the payload are 0x0. -/
def execLaneSwap (c : HostCmd) (s : State) : Host.Outcome State Fault Refusal := .next (sendCmd 0x0031 (fixPayload c 19 16 0x0) s)
/-- LANE_SWAP_BACK: bits 19:16 of the payload are 0x1. -/
def execLaneSwapBack (c : HostCmd) (s : State) : Host.Outcome State Fault Refusal := .next (sendCmd 0x0031 (fixPayload c 19 16 0x1) s)
/-- LANE_RETRAIN: bits 19:16 of the payload are 0x2. -/
def execLaneRetrain (c : HostCmd) (s : State) : Host.Outcome State Fault Refusal := .next (sendCmd 0x0031 (fixPayload c 19 16 0x2) s)
/-- LINK_CLEAR. -/
def execLinkClear (c : HostCmd) (s : State) : Host.Outcome State Fault Refusal := .next (sendCmd 0x0032 c s)
/-- ME_FENCE_FENCE: bits 19:16 of the payload are 0x0. -/
def execMeFenceFence (c : HostCmd) (s : State) : Host.Outcome State Fault Refusal := .next (sendCmd 0x0033 (fixPayload c 19 16 0x0) s)
/-- ME_FENCE_RETURN: bits 19:16 of the payload are 0x1. -/
def execMeFenceReturn (c : HostCmd) (s : State) : Host.Outcome State Fault Refusal := .next (sendCmd 0x0033 (fixPayload c 19 16 0x1) s)
/-- LC_PROVISION. -/
def execLcProvision (c : HostCmd) (s : State) : Host.Outcome State Fault Refusal := .next (sendCmd 0x0040 c s)
/-- LC_DEPLOY. -/
def execLcDeploy (c : HostCmd) (s : State) : Host.Outcome State Fault Refusal := .next (sendCmd 0x0041 c s)
/-- LC_HOLD. -/
def execLcHold (c : HostCmd) (s : State) : Host.Outcome State Fault Refusal := .next (sendCmd 0x0042 c s)
/-- LC_RETIRE. -/
def execLcRetire (c : HostCmd) (s : State) : Host.Outcome State Fault Refusal := .next (sendCmd 0x0043 c s)
/-- OP_MGMT_KEY. -/
def execOpMgmtKey (c : HostCmd) (s : State) : Host.Outcome State Fault Refusal := .next (sendCmd 0x0044 c s)
/-- FW_COMMIT. -/
def execFwCommit (c : HostCmd) (s : State) : Host.Outcome State Fault Refusal := .next (sendCmd 0x0045 c s)
/-- DBG_OPEN. -/
def execDbgOpen (c : HostCmd) (s : State) : Host.Outcome State Fault Refusal := .next (sendCmd 0x0046 c s)
/-- DBG_CLOSE. -/
def execDbgClose (c : HostCmd) (s : State) : Host.Outcome State Fault Refusal := .next (sendCmd 0x0047 c s)
/-- PWR_SET_RUN: bits 1:0 of the payload are 0x0. -/
def execPwrSetRun (c : HostCmd) (s : State) : Host.Outcome State Fault Refusal := .next (sendCmd 0x0048 (fixPayload c 1 0 0x0) s)
/-- PWR_SET_HOLD: bits 1:0 of the payload are 0x1. -/
def execPwrSetHold (c : HostCmd) (s : State) : Host.Outcome State Fault Refusal := .next (sendCmd 0x0048 (fixPayload c 1 0 0x1) s)
/-- PWR_SET_REST: bits 1:0 of the payload are 0x2. -/
def execPwrSetRest (c : HostCmd) (s : State) : Host.Outcome State Fault Refusal := .next (sendCmd 0x0048 (fixPayload c 1 0 0x2) s)
/-- PWR_SET_OFF: bits 1:0 of the payload are 0x3. -/
def execPwrSetOff (c : HostCmd) (s : State) : Host.Outcome State Fault Refusal := .next (sendCmd 0x0048 (fixPayload c 1 0 0x3) s)
/-- FW_LOAD. -/
def execFwLoad (c : HostCmd) (s : State) : Host.Outcome State Fault Refusal := .next (sendCmd 0x0050 c s)
/-- FW_CHANGEOVER. -/
def execFwChangeover (c : HostCmd) (s : State) : Host.Outcome State Fault Refusal := .next (sendCmd 0x0051 c s)
/-- TALLY. -/
def execTally (c : HostCmd) (s : State) : Host.Outcome State Fault Refusal := .next (sendCmd 0x0060 c s)
/-- LOG_READ. -/
def execLogRead (c : HostCmd) (s : State) : Host.Outcome State Fault Refusal := .next (sendCmd 0x0061 c s)
/-- DEV_RESET. -/
def execDevReset (c : HostCmd) (s : State) : Host.Outcome State Fault Refusal := .next (sendCmd 0x0062 c s)
/-- UNLOR_RESERVED_OPCODE: any opcode, as written. -/
def execUnlorReservedOpcode (opcode : BitVec 16) (c : HostCmd) (s : State) : Host.Outcome State Fault Refusal := .next (sendCmd opcode c s)
/-- CHANGEOVER_QUIESCED. -/
def execChangeoverQuiesced (s : State) : Host.Outcome State Fault Refusal := .next (doQuiesced s)
/-- QUIESCE_TIMEOUT. -/
def execQuiesceTimeout (s : State) : Host.Outcome State Fault Refusal := .next (doQuiesceTimeout s)
/-- CHANGEOVER_READY. -/
def execChangeoverReady (s : State) : Host.Outcome State Fault Refusal := .next (doReady s)
/-- INCOMING_READY_TIMEOUT: a refusal and a silence have one effect (R576). -/
def execIncomingReadyTimeout (_refused : Bool) (s : State) : Host.Outcome State Fault Refusal := .next (doIncomingTimeout s)
/-- BACKGROUND_WORK_END. -/
def execBackgroundWorkEnd (fn : Fin 65) (mb : Fin 16) (s : State) : Host.Outcome State Fault Refusal := .next (doWorkEnd fn mb s)
/-- MGMT_FRAME. -/
def execMgmtFrame (port : Fin 32) (m : MgmtFrame) (s : State) : Host.Outcome State Fault Refusal := .next (doMgmt port m s)
/-- MB_DOORBELL. -/
def execMbDoorbell (fn : Fin 65) (bits : HostWord) (dma : List IndBuf) (s : State) : Host.Outcome State Fault Refusal :=
  .next (bar0 fn bits.ide (writeDoorbell fn bits.word dma) s)
/-- MB_IRQ_CLEAR. -/
def execMbIrqClear (fn : Fin 65) (bits : HostWord) (s : State) : Host.Outcome State Fault Refusal := .next (bar0 fn bits.ide (clearIrq fn bits.word) s)
/-- INT_CAUSE_CLEAR. -/
def execIntCauseClear (fn : Fin 65) (bits : HostWord) (s : State) : Host.Outcome State Fault Refusal := .next (bar0 fn bits.ide (clearCause fn bits.word) s)
/-- DB_SQ. -/
def execDbSq (slot : Fin 64) (die : Fin 4) (value : HostWord) (s : State) : Host.Outcome State Fault Refusal :=
  .next (bar0 (vfOf slot) value.ide (doDbSq slot die value.word) s)
/-- DB_EQ. -/
def execDbEq (slot : Fin 64) (die : Fin 4) (value : HostWord) (s : State) : Host.Outcome State Fault Refusal :=
  .next (bar0 (vfOf slot) value.ide (doDbEq slot die value.word) s)
/-- REGISTER_WRITE. -/
def execRegisterWrite (bus : RegBus) (offset : Nat) (value : BitVec 32) (s : State) : Host.Outcome State Fault Refusal :=
  .next (doRegWrite bus offset value s)
/-- BAR2_READ. -/
def execBar2Read (slot : Fin 64) (offset len : Nat) (ide : Bool) (s : State) : Host.Outcome State Fault Refusal := .next (doBar2Read slot offset len ide s)
/-- BAR2_WRITE. -/
def execBar2Write (slot : Fin 64) (offset : Nat) (data : List Byte) (ide : Bool) (s : State) : Host.Outcome State Fault Refusal :=
  .next (doBar2Write slot offset data ide s)
/-- VF_FLR. -/
def execVfFlr (slot : Fin 64) (s : State) : Host.Outcome State Fault Refusal := .next (doVfFlr slot s)
/-- PF0_FLR. -/
def execPf0Flr (s : State) : Host.Outcome State Fault Refusal := .next (doPf0Flr s)
/-- PCIE_HOT_RESET. -/
def execPcieHotReset (s : State) : Host.Outcome State Fault Refusal := .next (doHotReset s)
/-- NUMVFS_LOWER. -/
def execNumvfsLower (n : Fin 65) (s : State) : Host.Outcome State Fault Refusal := .next (doLower n s)
/-- NUMVFS_RAISE. -/
def execNumvfsRaise (n : Fin 65) (s : State) : Host.Outcome State Fault Refusal := .next (doRaise n s)
/-- SMB_ALERT_CLEAR. -/
def execSmbAlertClear (bits : Byte) (s : State) : Host.Outcome State Fault Refusal := .next (clearAlert bits s)

end Sys2Proof.Machine
end

