-- ==== Sys2Proof/Machine/ResetRows.lean ====
section
/-! DEFINITION. The rows of the pins, the module's input, the reset sources, block resets and the test port
(spec/17_reset_clocks_straps.md R582 to R596, R606; spec/19_module_electrical.md R646 to R655). -/

namespace Sys2Proof.Machine

/-! ### The 54 V input (R652 to R655) -/

/-- VIN_RISE: of a valid input it is only a new reading, and the thermal hold goes on whatever the input does (R586).
Otherwise the module comes up to PWRGD, as a power-on, and waits for its cold release, which REFCLK_STABLE or RST_N_RELEASE
starts; a power-on clears the count of restarts (R599). -/
def doVinRise (mv : Nat) (s : State) : State :=
  if mv < 46000 || 60000 < mv then s
  else if s.board.vinValid then modBoard (fun b => { b with vinMv := mv, underWarn := b.underWarn && decide (mv < 47000) }) s
  else if s.rst.phase = .thermal then modBoard (fun b => { b with vinMv := mv, vinValid := true, currentTrip := false, underWarn := false }) s
  else
    let s := modRst (fun r => { r with refclkOk := false, restarts := [] }) (assertCold 1 s)
    modBoard (fun _ => { ModuleSt.reset with vinMv := mv }) s

/-- UNDERVOLTAGE_WARNING: operation continues. -/
def doUnderWarning (mv : Nat) (s : State) : State :=
  if s.board.vinValid && decide (44000 ≤ mv) && decide (mv < 47000) then
    alert 0 (modBoard (fun b => { b with vinMv := mv, underWarn := true }) s)
  else s

/-- INPUT_LOST: P4; a current trip is latched (R653). The thermal hold stays (R586). -/
def doInputLost (cause : InputLoss) (s : State) : State :=
  let off := if s.rst.phase = .off || s.rst.phase = .thermal then s else powerOff .off s
  if !s.board.vinValid then s
  else
    match cause with
    | .current => if s.rst.phase = .off then s else alert 5 (modBoard (fun b => { b with currentTrip := true }) off)
    | _ => modBoard (fun b => { b with vinValid := false }) off

/-! ### RST_N, REFCLK and WRST_N -/

/-- RST_N_ASSERT, of a pin that was not low: in BOOT_HOLD nothing happens before its release shows how long it was (R599), and in
the thermal hold nothing (R586). From P4 it starts the module (R655), taken as long enough (DESIGN CHOICE, notes/assumptions/33).
A COLD reset that is held already absorbs it (R590), and the option-loading phase counts it (R598). -/
def doRstAssert (s : State) : State :=
  if s.rst.rstLow then s
  else
    let s := modRst (fun r => { r with rstLow := true, rstSince := r.refTicks }) s
    match s.rst.phase with
    | .thermal => s
    | .hold _ => s
    | .off =>
      if s.board.vinValid then
        modBoard (fun b => { b with pwrgd := true, currentTrip := false }) (modRst (fun r => { r with restarts := [] }) (assertCold 2 s))
      else s
    | .held => if s.rst.lastCause = 6 then assertCold 2 s else s
    | .loader => assertCold 2 (modRst (ResetSt.note 1) s)
    | _ => assertCold 2 s

/-- The cold release, when REFCLK is stable; a SECURITY reset does not read the strap (R584). -/
def tryRelease (b : BootEnv) (s : State) : State :=
  if b.refclkOk then coldRelease (s.rst.lastCause != 6) b (modRst (fun r => { r with refclkOk := true }) s)
  else modRst (fun r => { r with refclkOk := false }) s

/-- An assertion of RST_N of at least 100 ms leaves BOOT_HOLD: it clears the count of restarts and is a COLD reset (R599). -/
def leaveHold (s : State) : State :=
  match s.rst.phase with
  | .hold _ =>
    if s.rst.rstLow && decide (s.rst.rstSince + 80000000 ≤ s.rst.refTicks) then assertCold 2 (modRst (fun r => { r with restarts := [] }) s)
    else s
  | _ => s

/-- RST_N_RELEASE (R587, R599, R654). -/
def doRstRelease (b : BootEnv) (s : State) : State :=
  let s := modRst (fun r => { r with rstLow := false }) (leaveHold s)
  if s.rst.phase = .held && s.board.pwrgd then tryRelease b s else s

/-- REFCLK_STABLE: it starts a release that waits for it (R654). -/
def doRefclk (b : BootEnv) (s : State) : State :=
  if s.rst.phase = .held && s.board.pwrgd && !s.rst.rstLow then tryRelease b s else s

/-- A warm reset of a device that runs: out of P3 first (R527, R591). -/
def warmFrom (go : State → State) (s : State) : State :=
  let s := if s.power.mode = .rest then exitRest s else s
  if s.rst.phase = .running then go s else s

/-- WRST_N_ASSERT: ignored in BOOT_HOLD (R599) and absorbed by a reset that runs (R590); option loading starts again (R591,
R598). -/
def doWrstAssert (s : State) : State :=
  let s := modRst (fun r => { r with wrstLow := true }) s
  match s.rst.phase with
  | .running => warmFrom (warmStart 3) s
  | .loader => restartLoading s
  | _ => s

/-- WRST_N_RELEASE (R587). -/
def doWrstRelease (s : State) : State :=
  let s := modRst (fun r => { r with wrstLow := false }) s
  if s.rst.phase = .warm then warmEnd s else s

/-- DEV_RESET_START. -/
def doDevReset (s : State) : State :=
  if s.rst.devResetAt.isSome && s.rst.phase = .running then warmFrom (warmReset 3) s else s

/-! ### Resets of the device's own making (R583) -/

/-- A reset of reach WARM whose cause the health record takes before it is asserted (R584): it restarts option loading (R591). A
boot that a SECURITY reset began stays one. -/
def ownReset (cause : Nat) (s : State) : State :=
  if s.rst.phase = .loader then
    let s := writeHealth (fun h => { h with resetCause := BitVec.ofNat 4 cause }) s
    restartLoading (modRst (fun r => { r with lastCause := if r.lastCause = 6 then 6 else BitVec.ofNat 4 cause }) s)
  else warmReset cause s

/-- Whether a reset of the device's own making meets a device that runs, or that waits in the loader. -/
def resetMeets (s : State) : Bool := powered s || s.rst.phase == .loader

/-- COX_WATCHDOG_EXPIRY: suspended while the incoming image starts (R583), and while a debug session holds the Cox halted
(DEDUCED, notes/assumptions/57). -/
def doWatchdog (pc : BitVec 64) (s : State) : State :=
  let suspended := match s.cox.change with | some c => c.phase == .incoming | none => false
  if !resetMeets s || suspended || s.cox.halted then s else logError 0x06 none 0 pc.toNat (ownReset 4 s)

/-- CRITICAL_STATE_ERROR: its record is written after the warm reset (R632). -/
def doCritical (structure_ : Fin 5) (unit : Byte) (s : State) : State :=
  if resetMeets s then logError 0x05 none unit.toNat structure_.val (ownReset 5 s) else s

/-- A SECURITY reset reaches a device that is neither off nor held in BOOT_HOLD; a COLD reset that runs
absorbs it (R590, R599). -/
def securityMeets (s : State) : Bool :=
  match s.rst.phase with
  | .running => true
  | .loader => true
  | .warm => true
  | _ => false

/-- The assertion of a SECURITY reset, which option loading counts (R591, R598). -/
def assertSecurity (s : State) : State := assertCold 6 (if s.rst.phase = .loader then modRst (ResetSt.note 1) s else s)

/-- UMPIRE_SECURITY_RESET: debug opens D0 (R538, R584). -/
def doSecurity (b : BootEnv) (s : State) : State :=
  if securityMeets s then coldRelease false b (assertSecurity s) else s

/-- CLOCK_FAULT: without REFCLK the release waits (R582, R654). -/
def doClockFault (lost : Bool) (b : BootEnv) (s : State) : State :=
  if securityMeets s then
    let s := assertSecurity s
    if lost then modRst (fun r => { r with refclkOk := false }) s else coldRelease false b s
  else s

/-- THERMAL_TRIP: by a sensor that no self-test has excluded (R642). -/
def doTrip (sensor : Fin 32) (temp : Nat) (s : State) : State :=
  if temp < 115 || s.health.tempExcl.getLsbD sensor.val || s.rst.phase = .off || s.rst.phase = .thermal then s
  else
    let s := powerOff .thermal (writeHealth (fun h => { h with resetCause := 7 }) s)
    alert 1 (alert 2 (modBoard (fun b => { b with tempC := BitVec.ofNat 8 (min 255 temp) }) (modRst (fun r => { r with lastCause := 7 }) s)))

/-- THERMAL_HOLD_END: the module drops to the standby of P4, where the SMBus port is off (R586, R655). -/
def doThermalEnd (s : State) : State :=
  if s.rst.phase = .thermal then modBoard (fun b => { b with tempC := 0, alert := 0, alertMask := 0 }) (modRst (fun r => { r with phase := .off }) s) else s

/-! ### Block resets (R594 to R596) -/

/-- End tasks in fault with INTERNAL; the detail of their records is a free value. -/
def internalFaults (ts : List TaskRef) (s : State) : State :=
  forEach ts (fun t st =>
    if (entryOf st t).st = .running then
      let d := draw st
      unitFault t stINTERNAL ((Config.freeValue d.1).toNat % 2 ^ 32) d.2
    else st) s

/-- RUNNING tasks of a die that use one of its engines. -/
def engineTasks (s : State) (die : Fin 4) (p : Entry → Bool) : List TaskRef :=
  allSlots.flatMap (fun i => ((jobDie s i die).entries.filter (fun e => p e.2)).map (fun e => ⟨i, die, BitVec.ofNat 16 e.1⟩))

/-- Tasks that a Sparse Gather Engine context feeds: those of its engine's units, in sparse mode (R250). -/
def gatherTask (s : State) (e : Fin 68) : List TaskRef :=
  ((s.engines[e].units.map (·.task)).filter (fun t => sparseTask (entryOf s t))).eraseDups

/-- An error in the parity-protected counts of a job's promises takes the job to TORN and is logged (R624). No rule gives the
tear_cause or the code: the cause is a free value among those reported, and the record is INTERNAL with a free unit class and
detail (DESIGN CHOICE, notes/assumptions/57). -/
def countsError (slot : Fin 64) (s : State) : State :=
  let a := draw s
  let b := draw a.2
  let v := (Config.freeValue a.1).toNat
  logError 0x0E (some slot) (v / 16) (Config.freeValue b.1).toNat (tearJob slot (BitVec.ofNat 4 (v % 16 % 7)) b.2)

/-- COX_BLOCK_RESET: units without a block reset of the Cox stay as they are (R595); a matrix engine's own is
ME_FENCE. -/
def doBlock (u : BlockUnit) (s : State) : State :=
  if !powered s then s
  else
    match u with
    | .rigger r => logError 0x09 none 0 r.val (modRig r (fun _ => Rigger.reset) (internalFaults (s.rigs[r].task).toList s))
    | .copy die => logError 0x09 none 1 die.val (internalFaults (engineTasks s die Entry.usesCopy) s)
    | .exchange die => logError 0x09 none 2 die.val (internalFaults (engineTasks s die Entry.usesExch) s)
    | .gather e => logError 0x09 none 3 e.val (internalFaults (gatherTask s e) s)
    | .matrix _ => s
    | .vector _ => s
    | .stroke _ => s
    | .update _ => s
    | .counts slot => countsError slot s

/-! ### The test port (R530, R649) -/

/-- The port answers while the core rails are up. -/
def tapOn (s : State) : Bool := s.board.pwrgd && s.power.mode != .rest

/-- What an instruction shifts out: the code of IDCODE, and the 0 of the bypass register. -/
def tapShift (ir : Byte) (s : State) : State := emit (.jtag ir (if ir = Config.idcodeIr then 0x1D5A0A6B else 0)) s

/-- Halt every stroke core context and rigger core. -/
def haltCores (s : State) : State :=
  let stop := fun (g : CoreRegs) => { g with halted := true }
  let s := forEach allSlots (fun i st => forEach allDies (fun d st => modDie i d (fun k => { k with regs := stop k.regs }) st) st) s
  { s with rigs := s.rigs.map (fun r => { r with regs := stop r.regs }) }

/-- A fuse write: which fuses, and the bits that it sets, are free values (notes/assumptions/57). A fuse that is set stays set. -/
def writeFuses (s : State) : State :=
  let d := draw s
  let v := Config.random d.1
  modSec (fun x => { x with
    deviceSecret := x.deviceSecret ||| v.setWidth 256
    serial := x.serial ||| (v >>> 256).setWidth 64
    macBase := x.macBase ||| (v >>> 320).setWidth 48 }) d.2

/-- A Falruine token opened D3. -/
def falruineD3 (s : State) : Bool := match s.sec.debug with | some d => d.level == 3 && d.signer == 0 | none => false

/-- An instruction under D3 (R530, R649): scan, whose data is a free value, the halt of cores and of the Cox and their resume,
and under a Falruine token fuse writes. Which code is which is a constant of `Config`. -/
def tapFull (ir : Byte) (s : State) : State :=
  match Config.tapCode ir % 8 with
  | 0 =>
    let d := draw s
    emit (.jtag ir (Config.freeValue d.1).toNat) d.2
  | 1 => tapShift ir (haltCores s)
  | 2 => tapShift ir (resumeCores none s)
  | 3 => tapShift ir { s with cox := { s.cox with halted := true } }
  | 4 => tapShift ir { s with cox := { s.cox with halted := false } }
  | 5 => tapShift ir (if falruineD3 s then writeFuses s else s)
  | _ => tapShift ir s

/-- An instruction of the test port: in D0 to D2 every code but IDCODE selects BYPASS (R649). -/
def doTap (ir : Byte) (s : State) : State :=
  if !tapOn s then s else if d3Open s && ir != Config.idcodeIr && ir != 0xFF then tapFull ir s else tapShift ir s

/-! ### What the debug levels open (R530, R537) -/

/-- Whether a session opens the state that is no job's to PF0: D1, or D3 in which it is contained. -/
def opensDevice (s : State) : Bool := match s.sec.debug with | some d => d.level == 1 || d.level == 3 | none => false

/-- What D1 opens: the logs, the route tables, the credit counts of the ports, the power manager, and the Umpire's status without
a key. No command of the table reads it; equaliser and eye data are state of the lanes that no rule gives. -/
def deviceView (s : State) : Option (Logs × Routes × List (Vector (BitVec 32) 16 × Vector (BitVec 32) 16) × Power × Lifecycle × Option DebugSession) :=
  if opensDevice s && powered s then
    some (s.logs, s.fabric.routes, s.fabric.ports.toList.map (fun q => (q.credSent, q.credBack)), s.power, s.sec.lifecycle, s.sec.debug)
  else none

/-- What D2 opens for its own slot: the registers of its stroke core context and of its rigger programs, and its faulted tasks
with what their executors hold. -/
def slotView (slot : Fin 64) (s : State) : Option (List (CoreRegs × List (Nat × Entry)) × List Rigger) :=
  if s.sec.d2[slot].isSome && powered s then
    some (allDies.map (fun d => ((jobDie s slot d).regs, (jobDie s slot d).entries.filter (fun e => e.2.st == .faulted))),
      s.rigs.toList.filter (fun r => r.slot == some slot))
  else none

/-- VIN_RISE. -/
def execVinRise (mv : Nat) (s : State) : Host.Outcome State Fault Refusal := .next (doVinRise mv s)
/-- UNDERVOLTAGE_WARNING. -/
def execUndervoltageWarning (mv : Nat) (s : State) : Host.Outcome State Fault Refusal := .next (doUnderWarning mv s)
/-- INPUT_LOST. -/
def execInputLost (cause : InputLoss) (s : State) : Host.Outcome State Fault Refusal := .next (doInputLost cause s)
/-- RST_N_ASSERT. -/
def execRstNAssert (s : State) : Host.Outcome State Fault Refusal := .next (doRstAssert s)
/-- RST_N_RELEASE. -/
def execRstNRelease (b : BootEnv) (s : State) : Host.Outcome State Fault Refusal := .next (doRstRelease b s)
/-- REFCLK_STABLE. -/
def execRefclkStable (b : BootEnv) (s : State) : Host.Outcome State Fault Refusal := .next (doRefclk b s)
/-- WRST_N_ASSERT. -/
def execWrstNAssert (s : State) : Host.Outcome State Fault Refusal := .next (doWrstAssert s)
/-- WRST_N_RELEASE. -/
def execWrstNRelease (s : State) : Host.Outcome State Fault Refusal := .next (doWrstRelease s)
/-- DEV_RESET_START. -/
def execDevResetStart (s : State) : Host.Outcome State Fault Refusal := .next (doDevReset s)
/-- COX_WATCHDOG_EXPIRY. -/
def execCoxWatchdogExpiry (pc : BitVec 64) (s : State) : Host.Outcome State Fault Refusal := .next (doWatchdog pc s)
/-- CRITICAL_STATE_ERROR. -/
def execCriticalStateError (structure_ : Fin 5) (unit : Byte) (s : State) : Host.Outcome State Fault Refusal := .next (doCritical structure_ unit s)
/-- CLOCK_FAULT. -/
def execClockFault (refclkLost : Bool) (b : BootEnv) (s : State) : Host.Outcome State Fault Refusal := .next (doClockFault refclkLost b s)
/-- UMPIRE_SECURITY_RESET. -/
def execUmpireSecurityReset (b : BootEnv) (s : State) : Host.Outcome State Fault Refusal := .next (doSecurity b s)
/-- THERMAL_TRIP. -/
def execThermalTrip (temp : SensorReading) (s : State) : Host.Outcome State Fault Refusal := .next (doTrip temp.sensor temp.temp s)
/-- THERMAL_HOLD_END. -/
def execThermalHoldEnd (s : State) : Host.Outcome State Fault Refusal := .next (doThermalEnd s)
/-- COX_BLOCK_RESET. -/
def execCoxBlockReset (u : BlockUnit) (s : State) : Host.Outcome State Fault Refusal := .next (doBlock u s)
/-- TAP_INSTRUCTION. -/
def execTapInstruction (ir : Byte) (s : State) : Host.Outcome State Fault Refusal := .next (doTap ir s)

end Sys2Proof.Machine
end

