-- ==== Sys2Proof/Machine/MemRows.lean ====
section
/-! DEFINITION. The rows of the memory controllers, the Activation Stores, the prefetchers and retained entries
(spec/08_memory.md R270 to R294, R302; spec/18_service_selftest_conservation.md R613 to R619). -/

namespace Sys2Proof.Machine

/-! ### Sectors -/

/-- The tag under which firmware's own sectors stand: incarnation 0, no job's (R280, R282). -/
def firmwareTag : BitVec 16 := BitVec.ofNat 16 ((Config.firmwareTag.toNat % 63 + 1) * 1024)

/-- Tag of the job that a request runs for. -/
def reqTag (s : State) (r : MemReq) : BitVec 16 := match r.slot with | some i => jobTag s i | none => firmwareTag

/-- DPA of a request: translated for a job (R274, R277), as given for none. -/
def reqDpa (s : State) (r : MemReq) (write : Bool) : Option Nat :=
  match r.slot with
  | some i => translate s i r.addr (!write) write
  | none => some r.addr

/-- The memory controllers and the Activation Stores run: MCLK and CCLK are off in P3 (R581), and the loader keeps its image in
stack memory (R606). -/
def memRuns (s : State) : Bool := coresRun s || s.rst.phase == .loader

/-- A request for no job at an Activation Store page that a job holds: there is no aperture onto it (R479). -/
def asClosed (s : State) (r : MemReq) (d : Nat) : Bool :=
  r.slot.isNone && (asHeld s (Fin.ofNat 4 ((d - asBase) / 0x10000000))).contains ((d - asBase) % 0x10000000 / 65536)

/-- A DPA is in the map (R270). -/
def dpaExists (s : State) (d : Nat) : Bool :=
  decide (d < stackBytes s) || (decide (asBase ≤ d ∧ d < asBase + 4 * 0x10000000) && decide ((d - asBase) % 0x10000000 < 0xC000000))

/-- A request that cannot be served: its task ends in fault with BOUND (R270, R277). -/
def reqBound (r : MemReq) (s : State) : State :=
  match r.task with
  | some t => if (entryOf s t).st = .running then unitFault t stBOUND 0 s else s
  | none => s

/-- Count a sector that the code corrected on its stack, with its MEM record (R287, R466). -/
def countCorrected (dpa : Nat) (s : State) : State :=
  traceMem 0 (servedBy s dpa) dpa (modStack (servedBy s dpa) (fun k => { k with corrected := satInc k.corrected 1 }) s)

/-- A sector beyond correction is rewritten with poison, counted and recorded in the log and the trace (R284, R466, R613). -/
def poisonOwn (dpa : Nat) (s : State) : State :=
  let k := servedBy s dpa
  let s := dropCopies dpa { s with mem := { s.mem with sectors := s.mem.sectors.put (dpa / 64) { sectorMeta s dpa with poison := true } } }
  let s := traceMem 1 k (dpa / 64 * 64) (modStack k (fun x => { x with poisoned := satInc x.poisoned 1 }) s)
  let s := logError 0x01 none k.val (dpa / 64 * 64) s
  if 64 ≤ s.mem.memStacks[k].poisoned.toNat then failStack k 0 s else s

/-- 64 bytes of a sector. -/
def sectorBytes (data : List Byte) : List Byte := (data ++ List.replicate 64 0).take 64

/-- Put the stored bytes and the tag of a whole sector, as a decoder produced them (R284). -/
def putDecoded (dpa : Nat) (tag : BitVec 16) (data : List Byte) (s : State) : State :=
  putSector (dpa / 64 * 64) (sectorBytes data) { tag := tag, zero := false, poison := false } s

/-- What the code of a stack does with a sector that is read (R284, R287). -/
def applyEcc (dpa : Nat) (ecc : SectorEcc) (s : State) : State :=
  match ecc with
  | .clean => s
  | .corrected => countCorrected dpa s
  | .uncorrectable => poisonOwn dpa s
  | .miscorrected tag data => countCorrected dpa (dropCopies dpa (putDecoded dpa tag data s))
  | .undetected _ _ => s

/-- The sector as its decoder produced it: an undetected error stands only in what the read sees. -/
def decoded (dpa : Nat) (ecc : SectorEcc) (s : State) : State :=
  match ecc with
  | .undetected tag data => putDecoded dpa tag data s
  | _ => s

/-- Count a tag mismatch of a sector as its decoder produced it, with its MEM record (R287, R466). -/
def countSeen (seen : State) (tag : BitVec 16) (d : Nat) (s : State) : State :=
  if tagMismatch seen tag d then
    traceMem 2 (servedBy s d) d (modStack (servedBy s d) (fun k => { k with tagMismatch := satInc k.tagMismatch 1 }) s)
  else s

/-- A request of one sector of stack memory. -/
def oneSector (d n : Nat) : Bool := decide (0 < n) && decide (d % 64 + n ≤ 64) && !isAs d

/-- MEMORY_READ (R282, R284, R285). -/
def doMemRead (r : MemReq) (ecc : SectorEcc) (s : State) : State :=
  match reqDpa s r false with
  | none => if memRuns s then reqBound r s else s
  | some d =>
    if !memRuns s then s
    else if !dpaExists s d then reqBound r (countDpa s)
    else if !oneSector d r.len then s
    else
      let tag := reqTag s r
      let s := applyEcc d ecc s
      let seen := decoded d ecc s
      let x := readPart seen tag d r.len
      emit (.memory x.1 x.2) (countSeen seen tag d s)

/-- MEMORY_WRITE (R283, R285, R286): a part of a sector is read and merged; what its decoder produced is what
is merged. -/
def doMemWrite (r : MemReq) (data : List Byte) (ecc : SectorEcc) (s : State) : State :=
  match reqDpa s r true with
  | none => if memRuns s then reqBound r s else s
  | some d =>
    if !memRuns s then s
    else if !dpaExists s d then reqBound r (countDpa s)
    else if !oneSector d data.length then s
    else
      let tag := reqTag s r
      let whole := data.length == 64
      let s := if whole then s else applyEcc d ecc s
      let seen := if whole then s else decoded d ecc s
      let w := writePart tag d data seen
      if w.2 = .ok then (match r.slot with | some i => dropLines i (r.addr / 64) w.1 | none => dropCopies d w.1)
      else emit (.memory [] true) (countSeen seen tag d s)

/-! ### The Activation Stores (R290) -/

/-- Put a word of an Activation Store as a decoder produced it. -/
def putAsWord (d : Nat) (v : BitVec 64) (s : State) : State :=
  { s with mem := { s.mem with cells := cellPuts s.mem.cells (d / 8 * 8) (leBytes 8 v.toNat) } }

/-- Mark a word as one with a double-bit error (R290). -/
def markWord (d : Nat) (s : State) : State :=
  if s.mem.asBad.contains (d / 8) then s else { s with mem := { s.mem with asBad := s.mem.asBad ++ [d / 8] } }

/-- A read within a word: one with a double-bit error returns poison and is recorded (R290). -/
def readWord (r : MemReq) (d n : Nat) (s : State) : State :=
  let x := readPart s (reqTag s r) d n
  emit (.memory x.1 x.2) (notePart (reqTag s r) d n s)

/-- AS_ACCESS: one access within a word. -/
def doAsAccess (r : MemReq) (write : Option (List Byte)) (err : WordErr) (s : State) : State :=
  let n := match write with | some b => b.length | none => r.len
  match reqDpa s r write.isSome with
  | none => if memRuns s then reqBound r s else s
  | some d =>
    if !memRuns s then s
    else if !dpaExists s d then reqBound r (countDpa s)
    else if asClosed s r d then reqBound r s
    else if !isAs d || n = 0 || 8 < d % 8 + n then s
    else
      match write with
      | some b =>
        let s := if n = 8 then s else (match err with
          | .double => markWord d s
          | .undetected v => if s.mem.asBad.contains (d / 8) then s else putAsWord d v s
          | _ => s)
        let w := writePart (reqTag s r) d b s
        if w.2 = .ok then w.1 else emit (.memory [] true) w.1
      | none =>
        match err with
        | .double => readWord r d n (markWord d s)
        | .undetected v =>
          if s.mem.asBad.contains (d / 8) then readWord r d n s
          else emit (.memory (((leBytes 8 v.toNat).drop (d % 8)).take n) false) s
        | _ => readWord r d n s

/-! ### Patrol, recalibration and migration -/

/-- PATROL_SCRUB: of a sector of the stack, by its number (R287, R613). -/
def doPatrol (k : Fin 20) (sector : Nat) (ecc : SectorEcc) (last : Bool) (s : State) : State :=
  if !powered s || s.mem.memStacks[k].st = .retired || bandCount s * 16777216 ≤ sector then s
  else
    let dpa := granuleDpa s k (sector / 64) + 64 * (sector % 64)
    let fixed := match ecc with
      | .corrected => true
      | .miscorrected _ _ => true
      | _ => false
    let s := applyEcc dpa ecc s
    let s := if fixed then modStack k (fun x => { x with passCorrected := x.passCorrected + 1 }) s else s
    let s := if 65536 < s.mem.memStacks[k].passCorrected then failStack k 1 s else s
    if last then modStack k (fun x => { x with passCorrected := 0, patrols := satInc x.patrols 1 }) s else s

/-- STACK_RECALIBRATION: the stack takes the PHY trims that are loaded (R622), and its third failure within 1 s makes it
FAILING (R613). -/
def doRecalibrate (k : Fin 20) (ok : Bool) (s : State) : State :=
  if !powered s || s.mem.memStacks[k].st = .retired then s
  else
    let s := modCalib (fun c => { c with memStacks := c.memStacks.set k c.loaded.stackPhy }) s
    if ok then s else
    let recent := (s.mem.memStacks[k].calFails.filter (fun t => decide (s.clock.now < t + 800000000))) ++ [s.clock.now]
    let s := modStack k (fun x => { x with calFails := recent }) s
    if 3 ≤ recent.length then failStack k 3 s else s

/-- Frames of the withdrawn range that a job holds, or that wait for their scrub. -/
def withdrawnHeld (s : State) : Bool :=
  allSlots.any (fun i => decide (0 < runsOverlap ((ctl s i).grants ++ (ctl s i).revoking) (withdrawnFirst s) (withdrawnCount s)))

/-- MIGRATION_START (R615). -/
def doMigration (k : Fin 20) (s : State) : State :=
  if powered s && s.mem.memStacks[k].st = .failing && !withdrawnHeld s then setStack k .migrating s else s

/-- GRANULE_MIGRATE: the next granule switches; after the last one the stack is RETIRED (R615 to R617). -/
def doGranule (k : Fin 20) (bad : List (Fin 64)) (s : State) : State :=
  if !powered s || s.mem.memStacks[k].st ≠ .migrating then s
  else
    let all := movedGranules s k
    let dpa := all.getD s.mem.memStacks[k].moved 0
    let s := forEach bad.eraseDups (fun b st => poisonOwn (dpa + 64 * b.val) st) s
    let s := modStack k (fun x => { x with moved := x.moved + 1 }) s
    if all.length ≤ s.mem.memStacks[k].moved then logError 0x0C none k.val 0 (setStack k .retired s) else s

/-! ### Retained entries -/

/-- STASH_TILE_ARRIVE: a tile of binary32 values for the entry at a job address, converted as the entry stores
them; its conversions are the writer's (R48, R299, R302), and so is the fault of a write that cannot be made (R124). -/
def doTile (slot : Fin 64) (addr ti tj : Nat) (vals : List (BitVec 32)) (s : State) : State :=
  let e := s.jobs[slot].stash.entries.find addr
  let d := (e.map (·.desc)).getD 0
  if !coresRun s || ceilDiv (eRows d) 32 ≤ ti || ceilDiv (eCols d) 64 ≤ tj then s
  else
    let b := tileBlocks d (fun r c =>
      if 32 * ti + r < eRows d ∧ 64 * tj + c < eCols d then f32val (vals.getD (64 * r + c) 0) else .zero false)
    match e.bind (·.writer) with
    | some t =>
      let x := tileArrive t addr ti tj b.1 (countTask t b.2 s)
      if x.2 = .ok then x.1 else unitFault t x.2.code 0 x.1
    | none => s

/-- MEMORY_READ. -/
def execMemoryRead (r : MemReq) (ecc : SectorEcc) (s : State) : Host.Outcome State Fault Refusal := .next (doMemRead r ecc s)
/-- MEMORY_WRITE. -/
def execMemoryWrite (r : MemReq) (data : List Byte) (ecc : SectorEcc) (s : State) : Host.Outcome State Fault Refusal :=
  .next (doMemWrite r data ecc s)
/-- AS_ACCESS. -/
def execAsAccess (r : MemReq) (write : Option (List Byte)) (err : WordErr) (s : State) : Host.Outcome State Fault Refusal :=
  .next (doAsAccess r write err s)
/-- PREFETCH_FETCH: prefetchers are gated outside P0 and P1 (R518). -/
def execPrefetchFetch (die : Fin 4) (pf : Fin 64) (s : State) : Host.Outcome State Fault Refusal :=
  .next (if inP0P1 s then doPrefetch die pf s else s)
/-- PATROL_SCRUB. -/
def execPatrolScrub (stack : Fin 20) (sector : Nat) (ecc : SectorEcc) (endOfPass : Bool) (s : State) : Host.Outcome State Fault Refusal :=
  .next (doPatrol stack sector ecc endOfPass s)
/-- STACK_RECALIBRATION. -/
def execStackRecalibration (stack : Fin 20) (ok : Bool) (s : State) : Host.Outcome State Fault Refusal := .next (doRecalibrate stack ok s)
/-- MIGRATION_START. -/
def execMigrationStart (stack : Fin 20) (s : State) : Host.Outcome State Fault Refusal := .next (doMigration stack s)
/-- GRANULE_MIGRATE. -/
def execGranuleMigrate (stack : Fin 20) (badSectors : List (Fin 64)) (s : State) : Host.Outcome State Fault Refusal :=
  .next (doGranule stack badSectors s)
/-- STASH_TILE_ARRIVE. -/
def execStashTileArrive (slot : Fin 64) (entry ti tj : Nat) (vals : List (BitVec 32)) (s : State) : Host.Outcome State Fault Refusal :=
  .next (doTile slot entry ti tj vals s)

end Sys2Proof.Machine
end

