-- ==== Sys2Proof/Machine/UnitStart.lean ====
section
/-! DEFINITION. Work units start on matrix engines (spec/03_matrix_engines.md R82, R101, R259). -/

namespace Sys2Proof.Machine

/-- MATRIX_UNIT_START (R82): an engine takes the task's next unit, its other parts start with it on other engines, and no
other claim on the engine comes first (R191). -/
def doUnitStart (t : TaskRef) (eng : Fin 68) (s : State) : State :=
  let e := entryOf s t
  match unitOn s t eng with
  | some (u, w, engs) => if inP0P1 s && isFirst s (· == eng) t e then startGroup t e u w engs s else s
  | none => s

/-- MATRIX_UNIT_START. -/
def execMatrixUnitStart (slot : Fin 64) (die : Fin 4) (index : BitVec 16) (eng : Fin 68) (s : State) : Host.Outcome State Fault Refusal :=
  .next (doUnitStart ⟨slot, die, index⟩ eng s)

end Sys2Proof.Machine
end

