-- ==== Sys2Proof/Machine/VectorOps.lean ====
section
/-! DEFINITION. Meanings of the vector-engine commands and of every vector instruction
(spec/04_vector_engines.md R133 to R168). -/

namespace Sys2Proof.Machine

/-- VECTOR_INSTANCE_START (R133). -/
def execVectorInstanceStart (slot : Fin 64) (die : Fin 4) (index : BitVec 16) (ve : Fin 64) (s : State) :
    Host.Outcome State Fault Refusal := .next (doInstance ⟨slot, die, index⟩ ve s)
/-- PAIRED_INSTANCE_START (R150, R151). -/
def execPairedInstanceStart (ve : Fin 64) (s : State) : Host.Outcome State Fault Refusal := .next (doPaired ve s)
/-- LANDING_GROUP_LAND (R152). -/
def execLandingGroupLand (ve : Fin 64) (s : State) : Host.Outcome State Fault Refusal := .next (doLand ve s)
/-- TLD (R141). -/
def execTld (ve : Fin 64) (f : VFields) (s : State) : Host.Outcome State Fault Refusal :=
  .next (doTld ve f s)
/-- TST (R141 to R145). -/
def execTst (ve : Fin 64) (f : VFields) (s : State) : Host.Outcome State Fault Refusal :=
  .next (doTst ve f s)
/-- TSTS (R146). -/
def execTsts (ve : Fin 64) (f : VFields) (s : State) : Host.Outcome State Fault Refusal :=
  .next (doTsts ve f s)
/-- TMOV (R137). -/
def execTmov (ve : Fin 64) (f : VFields) (s : State) : Host.Outcome State Fault Refusal :=
  .next (vLanes ve 0x04 f (fun e _ l => lane (getTile e f.ta) l) s)
/-- TBCAST (R137). -/
def execTbcast (ve : Fin 64) (f : VFields) (s : State) : Host.Outcome State Fault Refusal :=
  .next (vLanes ve 0x05 f (fun _ i _ => (i.getCs f.cs).setWidth 32) s)
/-- TROWB (R137). -/
def execTrowb (ve : Fin 64) (f : VFields) (s : State) : Host.Outcome State Fault Refusal :=
  .next (vLanes ve 0x06 f (fun e _ l => lane (getTile e f.ta) (64 * (l / 64) + fld f.imm.toNat 5 0)) s)
/-- TCOLB (R137). -/
def execTcolb (ve : Fin 64) (f : VFields) (s : State) : Host.Outcome State Fault Refusal :=
  .next (vLanes ve 0x07 f (fun e _ l => lane (getTile e f.ta) (64 * fld f.imm.toNat 4 0 + l % 64)) s)
/-- TADD (R137). -/
def execTadd (ve : Fin 64) (f : VFields) (s : State) : Host.Outcome State Fault Refusal :=
  .next (vLanes ve 0x10 f (fun e _ l => f32add (lane (getTile e f.ta) l) (lane (getTile e f.tb) l)) s)
/-- TSUB (R137). -/
def execTsub (ve : Fin 64) (f : VFields) (s : State) : Host.Outcome State Fault Refusal :=
  .next (vLanes ve 0x11 f (fun e _ l => f32sub (lane (getTile e f.ta) l) (lane (getTile e f.tb) l)) s)
/-- TMUL (R137). -/
def execTmul (ve : Fin 64) (f : VFields) (s : State) : Host.Outcome State Fault Refusal :=
  .next (vLanes ve 0x12 f (fun e _ l => f32mul (lane (getTile e f.ta) l) (lane (getTile e f.tb) l)) s)
/-- TFMA (R137). -/
def execTfma (ve : Fin 64) (f : VFields) (s : State) : Host.Outcome State Fault Refusal :=
  .next (vLanes ve 0x13 f (fun e _ l => f32fma (lane (getTile e f.ta) l) (lane (getTile e f.tb) l) (lane (getTile e f.tc) l)) s)
/-- TMIN (R137). -/
def execTmin (ve : Fin 64) (f : VFields) (s : State) : Host.Outcome State Fault Refusal :=
  .next (vLanes ve 0x14 f (fun e _ l => f32pick false (lane (getTile e f.ta) l) (lane (getTile e f.tb) l)) s)
/-- TMAX (R137). -/
def execTmax (ve : Fin 64) (f : VFields) (s : State) : Host.Outcome State Fault Refusal :=
  .next (vLanes ve 0x15 f (fun e _ l => f32pick true (lane (getTile e f.ta) l) (lane (getTile e f.tb) l)) s)
/-- TDIV (R137). -/
def execTdiv (ve : Fin 64) (f : VFields) (s : State) : Host.Outcome State Fault Refusal :=
  .next (vLanes ve 0x16 f (fun e _ l => f32div (lane (getTile e f.ta) l) (lane (getTile e f.tb) l)) s)
/-- TSQRT (R137). -/
def execTsqrt (ve : Fin 64) (f : VFields) (s : State) : Host.Outcome State Fault Refusal :=
  .next (vLanes ve 0x17 f (fun e _ l => f32sqrt (lane (getTile e f.ta) l)) s)
/-- TIADD (R137). -/
def execTiadd (ve : Fin 64) (f : VFields) (s : State) : Host.Outcome State Fault Refusal :=
  .next (vLanes ve 0x18 f (fun e _ l => lane (getTile e f.ta) l + lane (getTile e f.tb) l) s)
/-- TCMP (R137). -/
def execTcmp (ve : Fin 64) (f : VFields) (s : State) : Host.Outcome State Fault Refusal :=
  .next (doTcmp ve f s)
/-- MOP (R137). -/
def execMop (ve : Fin 64) (f : VFields) (s : State) : Host.Outcome State Fault Refusal :=
  .next (doMop ve f s)
/-- MPOP (R137). -/
def execMpop (ve : Fin 64) (f : VFields) (s : State) : Host.Outcome State Fault Refusal :=
  .next (doMpop ve f s)
/-- TFUNC (R155, R159). -/
def execTfunc (ve : Fin 64) (f : VFields) (s : State) : Host.Outcome State Fault Refusal :=
  .next (doFunc ve f s)
/-- TLDFT (R157, R158). -/
def execTldft (ve : Fin 64) (f : VFields) (s : State) : Host.Outcome State Fault Refusal :=
  .next (doLdft ve f s)
/-- TRSUM (R147). -/
def execTrsum (ve : Fin 64) (f : VFields) (s : State) : Host.Outcome State Fault Refusal :=
  .next (doReduceRows ve 0x40 f f32add 0 s)
/-- TRMAX (R147). -/
def execTrmax (ve : Fin 64) (f : VFields) (s : State) : Host.Outcome State Fault Refusal :=
  .next (doReduceRows ve 0x41 f (f32pick true) f32ninf s)
/-- TCSUM (R147). -/
def execTcsum (ve : Fin 64) (f : VFields) (s : State) : Host.Outcome State Fault Refusal :=
  .next (doReduceCols ve 0x42 f f32add 0 s)
/-- TCMAX (R147). -/
def execTcmax (ve : Fin 64) (f : VFields) (s : State) : Host.Outcome State Fault Refusal :=
  .next (doReduceCols ve 0x43 f (f32pick true) f32ninf s)
/-- TCOMP (R148). -/
def execTcomp (ve : Fin 64) (f : VFields) (s : State) : Host.Outcome State Fault Refusal :=
  .next (doComp ve f s)
/-- TEXPD (R149). -/
def execTexpd (ve : Fin 64) (f : VFields) (s : State) : Host.Outcome State Fault Refusal :=
  .next (doExpd ve f s)
/-- TOPK (R161). -/
def execTopk (ve : Fin 64) (f : VFields) (s : State) : Host.Outcome State Fault Refusal :=
  .next (doTopk ve 0x60 f (fun _ i l => BitVec.ofNat 32 ((i.getCs f.cs).toNat % 2 ^ 20 + l % 64)) s)
/-- TOPKX (R161). -/
def execTopkx (ve : Fin 64) (f : VFields) (s : State) : Host.Outcome State Fault Refusal :=
  .next (doTopk ve 0x61 f (fun e _ l => lane (getTile e f.tb) l) s)
/-- TOPKRD (R162). -/
def execTopkrd (ve : Fin 64) (f : VFields) (s : State) : Host.Outcome State Fault Refusal :=
  .next (doTopkrd ve f s)
/-- LWAIT (R153). -/
def execLwait (ve : Fin 64) (f : VFields) (s : State) : Host.Outcome State Fault Refusal :=
  .next (doLwait ve f s)
/-- LREL (R153). -/
def execLrel (ve : Fin 64) (f : VFields) (s : State) : Host.Outcome State Fault Refusal :=
  .next (doLrel ve f s)
/-- WOPEN (R166). -/
def execWopen (ve : Fin 64) (f : VFields) (s : State) : Host.Outcome State Fault Refusal :=
  .next (doWopen ve f s)
/-- WLOSS (R166). -/
def execWloss (ve : Fin 64) (f : VFields) (s : State) : Host.Outcome State Fault Refusal :=
  .next (doWloss ve f s)
/-- WCLOSE (R166). -/
def execWclose (ve : Fin 64) (f : VFields) (s : State) : Host.Outcome State Fault Refusal :=
  .next (doWclose ve f s)
/-- WVERD (R166). -/
def execWverd (ve : Fin 64) (f : VFields) (s : State) : Host.Outcome State Fault Refusal :=
  .next (doWverd ve f s)
/-- LOOP (R137, R138). -/
def execVLoop (ve : Fin 64) (f : VFields) (s : State) : Host.Outcome State Fault Refusal :=
  .next (doLoop ve f s)
/-- SADD (R137). -/
def execSadd (ve : Fin 64) (f : VFields) (s : State) : Host.Outcome State Fault Refusal :=
  .next (doSadd ve f s)
/-- END (R136). -/
def execVEnd (ve : Fin 64) (f : VFields) (s : State) : Host.Outcome State Fault Refusal :=
  .next (doEnd ve f s)
/-- VECTOR_UNDEFINED_OPCODE (R138). -/
def execVectorUndefinedOpcode (ve : Fin 64) (word : BitVec 64) (s : State) : Host.Outcome State Fault Refusal :=
  .next (doUndefined ve word s)

end Sys2Proof.Machine
end

