-- ==== Sys2Proof/Machine/Dispatch.lean ====
section
/-! DEFINITION. The dispatch of every command to its meaning. -/

namespace Sys2Proof.Machine

/-- The effect of a command on everything but the queue of waiting commands. -/
def exec (i : Instr) (s : State) : Host.Outcome State Fault Refusal :=
  match i with
  | .unlorVersion c => Sys2Proof.Machine.execUnlorVersion c s
  | .unlorGet c => Sys2Proof.Machine.execUnlorGet c s
  | .unlorSet c => Sys2Proof.Machine.execUnlorSet c s
  | .setTime c => Sys2Proof.Machine.execSetTime c s
  | .pmuTriggerArm c => Sys2Proof.Machine.execPmuTriggerArm c s
  | .unlorReservedOpcode opcode c => Sys2Proof.Machine.execUnlorReservedOpcode opcode c s
  | .jobCreate c => Sys2Proof.Machine.execJobCreate c s
  | .jobAttest c => Sys2Proof.Machine.execJobAttest c s
  | .jobKey c => Sys2Proof.Machine.execJobKey c s
  | .jobReady c => Sys2Proof.Machine.execJobReady c s
  | .jobStart c => Sys2Proof.Machine.execJobStart c s
  | .jobPause c => Sys2Proof.Machine.execJobPause c s
  | .jobResume c => Sys2Proof.Machine.execJobResume c s
  | .taskReset c => Sys2Proof.Machine.execTaskReset c s
  | .jobSeal c => Sys2Proof.Machine.execJobSeal c s
  | .jobTear c => Sys2Proof.Machine.execJobTear c s
  | .jobFree c => Sys2Proof.Machine.execJobFree c s
  | .scrubComplete slot => Sys2Proof.Machine.execScrubComplete slot s
  | .frameGrant c => Sys2Proof.Machine.execFrameGrant c s
  | .frameRevoke c => Sys2Proof.Machine.execFrameRevoke c s
  | .frameScrubComplete slot => Sys2Proof.Machine.execFrameScrubComplete slot s
  | .jobMap c => Sys2Proof.Machine.execJobMap c s
  | .jobUnmap c => Sys2Proof.Machine.execJobUnmap c s
  | .asGrant c => Sys2Proof.Machine.execAsGrant c s
  | .routeLoad c => Sys2Proof.Machine.execRouteLoad c s
  | .laneSwap c => Sys2Proof.Machine.execLaneSwap c s
  | .laneSwapBack c => Sys2Proof.Machine.execLaneSwapBack c s
  | .laneRetrain c => Sys2Proof.Machine.execLaneRetrain c s
  | .linkClear c => Sys2Proof.Machine.execLinkClear c s
  | .meFenceFence c => Sys2Proof.Machine.execMeFenceFence c s
  | .meFenceReturn c => Sys2Proof.Machine.execMeFenceReturn c s
  | .engineTestDone eng pass => Sys2Proof.Machine.execEngineTestDone eng pass s
  | .lcProvision c => Sys2Proof.Machine.execLcProvision c s
  | .lcDeploy c => Sys2Proof.Machine.execLcDeploy c s
  | .lcHold c => Sys2Proof.Machine.execLcHold c s
  | .lcRetire c => Sys2Proof.Machine.execLcRetire c s
  | .opMgmtKey c => Sys2Proof.Machine.execOpMgmtKey c s
  | .fwCommit c => Sys2Proof.Machine.execFwCommit c s
  | .dbgOpen c => Sys2Proof.Machine.execDbgOpen c s
  | .dbgClose c => Sys2Proof.Machine.execDbgClose c s
  | .pwrSetRun c => Sys2Proof.Machine.execPwrSetRun c s
  | .pwrSetHold c => Sys2Proof.Machine.execPwrSetHold c s
  | .pwrHoldTimeout => Sys2Proof.Machine.execPwrHoldTimeout s
  | .pwrSetRest c => Sys2Proof.Machine.execPwrSetRest c s
  | .pwrSetOff c => Sys2Proof.Machine.execPwrSetOff c s
  | .fwLoad c => Sys2Proof.Machine.execFwLoad c s
  | .fwChangeover c => Sys2Proof.Machine.execFwChangeover c s
  | .changeoverQuiesced => Sys2Proof.Machine.execChangeoverQuiesced s
  | .quiesceTimeout => Sys2Proof.Machine.execQuiesceTimeout s
  | .changeoverReady => Sys2Proof.Machine.execChangeoverReady s
  | .incomingReadyTimeout refused => Sys2Proof.Machine.execIncomingReadyTimeout refused s
  | .tally c => Sys2Proof.Machine.execTally c s
  | .logRead c => Sys2Proof.Machine.execLogRead c s
  | .devReset c => Sys2Proof.Machine.execDevReset c s
  | .devResetStart => Sys2Proof.Machine.execDevResetStart s
  | .mbDoorbell fn bits dma => Sys2Proof.Machine.execMbDoorbell fn bits dma s
  | .mbIrqClear fn bits => Sys2Proof.Machine.execMbIrqClear fn bits s
  | .intCauseClear fn bits => Sys2Proof.Machine.execIntCauseClear fn bits s
  | .dbSq slot die value => Sys2Proof.Machine.execDbSq slot die value s
  | .dbEq slot die value => Sys2Proof.Machine.execDbEq slot die value s
  | .registerWrite bus offset value => Sys2Proof.Machine.execRegisterWrite bus offset value s
  | .bar2Read slot offset len ide => Sys2Proof.Machine.execBar2Read slot offset len ide s
  | .bar2Write slot offset data ide => Sys2Proof.Machine.execBar2Write slot offset data ide s
  | .vfFlr slot => Sys2Proof.Machine.execVfFlr slot s
  | .pf0Flr => Sys2Proof.Machine.execPf0Flr s
  | .pcieHotReset => Sys2Proof.Machine.execPcieHotReset s
  | .numvfsLower n => Sys2Proof.Machine.execNumvfsLower n s
  | .tdispLeaveRun slot toError => Sys2Proof.Machine.execTdispLeaveRun slot toError s
  | .getVersion src msg => Sys2Proof.Machine.execGetVersion src msg s
  | .getCapabilities src msg => Sys2Proof.Machine.execGetCapabilities src msg s
  | .negotiateAlgorithms src msg => Sys2Proof.Machine.execNegotiateAlgorithms src msg s
  | .getDigests src msg => Sys2Proof.Machine.execGetDigests src msg s
  | .getCertificate src msg => Sys2Proof.Machine.execGetCertificate src msg s
  | .spdmChallenge src msg => Sys2Proof.Machine.execSpdmChallenge src msg s
  | .getMeasurements src msg => Sys2Proof.Machine.execGetMeasurements src msg s
  | .keyExchange src msg => Sys2Proof.Machine.execKeyExchange src msg s
  | .spdmFinish src session msg => Sys2Proof.Machine.execSpdmFinish src session msg s
  | .endSession src session msg => Sys2Proof.Machine.execEndSession src session msg s
  | .spdmHeartbeat src session msg => Sys2Proof.Machine.execSpdmHeartbeat src session msg s
  | .spdmUnsupportedRequest src code msg => Sys2Proof.Machine.execSpdmUnsupportedRequest src code msg s
  | .admitDescriptor slot die => Sys2Proof.Machine.execAdmitDescriptor slot die s
  | .decrement slot name gen => Sys2Proof.Machine.execDecrement slot name gen s
  | .taskRelease slot die index => Sys2Proof.Machine.execTaskRelease slot die index s
  | .taskComplete slot die index => Sys2Proof.Machine.execTaskComplete slot die index s
  | .routineStart slot die => Sys2Proof.Machine.execRoutineStart slot die s
  | .riggerProgramStart slot die index rig => Sys2Proof.Machine.execRiggerProgramStart slot die index rig s
  | .budgetExpiry core => Sys2Proof.Machine.execBudgetExpiry core s
  | .waitTimeout slot die index => Sys2Proof.Machine.execWaitTimeout slot die index s
  | .tsubmit die slot rd rs1 => Sys2Proof.Machine.execTsubmit die slot rd rs1 s
  | .tpatch die slot rs1 rs2 => Sys2Proof.Machine.execTpatch die slot rs1 rs2 s
  | .tskip die slot rs1 => Sys2Proof.Machine.execTskip die slot rs1 s
  | .trearm die slot rs1 rs2 => Sys2Proof.Machine.execTrearm die slot rs1 rs2 s
  | .tdone core rs1 => Sys2Proof.Machine.execTdone core rs1 s
  | .sld rig rs1 rs2 => Sys2Proof.Machine.execSld rig rs1 rs2 s
  | .sst rig rs1 rs2 => Sys2Proof.Machine.execSst rig rs1 rs2 s
  | .blkq rig rd rs1 rs2 => Sys2Proof.Machine.execBlkq rig rd rs1 rs2 s
  | .blkx rig rs1 rs2 => Sys2Proof.Machine.execBlkx rig rs1 rs2 s
  | .sortkv rig rs1 rs2 => Sys2Proof.Machine.execSortkv rig rs1 rs2 s
  | .hist rig rs1 rs2 => Sys2Proof.Machine.execHist rig rs1 rs2 s
  | .psum rig rd rs1 rs2 => Sys2Proof.Machine.execPsum rig rd rs1 rs2 s
  | .nnzb rig rd rs1 rs2 => Sys2Proof.Machine.execNnzb rig rd rs1 rs2 s
  | .lapp rig rd rs1 rs2 => Sys2Proof.Machine.execLapp rig rd rs1 rs2 s
  | .hpmCsrRead core csr rd => Sys2Proof.Machine.execHpmCsrRead core csr rd s
  | .rv64Instruction core => Sys2Proof.Machine.execRv64Instruction core s
  | .matrixUnitStart slot die index eng => Sys2Proof.Machine.execMatrixUnitStart slot die index eng s
  | .tileLoaded eng => Sys2Proof.Machine.execTileLoaded eng s
  | .unitPassesEnd eng => Sys2Proof.Machine.execUnitPassesEnd eng s
  | .ksplitCombine eng => Sys2Proof.Machine.execKsplitCombine eng s
  | .residueCheckFail eng => Sys2Proof.Machine.execResidueCheckFail eng s
  | .spareTestDone die pass => Sys2Proof.Machine.execSpareTestDone die pass s
  | .vectorInstanceStart slot die index ve => Sys2Proof.Machine.execVectorInstanceStart slot die index ve s
  | .pairedInstanceStart ve => Sys2Proof.Machine.execPairedInstanceStart ve s
  | .landingGroupLand ve => Sys2Proof.Machine.execLandingGroupLand ve s
  | .tld ve f => Sys2Proof.Machine.execTld ve f s
  | .tst ve f => Sys2Proof.Machine.execTst ve f s
  | .tsts ve f => Sys2Proof.Machine.execTsts ve f s
  | .tmov ve f => Sys2Proof.Machine.execTmov ve f s
  | .tbcast ve f => Sys2Proof.Machine.execTbcast ve f s
  | .trowb ve f => Sys2Proof.Machine.execTrowb ve f s
  | .tcolb ve f => Sys2Proof.Machine.execTcolb ve f s
  | .tadd ve f => Sys2Proof.Machine.execTadd ve f s
  | .tsub ve f => Sys2Proof.Machine.execTsub ve f s
  | .tmul ve f => Sys2Proof.Machine.execTmul ve f s
  | .tfma ve f => Sys2Proof.Machine.execTfma ve f s
  | .tmin ve f => Sys2Proof.Machine.execTmin ve f s
  | .tmax ve f => Sys2Proof.Machine.execTmax ve f s
  | .tdiv ve f => Sys2Proof.Machine.execTdiv ve f s
  | .tsqrt ve f => Sys2Proof.Machine.execTsqrt ve f s
  | .tiadd ve f => Sys2Proof.Machine.execTiadd ve f s
  | .tcmp ve f => Sys2Proof.Machine.execTcmp ve f s
  | .mop ve f => Sys2Proof.Machine.execMop ve f s
  | .mpop ve f => Sys2Proof.Machine.execMpop ve f s
  | .tfunc ve f => Sys2Proof.Machine.execTfunc ve f s
  | .tldft ve f => Sys2Proof.Machine.execTldft ve f s
  | .trsum ve f => Sys2Proof.Machine.execTrsum ve f s
  | .trmax ve f => Sys2Proof.Machine.execTrmax ve f s
  | .tcsum ve f => Sys2Proof.Machine.execTcsum ve f s
  | .tcmax ve f => Sys2Proof.Machine.execTcmax ve f s
  | .tcomp ve f => Sys2Proof.Machine.execTcomp ve f s
  | .texpd ve f => Sys2Proof.Machine.execTexpd ve f s
  | .topk ve f => Sys2Proof.Machine.execTopk ve f s
  | .topkx ve f => Sys2Proof.Machine.execTopkx ve f s
  | .topkrd ve f => Sys2Proof.Machine.execTopkrd ve f s
  | .lwait ve f => Sys2Proof.Machine.execLwait ve f s
  | .lrel ve f => Sys2Proof.Machine.execLrel ve f s
  | .wopen ve f => Sys2Proof.Machine.execWopen ve f s
  | .wloss ve f => Sys2Proof.Machine.execWloss ve f s
  | .wclose ve f => Sys2Proof.Machine.execWclose ve f s
  | .wverd ve f => Sys2Proof.Machine.execWverd ve f s
  | .vLoop ve f => Sys2Proof.Machine.execVLoop ve f s
  | .sadd ve f => Sys2Proof.Machine.execSadd ve f s
  | .vEnd ve f => Sys2Proof.Machine.execVEnd ve f s
  | .vectorUndefinedOpcode ve word => Sys2Proof.Machine.execVectorUndefinedOpcode ve word s
  | .memoryRead r ecc => Sys2Proof.Machine.execMemoryRead r ecc s
  | .memoryWrite r data ecc => Sys2Proof.Machine.execMemoryWrite r data ecc s
  | .asAccess r write err => Sys2Proof.Machine.execAsAccess r write err s
  | .prefetchFetch die pf => Sys2Proof.Machine.execPrefetchFetch die pf s
  | .patrolScrub stack sector ecc endOfPass => Sys2Proof.Machine.execPatrolScrub stack sector ecc endOfPass s
  | .stackRecalibration stack ok => Sys2Proof.Machine.execStackRecalibration stack ok s
  | .migrationStart stack => Sys2Proof.Machine.execMigrationStart stack s
  | .granuleMigrate stack badSectors => Sys2Proof.Machine.execGranuleMigrate stack badSectors s
  | .stashTileArrive slot entry ti tj vals => Sys2Proof.Machine.execStashTileArrive slot entry ti tj vals s
  | .segmentStart slot die index => Sys2Proof.Machine.execSegmentStart slot die index s
  | .subtileUpdate slot die index seg q => Sys2Proof.Machine.execSubtileUpdate slot die index seg q s
  | .collInit t => Sys2Proof.Machine.execCollInit t s
  | .collReduce t => Sys2Proof.Machine.execCollReduce t s
  | .collRing t => Sys2Proof.Machine.execCollRing t s
  | .ringStageSend t => Sys2Proof.Machine.execRingStageSend t s
  | .collClose t => Sys2Proof.Machine.execCollClose t s
  | .bucketDeadline slot desc half => Sys2Proof.Machine.execBucketDeadline slot desc half s
  | .collUpdate t => Sys2Proof.Machine.execCollUpdate t s
  | .collGather t => Sys2Proof.Machine.execCollGather t s
  | .collPermute t => Sys2Proof.Machine.execCollPermute t s
  | .moveEntryStart t entry => Sys2Proof.Machine.execMoveEntryStart t entry s
  | .exDispatch t => Sys2Proof.Machine.execExDispatch t s
  | .exCombine t => Sys2Proof.Machine.execExCombine t s
  | .exRdispatch t => Sys2Proof.Machine.execExRdispatch t s
  | .exRcombine t => Sys2Proof.Machine.execExRcombine t s
  | .countMessage t src m => Sys2Proof.Machine.execCountMessage t src m s
  | .grantMessage t src m => Sys2Proof.Machine.execGrantMessage t src m s
  | .exchDeadline t => Sys2Proof.Machine.execExchDeadline t s
  | .copyPut t => Sys2Proof.Machine.execCopyPut t s
  | .copyGet t => Sys2Proof.Machine.execCopyGet t s
  | .copyAtomic t => Sys2Proof.Machine.execCopyAtomic t s
  | .copySignal t => Sys2Proof.Machine.execCopySignal t s
  | .copyFence t => Sys2Proof.Machine.execCopyFence t s
  | .flowRequestIssue slot peer => Sys2Proof.Machine.execFlowRequestIssue slot peer s
  | .vmtLoad a => Sys2Proof.Machine.execVmtLoad a s
  | .vmtStore a => Sys2Proof.Machine.execVmtStore a s
  | .vmtAtomic a => Sys2Proof.Machine.execVmtAtomic a s
  | .vmtAccumulate a => Sys2Proof.Machine.execVmtAccumulate a s
  | .vmtSignal a => Sys2Proof.Machine.execVmtSignal a s
  | .vmtReservedOpcode opcode a => Sys2Proof.Machine.execVmtReservedOpcode opcode a s
  | .vmtResp a => Sys2Proof.Machine.execVmtResp a s
  | .vmtRefuse a => Sys2Proof.Machine.execVmtRefuse a s
  | .vmtAck a => Sys2Proof.Machine.execVmtAck a s
  | .ackSend slot peer => Sys2Proof.Machine.execAckSend slot peer s
  | .retransmitTimeout slot peer seq => Sys2Proof.Machine.execRetransmitTimeout slot peer seq s
  | .busyResend slot peer seq => Sys2Proof.Machine.execBusyResend slot peer seq s
  | .replyCacheExpiry slot peer seq => Sys2Proof.Machine.execReplyCacheExpiry slot peer seq s
  | .holdExpiry slot peer seq => Sys2Proof.Machine.execHoldExpiry slot peer seq s
  | .portSignalDetect port => Sys2Proof.Machine.execPortSignalDetect port s
  | .trainingComplete port => Sys2Proof.Machine.execTrainingComplete port s
  | .trainingTimeout port => Sys2Proof.Machine.execTrainingTimeout port s
  | .portLost port => Sys2Proof.Machine.execPortLost port s
  | .portSilenceTimeout port => Sys2Proof.Machine.execPortSilenceTimeout port s
  | .helloReceive port h => Sys2Proof.Machine.execHelloReceive port h s
  | .proofReceive port sig => Sys2Proof.Machine.execProofReceive port sig s
  | .helloResend port => Sys2Proof.Machine.execHelloResend port s
  | .discoveryTimeout port => Sys2Proof.Machine.execDiscoveryTimeout port s
  | .quarantineRetry port => Sys2Proof.Machine.execQuarantineRetry port s
  | .lldpTimer port => Sys2Proof.Machine.execLldpTimer port s
  | .lldpReceive port tlvs => Sys2Proof.Machine.execLldpReceive port tlvs s
  | .creditFrame port freed => Sys2Proof.Machine.execCreditFrame port freed s
  | .creditFrameSend port => Sys2Proof.Machine.execCreditFrameSend port s
  | .creditStallTimeout port vl => Sys2Proof.Machine.execCreditStallTimeout port vl s
  | .promoteTimeout port => Sys2Proof.Machine.execPromoteTimeout port s
  | .dampReuse port => Sys2Proof.Machine.execDampReuse port s
  | .pfcFrame port prio pause => Sys2Proof.Machine.execPfcFrame port prio pause s
  | .relayFrame a opcode => Sys2Proof.Machine.execRelayFrame a opcode s
  | .neighborSolicitation port target source => Sys2Proof.Machine.execNeighborSolicitation port target source s
  | .mgmtFrame port m => Sys2Proof.Machine.execMgmtFrame port m s
  | .linkctlSwap port pos tag => Sys2Proof.Machine.execLinkctlSwap port pos tag s
  | .linkctlAccept port accept marker tag => Sys2Proof.Machine.execLinkctlAccept port accept marker tag s
  | .swapMarker port marker => Sys2Proof.Machine.execSwapMarker port marker s
  | .laneSwapTimeout port => Sys2Proof.Machine.execLaneSwapTimeout port s
  | .autoSpareTrigger lane => Sys2Proof.Machine.execAutoSpareTrigger lane s
  | .congestionDecay => Sys2Proof.Machine.execCongestionDecay s
  | .syncReceive port m => Sys2Proof.Machine.execSyncReceive port m s
  | .followUpReceive port m => Sys2Proof.Machine.execFollowUpReceive port m s
  | .announceReceive port m => Sys2Proof.Machine.execAnnounceReceive port m s
  | .pdelayMessage port m => Sys2Proof.Machine.execPdelayMessage port m s
  | .delayRespReceive port m => Sys2Proof.Machine.execDelayRespReceive port m s
  | .syncTransmit => Sys2Proof.Machine.execSyncTransmit s
  | .syncLossTimeout => Sys2Proof.Machine.execSyncLossTimeout s
  | .buoyTimer => Sys2Proof.Machine.execBuoyTimer s
  | .triggerFire scope => Sys2Proof.Machine.execTriggerFire scope s
  | .debugExpiry d2 => Sys2Proof.Machine.execDebugExpiry d2 s
  | .powerMeasure inputW temps => Sys2Proof.Machine.execPowerMeasure inputW temps s
  | .divisorDecision => Sys2Proof.Machine.execDivisorDecision s
  | .divisorApply => Sys2Proof.Machine.execDivisorApply s
  | .smbWake => Sys2Proof.Machine.execSmbWake s
  | .smbAlertClear bits => Sys2Proof.Machine.execSmbAlertClear bits s
  | .tapInstruction ir => Sys2Proof.Machine.execTapInstruction ir s
  | .vinRise mv => Sys2Proof.Machine.execVinRise mv s
  | .undervoltageWarning mv => Sys2Proof.Machine.execUndervoltageWarning mv s
  | .inputLost cause => Sys2Proof.Machine.execInputLost cause s
  | .rstNAssert => Sys2Proof.Machine.execRstNAssert s
  | .rstNRelease b => Sys2Proof.Machine.execRstNRelease b s
  | .wrstNAssert => Sys2Proof.Machine.execWrstNAssert s
  | .wrstNRelease => Sys2Proof.Machine.execWrstNRelease s
  | .coxWatchdogExpiry pc => Sys2Proof.Machine.execCoxWatchdogExpiry pc s
  | .criticalStateError structure_ unit => Sys2Proof.Machine.execCriticalStateError structure_ unit s
  | .clockFault refclkLost b => Sys2Proof.Machine.execClockFault refclkLost b s
  | .umpireSecurityReset b => Sys2Proof.Machine.execUmpireSecurityReset b s
  | .thermalTrip temp => Sys2Proof.Machine.execThermalTrip temp s
  | .thermalHoldEnd => Sys2Proof.Machine.execThermalHoldEnd s
  | .coxBlockReset u => Sys2Proof.Machine.execCoxBlockReset u s
  | .backgroundWorkEnd fn mb => Sys2Proof.Machine.execBackgroundWorkEnd fn mb s
  | .refclkStable b => Sys2Proof.Machine.execRefclkStable b s
  | .numvfsRaise n => Sys2Proof.Machine.execNumvfsRaise n s
  | .ideKmRequest session slot activate key => Sys2Proof.Machine.execIdeKmRequest session slot activate key s
  | .tdispRequest session slot req => Sys2Proof.Machine.execTdispRequest session slot req s
  | .delayRequestTransmit port => Sys2Proof.Machine.execDelayRequestTransmit port s

end Sys2Proof.Machine
end

