-- ==== Sys2Proof/Machine/Tick.lean ====
section
/-! DEFINITION. What an idle step does: one tick of TCLK passes (spec/13_time_and_counters.md R452 to R454,
R467, R476; DESIGN CHOICE, notes/assumptions/2). -/

namespace Sys2Proof.Machine

/-- The clocks of global time run: not while a reset holds them, in BOOT_HOLD, in the thermal hold or off. -/
def clockRuns (s : State) : Bool :=
  match s.rst.phase with
  | .running => true
  | .loader => true
  | .warm => true
  | _ => false

/-- Ticks that global time counts in one tick of TCLK: a LOCKED clock with an offset left to remove skips or
adds one in every 5,000, which is 200 ppm (R454). -/
def tickCount (c : Clock) : Nat :=
  if c.t.st = .locked && c.cycles / 3 % 5000 == 0 then
    (if 65536 ≤ c.t.slew then 0 else if c.t.slew ≤ -65536 then 2 else 1)
  else 1

/-- ACLK cycles in a tick of TCLK, by the divisor: 2, 1 or 2 in turn, or 1 (R581); none while ACLK is gated. -/
def aclkCycles (s : State) : Nat :=
  if !inP0P1 s then 0 else if s.power.aclk = 0 then 2 else if s.power.aclk = 1 then 1 + s.clock.cycles / 3 % 2 else 1

/-- Units of an event that one ACLK cycle adds on a die, for a lent counter those of its slot (R468, R471). The cycles of 0x001 are
those of a slot while its job is RUNNING (DESIGN CHOICE, notes/assumptions/42). -/
def cycleUnits (s : State) (die : Fin 4) (slot : Option (Fin 64)) (event : Nat) : Nat :=
  let mine := fun (x : Fin 64) => slot.all (· == x)
  let engs := (List.finRange 68).filter (fun e => engineDie e == die)
  let holds := fun (p : MatUnit → Bool) => (engs.filter (fun e => s.engines[e].units.any (fun u => !u.ended && mine u.task.slot && p u))).length
  match event with
  | 0x001 => if slot.all (fun x => jobSt s x == .running) then 1 else 0
  | 0x010 => holds (fun _ => true)
  | 0x011 => holds (fun u => u.bufs.isEmpty)
  | 0x020 => ((List.finRange 64).filter (fun v => unitDie v == die && (match s.ves[v].inst with | some i => mine i.task.slot | none => false))).length
  | 0x090 => if s.power.waiting.any (fun w => match w with | .matrix e => engineDie e == die | .vector v => unitDie v == die) then 1 else 0
  | _ => 0

/-- The programmable counters count the cycles of a tick (R471). -/
def countCycles (s : State) : State :=
  let n := aclkCycles s
  if n = 0 || s.clock.pmu.toList.all (fun c => !c.enable) then s
  else
    modClock (fun k => { k with pmu := Vector.ofFn (fun (i : Fin 32) =>
      let c := k.pmu[i]
      if c.enable && !c.frozen then
        c.add (n * cycleUnits s (Fin.ofNat 4 (i.val / 8)) (if c.lent then some c.slot else none) c.event.toNat)
      else c) }) s

/-- The clocks advance by a tick: the cycle counters stop in P3 (R476). -/
def advanceClocks (s : State) : State :=
  let n := tickCount s.clock
  modClock (fun c => { c with
    now := (c.now + n) % 2 ^ 64
    cycles := if s.power.mode = .rest then c.cycles else (c.cycles + 3) % 2 ^ 64
    t := { c.t with slew := c.t.slew + 65536 * ((n : Int) - 1) } }) s

/-- What falls due with a tick (DESIGN CHOICE, notes/assumptions/2): triggers (R475), buoys (R466), the records that wait in trace
units (R464), the receive buffers (R403), the next step into P3 (R528), the next entry of a ROUTE_LOAD (R570), and the doorbells
that a halted Cox left. -/
def due (s : State) : State :=
  let s := drainTraces (dueBuoys (dueTriggers s))
  let s := restStep (forEach allPorts drainRx s)
  takeRung (if s.cox.halted || !powered s then s else forEach s.cox.running (routeStep 1) s)

/-- One tick. REFCLK's own time goes on in every phase (R598). -/
def tick (s : State) : State :=
  let s := if clockRuns s then due (advanceClocks (countCycles s)) else s
  if s.rst.refclkOk then modRst (fun r => { r with refTicks := r.refTicks + 1 }) s else s

end Sys2Proof.Machine
end

