-- ==== Sys2Proof/Safety.lean ====
section
/-! DEFINITION. What counts as a safe run, and the terms that statements use. -/

namespace Sys2Proof.Machine

/-- The invariant of the block: its memory is in canonical form, and at most 64 virtual functions are enabled
(R541). -/
def State.Inv (s : State) : Prop := s.mem.wf = true ∧ s.numVfs ≤ 64

/-- A step runs: it answers a next state. -/
def Runs (s : State) : Prop := ∃ t, step s = .next t

/-- A safe state: its invariant holds and its next step runs. -/
def Safe (s : State) : Prop := s.Inv ∧ Runs s

/-- A command completes: `exec` answers a next state, of which `P` holds. -/
def Completes (i : Instr) (s : State) (P : State → Prop) : Prop := ∃ t, exec i s = .next t ∧ P t

/-! ### What a command leaves -/

/-- The parts of the state. -/
inductive Part where
  | pending
  | host
  | numVfs
  | bar2Size
  | cox
  | objs
  | jobs
  | mem
  | fabric
  | rigs
  | engines
  | ves
  | claims
  | clock
  | logs
  | health
  | healthFlash
  | sec
  | power
  | calib
  | rst
  | board
  | out
  | fresh
  | stamps
  deriving DecidableEq, Repr

/-- A part is the same in two states. -/
def Part.Same (p : Part) (s t : State) : Prop :=
  match p with
  | .pending => t.pending = s.pending
  | .host => t.host = s.host
  | .numVfs => t.numVfs = s.numVfs
  | .bar2Size => t.bar2Size = s.bar2Size
  | .cox => t.cox = s.cox
  | .objs => t.objs = s.objs
  | .jobs => t.jobs = s.jobs
  | .mem => t.mem = s.mem
  | .fabric => t.fabric = s.fabric
  | .rigs => t.rigs = s.rigs
  | .engines => t.engines = s.engines
  | .ves => t.ves = s.ves
  | .claims => t.claims = s.claims
  | .clock => t.clock = s.clock
  | .logs => t.logs = s.logs
  | .health => t.health = s.health
  | .healthFlash => t.healthFlash = s.healthFlash
  | .sec => t.sec = s.sec
  | .power => t.power = s.power
  | .calib => t.calib = s.calib
  | .rst => t.rst = s.rst
  | .board => t.board = s.board
  | .out => t.out = s.out
  | .fresh => t.fresh = s.fresh
  | .stamps => t.stamps = s.stamps

/-- Two states differ in the parts of a list alone. -/
def Changes (l : List Part) (s t : State) : Prop := ∀ p, p ∉ l → p.Same s t

/-- Every part of a list is the same in two states. -/
def Keeps (l : List Part) (s t : State) : Prop := ∀ p ∈ l, p.Same s t

/-- A job is as it was, but for its transmit count (R340): a frame that leaves a port may let packets of any job leave that
waited behind it. -/
def JobKept (a b : Job) : Prop := b = { a with vmt := { a.vmt with txc := b.vmt.txc } }

/-- A job is as it was, but that the stroke core contexts that a debug session held halted run again (R530). -/
def JobResumed (a b : Job) : Prop :=
  b = a ∨ b = { a with tasks := { a.tasks with dies := a.tasks.dies.map (fun d => { d with regs := { d.regs with halted := false } }) } }

/-! ### Time -/

/-- Nothing falls due with the next tick: no trigger, no buoy, no trace record, no received byte, no step into P3, no entry of a
ROUTE_LOAD, no doorbell of a halted Cox; and no programmable counter counts. -/
def Quiet (s : State) : Prop :=
  (∀ sc ∈ allScopes, (triggerOf s sc).armed = true → (s.clock.now + 1) % 2 ^ 64 < (triggerOf s sc).at_.toNat) ∧
  ((s.clock.now + 1) % 2 ^ 64 / 2 ^ 30 = s.clock.buoys ∨ s.power.mode = .rest) ∧
  (∀ sc d, (getStream s sc d).queue = []) ∧ (∀ p : Fin 32, (port s p).rxFill.toList.all (· == 0) = true) ∧
  s.power.entry = none ∧ s.cox.rung = [] ∧ (∀ b ∈ s.cox.running, ∀ bulk first n dies done, b.work ≠ .routes bulk first n dies done) ∧
  s.clock.pmu.toList.all (fun c => !c.enable) = true

/-- The state after a tick with which nothing falls due, of a clock that is not LOCKED. -/
def plainTick (s : State) : State :=
  { s with
    clock := { s.clock with
      now := (s.clock.now + 1) % 2 ^ 64
      cycles := if s.power.mode = .rest then s.clock.cycles else (s.clock.cycles + 3) % 2 ^ 64 }
    rst := { s.rst with refTicks := if s.rst.refclkOk then s.rst.refTicks + 1 else s.rst.refTicks } }

/-! ### Unlor commands -/

/-- The command that the Cox copies when a host function has written `c` with an opcode into a slot and rung it (R546). -/
def sent (op : BitVec 16) (c : HostCmd) : Cmd := Cmd.ofImage c.fn c.mb (slotImage op c) c.dma none

/-- The Cox takes the command at once: the function's BAR0 answers the request, on its IDE stream or off it, the slot is not busy,
no changeover runs and no debug session holds the Cox halted (R509, R530, R541, R543, R575); the loader of a boot from PCIe serves
slot 0 (R606). -/
def Taken (c : HostCmd) (s : State) : Prop :=
  boxOpen s c.fn = true ∧ (s.rst.phase = .loader → c.mb = 0) ∧ (∀ i, slotOfFn c.fn = some i → hostLocked s i c.ide = false) ∧
  s.host[c.fn].busy.getLsbD c.mb.val = false ∧ s.cox.change = none ∧ s.cox.halted = false

/-- The Cox takes the command, and the checks of R553 that come before its own pass; the loader takes VERSION and
FW_LOAD alone. -/
def Accepts (op : BitVec 16) (c : HostCmd) (s : State) : Prop :=
  Taken c s ∧ preCheck s (sent op c) = none ∧ (s.rst.phase = .loader → op = 0x0001 ∨ op = 0x0050)

/-- The state in which the Cox runs a command that it has taken: the slot is written, and its busy bit is set. -/
def atTake (op : BitVec 16) (c : HostCmd) (s : State) : State :=
  modHost c.fn (fun h => { h with busy := h.busy ||| (1#16 <<< c.mb.val) })
    (modHost c.fn (fun h => { h with cmd := h.cmd.set c.mb (slotImage op c) }) s)

/-- A field of the reply in a slot (R548). -/
def replyFld (s : State) (fn : Fin 65) (mb : Fin 16) (hi lo : Nat) : Nat := fld s.host[fn].reply[mb].toNat hi lo

/-- The command's final reply stands in its slot with a status, and the slot is not busy (R548). -/
def Answered (c : HostCmd) (st : BitVec 8) (t : State) : Prop :=
  replyFld t c.fn c.mb 31 16 = c.seq.toNat ∧ replyFld t c.fn c.mb 71 64 = st.toNat ∧ t.host[c.fn].busy.getLsbD c.mb.val = false

/-- The command runs on after its ACCEPTED with a piece of work (R552). -/
def Started (c : HostCmd) (w : BgWork) (t : State) : Prop := ∃ b ∈ t.cox.running, b.fn = c.fn ∧ b.mb = c.mb ∧ b.seq = c.seq ∧ b.work = w

/-- The end of a command's background work reaches the Cox: it runs, no debug session holds it halted, and the command is the
one that runs in its slot (R530, R552). -/
def EndsWork (b : BgCmd) (s : State) : Prop :=
  s.cox.halted = false ∧ (powered s || s.rst.phase == .loader) = true ∧
  s.cox.running.find? (fun x => x.fn == b.fn && x.mb == b.mb) = some b

/-- Opcode and words of each row that a host function sends as an Unlor command (R566). -/
def unlorRow : Instr → Option (BitVec 16 × HostCmd)
  | .unlorVersion c => some (0x0001, c)
  | .unlorGet c => some (0x0002, c)
  | .unlorSet c => some (0x0003, c)
  | .setTime c => some (0x0003, fixPayload c 15 0 0x40)
  | .pmuTriggerArm c => some (0x0003, fixPayload c 15 0 0x43)
  | .unlorReservedOpcode op c => some (op, c)
  | .jobCreate c => some (0x0010, c)
  | .jobAttest c => some (0x0011, c)
  | .jobKey c => some (0x0012, c)
  | .jobReady c => some (0x0013, c)
  | .jobStart c => some (0x0014, c)
  | .jobPause c => some (0x0015, c)
  | .jobResume c => some (0x0016, c)
  | .taskReset c => some (0x0017, c)
  | .jobSeal c => some (0x0018, c)
  | .jobTear c => some (0x0019, c)
  | .jobFree c => some (0x001A, c)
  | .frameGrant c => some (0x0020, c)
  | .frameRevoke c => some (0x0021, c)
  | .jobMap c => some (0x0022, c)
  | .jobUnmap c => some (0x0023, c)
  | .asGrant c => some (0x0024, c)
  | .routeLoad c => some (0x0030, c)
  | .laneSwap c => some (0x0031, fixPayload c 19 16 0)
  | .laneSwapBack c => some (0x0031, fixPayload c 19 16 1)
  | .laneRetrain c => some (0x0031, fixPayload c 19 16 2)
  | .linkClear c => some (0x0032, c)
  | .meFenceFence c => some (0x0033, fixPayload c 19 16 0)
  | .meFenceReturn c => some (0x0033, fixPayload c 19 16 1)
  | .lcProvision c => some (0x0040, c)
  | .lcDeploy c => some (0x0041, c)
  | .lcHold c => some (0x0042, c)
  | .lcRetire c => some (0x0043, c)
  | .opMgmtKey c => some (0x0044, c)
  | .fwCommit c => some (0x0045, c)
  | .dbgOpen c => some (0x0046, c)
  | .dbgClose c => some (0x0047, c)
  | .pwrSetRun c => some (0x0048, fixPayload c 1 0 0)
  | .pwrSetHold c => some (0x0048, fixPayload c 1 0 1)
  | .pwrSetRest c => some (0x0048, fixPayload c 1 0 2)
  | .pwrSetOff c => some (0x0048, fixPayload c 1 0 3)
  | .fwLoad c => some (0x0050, c)
  | .fwChangeover c => some (0x0051, c)
  | .tally c => some (0x0060, c)
  | .logRead c => some (0x0061, c)
  | .devReset c => some (0x0062, c)
  | _ => none

/-! ### Tasks and cores -/

/-- Nothing of a job waits for a counter or for its watch: no WAIT task, no open bucket, no closing record, no verdict that
drops. -/
def Calm (s : State) (slot : Fin 64) : Prop :=
  (∀ die : Fin 4, ∀ p ∈ (jobDie s slot die).entries, ∀ n th d, p.2.run ≠ .wait n th d) ∧ s.jobs[slot].buckets = [] ∧
  s.jobs[slot].watch.st ≠ .closing ∧ s.jobs[slot].watch.dropping = false

/-- A descriptor without successors (R176). -/
def NoSuccessors (d : Nat) : Prop := (∀ k, k < 8 → succKind (dSucc d k) = 0) ∧ dOvfCount d = 0

/-- The 32-bit word that a core fetches at its pc (R202). -/
def Fetches (s : State) (c : CoreId) (slot : Fin 64) (w : Nat) : Prop :=
  coreSlot s c = some slot ∧ (coreRegs s c).pc.toNat % 2 = 0 ∧ w % 4 = 3 ∧ w < 2 ^ 32 ∧
  peek s slot (coreRegs s c).pc.toNat 2 = ⟨leBytes 2 (w % 65536), .ok⟩ ∧
  peek s slot ((coreRegs s c).pc.toNat + 2) 2 = ⟨leBytes 2 (w / 65536), .ok⟩

/-- A core has gone on by one instruction of four bytes, with a value in a register (x0 stays 0). -/
def WentOn (s t : State) (c : CoreId) (rd : BitVec 5) (v : BitVec 64) : Prop :=
  (coreRegs t c).pc = (coreRegs s c).pc + 4 ∧ getX t c rd = (if rd = 0 then 0 else v) ∧ ∀ r, r ≠ rd → getX t c r = getX s c r

/-! ### Matrix and vector engines -/

/-- A task whose outputs are arrays: no retained entry and no paired instance (R92). -/
def ArrayOutputs (d : Nat) : Prop := mKind0 d = 0 ∧ mKind1 d < 2

/-- No matrix task is due to end in fault for units that found no engine (R102), and no engine waits to be fenced (R118). -/
def Undisturbed (s : State) : Prop :=
  (∀ slot die, ∀ p ∈ (jobDie s slot die).entries, ∀ n d tot back f, p.2.run ≠ .matrix n d tot back (some f)) ∧
  ∀ e : Fin 68, s.engines[e].fence = false

/-- The units of a group of parts have left every engine, and every other unit stays. -/
def GroupLeft (s t : State) (u : MatUnit) (parts : Nat) : Prop :=
  ∀ e : Fin 68, t.engines[e].units = s.engines[e].units.filter (fun x => !MatUnit.isOf u.task u.unit parts x)

/-- The instance of a vector engine executes an instruction whose fields are well formed, and which is not the last one
it executes (R136, R138). -/
def Executes (s : State) (ve : Fin 64) (op : Nat) (f : VFields) (i : VecInst) : Prop :=
  vReady s ve = some i ∧ vFieldsOk op f = true ∧ i.next.pc < i.count

/-- A vector engine's instance has gone on to its next instruction, here from `i`; no other vector engine, no matrix
engine and no byte of memory has changed. -/
def VectorWentOn (s t : State) (ve : Fin 64) (i : VecInst) : Prop :=
  t.ves[ve].inst = some i.next ∧ (∀ v : Fin 64, v ≠ ve → t.ves[v] = s.ves[v]) ∧ t.mem.cells = s.mem.cells ∧ t.engines = s.engines

/-- The value that an instruction of R137 gives lane `l` of td, for each instruction that computes lane by lane: its
engine, fields, opcode and value. -/
def laneRow : Instr → Option (Fin 64 × VFields × Nat × (VecEng → VecInst → Nat → F32))
  | .tmov ve f => some (ve, f, 0x04, fun e _ l => lane (getTile e f.ta) l)
  | .tbcast ve f => some (ve, f, 0x05, fun _ i _ => (i.getCs f.cs).setWidth 32)
  | .trowb ve f => some (ve, f, 0x06, fun e _ l => lane (getTile e f.ta) (64 * (l / 64) + fld f.imm.toNat 5 0))
  | .tcolb ve f => some (ve, f, 0x07, fun e _ l => lane (getTile e f.ta) (64 * fld f.imm.toNat 4 0 + l % 64))
  | .tadd ve f => some (ve, f, 0x10, fun e _ l => f32add (lane (getTile e f.ta) l) (lane (getTile e f.tb) l))
  | .tsub ve f => some (ve, f, 0x11, fun e _ l => f32sub (lane (getTile e f.ta) l) (lane (getTile e f.tb) l))
  | .tmul ve f => some (ve, f, 0x12, fun e _ l => f32mul (lane (getTile e f.ta) l) (lane (getTile e f.tb) l))
  | .tfma ve f => some (ve, f, 0x13, fun e _ l => f32fma (lane (getTile e f.ta) l) (lane (getTile e f.tb) l) (lane (getTile e f.tc) l))
  | .tmin ve f => some (ve, f, 0x14, fun e _ l => f32pick false (lane (getTile e f.ta) l) (lane (getTile e f.tb) l))
  | .tmax ve f => some (ve, f, 0x15, fun e _ l => f32pick true (lane (getTile e f.ta) l) (lane (getTile e f.tb) l))
  | .tdiv ve f => some (ve, f, 0x16, fun e _ l => f32div (lane (getTile e f.ta) l) (lane (getTile e f.tb) l))
  | .tsqrt ve f => some (ve, f, 0x17, fun e _ l => f32sqrt (lane (getTile e f.ta) l))
  | .tiadd ve f => some (ve, f, 0x18, fun e _ l => lane (getTile e f.ta) l + lane (getTile e f.tb) l)
  | .tfunc ve f => some (ve, f, 0x30, fun e _ l =>
      if fld f.imm.toNat 3 0 < 12 then builtin (fld f.imm.toNat 3 0) (bitAt f.imm.toNat 4) (lane (getTile e f.ta) l)
      else match e.tables.find (2 * fld f.imm.toNat 3 0 + if bitAt f.imm.toNat 4 then 1 else 0) with
        | some t => t.eval (lane (getTile e f.ta) l)
        | none => f32nan)
  | _ => none

/-! ### Transport -/

/-- A job can issue requests to a peer at once: it is another node, the job has a flow with it on which nothing waits and
which has room, and every payload can be read (R336, R337, R339). -/
def CanIssue (s : State) (slot : Fin 64) (peer : BitVec 18) (rs : List TxReq) : Prop :=
  (nodeValid s = true → peer ≠ ownNode s) ∧ hasFlow s slot peer = true ∧ (flowOf s slot peer).waiting = [] ∧
  (flowOf s slot peer).out.length + rs.length ≤ 4096 ∧ ∀ r ∈ rs, (reqPayload s slot r).2 = .ok

/-- Requests have been issued to a peer: they stand unanswered in the flow, in order, under the next sequence numbers. -/
def Issued (s t : State) (slot : Fin 64) (peer : BitVec 18) (rs : List TxReq) : Prop :=
  (flowOf t slot peer).txNext = (flowOf s slot peer).txNext + BitVec.ofNat 32 rs.length ∧
  ∃ os, (flowOf t slot peer).out = (flowOf s slot peer).out ++ os ∧ os.map (·.req) = rs ∧
    ∀ k o, os[k]? = some o → o.seq = (flowOf s slot peer).txNext + BitVec.ofNat 32 k ∧ o.tryN = 0

/-- A VMT frame passes the port and check 1 of R360 as a packet of a job (R342, R380, R397). -/
def Reaches (s : State) (a : Arrival) (op : Byte) (slot : Fin 64) : Prop :=
  a.fecBad = 0 ∧ a.fcsOk = true ∧ frameFaulty s a = false ∧ a.pkt.vl ≠ 7 ∧ s.fabric.accepting = true ∧ forOther s a = false ∧
  check1 s op a.pkt = .job slot

/-- The state in which an accepted frame is consumed: it is counted, its bytes stand in the port's buffer, and its credits are
freed (R401, R403, R472). -/
def atPort (a : Arrival) (s : State) : State :=
  freeCredits a (countRx a.port (rxFillTo a.port a.shim.vl (fun b => b + arrivalBytes s a) (countFec a s)))

/-- A request is the next of its flow at the target, and nothing is held (R338, R363). -/
def NextInOrder (s : State) (a : Arrival) (slot : Fin 64) : Prop :=
  hasFlow s slot a.pkt.src = true ∧ (flowOf s slot a.pkt.src).disposed = [] ∧
  a.pkt.seq = (flowOf s slot a.pkt.src).rxW + 1 ∧ s.fabric.hold = []

/-- The state in which a target applies a request that has arrived. -/
def atTarget (a : Arrival) (slot : Fin 64) (s : State) : State :=
  modFlow slot a.pkt.src (fun f => { f with ioDie := ioDie s a.port }) (atPort a s)

/-- A target has disposed of a request and its job's flow goes on: W has moved to it, and an ACK is due (R338, R364). -/
def Disposed (t : State) (a : Arrival) (slot : Fin 64) : Prop :=
  (flowOf t slot a.pkt.src).rxW = a.pkt.seq ∧ (flowOf t slot a.pkt.src).disposed = [] ∧ (flowOf t slot a.pkt.src).ackDue = true

/-- The state in which the answer of a LOAD lands at its source. -/
def atAnswer (a : Arrival) (slot : Fin 64) (o : Outstanding) (s : State) : State :=
  countEnd slot none false (dropOut slot a.pkt.src o.seq (ceEcho a.pkt.src o (some a.pkt.tryN.toNat) a.shim.ceEcho (atPort a s)))

/-- A task whose requests have been answered without failure so far, and which is no PERMUTE (R352). -/
def Clean (s : State) (t : TaskRef) : Prop :=
  isPermute (entryOf s t).desc = false ∧ ∀ k, (entryOf s t).run.track = some k → k.fail = none

/-! ### Frames -/

/-- No port but one has changed its state. -/
def OthersStay (p : Fin 32) (s t : State) : Prop := ∀ q, q ≠ p → (port t q).st = (port s q).st

/-- A port sends a frame of another kind than VMT to its partner as soon as it is asked to: nothing waits at it, and no lane
swap, want of credits or pause stands in the way (R399, R400, R403, R409). -/
def SendsAtOnce (s : State) (p : Fin 32) (k : FrameKind) (data : List Nat) : Prop :=
  (port s p).st.live = true → (port s p).queue = [] ∧ canSend s p (otherFrame s p k data 0 0) = true

/-- Nothing stands in the way of time messages that take `n` credits. -/
def TimeRoom (s : State) (p : Fin 32) (n : Nat) : Prop :=
  (port s p).queue = [] ∧ swapping s p = false ∧ lanePaused s p 6 = false ∧
  (isCrew s p = true → ((port s p).credSent[creditIdx 6 false] - (port s p).credBack[creditIdx 6 false]).toNat + n ≤ 64)

/-- A frame of another kind than VMT as a port sends it to its partner. -/
def frameOut (s : State) (p : Fin 32) (k : FrameKind) (data : List Nat) : OutEvent := .frame p (hdrOther s p k 0 0) k data

/-- A port may accept a control frame: fewer than ctl_rate have come within a second (R406). -/
def CtlRoom (s : State) (p : Fin 32) : Prop :=
  (within 800000000 s.clock.now (port s p).ctlTimes).length < devFld s oLINK_CFG 0 87 72

/-- The commands of a port's link: its signals, timers and control frames. -/
def linkRow : Instr → Bool
  | .portSignalDetect _ => true
  | .trainingComplete _ => true
  | .trainingTimeout _ => true
  | .portLost _ => true
  | .portSilenceTimeout _ => true
  | .helloReceive _ _ => true
  | .proofReceive _ _ => true
  | .helloResend _ => true
  | .discoveryTimeout _ => true
  | .quarantineRetry _ => true
  | .lldpTimer _ => true
  | .lldpReceive _ _ => true
  | .creditFrame _ _ => true
  | .creditFrameSend _ => true
  | .creditStallTimeout _ _ => true
  | .promoteTimeout _ => true
  | .dampReuse _ => true
  | .pfcFrame _ _ _ => true
  | .neighborSolicitation _ _ _ => true
  | .linkctlSwap _ _ _ => true
  | .linkctlAccept _ _ _ _ => true
  | .swapMarker _ _ => true
  | .laneSwapTimeout _ => true
  | .autoSpareTrigger _ => true
  | .congestionDecay => true
  | _ => false

end Sys2Proof.Machine
end

