-- ==== Sys2Proof/Certificates/Slice0/Obligations.lean ====
section
/-! DEFINITION. The statements for the provers, from the numbered rules of the spec. -/

open Sys2Proof Sys2Proof.Machine

/-! ### The block -/

/-- STEP: a step runs the command at the front of the queue on the state with the rest of the queue. -/
def Obligations.StepRunsTheFrontCommand : Prop :=
  ∀ (c : Instr) (rest : List Instr) (s : State), s.pending = c :: rest → step s = exec c { s with pending := rest }

/-- R452, R476 and the model's choice of notes/assumptions/2: an idle step is one tick. While the clock is not LOCKED and nothing
falls due, global time counts 1 and, outside P3, the cycle counters 3; the always-on domain counts on REFCLK (R598); nothing else
changes. A trigger whose time the tick reaches fires with it (R475), on a device on which nothing else falls due. -/
def Obligations.EmptyQueueIsOneTick : Prop :=
  (∀ (s : State), s.pending = [] → s.rst.phase = .running → s.clock.t.st ≠ .locked → Quiet s → step s = .next (plainTick s)) ∧
  (∀ (s : State), s.pending = [] → s.rst.phase = .running → s.clock.t.st ≠ .locked → Quiet { s with clock := { s.clock with trigger := Trigger.reset } } →
    s.clock.trigger.armed = true → s.clock.trigger.at_.toNat = (s.clock.now + 1) % 2 ^ 64 →
    ∃ t, step s = .next t ∧ t.clock.trigger.armed = false)

/-- R283, R289, R452, R483, R525, R541, R542, R558: what the state after reset holds where the spec gives it. -/
def Obligations.ResetHoldsTheSpecsValues : Prop :=
  State.reset.pending = [] ∧ State.reset.mem.cells = [] ∧ State.reset.mem.sectors = [] ∧ State.reset.numVfs = 0 ∧
  State.reset.clock.now = 0 ∧ State.reset.clock.t.st = .unset ∧ State.reset.power.mode = .run ∧ State.reset.power.holders = [] ∧
  (∀ slot : Fin 64, jobSt State.reset slot = .empty ∧ (ctl State.reset slot).grants = [] ∧ State.reset.sec.jobKeys[slot] = none) ∧
  (∀ fn : Fin 65, State.reset.host[fn].busy = 0 ∧ State.reset.host[fn].irq = 0 ∧ State.reset.host[fn].irqMask = 0xFFFF ∧
    State.reset.host[fn].intCause = 0 ∧ State.reset.host[fn].intMask = 0xFFFFFFFF ∧ State.reset.host[fn].version = none)

/-- The state after reset meets the invariant. -/
def Obligations.ResetMeetsTheInvariant : Prop := State.reset.Inv

/-- Every step keeps the invariant: memory stays in canonical form and at most 64 functions are enabled (R541). -/
def Obligations.EveryStepKeepsTheInvariant : Prop := ∀ (s t : State), s.Inv → step s = .next t → t.Inv

/-- Every named operation that writes memory keeps its canonical form. -/
def Obligations.MemoryOperationsKeepCanonicalForm : Prop :=
  ∀ (s : State), s.mem.wf = true →
    (∀ slot va bs, (jobWrite slot va bs s).1.mem.wf = true) ∧
    (∀ slot va len, (jobRead s slot va len).2.mem.wf = true ∧ (jobPoison slot va len s).mem.wf = true) ∧
    (∀ slot va n f, (jobRmw slot va n f s).2.2.mem.wf = true) ∧
    (∀ r, (scrubFrames r s).mem.wf = true) ∧ (∀ die pg, (zeroAsPage die pg s).mem.wf = true) ∧
    (∀ slot n, (addCounter slot n s).1.mem.wf = true)

/-- R277, R281, R282, R285, R286, R344: bytes read back what was written. A write under a job's tag stores its bytes under the
job's key and leaves every other address; what a job writes at mapped addresses within one sector it reads back, where its
pages start at multiples of a sector, as MAP leaves them. -/
def Obligations.BytesAndJobsReadBackWhatWasWritten : Prop :=
  (∀ (s t : State) (tag : BitVec 16) (dpa : Nat) (bs : List Byte), s.mem.wf = true → 0 < bs.length → dpa % 64 + bs.length ≤ 64 →
      writePart tag dpa bs s = (t, .ok) →
      readPart t tag dpa bs.length = (bs, false) ∧
      (∀ a, a < dpa ∨ dpa + bs.length ≤ a → a / 64 ≠ dpa / 64 ∨ isAs dpa = true → cellGet t.mem.cells a = cellGet s.mem.cells a) ∧
      (isAs dpa = false → ∀ a, a < dpa ∨ dpa + bs.length ≤ a → a / 64 = dpa / 64 → sectorData t tag a 1 = sectorData s tag a 1)) ∧
  (∀ (s t : State) (slot : Fin 64) (va : Nat) (bs : List Byte), s.mem.wf = true → 0 < bs.length → va / 64 = (va + bs.length - 1) / 64 →
      (∀ p ∈ (ctl s slot).pages, p.va % 64 = 0) → mapped s slot va bs.length true true = true → jobWrite slot va bs s = (t, .ok) →
      peek t slot va bs.length = ⟨bs, .ok⟩)

/-! ### Words of the mailboxes -/

/-- R546 to R548: a command written into a slot is read out of it with every field, and a reply holds every field at its bits. -/
def Obligations.MailboxWordsHoldEveryField : Prop :=
  (∀ (op : BitVec 16) (c : HostCmd),
      (sent op c).opcode = op ∧ (sent op c).seq = c.seq ∧ (sent op c).handle = c.handle ∧ (sent op c).length = c.length.toNat ∧
      (sent op c).ind = c.ind ∧ (sent op c).indAddr = c.indAddr ∧ (sent op c).indLen = c.indLen.toNat ∧ (sent op c).rsv = c.rsv ∧
      (sent op c).payload = c.payload.toNat) ∧
  (∀ (s : State) (opcode seq handle : BitVec 16) (b : ReplyBody),
      b.length < 2 ^ 16 → b.indDone < 2 ^ 32 → b.detail < 2 ^ 64 →
      let v := (replyImage s opcode seq handle b).toNat
      fld v 15 0 = opcode.toNat ∧ fld v 31 16 = seq.toNat ∧ fld v 47 32 = b.length ∧ fld v 63 48 = handle.toNat ∧
      fld v 71 64 = b.status.toNat ∧ fld v 87 80 = replyJobState s handle ∧ fld v 127 96 = b.indDone ∧
      fld v 191 128 = b.detail ∧ fld v 255 192 = s.clock.now % 2 ^ 64 ∧ fld v 2047 256 = b.payload % 2 ^ 1792)

/-- R553, R566: a command that fails a check of R553 is answered with that check's status, and nothing but
the mailboxes changes; an opcode that the catalogue does not list is BAD_OPCODE. -/
def Obligations.RefusedCommandsChangeNoJob : Prop :=
  (∀ (i : Instr) (op : BitVec 16) (c : HostCmd) (s : State) (b : ReplyBody),
      unlorRow i = some (op, c) → Taken c s → preCheck s (sent op c) = some b →
      Completes i s (fun t => Answered c b.status t ∧ Changes [.host, .out] s t)) ∧
  (∀ (op : BitVec 16) (c : HostCmd) (s : State), Taken c s → opKnown op.toNat = false → s.host[c.fn].version.isSome = true →
      Completes (.unlorReservedOpcode op c) s (fun t => Answered c stBAD_OPCODE t ∧ Changes [.host, .out] s t))

/-! ### Versions and objects -/

/-- R556, R563, R564: VERSION negotiates the highest of 5.0 to 5.2 that lies in the host's range and replies with it; an
inline GET replies with the object's generation and image; neither changes an object, a job or the memory. -/
def Obligations.VersionAndGetReply : Prop :=
  (∀ (c : HostCmd) (s : State) (m : Nat), Accepts 0x0001 c s →
      let d := sent 0x0001 c
      d.pl 31 16 = 0 → m ≤ 2 → d.pl 47 32 ≤ 1280 + m → 1280 + m ≤ d.pl 63 48 →
      (∀ k, m < k → k ≤ 2 → ¬ (d.pl 47 32 ≤ 1280 + k ∧ 1280 + k ≤ d.pl 63 48)) →
      Completes (.unlorVersion c) s (fun t => Answered c stOK t ∧ t.host[c.fn].version = some (BitVec.ofNat 8 m) ∧
        replyFld t c.fn c.mb 271 256 = 1280 + m ∧ t.jobs = s.jobs ∧ t.mem = s.mem ∧ t.objs = s.objs)) ∧
  (∀ (c : HostCmd) (s : State), Accepts 0x0002 c s →
      let d := sent 0x0002 c
      let id := d.pl 15 0
      let sub := d.pl 31 16
      d.pl 63 32 = 0 → objKnown id = true → objGranted s c.fn id sub false = true → subOk id sub = true → c.ind = false →
      objSize s id sub ≤ 216 →
      Completes (.unlorGet c) s (fun t => Answered c stOK t ∧
        replyFld t c.fn c.mb 47 32 = 8 + objSize s id sub ∧
        replyFld t c.fn c.mb 287 256 = (objGen s (objKey c.fn id sub)).toNat ∧
        replyFld t c.fn c.mb 2047 320 = (objImage (atTake 0x0002 c s) c.fn id sub) % 2 ^ 1728 ∧
        t.objs = s.objs ∧ t.jobs = s.jobs ∧ t.mem = s.mem))

/-- R563: a SET that passes its checks stores the writable fields of what was sent, raises the object's generation
by 1 and is answered OK (that of a window at once where no request is held that was checked against it, R359). -/
def Obligations.SetStoresTheWritableFields : Prop :=
  ∀ (c : HostCmd) (s : State), Accepts 0x0003 c s →
    let d := sent 0x0003 c
    let id := d.pl 15 0
    let sub := d.pl 31 16
    let n := objSize s id sub
    let v := (d.payload >>> 64) % 2 ^ (8 * n)
    objKnown id = true → objGranted s c.fn id sub true = true → subOk id sub = true → c.ind = false → d.length = 8 + n →
    d.pl 63 32 = (objGen s (objKey c.fn id sub)).toNat → heldElsewhere id = false →
    (id = 0x1B → ∀ i, slotOfFn c.fn = some i → windowHeld s i sub = false) →
    (setRule (atTake 0x0003 c s) c.fn id sub v).check v 40 = none →
    Completes (.unlorSet c) s (fun t => Answered c stOK t ∧
      objBits t (objKey c.fn id sub) = keepFields v (setRule (atTake 0x0003 c s) c.fn id sub v).rw ∧
      objGen t (objKey c.fn id sub) = objGen s (objKey c.fn id sub) + 1)

/-- R453, R454, R474, R475: SET on OBJ_TIME with a time that is not 0 sets global time, which is FREE; SET on
OBJ_PMU_TRIGGER with arm arms the trigger for its time, which lies ahead. -/
def Obligations.SetTimeAndArmTrigger : Prop :=
  (∀ (c : HostCmd) (s : State),
      let c' := fixPayload c 15 0 0x40
      let d := sent 0x0003 c'
      let n := objSize s 0x40 0
      let v := (d.payload >>> 64) % 2 ^ (8 * n)
      Accepts 0x0003 c' s → d.pl 31 16 = 0 → c.ind = false → objGranted s c.fn 0x40 0 true = true → d.length = 8 + n →
      d.pl 63 32 = 0xFFFFFFFF → (setRule (atTake 0x0003 c' s) c.fn 0x40 0 v).check v 40 = none → fld v 575 512 ≠ 0 →
      Completes (.setTime c) s (fun t => Answered c stOK t ∧ t.clock.now = fld v 575 512 ∧ t.clock.t.st = .free ∧ t.clock.t.slew = 0)) ∧
  (∀ (c : HostCmd) (s : State),
      let c' := fixPayload c 15 0 0x43
      let d := sent 0x0003 c'
      let n := objSize s 0x43 0
      let v := (d.payload >>> 64) % 2 ^ (8 * n)
      Accepts 0x0003 c' s → d.pl 31 16 = 0 → c.ind = false → objGranted s c.fn 0x43 0 true = true → d.length = 8 + n →
      d.pl 63 32 = 0xFFFFFFFF → (setRule (atTake 0x0003 c' s) c.fn 0x43 0 v).check v 40 = none →
      bitAt v 0 = true → s.clock.now ≤ fld v 127 64 →
      Completes (.pmuTriggerArm c) s (fun t => Answered c stOK t ∧ (triggerOf t (slotOfFn c.fn)).armed = true ∧
        (triggerOf t (slotOfFn c.fn)).at_.toNat = fld v 127 64 ∧ (triggerOf t (slotOfFn c.fn)).action.toNat = fld v 2 1 ∧
        t.mem = s.mem))

/-! ### Jobs -/

/-- R557: JOB_CREATE takes an EMPTY slot of an enabled function to CREATED under its next incarnation, never 0 (R559), and
replies with the job's handle, which is its job tag: the slot in 15:10, the incarnation in 9:0. The handle 0 names no job. -/
def Obligations.JobCreateTakesAnEmptySlot : Prop :=
  (∀ (c : HostCmd) (s : State) (i : Fin 64), Accepts 0x0010 c s →
    let d := sent 0x0010 c
    d.pl 63 6 = 0 → d.pl 5 0 = i.val → jobSt s i = .empty → i.val < s.numVfs → d3Open s = false →
    Completes (.jobCreate c) s (fun t => Answered c stOK t ∧ jobSt t i = .created ∧ (ctl t i).incarnation ≠ 0 ∧
      ((ctl s i).incarnation ≠ 0x3FF → (ctl t i).incarnation = (ctl s i).incarnation + 1) ∧
      replyFld t c.fn c.mb 63 48 = (jobTag t i).toNat ∧
      replyFld t c.fn c.mb 63 58 = i.val ∧ replyFld t c.fn c.mb 57 48 = (ctl t i).incarnation.toNat ∧
      (∀ j : Fin 64, j ≠ i → t.jobs[j] = s.jobs[j]) ∧ t.mem = s.mem)) ∧
  (∀ (c : HostCmd) (s : State), Taken c s → c.fn = pf0 → s.host[c.fn].version.isSome = true → c.handle = 0 → c.length = 0 → c.rsv = 0 →
    s.cox.running = [] →
    Completes (.jobReady c) s (fun t => Answered c stSTATE t ∧ t.jobs = s.jobs ∧ t.mem = s.mem))

/-- R493, R496, R497, R501: JOB_ATTEST of a CREATED job makes an ephemeral key for the slot and sends a signed report that holds
the nonce; JOB_KEY with a bundle that opens fills the
slot's keys and the engines' copies of them, consumes the ephemeral key and takes the job to KEYED. -/
def Obligations.JobAttestAndKeyFillTheSlot : Prop :=
  (∀ (c : HostCmd) (s : State), Accepts 0x0011 c s →
      let d := sent 0x0011 c
      c.handle ≠ 0 → c.ind = true → 384 ≤ c.indLen.toNat → s.sec.lifecycle ≠ .retired → jobSt s d.slot = .created → c.dma.writeFail = none →
      Completes (.jobAttest c) s (fun t => Answered c stOK t ∧ t.jobs = s.jobs ∧ t.mem = s.mem ∧
        ∃ e, t.sec.eph[d.slot] = some e ∧ e.nonce = leBytes 32 (d.pl 255 0) ∧ OutEvent.dmaWrite c.fn c.indAddr e.report (fnLocked s c.fn) ∈ t.out)) ∧
  (∀ (c : HostCmd) (s : State) (e : Ephemeral) (v : Nat), Accepts 0x0012 c s →
      let d := sent 0x0012 c
      let i := d.slot
      s.sec.lifecycle = .deployed → jobSt s i = .created → s.clock.t.st ≠ .unset → s.sec.eph[i] = some e →
      unwrap (d.pl 1727 0) 104 i.val (ctl s i).incarnation.toNat e = some v → fld v 35 3 = 0 →
      (fld v 1 1 = 1 → jobFld s oJOB_POLICY i 0 1 1 = 0) → (fld v 0 0 = 1 → jobFld s oJOB_POLICY i 0 2 2 = 1) →
      fld v 43 36 ≤ s.cox.image.svn.toNat → (∀ j : Fin 64, j ≠ i → s.jobs[j].vmt.jobId ≠ some (BitVec.ofNat 20 (fld v 63 44))) →
      Completes (.jobKey c) s (fun t => Answered c stOK t ∧ jobSt t i = .keyed ∧ t.sec.jobKeys[i] = some (keysOf v) ∧
        (∀ k : Fin 20, t.sec.memTables[k][i] = some (keysOf v).memKey) ∧ (∀ x : Fin 2, t.sec.pktTables[x][i] = some (keysOf v).fabKey) ∧
        t.sec.eph[i] = none ∧ t.jobs[i].vmt.jobId = some (BitVec.ofNat 20 (fld v 63 44)) ∧ t.jobs[i].vmt.txc = 0 ∧
        (∀ j : Fin 64, j ≠ i → t.jobs[j] = s.jobs[j]) ∧ t.mem = s.mem))

/-- R209, R559: JOB_READY takes KEYED to READY; JOB_START takes READY, and JOB_RESUME PAUSED, to RUNNING (where no WAIT task
has ended, no bucket has its count, no watch record is closing and no verdict drops); JOB_PAUSE of a RUNNING job without waiting CLOSE steps leaves it
PAUSED when none of its tasks runs, and DRAINING otherwise. -/
def Obligations.ReadyStartPauseResumeMoveTheJob : Prop :=
  ((∀ (c : HostCmd) (s : State), Accepts 0x0013 c s → jobSt s (sent 0x0013 c).slot = .keyed →
      Completes (.jobReady c) s (fun t => Answered c stOK t ∧ jobSt t (sent 0x0013 c).slot = .ready ∧ t.mem = s.mem ∧
        (∀ j : Fin 64, j ≠ (sent 0x0013 c).slot → t.jobs[j] = s.jobs[j]))) ∧
    (∀ (c : HostCmd) (s : State), Accepts 0x0014 c s → jobSt s (sent 0x0014 c).slot = .ready →
      readyWait s (sent 0x0014 c).slot = none → fullHalf s (sent 0x0014 c).slot = none → s.jobs[(sent 0x0014 c).slot].watch.st ≠ .closing →
      s.jobs[(sent 0x0014 c).slot].watch.dropping = false →
      Completes (.jobStart c) s (fun t => Answered c stOK t ∧ jobSt t (sent 0x0014 c).slot = .running ∧ t.mem = s.mem ∧
        (∀ j : Fin 64, j ≠ (sent 0x0014 c).slot → JobKept s.jobs[j] t.jobs[j]))) ∧
    (∀ (c : HostCmd) (s : State), Accepts 0x0016 c s → jobSt s (sent 0x0016 c).slot = .paused →
      readyWait s (sent 0x0016 c).slot = none → fullHalf s (sent 0x0016 c).slot = none → s.jobs[(sent 0x0016 c).slot].watch.st ≠ .closing →
      s.jobs[(sent 0x0016 c).slot].watch.dropping = false →
      Completes (.jobResume c) s (fun t => Answered c stOK t ∧ jobSt t (sent 0x0016 c).slot = .running ∧ t.mem = s.mem ∧
        (∀ j : Fin 64, j ≠ (sent 0x0016 c).slot → JobKept s.jobs[j] t.jobs[j])))) ∧
  ((∀ (c : HostCmd) (s : State), Accepts 0x0015 c s → jobSt s (sent 0x0015 c).slot = .running →
      s.jobs[(sent 0x0015 c).slot].buckets = [] → readyWait s (sent 0x0015 c).slot = none →
      s.jobs[(sent 0x0015 c).slot].watch.st ≠ .closing → s.jobs[(sent 0x0015 c).slot].watch.dropping = false →
      Completes (.jobPause c) s (fun t =>
        jobSt t (sent 0x0015 c).slot = (if jobRuns s (sent 0x0015 c).slot then .draining else .paused) ∧ t.mem = s.mem ∧
        (∀ j : Fin 64, j ≠ (sent 0x0015 c).slot → JobKept s.jobs[j] t.jobs[j]))) ∧
    (∀ (c : HostCmd) (s : State), Accepts 0x0015 c s → jobSt s (sent 0x0015 c).slot = .paused →
      Completes (.jobPause c) s (fun t => Started c .made t ∧ t.jobs = s.jobs ∧ t.mem = s.mem)))

/-- R211, R333, R371, R501, R502, R554: TASK_RESET of a PAUSED job frees every entry of the dies in its mask that is not RUNNING;
JOB_SEAL raises the sealed step; JOB_TEAR takes a job to TORN with cause 1, destroys its keys and
the engines' copies of them, and ends its flows. -/
def Obligations.ResetSealAndTearActOnTheJob : Prop :=
  ((∀ (c : HostCmd) (s : State), Accepts 0x0017 c s →
      let d := sent 0x0017 c
      d.pl 63 4 = 0 → d.pl 3 0 ≠ 0 → jobSt s d.slot = .paused →
      Completes (.taskReset c) s (fun t => Answered c stOK t ∧ t.mem = s.mem ∧
        (∀ (die : Fin 4) (k : BitVec 16), bitAt (d.pl 3 0) die.val = true → (entryOf s ⟨d.slot, die, k⟩).st ≠ .running →
          (entryOf t ⟨d.slot, die, k⟩).st = .free 0))) ∧
    (∀ (c : HostCmd) (s : State), Accepts 0x0018 c s →
      let d := sent 0x0018 c
      jobSt s d.slot = .ready ∨ jobSt s d.slot = .running ∨ jobSt s d.slot = .draining ∨ jobSt s d.slot = .paused →
      Completes (.jobSeal c) s (fun t => Answered c stOK t ∧ t.jobs[d.slot].upd.sealedValid = true ∧
        t.jobs[d.slot].upd.sealedStep.toNat = max s.jobs[d.slot].upd.sealedStep.toNat (d.pl 63 0) ∧ t.mem = s.mem ∧
        (∀ j : Fin 64, j ≠ d.slot → t.jobs[j] = s.jobs[j])))) ∧
  (∀ (c : HostCmd) (s : State), Accepts 0x0019 c s →
      let i := (sent 0x0019 c).slot
      jobSt s i ≠ .empty → jobSt s i ≠ .torn → jobSt s i ≠ .scrubbing →
      Completes (.jobTear c) s (fun t => Answered c stOK t ∧ jobSt t i = .torn ∧ (ctl t i).tearCause = 1 ∧
        t.sec.jobKeys[i] = none ∧ (∀ k : Fin 20, t.sec.memTables[k][i] = none) ∧ (∀ x : Fin 2, t.sec.pktTables[x][i] = none) ∧
        t.sec.eph[i] = none ∧ t.jobs[i].vmt.jobId = none ∧ t.jobs[i].vmt.flows = []))

/-- R560: JOB_FREE takes a TORN job to SCRUBBING; at the end of the scrub the slot is EMPTY without frames, pages or
keys of entries, and every byte of the frames that it had reads 0. -/
def Obligations.FreeAndScrubEmptyTheSlot : Prop :=
  (∀ (c : HostCmd) (s : State), Accepts 0x001A c s → jobSt s (sent 0x001A c).slot = .torn →
    Completes (.jobFree c) s (fun t => Started c (.free (sent 0x001A c).slot) t ∧ jobSt t (sent 0x001A c).slot = .scrubbing ∧
      t.jobs[(sent 0x001A c).slot].tasks = JobTasks.reset ∧ t.mem = s.mem)) ∧
  (∀ (slot : Fin 64) (s : State), jobSt s slot = .scrubbing →
    Completes (.scrubComplete slot) s (fun t => jobSt t slot = .empty ∧ (ctl t slot).grants = [] ∧ (ctl t slot).pages = [] ∧
      (ctl t slot).incarnation = (ctl s slot).incarnation ∧ t.jobs[slot].tasks = JobTasks.reset ∧
      (∀ r ∈ (ctl s slot).grants, ∀ a, r.1 * frameBytes ≤ a → a < (r.1 + r.2) * frameBytes → cellGet t.mem.cells a = 0) ∧
      (∀ j : Fin 64, j ≠ slot → JobKept s.jobs[j] t.jobs[j])))

/-! ### Frames and pages -/

/-- R569: FRAME_GRANT gives free frames to a job; FRAME_REVOKE takes frames that no page maps from it, and they wait
for their scrub; FRAME_SCRUB_COMPLETE zeroes the lowest of them. -/
def Obligations.FramesAreGrantedRevokedAndScrubbed : Prop :=
  (∀ (c : HostCmd) (s : State), Accepts 0x0020 c s →
    let d := sent 0x0020 c
    let i := d.slot
    let n := d.pl 95 64
    d.pl 31 0 = 0 → d.pl 143 96 = 0 → d.pl 191 144 = 0 → n ≠ 0 → grantState (jobSt s i) = true → d.pl 63 32 + n ≤ grantable s →
    frameHeld s (d.pl 63 32) n = false →
    Completes (.frameGrant c) s (fun t => Answered c stOK t ∧ (ctl t i).grants = runsInsert (ctl s i).grants (d.pl 63 32, n) ∧
      (ctl t i).revoking = (ctl s i).revoking ∧ (∀ j : Fin 64, j ≠ i → t.jobs[j] = s.jobs[j]) ∧ t.mem = s.mem)) ∧
  (∀ (c : HostCmd) (s : State), Accepts 0x0021 c s →
    let d := sent 0x0021 c
    let i := d.slot
    let n := d.pl 95 64
    d.pl 31 0 = 0 → d.pl 143 96 = 0 → d.pl 191 144 = 0 → n ≠ 0 → grantState (jobSt s i) = true →
    runsOverlap (ctl s i).grants (d.pl 63 32) n = n → (∀ p ∈ (ctl s i).pages, runsMeet p.run (d.pl 63 32, n) = false) →
    Completes (.frameRevoke c) s (fun t => Started c (.revoke i) t ∧ (ctl t i).grants = runsRemove (ctl s i).grants (d.pl 63 32) n ∧
      (ctl t i).revoking = runsInsert (ctl s i).revoking (d.pl 63 32, n) ∧ (∀ j : Fin 64, j ≠ i → t.jobs[j] = s.jobs[j]) ∧ t.mem = s.mem)) ∧
  (∀ (slot : Fin 64) (s : State) (r : Nat × Nat) (rest : List (Nat × Nat)), (ctl s slot).revoking = r :: rest → 0 < r.2 →
    Completes (.frameScrubComplete slot) s (fun t =>
      (ctl t slot).revoking = (if r.2 = 1 then rest else (r.1 + 1, r.2 - 1) :: rest) ∧
      (∀ a, cellGet t.mem.cells a = if r.1 * frameBytes ≤ a ∧ a < (r.1 + 1) * frameBytes then 0 else cellGet s.mem.cells a) ∧
      (∀ j : Fin 64, j ≠ slot → JobKept s.jobs[j] t.jobs[j])))

/-- R275, R276, R569: MAP adds the pages it describes to the job, each at a multiple of its size; UNMAP takes the pages of a range and keeps every byte of
memory; AS_GRANT sets the quotas of the four dies. -/
def Obligations.MapUnmapAndAsGrantChangeTheJobsMemory : Prop :=
  (∀ (c : HostCmd) (s : State), Accepts 0x0022 c s →
      let d := sent 0x0022 c
      let i := d.slot
      let big := d.pl 1 1 == 1
      let per := if big then 512 else 1
      let va := d.pl 143 96
      let first := d.pl 63 32
      let n := d.pl 95 64
      jobSt s i = .keyed ∨ jobSt s i = .ready ∨ jobSt s i = .paused →
      d.pl 0 0 = 0 → d.pl 2 2 = 0 → d.pl 31 5 = 0 → d.pl 191 144 = 0 → 0 < n → n ≤ 65536 → va % sizeBytes big = 0 →
      (big = true → ∀ k, k < n → (first + 512 * k) / 10240 = (first + 512 * k + 511) / 10240) →
      first + per * n ≤ totalFrames s → runsOverlap (ctl s i).grants first (per * n) = per * n →
      (∀ j : Fin 64, ∀ p ∈ (ctl s j).pages, runsMeet p.run (first, per * n) = false) →
      (∀ p ∈ (ctl s i).pages, runsMeet (p.va, p.bytes) (va, n * sizeBytes big) = false) → va + n * sizeBytes big ≤ 0xFFF000000000 →
      Completes (.jobMap c) s (fun t => Answered c stOK t ∧
        (ctl t i).pages = (ctl s i).pages ++ mapPages va first n big (d.pl 3 3 == 1) (d.pl 4 4 == 1) ∧
        (∀ p ∈ mapPages va first n big (d.pl 3 3 == 1) (d.pl 4 4 == 1), p.va % p.bytes = 0) ∧
        (∀ j : Fin 64, j ≠ i → t.jobs[j] = s.jobs[j]) ∧ t.mem = s.mem)) ∧
  ((∀ (c : HostCmd) (s : State), Accepts 0x0023 c s →
      let d := sent 0x0023 c
      let i := d.slot
      let big := d.pl 1 1 == 1
      let va := d.pl 143 96
      let n := d.pl 95 64
      jobSt s i = .ready ∨ jobSt s i = .paused →
      d.pl 0 0 = 0 → d.pl 2 2 = 0 → d.pl 3 3 = 0 → d.pl 4 4 = 0 → d.pl 31 5 = 0 → d.pl 63 32 = 0 → d.pl 191 144 = 0 →
      0 < n → n ≤ 65536 → va % sizeBytes big = 0 →
      (∀ k, k < n → ∃ p ∈ (ctl s i).pages, p.big = big ∧ p.va = va + k * sizeBytes big) → windowNames s i va (n * sizeBytes big) = false →
      Completes (.jobUnmap c) s (fun t => Answered c stOK t ∧
        (ctl t i).pages = (ctl s i).pages.filter (fun p => !runsMeet (p.va, p.bytes) (va, n * sizeBytes big)) ∧
        (∀ j : Fin 64, j ≠ i → t.jobs[j] = s.jobs[j]) ∧ t.mem.cells = s.mem.cells)) ∧
    (∀ (c : HostCmd) (s : State), Accepts 0x0024 c s →
      let d := sent 0x0024 c
      let i := d.slot
      let q := fun (k : Fin 4) => d.pl (12 * k.val + 11) (12 * k.val)
      d.pl 63 48 = 0 → grantState (jobSt s i) = true → (∀ k : Fin 4, (ctl s i).asAct[k].length + (ctl s i).asCache[k].length ≤ q k) →
      (∀ k : Fin 4, ((allSlots.filter (· != i)).map (fun j => (ctl s j).asQuota[k])).foldl (· + ·) 0 + q k ≤ 3072) →
      Completes (.asGrant c) s (fun t => Answered c stOK t ∧ (∀ k : Fin 4, (ctl t i).asQuota[k] = q k) ∧
        (∀ j : Fin 64, j ≠ i → t.jobs[j] = s.jobs[j]) ∧ t.mem = s.mem)))

/-! ### Routes, lanes, engines -/

/-- R570: ROUTE_LOAD of at most 4,096 entries puts each entry of the bulk data at its node, in the tables of the I/O
dies that it names. One of more entries runs, replaces none before its ACCEPTED, and has replaced all of them when its final reply
comes. -/
def Obligations.RouteLoadReplacesTheEntries : Prop :=
  (∀ (c : HostCmd) (s : State), Accepts 0x0030 c s →
    let d := sent 0x0030 c
    let first := d.pl 27 10
    let n := d.pl 45 28 + 1
    d.pl 1 0 ≠ 0 → d.pl 9 2 = 0 → d.pl 63 46 = 0 → first + n ≤ 262144 → n ≤ 4096 → c.ind = true → 16 * n ≤ c.indLen.toNat →
    c.dma.readOk = true → routeFault d.bulk n = none →
    Completes (.routeLoad c) s (fun t => Answered c stOK t ∧
      (∀ k, k < n → (d.pl 0 0 = 1 → t.fabric.routes.x0.find (first + k) = some (BitVec.ofNat 128 (fld d.bulk (128 * k + 127) (128 * k)))) ∧
        (d.pl 1 1 = 1 → t.fabric.routes.x1.find (first + k) = some (BitVec.ofNat 128 (fld d.bulk (128 * k + 127) (128 * k))))) ∧
      (∀ node, node < first ∨ first + n ≤ node → t.fabric.routes.x0.find node = s.fabric.routes.x0.find node ∧
        t.fabric.routes.x1.find node = s.fabric.routes.x1.find node) ∧
      ((∀ (i : Fin 64), ∀ f ∈ s.jobs[i].vmt.flows, f.2.out = []) → t.jobs = s.jobs ∧ t.mem = s.mem))) ∧
  (∀ (c : HostCmd) (s : State), Accepts 0x0030 c s →
    let d := sent 0x0030 c
    let first := d.pl 27 10
    let n := d.pl 45 28 + 1
    d.pl 1 0 ≠ 0 → d.pl 9 2 = 0 → d.pl 63 46 = 0 → first + n ≤ 262144 → 4096 < n → c.ind = true → 16 * n ≤ c.indLen.toNat →
    c.dma.readOk = true → routeFault d.bulk n = none →
    Completes (.routeLoad c) s (fun t => Started c (.routes d.bulk first n (d.pl 1 0) 0) t ∧ t.fabric.routes = s.fabric.routes ∧
      t.jobs = s.jobs ∧ t.mem = s.mem)) ∧
  (∀ (b : BgCmd) (s : State) (bulk first n dies : Nat), EndsWork b s → b.work = .routes bulk first n dies 0 → bitAt dies 0 = true →
    Completes (.backgroundWorkEnd b.fn b.mb) s (fun t => b ∉ t.cox.running ∧
      ∀ k, k < n → t.fabric.routes.x0.find (first + k) = some (BitVec.ofNat 128 (fld bulk (128 * k + 127) (128 * k)))))

/-- R409, R571: LANE starts a swap to an idle spare lane, a swap back, or a retraining. -/
def Obligations.LaneCommandsActOnThePort : Prop :=
  (∀ (c : HostCmd) (s : State),
    let c' := fixPayload c 19 16 0
    let d := sent 0x0031 c'
    let p : Fin 32 := Fin.ofNat 32 (d.pl 15 0)
    Accepts 0x0031 c' s → targetFault d 32 2 = none → d.pl 22 20 < pLanes (portEntry s p) → isCrew s p = true →
    (port s p).st.live = true → (port s p).swap = none → (port s p).subValid = false → (idleSpare s p).isSome = true →
    Completes (.laneSwap c) s (fun t => Started c (.lane p) t ∧ (∀ j : Fin 64, JobKept s.jobs[j] t.jobs[j]) ∧
      ∃ w, (port t p).swap = some w ∧ w.pos.toNat = d.pl 22 20 ∧ w.back = false ∧ w.accepted = false ∧
        w.deadline = s.clock.now + 20000000)) ∧
  (∀ (c : HostCmd) (s : State),
    let c' := fixPayload c 19 16 1
    let d := sent 0x0031 c'
    let p : Fin 32 := Fin.ofNat 32 (d.pl 15 0)
    Accepts 0x0031 c' s → targetFault d 32 2 = none → isCrew s p = true →
    (port s p).st.live = true → (port s p).swap = none → (port s p).subValid = true →
    Completes (.laneSwapBack c) s (fun t => Started c (.lane p) t ∧ (∀ j : Fin 64, JobKept s.jobs[j] t.jobs[j]) ∧
      ∃ w, (port t p).swap = some w ∧ w.pos = (port s p).subPos ∧ w.back = true ∧ w.accepted = false)) ∧
  (∀ (c : HostCmd) (s : State),
    let c' := fixPayload c 19 16 2
    let d := sent 0x0031 c'
    let p : Fin 32 := Fin.ofNat 32 (d.pl 15 0)
    Accepts 0x0031 c' s → targetFault d 32 2 = none → (port s p).st ≠ .disabled → (port s p).swap = none → routesName s p = false →
    Completes (.laneRetrain c) s (fun t => Started c .made t ∧ (port t p).st = .down ∧ (port t p).linkKey = none)) ∧
  (∀ (c : HostCmd) (s : State), Accepts 0x0032 c s →
    let d := sent 0x0032 c
    let p : Fin 32 := Fin.ofNat 32 (d.pl 15 0)
    targetFault d 32 0 = none → (port s p).st ≠ .disabled →
    Completes (.linkClear c) s (fun t => Answered c stOK t ∧ (port t p).penalty = 0 ∧ (port t p).penaltyAt = s.clock.now ∧
      (port t p).st = (if (port s p).st = .quarantined ∨ (port s p).st = .damped then .down else (port s p).st)))

/-- R118, R592, R611: ME_FENCE fences an engine that holds no unit at once (where its die has a spare, which is tested in its
place),
and one that holds a unit at the unit's end; a FENCED engine that is returned is tested, and the test's end puts it to
work, makes it a spare or fences it again. -/
def Obligations.EnginesAreFencedReturnedAndTested : Prop :=
  (∀ (c : HostCmd) (s : State),
    let c' := fixPayload c 19 16 0
    let d := sent 0x0033 c'
    let e : Fin 68 := Fin.ofNat 68 (d.pl 15 0)
    Accepts 0x0033 c' s → targetFault d 68 1 = none → s.engines[e].st = meACTIVE →
    (s.engines[e].units ≠ [] →
      Completes (.meFenceFence c) s (fun t => Started c (.fence e) t ∧ t.engines[e] = { s.engines[e] with fence := true } ∧
        t.jobs = s.jobs ∧ t.mem = s.mem)) ∧
    (∀ k, s.engines[e].units = [] → spareOf s (engineDie e) = some k →
      Completes (.meFenceFence c) s (fun t => Started c (.fence e) t ∧ t.engines[e].st = meFENCED ∧ t.engines[e].logical = 0xFF ∧
        t.engines[k].st = meTESTING ∧ t.engines[k].standIn = some s.engines[e].logical.toNat ∧
        (s.engines[e].bound = none → t.jobs = s.jobs) ∧ t.mem = s.mem))) ∧
  (∀ (c : HostCmd) (s : State),
    let c' := fixPayload c 19 16 1
    let d := sent 0x0033 c'
    let e : Fin 68 := Fin.ofNat 68 (d.pl 15 0)
    Accepts 0x0033 c' s → targetFault d 68 1 = none → s.engines[e].st = meFENCED →
    Completes (.meFenceReturn c) s (fun t => Started c (.engineTest e) t ∧ t.engines[e].st = meTESTING ∧ t.engines[e].returned = true ∧
      t.engines[e].units = [] ∧ t.jobs = s.jobs ∧ t.mem = s.mem)) ∧
  (∀ (e : Fin 68) (s : State), s.engines[e].st = meTESTING → s.engines[e].returned = true →
    Completes (.engineTestDone e true) s (fun t => t.engines[e].returned = false ∧
      t.engines[e].st = (if missing s (engineDie e) = [] then meSPARE else meACTIVE) ∧ (∀ j : Fin 64, JobKept s.jobs[j] t.jobs[j]) ∧ t.mem = s.mem) ∧
    Completes (.engineTestDone e false) s (fun t => t.engines[e].returned = false ∧ t.engines[e].st = meFENCED ∧
      t.logs.seq = s.logs.seq + 1 ∧ (∀ j : Fin 64, JobKept s.jobs[j] t.jobs[j]) ∧ t.mem = s.mem))

/-! ### Lifecycle, keys, debug -/

/-- R485, R567: the four commands of the lifecycle, each with a signature that verifies, take the device to
PROVISIONED, DEPLOYED, back to PROVISIONED and to RETIRED, whose key slots are empty and which has no identity key to attest with.
LC_PROVISION fuses the hash of the operator's key. -/
def Obligations.LifecycleCommandsChangeTheLifecycle : Prop :=
  (∀ (c : HostCmd) (s : State), Accepts 0x0040 c s →
    let d := sent 0x0040 c
    let key := leBytes 96 d.payload
    s.sec.lifecycle = .blank → d3Open s = false → d.pl 1599 1536 = s.sec.serial.toNat →
    Config.ecVerify Config.falruineKey (leBytes 8 s.sec.serial.toNat ++ measBytes (Config.sha384 key)) (leBytes 96 (d.payload >>> 768)) = true →
    Completes (.lcProvision c) s (fun t => Started c .made t ∧ t.sec.lifecycle = .provisioned ∧ t.sec.opKey = some key ∧
      t.sec.opKeyHash = some (Config.sha384 key) ∧ (∀ j : Fin 64, JobResumed s.jobs[j] t.jobs[j]))) ∧
  (∀ (c : HostCmd) (s : State), Accepts 0x0041 c s → s.sec.lifecycle = .provisioned → s.sec.mgmtKey.isSome = true → d3Open s = false →
    lcSigned (sent 0x0041 c) s = true →
    Completes (.lcDeploy c) s (fun t => Answered c stOK t ∧ t.sec.lifecycle = .deployed ∧ t.sec.opKey = s.sec.opKey ∧ (∀ j : Fin 64, JobResumed s.jobs[j] t.jobs[j]))) ∧
  (∀ (c : HostCmd) (s : State), Accepts 0x0042 c s → s.sec.lifecycle = .deployed → allEmpty s = true → lcSigned (sent 0x0042 c) s = true →
    Completes (.lcHold c) s (fun t => Answered c stOK t ∧ t.sec.lifecycle = .provisioned ∧ t.sec.opKey = s.sec.opKey ∧ (∀ j : Fin 64, JobResumed s.jobs[j] t.jobs[j]))) ∧
  (∀ (c : HostCmd) (s : State), Accepts 0x0043 c s → s.sec.lifecycle ≠ .retired → lcSigned (sent 0x0043 c) s = true →
    Completes (.lcRetire c) s (fun t => Started c .made t ∧ t.sec.lifecycle = .retired ∧ t.sec.opKey = none ∧ t.sec.mgmtKey = none ∧
      t.sec.mgmtNext = none ∧ t.sec.coxKey = none ∧ t.sec.identity = none ∧ (∀ i : Fin 64, t.sec.jobKeys[i] = none)))

/-- R484, R567: OP_MGMT_KEY with a bundle that opens installs the key beside the present one, and with promote makes
the installed one the present one. R489: FW_COMMIT runs until BACKGROUND_WORK_END, which raises the rollback counter to
the running image's security version, at most 64. -/
def Obligations.ManagementKeyAndRollback : Prop :=
  (∀ (c : HostCmd) (s : State) (e : Ephemeral) (v : Nat), Accepts 0x0044 c s →
    let d := sent 0x0044 c
    d.pl 63 0 = 0 → s.sec.lifecycle = .provisioned ∨ s.sec.lifecycle = .deployed → d.length ≠ 8 → s.sec.devEph = some e →
    unwrap (d.pl 1215 64) 32 0 0 e = some v →
    Completes (.opMgmtKey c) s (fun t => Answered c stOK t ∧ t.sec.mgmtNext = some (BitVec.ofNat 256 v) ∧ t.sec.mgmtKey = s.sec.mgmtKey ∧
      t.sec.devEph = none ∧ t.jobs = s.jobs)) ∧
  (∀ (c : HostCmd) (s : State), Accepts 0x0044 c s →
    let d := sent 0x0044 c
    d.pl 63 0 = 1 → s.sec.lifecycle = .provisioned ∨ s.sec.lifecycle = .deployed → d.length = 8 → s.sec.mgmtNext.isSome = true →
    Completes (.opMgmtKey c) s (fun t => Answered c stOK t ∧ t.sec.mgmtKey = s.sec.mgmtNext ∧ t.sec.mgmtNext = none ∧ t.jobs = s.jobs)) ∧
  (∀ (c : HostCmd) (s : State), Accepts 0x0045 c s →
    Completes (.fwCommit c) s (fun t => Started c .fwCommit t ∧ t.sec = s.sec ∧ t.jobs = s.jobs)) ∧
  (∀ (b : BgCmd) (s : State), EndsWork b s → b.work = .fwCommit →
    Completes (.backgroundWorkEnd b.fn b.mb) s (fun t =>
      t.sec.rollback.toNat = max s.sec.rollback.toNat (min 64 s.cox.image.svn.toNat) ∧ b ∉ t.cox.running ∧ (∀ j : Fin 64, JobKept s.jobs[j] t.jobs[j])))

/-- R532, R533: DBG_OPEN with an authentic token opens the session of its level, DBG_CLOSE closes it, and a session
whose time has passed closes. -/
def Obligations.DebugSessionsOpenAndClose : Prop :=
  (∀ (c : HostCmd) (s : State), Accepts 0x0046 c s → c.fn = pf0 →
    let d := sent 0x0046 c
    let signer := d.pl 17 16
    let level := d.pl 19 18
    (signer = 0 ∧ level = 3) ∨ (signer = 1 ∧ (level = 1 ∨ level = 3)) ∨ (signer = 3 ∧ level = 1) → d.pl 15 0 = 0 → d.pl 127 20 = 0 →
    (signer = 1 → d.pl 255 192 ≠ 0) → debugState s signer level 0 (d.pl 255 192) = true →
    d.pl 191 128 = s.sec.serial.toNat → d.pl 511 256 = s.sec.nonce.toNat → debugAuth d s signer 0 = true →
    Completes (.dbgOpen c) s (fun t => Answered c stOK t ∧
      t.sec.debug = some { level := BitVec.ofNat 2 level, signer := BitVec.ofNat 2 signer, notAfter := BitVec.ofNat 64 (d.pl 255 192) } ∧
      (∀ k : Fin 4, t.sec.sessions[k] = none) ∧ t.jobs = s.jobs ∧ t.mem = s.mem)) ∧
  (∀ (c : HostCmd) (s : State) (i : Fin 64), Accepts 0x0046 c s → c.fn = vfOf i →
    let d := sent 0x0046 c
    d.pl 17 16 = 2 → d.pl 19 18 = 2 → d.pl 15 10 = i.val → d.pl 9 0 = (ctl s i).incarnation.toNat → d.pl 127 20 = 0 →
    d.pl 255 192 ≠ 0 → debugState s 2 2 i (d.pl 255 192) = true →
    d.pl 191 128 = s.sec.serial.toNat → d.pl 511 256 = s.sec.nonce.toNat → debugAuth d s 2 i = true →
    Completes (.dbgOpen c) s (fun t => Answered c stOK t ∧ t.sec.d2[i] = some (BitVec.ofNat 64 (d.pl 255 192)) ∧
      t.sec.debug = s.sec.debug ∧ t.jobs = s.jobs ∧ t.mem = s.mem)) ∧
  (∀ (c : HostCmd) (s : State), Accepts 0x0047 c s →
    let d := sent 0x0047 c
    d.pl 63 8 = 0 →
    (c.fn = pf0 → d.pl 1 0 = 0 → Completes (.dbgClose c) s (fun t => Answered c stOK t ∧ t.sec.debug = none ∧ t.sec.d2 = s.sec.d2 ∧ (∀ j : Fin 64, JobResumed s.jobs[j] t.jobs[j]))) ∧
    (∀ i : Fin 64, c.fn = pf0 ∨ c.fn = vfOf i → d.pl 1 0 = 1 → d.pl 7 2 = i.val →
      Completes (.dbgClose c) s (fun t => Answered c stOK t ∧ t.sec.d2[i] = none ∧ t.sec.debug = s.sec.debug ∧
        JobResumed s.jobs[i] t.jobs[i] ∧ (∀ j : Fin 64, j ≠ i → t.jobs[j] = s.jobs[j])))) ∧
  (∀ (s : State) (x : DebugSession), s.sec.debug = some x → x.notAfter ≠ 0 →
    Completes (.debugExpiry none) s (fun t => t.sec.debug = none ∧ t.sec.d2 = s.sec.d2 ∧ (∀ j : Fin 64, JobResumed s.jobs[j] t.jobs[j]))) ∧
  (∀ (s : State) (i : Fin 64), s.sec.d2[i].isSome = true →
    Completes (.debugExpiry (some i)) s (fun t => t.sec.d2[i] = none ∧ t.host[vfOf i].intCause.getLsbD 3 = true ∧
      JobResumed s.jobs[i] t.jobs[i] ∧ (∀ j : Fin 64, j ≠ i → t.jobs[j] = s.jobs[j])))

/-! ### Power, firmware, logs -/

/-- R523, R527, R528, R638: PWR_SET to RUN leaves P2, to HOLD enters P2 once nothing runs (else it waits), to REST begins the entry
into P3, whose third step disables the ports and ends the sessions and whose last one is P3 (a tick each after the reply:
notes/assumptions/2), and to OFF stops the release of tasks; a HOLD whose time passes is abandoned. The shutdown self-test saves a
slice with clean at 0, and ends with clean at 1 and the next slice, before P4. -/
def Obligations.PowerCommandsChangeTheMode : Prop :=
  (∀ (c : HostCmd) (s : State),
    let c' := fixPayload c 1 0 0
    let d := sent 0x0048 c'
    Accepts 0x0048 c' s → d.pl 15 2 = 0 → d.pl 31 16 ≠ 0 → d.pl 63 32 = 0 → powerRuns s = false → s.power.mode = .hold →
    Completes (.pwrSetRun c) s (fun t => Started c .made t ∧ t.power.mode = .run ∧ t.power.stopping = false ∧ t.power.pending = none ∧ t.jobs = s.jobs)) ∧
  (∀ (c : HostCmd) (s : State),
    let c' := fixPayload c 1 0 1
    let d := sent 0x0048 c'
    Accepts 0x0048 c' s → d.pl 15 2 = 0 → d.pl 31 16 ≠ 0 → d.pl 63 32 = 0 → powerRuns s = false → s.power.mode = .run →
    (deviceRuns s = false → Completes (.pwrSetHold c) s (fun t => Answered c stOK t ∧ t.power.mode = .hold ∧ t.jobs = s.jobs)) ∧
    (deviceRuns s = true → Completes (.pwrSetHold c) s (fun t => t.power.mode = .run ∧ t.power.stopping = true ∧
      Started c (.power 1 (s.clock.now + 800000 * d.pl 31 16)) t ∧ t.jobs = s.jobs))) ∧
  (∀ (c : HostCmd) (s : State),
    let c' := fixPayload c 1 0 2
    let d := sent 0x0048 c'
    Accepts 0x0048 c' s → d.pl 15 2 = 0 → d.pl 31 16 ≠ 0 → d.pl 63 32 = 0 → powerRuns s = false → restBlocked s = false →
    d3Open s = false →
    Completes (.pwrSetRest c) s (fun t => Started c .rest t ∧ t.power.entry = some 2 ∧ t.power.stopping = true ∧ t.power.pending = none ∧
      (∀ i : Fin 64, t.sec.d2[i] = none ∧ (survives s i = false → t.sec.jobKeys[i] = none)))) ∧
  (∀ (b : BgCmd) (s : State), EndsWork b s → b.work = .rest →
    Completes (.backgroundWorkEnd b.fn b.mb) s (fun t => t.power.entry = some 3 ∧ t.cox.alive = false ∧ t.fabric.accepting = false ∧
      b ∉ t.cox.running ∧ (∀ k : Fin 4, t.sec.sessions[k] = none) ∧ (∀ p : Fin 32, (port t p).st = .disabled))) ∧
  (∀ (s : State), s.pending = [] → s.rst.phase = .running → s.power.entry = some 4 → s.power.wake = false →
    ∃ t, step s = .next t ∧ t.power.mode = .rest ∧ t.power.entry = none ∧ t.power.stopping = false) ∧
  (∀ (c : HostCmd) (s : State),
    let c' := fixPayload c 1 0 3
    let d := sent 0x0048 c'
    Accepts 0x0048 c' s → d.pl 15 2 = 0 → d.pl 31 16 ≠ 0 → d.pl 63 32 = 0 → powerRuns s = false →
    Completes (.pwrSetOff c) s (fun t => t.power.stopping = true ∧ Started c (.power 3 (s.clock.now + 800000 * d.pl 31 16)) t ∧ t.jobs = s.jobs)) ∧
  (∀ (s : State), s.power.stopping = true → deviceRuns s = true → s.cox.running.any BgCmd.waitsPower = true →
    Completes .pwrHoldTimeout s (fun t => t.power.stopping = false ∧ t.cox.running.any BgCmd.waitsPower = false ∧ (∀ j : Fin 64, JobKept s.jobs[j] t.jobs[j]))) ∧
  (∀ (b : BgCmd) (s : State) (dl : Nat), EndsWork b s → powered s = true → b.work = .power 3 dl → s.power.stopping = true → deviceRuns s = false →
    Completes (.backgroundWorkEnd b.fn b.mb) s (fun t => t.health.clean = false ∧ t.mem = s.mem ∧ t.jobs = s.jobs ∧
      t.power.slice = some (s.mem.cells.filter (fun x => inSlice s.health.asSlice.toNat x.1)) ∧ { b with work := .shutdown 3 } ∈ t.cox.running)) ∧
  (∀ (b : BgCmd) (s : State), EndsWork b s → powered s = true → b.work = .shutdown 8 →
    Completes (.backgroundWorkEnd b.fn b.mb) s (fun t => t.health.clean = true ∧ t.health.asSlice.toNat = (s.health.asSlice.toNat + 1) % 32 ∧
      t.mem = s.mem ∧ t.jobs = s.jobs ∧ { b with work := .shutdown 9 } ∈ t.cox.running)) ∧
  (∀ (b : BgCmd) (s : State), EndsWork b s → powered s = true → b.work = .shutdown 9 →
    Completes (.backgroundWorkEnd b.fn b.mb) s (fun t => t.power.mode = .off ∧ t.rst.phase = .off ∧ t.board.pwrgd = false ∧ t.mem.cells = [] ∧
      (∀ i : Fin 64, t.sec.jobKeys[i] = none)))

/-- R488, R573, R574, R575: FW_LOAD stores a chunk, of which the first overwrites what the slot held; the last chunk of a good image
stages it; FW_CHANGEOVER begins to quiesce once an image is staged whose svn is not below the counter. -/
def Obligations.FirmwareIsLoadedAndStaged : Prop :=
  (∀ (c : HostCmd) (s : State), Accepts 0x0050 c s →
    let d := sent 0x0050 c
    s.rst.phase = .running → d.pl 31 0 = 0 → d.pl 64 64 = 0 → d.pl 95 65 = 0 → d.pl 127 96 = 0 → d.pl 63 32 ≤ 33554432 → c.ind = true →
    c.indLen.toNat ≤ d.pl 63 32 → c.dma.readOk = true →
    Completes (.fwLoad c) s (fun t => Started c .made t ∧ t.cox.flash[loadSlot s].bytes = leBytes c.indLen.toNat d.bulk ∧
      t.cox.flash[loadSlot s].image.valid = false ∧
      t.cox.flash[loadSlot s].loading = true ∧ t.cox.flash[loadSlot s].staged = false ∧ t.jobs = s.jobs)) ∧
  (∀ (c : HostCmd) (s : State), Accepts 0x0050 c s →
    let d := sent 0x0050 c
    let f := s.cox.flash[loadSlot s]
    let bytes := f.bytes ++ leBytes c.indLen.toNat d.bulk
    s.rst.phase = .running → d.pl 31 0 ≠ 0 → d.pl 31 0 % 4096 = 0 → d.pl 64 64 = 1 → d.pl 95 65 = 0 → d.pl 127 96 = 0 →
    d.pl 63 32 ≤ 33554432 → c.ind = true → f.loading = true → d.pl 31 0 = f.bytes.length → d.pl 63 32 = f.loadTotal →
    d.pl 31 0 + c.indLen.toNat = d.pl 63 32 → c.dma.readOk = true → (headerImage bytes).valid = true → (headerImage bytes).sigOk = true →
    s.sec.rollback ≤ (headerImage bytes).svn →
    Completes (.fwLoad c) s (fun t => Started c .made t ∧ t.cox.flash[loadSlot s].image = headerImage bytes ∧
      t.cox.flash[loadSlot s].staged = true ∧ t.cox.flash[loadSlot s].loading = false ∧ t.cox.image = s.cox.image ∧ t.jobs = s.jobs)) ∧
  (∀ (c : HostCmd) (s : State) (k : Fin 2), Accepts 0x0051 c s →
    let d := sent 0x0051 c
    d.pl 15 0 ≠ 0 → d.pl 63 16 = 0 → stagedSlot s = some k → d3Open s = false → powerRuns s = false → s.power.mode = .run →
    s.sec.rollback ≤ s.cox.flash[k].image.svn → serves s s.cox.flash[k].image = true →
    Completes (.fwChangeover c) s (fun t => Started c .changeover t ∧ t.jobs = s.jobs ∧
      ∃ ch, t.cox.change = some ch ∧ ch.phase = .quiesce ∧ ch.deadline = s.clock.now + 800000 * d.pl 15 0 ∧ ch.latched = []))

/-- R488, R575, R576: the phases of a live changeover to which nothing came meanwhile: quiesced, it waits for the incoming
image; ready, the device runs the staged image, unless its svn has fallen below the counter; a time-out of either phase keeps the
running image. -/
def Obligations.ChangeoverSwapsTheRunningImage : Prop :=
  (∀ (s : State) (ch : Changeover), s.cox.change = some ch → changeRuns s = true → ch.phase = .quiesce → othersRun s = false →
    Completes .changeoverQuiesced s (fun t => t.cox.image = s.cox.image ∧ t.jobs = s.jobs ∧
      ∃ x, t.cox.change = some x ∧ x.phase = .incoming ∧ x.deadline = s.clock.now + 160000000 ∧ x.latched = ch.latched)) ∧
  (∀ (s : State) (ch : Changeover) (k : Fin 2), s.cox.change = some ch → changeRuns s = true → ch.phase = .incoming →
    stagedSlot s = some k → s.sec.rollback ≤ s.cox.flash[k].image.svn → ch.latched = [] → ch.mgmt = [] → ch.spdm = [] →
    Completes .changeoverReady s (fun t => t.cox.image = s.cox.flash[k].image ∧ t.cox.bootSlot = (k == 1) ∧ t.cox.change = none ∧
      t.cox.flash[k].staged = false ∧ (∀ j : Fin 64, JobKept s.jobs[j] t.jobs[j]) ∧ t.mem = s.mem ∧ ∀ b ∈ t.cox.running, b.work ≠ .changeover)) ∧
  (∀ (s : State) (ch : Changeover) (k : Fin 2), s.cox.change = some ch → changeRuns s = true → ch.phase = .incoming →
    stagedSlot s = some k → s.cox.flash[k].image.svn < s.sec.rollback → ch.latched = [] → ch.mgmt = [] → ch.spdm = [] →
    Completes .changeoverReady s (fun t => t.cox.image = s.cox.image ∧ t.cox.change = none ∧ (∀ j : Fin 64, JobKept s.jobs[j] t.jobs[j]) ∧ t.logs.seq = s.logs.seq + 1)) ∧
  (∀ (s : State) (ch : Changeover), s.cox.change = some ch → changeRuns s = true → ch.phase = .quiesce → othersRun s = true →
    ch.latched = [] → ch.mgmt = [] → ch.spdm = [] →
    Completes .quiesceTimeout s (fun t => t.cox.image = s.cox.image ∧ t.cox.change = none ∧ (∀ j : Fin 64, JobKept s.jobs[j] t.jobs[j]) ∧
      ∀ b ∈ t.cox.running, b.work ≠ .changeover)) ∧
  (∀ (s : State) (ch : Changeover) (refused : Bool), s.cox.change = some ch → changeRuns s = true → ch.phase = .incoming →
    ch.latched = [] → ch.mgmt = [] → ch.spdm = [] →
    Completes (.incomingReadyTimeout refused) s (fun t => t.cox.image = s.cox.image ∧ t.cox.change = none ∧ (∀ j : Fin 64, JobKept s.jobs[j] t.jobs[j]) ∧
      t.logs.seq = s.logs.seq + 1))

/-- R626, R634, R567: TALLY samples its records when it is accepted, LOG_READ sends the log's records to the host and
clears the error log where it is asked to, DEV_RESET fixes the start of a reset 10 µs ahead. -/
def Obligations.TallyLogReadAndDevReset : Prop :=
  (∀ (c : HostCmd) (s : State), Accepts 0x0060 c s → c.fn = pf0 →
    let d := sent 0x0060 c
    let mask := d.pl 15 0
    let rs := tallyRecs (atTake 0x0060 c s) none mask
    d.pl 63 16 = 0 → mask ≠ 0 → mask < 8 → c.ind = true → 32 * rs.length ≤ c.indLen.toNat → c.dma.writeFail = none →
    Completes (.tally c) s (fun t => t.jobs = s.jobs ∧ t.mem = s.mem ∧
      Started c (.tally stOK (rs.flatMap (fun x => x.bytes s.clock.now)).length rs.length (rs.filter TallyRec.broken).length) t ∧
      OutEvent.dmaWrite c.fn c.indAddr (rs.flatMap (fun x => x.bytes s.clock.now)) false ∈ t.out)) ∧
  (∀ (c : HostCmd) (s : State), Accepts 0x0061 c s →
    let d := sent 0x0061 c
    let count := d.pl 31 16
    d.pl 1 0 = 0 → d.pl 15 3 = 0 → count ≠ 0 → count ≤ 8192 → c.ind = true → 64 * count ≤ c.indLen.toNat → c.dma.writeFail = none →
    Completes (.logRead c) s (fun t => Answered c stOK t ∧ t.jobs = s.jobs ∧ t.mem = s.mem ∧
      OutEvent.dmaWrite c.fn c.indAddr ((((s.logs.first ++ s.logs.ring).filter (fun r => decide (d.pl 63 32 ≤ r.seq.toNat))).take count).flatMap LogRec.bytes) (fnLocked s c.fn) ∈ t.out ∧
      (d.pl 2 2 = 1 → t.logs.first = [] ∧ t.logs.ring = [] ∧ t.logs.seq = 0 ∧ t.logs.events = s.logs.events) ∧
      (d.pl 2 2 = 0 → t.logs = s.logs))) ∧
  (∀ (c : HostCmd) (s : State), Accepts 0x0062 c s → (sent 0x0062 c).pl 63 0 = 0 →
    Completes (.devReset c) s (fun t => Answered c stOK t ∧ t.rst.devResetAt = some (s.clock.now + 8000) ∧ t.jobs = s.jobs ∧ t.mem = s.mem))

/-! ### Registers and BAR2 -/

/-- R543: ringing one slot of MB_DB whose 256 bytes hold a command does what the row of that command does (R546); a
doorbell of several slots takes the lowest first; a doorbell of a busy slot is ignored and counted. -/
def Obligations.DoorbellTakesTheSlot : Prop :=
  (∀ (i : Instr) (op : BitVec 16) (c : HostCmd) (s : State) (dma : List IndBuf),
    unlorRow i = some (op, c) → boxOpen s c.fn = true → (∀ k, slotOfFn c.fn = some k → hostLocked s k c.ide = false) →
    s.host[c.fn].cmd[c.mb] = slotImage op c → dma[c.mb.val]? = some c.dma →
    ∃ t, exec (.mbDoorbell c.fn ⟨1#32 <<< c.mb.val, c.ide⟩ dma) s = .next t ∧ exec i s = .next t) ∧
  (∀ (fn : Fin 65) (k : Fin 16) (bits : BitVec 32) (ide : Bool) (s : State) (dma : List IndBuf),
    boxOpen s fn = true → (∀ i, slotOfFn fn = some i → hostLocked s i ide = false) →
    bits.toNat < 65536 → bits.getLsbD k.val = true → (∀ j, j < k.val → bits.getLsbD j = false) →
    ∃ u, exec (.mbDoorbell fn ⟨1#32 <<< k.val, ide⟩ dma) s = .next u ∧
      (boxOpen u fn = true → (∀ i, slotOfFn fn = some i → hostLocked u i ide = false) →
        exec (.mbDoorbell fn ⟨bits, ide⟩ dma) s = exec (.mbDoorbell fn ⟨bits &&& ~~~(1#32 <<< k.val), ide⟩ dma) u)) ∧
  (∀ (fn : Fin 65) (mb : Fin 16) (ide : Bool) (s : State) (dma : List IndBuf),
    boxOpen s fn = true → (∀ k, slotOfFn fn = some k → hostLocked s k ide = false) → (s.rst.phase = .loader → mb = 0) →
    s.host[fn].busy.getLsbD mb.val = true →
    Completes (.mbDoorbell fn ⟨1#32 <<< mb.val, ide⟩ dma) s (fun t => t.host[fn].dbIgnored = satInc16 s.host[fn].dbIgnored 1 ∧
      t.host[fn].busy = s.host[fn].busy ∧ t.host[fn].reply = s.host[fn].reply ∧ t.jobs = s.jobs ∧ t.mem = s.mem))

/-- R4, R180, R212, R509, R542 to R545, R650: writes of registers: MB_IRQ and INT_CAUSE are cleared by ones, the masks hold what is
written, a reply slot is read-only and counts a 1 in an RSV bit of its header, a reserved offset counts, a write refused for
want of its IDE stream counts, the SMBus port holds its alert mask and clears alerts whose condition is over; the doorbells of a
job's rings set the tail of the submission ring and the head of the event queue. -/
def Obligations.RegistersAndRingsTakeWrites : Prop :=
  ((∀ (fn : Fin 65) (ide : Bool) (s : State), boxOpen s fn = true → (∀ k, slotOfFn fn = some k → hostLocked s k ide = false) →
      (∀ bits : BitVec 32,
        Completes (.mbIrqClear fn ⟨bits, ide⟩) s (fun t => t = modHost fn (fun h => { h with irq := h.irq &&& ~~~(bits.setWidth 16) }) s) ∧
        Completes (.intCauseClear fn ⟨bits, ide⟩) s (fun t => t = modHost fn (fun h => { h with intCause := h.intCause &&& ~~~bits }) s)) ∧
      (∀ v : BitVec 32,
        Completes (.registerWrite (.bar0 fn ide) 0x200C v) s (fun t => t = modHost fn (fun h => { h with irqMask := v.setWidth 16 }) s) ∧
        Completes (.registerWrite (.bar0 fn ide) 0x2024 v) s (fun t => t = modHost fn (fun h => { h with intMask := v }) s) ∧
        (∀ o, 0x1000 ≤ o → o < 0x2000 → Completes (.registerWrite (.bar0 fn ide) o v) s (fun t =>
          t.logs.rsvWrites = s.logs.rsvWrites + (if o / 4 % 64 = 2 ∧ v &&& 0xFF00FF00#32 ≠ 0#32 then 1 else 0) ∧ Changes [.logs] s t)) ∧
        (∀ o, 0x4000 ≤ o → o < 0x8000 → Completes (.registerWrite (.bar0 fn ide) o v) s (fun t =>
          t = modHost fn (fun h => { h with rsvWrites := satInc16 h.rsvWrites 1 }) s)))) ∧
    (∀ (slot : Fin 64) (o : Nat) (ide : Bool) (v : BitVec 32) (s : State), boxOpen s (vfOf slot) = true → hostLocked s slot ide = true →
      Completes (.registerWrite (.bar0 (vfOf slot) ide) o v) s (fun t => (ctl t slot).hostErrors = (ctl s slot).hostErrors + 1 ∧
        Changes [.jobs] s t)) ∧
    (∀ s : State,
      (∀ (pec : Option Byte) (v : BitVec 32), smbusOn s = true →
        (pec = none ∨ pec = some (smbPec [0xA8, 0x03, v.setWidth 8]) → Completes (.registerWrite (.smbus pec) 0x03 v) s (fun t =>
          t = { s with board := { s.board with alertMask := v.setWidth 8 } })) ∧
        (∀ x, pec = some x → x ≠ smbPec [0xA8, 0x03, v.setWidth 8] → Completes (.registerWrite (.smbus pec) 0x03 v) s (fun t => t = s))) ∧
      (∀ bits : Byte, smbusOn s = true → Completes (.smbAlertClear bits) s (fun t =>
        t.board = { s.board with alert := (s.board.alert &&& ~~~bits) ||| (s.board.alert &&& standing s) } ∧
        t.logs.rsvWrites = s.logs.rsvWrites + (if bits.toNat < 64 then 0 else 1) ∧ Changes [.board, .logs] s t)))) ∧
  (∀ (slot : Fin 64) (die : Fin 4) (v : BitVec 32) (ide : Bool) (s : State),
      boxOpen s (vfOf slot) = true → hostLocked s slot ide = false → depsApply (jobSt s slot) = true → ringOn s slot die = true →
      ((v - (jobDie s slot die).sqHead).toNat ≤ sqSize (ringBits s slot die) →
        Completes (.dbSq slot die ⟨v, ide⟩) s (fun t => jobDie t slot die = { jobDie s slot die with sqTail := v } ∧
          (∀ d, d ≠ die → jobDie t slot d = jobDie s slot d) ∧ (∀ j : Fin 64, j ≠ slot → t.jobs[j] = s.jobs[j]) ∧ t.mem = s.mem)) ∧
      (sqSize (ringBits s slot die) < (v - (jobDie s slot die).sqHead).toNat →
        Completes (.dbSq slot die ⟨v, ide⟩) s (fun t => (jobDie t slot die).sqTail = (jobDie s slot die).sqTail)) ∧
      ((v - (jobDie s slot die).evqHead).toNat ≤ ((jobDie s slot die).evqTail - (jobDie s slot die).evqHead).toNat →
        Completes (.dbEq slot die ⟨v, ide⟩) s (fun t => jobDie t slot die = { jobDie s slot die with evqHead := v, evqArmed := true } ∧
          (∀ d, d ≠ die → jobDie t slot d = jobDie s slot d) ∧ (∀ j : Fin 64, j ≠ slot → t.jobs[j] = s.jobs[j]) ∧ t.mem = s.mem)))

/-- R509, R544: a read of BAR2 within the window answers the job's bytes, and a write stores them; the accesses of a
job that locks its host path are refused and counted. -/
def Obligations.Bar2ReachesTheJobsWindow : Prop :=
  ∀ (slot : Fin 64) (off : Nat) (ide : Bool) (s : State),
    (∀ len, bar2Hit s slot off len = true → hostLocked s slot ide = false → bar2Serves s slot = true →
      bar2Addr s slot off + len ≤ 0xFFF000000000 → mapped s slot (bar2Addr s slot off) len true false = true →
      Completes (.bar2Read slot off len ide) s (fun t => t.jobs = s.jobs ∧ t.mem.cells = s.mem.cells ∧
        t.out.getLast? = some (.bar2 slot (.data (peek s slot (bar2Addr s slot off) len).data ((peek s slot (bar2Addr s slot off) len).st != .ok))) ∧
        ((peek s slot (bar2Addr s slot off) len).st = .ok → Changes [.out] s t))) ∧
    (∀ data, bar2Hit s slot off data.length = true → hostLocked s slot ide = false → bar2Serves s slot = true →
      bar2Addr s slot off + data.length ≤ 0xFFF000000000 → mapped s slot (bar2Addr s slot off) data.length false true = true →
      Completes (.bar2Write slot off data ide) s (fun t => (jobWrite slot (bar2Addr s slot off) data s).1 = t ∧
        (writeStat s slot (bar2Addr s slot off) data.length = .ok → Changes [.jobs, .mem, .clock] s t))) ∧
    (∀ len data, bar2Hit s slot off len = true → bar2Hit s slot off data.length = true → hostLocked s slot ide = true →
      Completes (.bar2Read slot off len ide) s (fun t => (ctl t slot).hostErrors = (ctl s slot).hostErrors + 1 ∧ t.mem = s.mem ∧
        t.out = s.out ++ [.bar2 slot .unsupported]) ∧
      Completes (.bar2Write slot off data ide) s (fun t => (ctl t slot).hostErrors = (ctl s slot).hostErrors + 1 ∧ t.mem = s.mem ∧ t.out = s.out))

/-- R541, R555, R586: the resets that PCIe brings. Each clears the mailbox state of the functions it resets; that of a
virtual function tears its job down. -/
def Obligations.FunctionResetsClearTheMailboxes : Prop :=
  ∀ (s : State), powered s = true →
    (∀ slot : Fin 64, slot.val < s.numVfs → Completes (.vfFlr slot) s (fun t =>
      t.host[vfOf slot].busy = 0 ∧ t.host[vfOf slot].version = none ∧ (jobSt s slot = .running → jobSt t slot = .torn ∧ t.sec.jobKeys[slot] = none) ∧
      t.numVfs = s.numVfs ∧ ∀ b ∈ t.cox.running, b.fn = vfOf slot → b.mgmt.isSome = true)) ∧
    Completes .pf0Flr s (fun t => t.host[pf0].busy = 0 ∧ t.host[pf0].version = none ∧ t.host[pf0].irq = 0 ∧
      ((∀ b ∈ s.cox.running, ∀ k, b.work ≠ .shutdown k) → t.jobs = s.jobs ∧ t.mem = s.mem) ∧ t.numVfs = s.numVfs ∧ ∀ b ∈ t.cox.running, b.fn = pf0 → b.mgmt.isSome = true) ∧
    Completes .pcieHotReset s (fun t => t.numVfs = 0 ∧ t.rst.lastCause = 8 ∧ (∀ fn : Fin 65, t.host[fn].busy = 0 ∧ t.host[fn].version = none) ∧
      (∀ slot : Fin 64, (jobSt t slot).active = false)) ∧
    (∀ n : Fin 65, n.val < s.numVfs → Completes (.numvfsLower n) s (fun t => t.numVfs = n.val ∧
      ∀ slot : Fin 64, n.val ≤ slot.val → slot.val < s.numVfs → (jobSt t slot).active = false ∧ t.host[vfOf slot].version = none)) ∧
    (∀ n : Fin 65, s.numVfs < n.val → Completes (.numvfsRaise n) s (fun t => t = { s with numVfs := n.val }))

/-! ### SPDM, IDE and TDISP -/

/-- R491, R492: the requests that need no session are answered with their content; KEY_EXCHANGE opens the lowest free session,
FINISH completes it, END_SESSION frees it, HEARTBEAT keeps it; with four sessions open KEY_EXCHANGE answers Busy. A request names the
certificate slot in its first byte, and one for a slot that is empty is answered by an error (notes/assumptions/29). -/
def Obligations.SpdmRequestsAndSessions : Prop :=
  (∀ (src : SpdmPort) (msg : List Byte) (s : State), s.cox.change = none → spdmOpen s src = true →
      Completes (.getVersion src msg) s (fun t => t = spdmReply src 0x04 0 0 (leBytes 2 0x1200) s) ∧
      Completes (.getCapabilities src msg) s (fun t => t = spdmReply src 0x61 0 0 (leBytes 4 0) s) ∧
      Completes (.negotiateAlgorithms src msg) s (fun t => ∃ a, t = spdmReply src 0x63 0 0 a s) ∧
      Completes (.getDigests src msg) s (fun t => t = spdmReply src 0x01 0 1 (measBytes (Config.sha384 (ownChain s))) s) ∧
      (msg.headD 0 = 0 → Completes (.getCertificate src msg) s (fun t => t = spdmReply src 0x02 0 0 (ownChain s) s)) ∧
      (s.sec.lifecycle ≠ .retired → msg.headD 0 = 0 →
        Completes (.spdmChallenge src msg) s (fun t => t = spdmReply src 0x03 0 0
          (measBytes (Config.sha384 (ownChain s)) ++ identitySign s (msg ++ measBytes (Config.sha384 (ownChain s)))) s) ∧
        Completes (.getMeasurements src msg) s (fun t => t = spdmReply src 0x60 6 0
          (measBlocks s ++ identitySign s (msg ++ measBlocks s)) s)) ∧
      (s.sec.lifecycle ≠ .retired → msg.headD 0 ≠ 0 →
        Completes (.getCertificate src msg) s (fun t => t = spdmReply src 0x7F 0x01 0 [] s) ∧
        Completes (.spdmChallenge src msg) s (fun t => t = spdmReply src 0x7F 0x01 0 [] s) ∧
        Completes (.getMeasurements src msg) s (fun t => t = spdmReply src 0x7F 0x01 0 [] s)) ∧
      (∀ code : Byte, code.toNat ∉ [0x84, 0xE1, 0xE3, 0x81, 0x82, 0x83, 0xE0, 0xE4, 0xE5, 0xEC, 0xE8] → Completes (.spdmUnsupportedRequest src code msg) s (fun t =>
        t = spdmReply src 0x7F 0x07 code.toNat [] s))) ∧
  (∀ (src : SpdmPort) (msg : List Byte) (k : Fin 4) (s : State), s.cox.change = none → spdmOpen s src = true →
      (s.sec.lifecycle ≠ .retired → msg.headD 0 = 0 → s.sec.sessions[k] = none → (∀ j : Fin 4, j < k → s.sec.sessions[j].isSome = true) →
        Completes (.keyExchange src msg) s (fun t => (∃ x, t.sec.sessions[k] = some x ∧ x.src = src ∧ x.finished = false) ∧
          (∀ j : Fin 4, j ≠ k → t.sec.sessions[j] = s.sec.sessions[j]) ∧ (∀ j : Fin 64, JobKept s.jobs[j] t.jobs[j]) ∧ t.mem = s.mem)) ∧
      (s.sec.lifecycle ≠ .retired → msg.headD 0 = 0 → (∀ j : Fin 4, s.sec.sessions[j].isSome = true) →
        Completes (.keyExchange src msg) s (fun t => t = spdmReply src 0x7F 0x03 0 [] s)) ∧
      (∀ x, s.sec.sessions[k] = some x → x.src = src → x.finished = false → msg.take 48 = measBytes (Config.hmac (leBytes 32 x.key.toNat) []) →
        Completes (.spdmFinish src k msg) s (fun t => t.sec.sessions[k] = some { x with finished := true } ∧
          (∀ j : Fin 4, j ≠ k → t.sec.sessions[j] = s.sec.sessions[j]) ∧ (∀ j : Fin 64, JobKept s.jobs[j] t.jobs[j]))) ∧
      (∀ x, s.sec.sessions[k] = some x → x.src = src →
        Completes (.endSession src k msg) s (fun t => t.sec.sessions[k] = none ∧ (∀ j : Fin 4, j ≠ k → t.sec.sessions[j] = s.sec.sessions[j]) ∧ (∀ j : Fin 64, JobKept s.jobs[j] t.jobs[j])) ∧
        Completes (.spdmHeartbeat src k msg) s (fun t => t = spdmReply src 0x68 0 0 [] s)))

/-- R478, R509, R510: IDE_KM in a finished session over the function's own DOE mailbox programs and activates the key of a function's stream; TDISP messages
move the interface from UNLOCKED to LOCKED to RUN and back; an interface that leaves RUN closes its BAR2, and one that
goes to ERROR tears its job down. -/
def Obligations.InterfacesFollowTdisp : Prop :=
  (∀ (k : Fin 4) (slot : Fin 64) (key : BitVec 256) (s : State) (src : SpdmPort), s.cox.change = none → securePort s k slot = some src →
    spdmOpen s src = true →
    Completes (.ideKmRequest k slot false key) s (fun t => t.sec.ide[slot] = some { key := key, active := false } ∧ t.jobs = s.jobs) ∧
    (∀ x, s.sec.ide[slot] = some x → Completes (.ideKmRequest k slot true key) s (fun t => t.sec.ide[slot] = some { x with active := true } ∧ t.jobs = s.jobs)) ∧
    (s.sec.tdisp[slot] = .unlocked → Completes (.tdispRequest k slot .lock) s (fun t => t.sec.tdisp[slot] = .locked ∧ t.sec.closed = s.sec.closed ∧ t.jobs = s.jobs)) ∧
    (s.sec.tdisp[slot] = .locked → Completes (.tdispRequest k slot .start) s (fun t => t.sec.tdisp[slot] = .run ∧
      t.sec.closed.getLsbD slot.val = false ∧ t.jobs = s.jobs)) ∧
    Completes (.tdispRequest k slot .stop) s (fun t => t.sec.tdisp[slot] = .unlocked ∧
      (s.sec.tdisp[slot] = .run → t.sec.closed.getLsbD slot.val = true) ∧ t.jobs = s.jobs) ∧
    Completes (.tdispRequest k slot .getState) s (fun t => t = spdmReply src 0x7E 2 (s.sec.tdisp[slot]).code [] s)) ∧
  (∀ (slot : Fin 64) (s : State), s.sec.tdisp[slot] = .run →
    Completes (.tdispLeaveRun slot false) s (fun t => t.sec.tdisp[slot] = .unlocked ∧ t.sec.closed.getLsbD slot.val = true ∧ t.jobs = s.jobs) ∧
    Completes (.tdispLeaveRun slot true) s (fun t => t.sec.tdisp[slot] = .error ∧ t.sec.closed.getLsbD slot.val = true ∧ (jobSt t slot).active = false))

/-! ### Pins, input and resets -/

/-- R584, R586, R587, R598, R599, R605, R652 to R655: the 54 V input moves the module into and out of P4, outside the thermal hold
and in it; RST_N asserted holds the device
with everything volatile gone; its release, or a stable REFCLK, boots an image that the flash offers, or holds the device. -/
def Obligations.InputVoltageAndColdResets : Prop :=
  (∀ (s : State) (mv : Nat),
      (46000 ≤ mv → mv ≤ 60000 → s.board.vinValid = false → s.rst.phase ≠ .thermal → Completes (.vinRise mv) s (fun t => t.board.vinValid = true ∧ t.board.vinMv = mv ∧
        t.board.pwrgd = true ∧ t.rst.phase = .held ∧ t.rst.lastCause = 1 ∧ t.mem.cells = [] ∧ (∀ j : Fin 64, jobSt t j = .empty))) ∧
      (46000 ≤ mv → mv ≤ 60000 → s.board.vinValid = false → s.rst.phase = .thermal → Completes (.vinRise mv) s (fun t =>
        t.rst.phase = .thermal ∧ t.board.vinValid = true)) ∧
      (44000 ≤ mv → mv < 47000 → s.board.vinValid = true → Completes (.undervoltageWarning mv) s (fun t => t.board.underWarn = true ∧
        t.board.vinMv = mv ∧ t.board.alert.getLsbD 0 = true ∧ t.jobs = s.jobs ∧ t.mem = s.mem ∧ t.rst = s.rst)) ∧
      (∀ cause, s.board.vinValid = true → s.rst.phase = .thermal → Completes (.inputLost cause) s (fun t => t.rst = s.rst)) ∧
      (∀ cause, s.board.vinValid = true → s.rst.phase ≠ .off → s.rst.phase ≠ .thermal → Completes (.inputLost cause) s (fun t => t.rst.phase = .off ∧ t.power.mode = .off ∧
        t.board.pwrgd = false ∧ t.mem.cells = [] ∧ (∀ j : Fin 64, jobSt t j = .empty ∧ t.sec.jobKeys[j] = none) ∧
        t.sec.lifecycle = s.sec.lifecycle ∧ t.sec.rollback = s.sec.rollback))) ∧
  ((∀ s : State, s.rst.phase = .running → s.rst.rstLow = false → Completes .rstNAssert s (fun t => t.rst.phase = .held ∧ t.rst.lastCause = 2 ∧ t.rst.rstLow = true ∧
      t.mem.cells = [] ∧ t.objs = [] ∧ (∀ j : Fin 64, jobSt t j = .empty ∧ t.sec.jobKeys[j] = none) ∧ t.sec.lifecycle = s.sec.lifecycle ∧
      t.sec.opKey = s.sec.opKey)) ∧
    (∀ (b : BootEnv) (s : State) (i : Instr), i = .rstNRelease b ∨ (i = .refclkStable b ∧ s.rst.rstLow = false) →
      s.rst.phase = .held → s.board.pwrgd = true → b.refclkOk = true → s.rst.lastCause ≠ 6 →
      ((s.rst.note b.restarts).spent = true → Completes i s (fun t => t.rst.phase = .hold 1 ∧ t.cox.alive = false)) ∧
      ((s.rst.note b.restarts).spent = false → strapProfile b.strapCode = none → Completes i s (fun t => t.rst.phase = .hold 2 ∧ t.cox.alive = false)) ∧
      (∀ p, (s.rst.note b.restarts).spent = false → strapProfile b.strapCode = some p → b.stackTrainOk = false → Completes i s (fun t => t.rst.phase = .hold 7)) ∧
      (∀ p, (s.rst.note b.restarts).spent = false → strapProfile b.strapCode = some p → b.stackTrainOk = true → profileSource p = 0 →
        imageFault b.readA (flashAtBoot b s).cox.flash[0].image s.sec.rollback = none →
        Completes i s (fun t => t.rst.phase = .running ∧ t.rst.profile = p ∧ t.cox.image = (flashAtBoot b s).cox.flash[0].image ∧ t.cox.bootSlot = false ∧ t.cox.alive = true ∧
          t.fabric.accepting = true ∧ t.calib.loaded = (loadCalib (flashAtBoot b s).cox.flash[0].image s).calib.loaded)) ∧
      (∀ p, (s.rst.note b.restarts).spent = false → strapProfile b.strapCode = some p → b.stackTrainOk = true → profileSource p = 2 →
        Completes i s (fun t => t.rst.phase = .loader ∧ t.rst.profile = p))))

/-- R583, R584, R587, R588, R591: the sources of a warm reset. It stops every unit, clears the mailboxes, ends the commands and the
SPDM sessions, keeps the log and destroys keys that do not survive. Memory is kept: no byte changes outside the sectors that a
job whose keys do not survive may write, whose teardown leaves its records there. WRST_N holds the reset until its release, which runs the Cox and the fabric
again when the image is the one that was booted, and holds the device (cause 6) when it is not. -/
def Obligations.WarmResetsKeepMemory : Prop :=
  (∀ s : State, powered s = true →
      (Completes .wrstNAssert s (fun t => t.rst.phase = .warm ∧ t.rst.lastCause = 3 ∧ t.rst.wrstLow = true ∧ t.cox.running = [] ∧ t.cox.change = none ∧
        (∀ e : Fin 68, t.engines[e].units = []) ∧ (∀ v : Fin 64, t.ves[v] = VecEng.reset) ∧ (∀ r : Fin 64, t.rigs[r] = Rigger.reset) ∧
        (∀ fn : Fin 65, t.host[fn].busy = 0 ∧ t.host[fn].version = none) ∧ (∀ k : Fin 4, t.sec.sessions[k] = none) ∧
        (∀ j : Fin 64, s.sec.jobKeys[j].isSome = true → survives s j = false → (jobSt s j).active = true →
          jobSt t j = .torn ∧ (ctl t j).tearCause = 4 ∧ t.sec.jobKeys[j] = none) ∧
        (s.power.slice = none → ∀ a, (∀ (j : Fin 64) (va d : Nat), s.sec.jobKeys[j].isSome = true → survives s j = false →
          translate s j va false true = some d → d / 64 ≠ a / 64) → cellGet t.mem.cells a = cellGet s.mem.cells a) ∧
        t.clock.now = s.clock.now)) ∧
      (∀ pc, s.cox.change = none → s.cox.halted = false → s.rst.wrstLow = false → imageSame s = true → Completes (.coxWatchdogExpiry pc) s (fun t =>
        t.rst.phase = .running ∧ t.rst.lastCause = 4 ∧ t.cox.running = [] ∧ t.cox.alive = true ∧
        ∃ r ∈ t.logs.first ++ t.logs.ring, r.code = 0x06 ∧ r.detail = pc.toNat)) ∧
      (∀ k u, s.rst.wrstLow = false → imageSame s = true → Completes (.criticalStateError k u) s (fun t =>
        t.rst.phase = .running ∧ t.rst.lastCause = 5 ∧ t.cox.running = [] ∧ t.cox.alive = true ∧
        ∃ r ∈ t.logs.first ++ t.logs.ring, r.code = 0x05 ∧ r.detail = k.val ∧ r.unit.toNat = u.toNat)) ∧
      (s.rst.devResetAt.isSome = true → s.rst.wrstLow = false → imageSame s = true → Completes .devResetStart s (fun t =>
        t.rst.phase = .running ∧ t.rst.lastCause = 3 ∧ t.rst.devResetAt = none ∧ t.cox.running = []))) ∧
  (∀ s : State, s.rst.phase = .warm →
      (imageSame s = true → s.rst.late = [] → Completes .wrstNRelease s (fun t => t.rst.phase = .running ∧ t.rst.wrstLow = false ∧ t.cox.alive = true ∧
        t.fabric.accepting = true ∧ t.fabric.routes.x0 = [] ∧ t.fabric.routes.x1 = [] ∧ t.calib.loaded = (loadCalib s.cox.image s).calib.loaded)) ∧
      (imageSame s = false → Completes .wrstNRelease s (fun t => t.rst.phase = .hold 6 ∧ t.cox.alive = false ∧ t.health.holdCause = 6)))

/-- R538, R582, R584: a SECURITY reset boots anew without reading the strap and without a debug session; a lost REFCLK
holds the device. R595, R596: a block reset of the Cox resets the core it names, and leaves every unit it has none for. R624: an error in the counts
of a job's promises takes the job to TORN and is logged. -/
def Obligations.SecurityAndBlockResets : Prop :=
  (∀ (b : BootEnv) (s : State), s.rst.phase = .running → (s.rst.note b.restarts).spent = false → b.stackTrainOk = true → profileSource s.rst.profile = 0 →
    imageFault b.readA (flashAtBoot b s).cox.flash[0].image s.sec.rollback = none →
    Completes (.umpireSecurityReset b) s (fun t => t.rst.phase = .running ∧ t.rst.profile = s.rst.profile ∧ t.rst.lastCause = 6 ∧
      t.sec.debug = none ∧ t.cox.image = (flashAtBoot b s).cox.flash[0].image ∧ (∀ j : Fin 64, jobSt t j = .empty)) ∧
    Completes (.clockFault false b) s (fun t => t.rst.phase = .running ∧ t.rst.lastCause = 6 ∧ t.sec.debug = none ∧ (∀ j : Fin 64, jobSt t j = .empty)) ∧
    Completes (.clockFault true b) s (fun t => t.rst.phase = .held ∧ t.rst.refclkOk = false ∧ (∀ j : Fin 64, jobSt t j = .empty))) ∧
  (∀ (s : State), powered s = true →
    (∀ r : Fin 64, s.rigs[r].task = none → Completes (.coxBlockReset (.rigger r)) s (fun t => t.rigs[r] = Rigger.reset ∧
      t.logs.seq = s.logs.seq + 1 ∧ t.jobs = s.jobs ∧ t.mem = s.mem)) ∧
    (∀ e v st u, Completes (.coxBlockReset (.matrix e)) s (fun t => t = s) ∧ Completes (.coxBlockReset (.vector v)) s (fun t => t = s) ∧
      Completes (.coxBlockReset (.stroke st)) s (fun t => t = s) ∧ Completes (.coxBlockReset (.update u)) s (fun t => t = s)) ∧
    (∀ j : Fin 64, (jobSt s j).active = true → Completes (.coxBlockReset (.counts j)) s (fun t => jobSt t j = .torn ∧ t.sec.jobKeys[j] = none ∧
      ∃ r ∈ t.logs.first ++ t.logs.ring, r.slot = some j)))

/-- R528, R529, R585, R586, R642, R650: SMB_WAKE takes the device out of P3; a thermal trip of a sensor that no self-test excluded
turns the rails off until the thermal hold ends. R530, R649: the test port answers IDCODE and BYPASS; under D3 it also halts the
cores and the Cox, and only a Falruine token writes fuses. Which code does which is a constant of the model (notes/assumptions/57). -/
def Obligations.WakeThermalTripAndTestPort : Prop :=
  (∀ s : State, s.rst.phase = .running → s.power.mode = .rest → imageSame s = true → Completes .smbWake s (fun t => t.power.mode = .run ∧
    t.power.aclk = 0 ∧ t.cox.alive = true ∧ t.fabric.accepting = true)) ∧
  (∀ (s : State) (sensor : Fin 32) (temp : Nat), 115 ≤ temp → temp ≤ 255 → s.rst.phase = .running →
    (s.health.tempExcl.getLsbD sensor.val = false → Completes (.thermalTrip ⟨sensor, temp⟩) s (fun t => t.rst.phase = .thermal ∧
      t.rst.lastCause = 7 ∧ t.power.mode = .off ∧ t.board.tempC.toNat = temp ∧ t.board.alert.getLsbD 2 = true ∧ t.board.pwrgd = false ∧ t.mem.cells = [])) ∧
    (s.health.tempExcl.getLsbD sensor.val = true → Completes (.thermalTrip ⟨sensor, temp⟩) s (fun t => t = s))) ∧
  (∀ s : State, s.rst.phase = .thermal → Completes .thermalHoldEnd s (fun t => t.rst.phase = .off ∧ t.board.alert = 0 ∧ t.jobs = s.jobs ∧ t.mem = s.mem)) ∧
  (∀ (s : State) (ir : Byte), tapOn s = true → (d3Open s = false ∨ ir = Config.idcodeIr ∨ ir = 0xFF) →
    Completes (.tapInstruction ir) s (fun t => t = { s with out := s.out ++ [.jtag ir (if ir = Config.idcodeIr then 0x1D5A0A6B else 0)] })) ∧
  (∀ (s : State) (ir : Byte), tapOn s = true → d3Open s = true → ir ≠ Config.idcodeIr → ir ≠ 0xFF →
    (Config.tapCode ir % 8 = 1 → Completes (.tapInstruction ir) s (fun t => (∀ (j : Fin 64) (d : Fin 4), (jobDie t j d).regs.halted = true) ∧
      (∀ r : Fin 64, t.rigs[r].regs.halted = true) ∧ t.mem = s.mem)) ∧
    (Config.tapCode ir % 8 = 3 → Completes (.tapInstruction ir) s (fun t => t.cox.halted = true ∧ t.jobs = s.jobs ∧ t.mem = s.mem)) ∧
    (falruineD3 s = false → Completes (.tapInstruction ir) s (fun t => t.sec = s.sec ∧ t.mem = s.mem)))

/-! ### Tasks -/

/-- R172, R181, R182, R185, R186, R189, R190, R197, R209, R581: outside P3, ADMIT_DESCRIPTOR takes a checked descriptor to its entry, DECREMENT counts a
dependence; TASK_RELEASE makes the first releasable task RUNNING; TASK_COMPLETE frees the entry of a task whose work is
done; WAIT_TIMEOUT ends a WAIT task below its threshold in fault. -/
def Obligations.TasksRunFromAdmissionToTheirEnd : Prop :=
  ((∀ (slot : Fin 64) (die : Fin 4) (s : State) (d early : Nat),
      coresRun s = true → depsApply (jobSt s slot) = true → ringOn s slot die = true → (jobDie s slot die).sqHead ≠ (jobDie s slot die).sqTail →
      peek s slot (fld (ringBits s slot die) 159 112 + 128 * ((jobDie s slot die).sqHead.toNat % sqSize (ringBits s slot die))) 128 =
        ⟨leBytes 128 d, .ok⟩ → d < 2 ^ 1024 → admitCheck s slot die d = none →
      (entryOf s ⟨slot, die, BitVec.ofNat 16 (dIndex d)⟩).st = .free early →
      Completes (.admitDescriptor slot die) s (fun t => (jobDie t slot die).sqHead = (jobDie s slot die).sqHead + 1 ∧
        (entryOf t ⟨slot, die, BitVec.ofNat 16 (dIndex d)⟩).desc = d ∧
        (entryOf t ⟨slot, die, BitVec.ofNat 16 (dIndex d)⟩).next = dGen d + 1 ∧
        (entryOf t ⟨slot, die, BitVec.ofNat 16 (dIndex d)⟩).st = (if dDepCount d = early then .ready s.stamps else .waiting (dDepCount d - early)) ∧
        t.mem.cells = s.mem.cells)) ∧
    (∀ (slot : Fin 64) (name : BitVec 18) (gen : BitVec 6) (s : State), coresRun s = true → depsApply (jobSt s slot) = true → Calm s slot →
      (∀ n, (entryOf s (refOf slot name.toNat)).st = .waiting n → gen = dGen (entryOf s (refOf slot name.toNat)).desc →
        gen ≠ (entryOf s (refOf slot name.toNat)).next →
        Completes (.decrement slot name gen) s (fun t =>
          (entryOf t (refOf slot name.toNat)).st = (if n ≤ 1 then .ready s.stamps else .waiting (n - 1)) ∧ t.mem = s.mem)) ∧
      (∀ n, (entryOf s (refOf slot name.toNat)).st = .free n → n < 65535 → gen = (entryOf s (refOf slot name.toNat)).next →
        Completes (.decrement slot name gen) s (fun t => (entryOf t (refOf slot name.toNat)).st = .free (n + 1) ∧ t.mem = s.mem)))) ∧
  ((∀ (slot : Fin 64) (die : Fin 4) (k : BitVec 16) (s : State) (r : Released),
      releasable s ⟨slot, die, k⟩ (entryOf s ⟨slot, die, k⟩) = true → isFirst s (fun _ => true) ⟨slot, die, k⟩ (entryOf s ⟨slot, die, k⟩) = true →
      watchDrops s slot (entryOf s ⟨slot, die, k⟩).desc = false → dSkip (entryOf s ⟨slot, die, k⟩).desc = false →
      validate s ⟨slot, die, k⟩ (entryOf s ⟨slot, die, k⟩) = .ok r → r.reads = [] → r.writes = [] → r.done = false →
      (∀ n th d, r.run ≠ .wait n th d) →
      Completes (.taskRelease slot die k) s (fun t => (entryOf t ⟨slot, die, k⟩).st = .running ∧ (entryOf t ⟨slot, die, k⟩).run = r.run ∧
        (entryOf t ⟨slot, die, k⟩).desc = (entryOf s ⟨slot, die, k⟩).desc ∧
        (∀ j : BitVec 16, j ≠ k → entryOf t ⟨slot, die, j⟩ = entryOf s ⟨slot, die, j⟩))) ∧
    (∀ (slot : Fin 64) (die : Fin 4) (k : BitVec 16) (s : State) (x : Track),
      (entryOf s ⟨slot, die, k⟩).st = .running → (entryOf s ⟨slot, die, k⟩).run = .copy x → x.left = 0 → x.fail = none →
      NoSuccessors (entryOf s ⟨slot, die, k⟩).desc → (entryOf s ⟨slot, die, k⟩).reads = [] → Calm s slot →
      (∀ v : Fin 64, s.ves[v].inst.map (·.task) ≠ some ⟨slot, die, k⟩) →
      Completes (.taskComplete slot die k) s (fun t => (entryOf t ⟨slot, die, k⟩).st = .free 0 ∧ (entryOf t ⟨slot, die, k⟩).desc = 0 ∧
        (entryOf t ⟨slot, die, k⟩).run = .idle ∧ (entryOf t ⟨slot, die, k⟩).next = (entryOf s ⟨slot, die, k⟩).next)) ∧
    (∀ (slot : Fin 64) (die : Fin 4) (k : BitVec 16) (s : State) (n dl : Nat) (th : BitVec 32),
      (entryOf s ⟨slot, die, k⟩).st = .running → (entryOf s ⟨slot, die, k⟩).run = .wait n th (some dl) →
      (counterVal s slot n).2 = .ok → reached (counterVal s slot n).1 th = false →
      (∀ d : Fin 4, ((jobDie s slot d).entries.map Prod.fst).Nodup) →
      (∀ d : Fin 4, ∀ p ∈ (jobDie s slot d).entries, (d = die ∧ p.1 = k.toNat) ∨ ∀ a b c, p.2.run ≠ .wait a b c) →
      s.jobs[slot].buckets = [] → s.jobs[slot].watch.st ≠ .closing → s.jobs[slot].watch.dropping = false →
      Completes (.waitTimeout slot die k) s (fun t => (entryOf t ⟨slot, die, k⟩).st = .faulted ∧ (entryOf t ⟨slot, die, k⟩).run = .idle ∧
        (jobSt s slot = .running → jobSt t slot = .draining ∨ jobSt t slot = .paused))))

/-- R198 to R201, R206, R207: routines and rigger programs start at their entry points, and a budget's end takes a core's
program; TSUBMIT, TPATCH, TSKIP and TREARM act on tasks of their die, and TDONE ends a routine. -/
def Obligations.ProgramsRunOnTheCores : Prop :=
  ((∀ (slot : Fin 64) (die : Fin 4) (s : State) (i : Nat) (rest : List RoutineJob), coresRun s = true → jobSt s slot ≠ .torn → jobSt s slot ≠ .scrubbing →
      (jobDie s slot die).routine = none → (jobDie s slot die).queue = .task i :: rest →
      Completes (.routineStart slot die) s (fun t => (jobDie t slot die).routine = some (.task i) ∧ (jobDie t slot die).queue = rest ∧
        (jobDie t slot die).regs.pc = BitVec.ofNat 64 (dEntry (entryOf s ⟨slot, die, BitVec.ofNat 16 i⟩).desc) ∧
        (jobDie t slot die).budget = budgetOf s slot (entryOf s ⟨slot, die, BitVec.ofNat 16 i⟩).desc ∧
        getX t (.stroke die slot) 10 = BitVec.ofNat 64 (fld (entryOf s ⟨slot, die, BitVec.ofNat 16 i⟩).desc 639 576) ∧
        t.mem = s.mem)) ∧
    (∀ (slot : Fin 64) (die : Fin 4) (k : BitVec 16) (rig : Fin 64) (s : State),
      (entryOf s ⟨slot, die, k⟩).st = .running → (entryOf s ⟨slot, die, k⟩).run = .rigger none → unitDie rig = die → s.rigs[rig].task = none →
      inP0P1 s = true → (riggerMax s slot = 0 ∨ riggersHeld s slot die < riggerMax s slot) →
      Completes (.riggerProgramStart slot die k rig) s (fun t => t.rigs[rig].task = some ⟨slot, die, k⟩ ∧ t.rigs[rig].slot = some slot ∧
        t.rigs[rig].regs.pc = BitVec.ofNat 64 (dEntry (entryOf s ⟨slot, die, k⟩).desc) ∧
        (entryOf t ⟨slot, die, k⟩).run = .rigger (some rig) ∧ (∀ r : Fin 64, r ≠ rig → t.rigs[r] = s.rigs[r]) ∧
        (s.rigs[rig].slot ≠ some slot → t.rigs[rig].scratch = []) ∧ t.mem = s.mem)) ∧
    (∀ (c : CoreId) (s : State) (slot : Fin 64), coreSlot s c = some slot →
      Completes (.budgetExpiry c) s (fun t => coreSlot t c = none))) ∧
  ((∀ (die : Fin 4) (slot : Fin 64) (rd rs1 : BitVec 5) (s : State) (d : Nat), coreSlot s (.stroke die slot) = some slot →
      (getX s (.stroke die slot) rs1).toNat % 128 = 0 → peek s slot (getX s (.stroke die slot) rs1).toNat 128 = ⟨leBytes 128 d, .ok⟩ →
      d < 2 ^ 1024 →
      Completes (.tsubmit die slot rd rs1) s (fun t =>
        WentOn s t (.stroke die slot) rd ((match admitCheck s slot die d with | some c => c | none => stOK).setWidth 64) ∧
        (admitCheck s slot die d = none → (entryOf t ⟨slot, die, BitVec.ofNat 16 (dIndex d)⟩).desc = d) ∧ t.mem.cells = s.mem.cells)) ∧
    (∀ (die : Fin 4) (slot : Fin 64) (rd rs1 : BitVec 5) (s : State), coreSlot s (.stroke die slot) = some slot →
      (getX s (.stroke die slot) rs1).toNat % 128 ≠ 0 →
      Completes (.tsubmit die slot rd rs1) s (fun t => WentOn s t (.stroke die slot) rd (stBAD_FIELD.setWidth 64) ∧
        (∀ k, entryOf t ⟨slot, die, k⟩ = entryOf s ⟨slot, die, k⟩) ∧ t.mem = s.mem)) ∧
    (∀ (die : Fin 4) (slot : Fin 64) (rs1 rs2 : BitVec 5) (s : State) (r : TaskRef) (n : Nat), coreSlot s (.stroke die slot) = some slot →
      r = refOf slot (fld (getX s (.stroke die slot) rs1).toNat 17 0) → r.die = die → (entryOf s r).st = .waiting n →
      (dFillable (entryOf s r).desc = true → 8 ≤ fld (getX s (.stroke die slot) rs1).toNat 23 20 →
        Completes (.tpatch die slot rs1 rs2) s (fun t =>
          dWord (entryOf t r).desc (fld (getX s (.stroke die slot) rs1).toNat 23 20) = (getX s (.stroke die slot) rs2).toNat ∧
          (∀ w, w ≠ fld (getX s (.stroke die slot) rs1).toNat 23 20 → dWord (entryOf t r).desc w = dWord (entryOf s r).desc w) ∧
          (entryOf t r).st = .waiting n ∧ (coreRegs t (.stroke die slot)).pc = (coreRegs s (.stroke die slot)).pc + 4 ∧ t.mem = s.mem)) ∧
      (dFillable (entryOf s r).desc = true →
        Completes (.tskip die slot rs1) s (fun t => dSkip (entryOf t r).desc = true ∧ (entryOf t r).st = .waiting n ∧
          (coreRegs t (.stroke die slot)).pc = (coreRegs s (.stroke die slot)).pc + 4 ∧ t.mem = s.mem)) ∧
      (n + fld (getX s (.stroke die slot) rs2).toNat 15 0 ≤ 65535 →
        Completes (.trearm die slot rs1 rs2) s (fun t => (entryOf t r).st = .waiting (n + fld (getX s (.stroke die slot) rs2).toNat 15 0) ∧
          (coreRegs t (.stroke die slot)).pc = (coreRegs s (.stroke die slot)).pc + 4 ∧ t.mem = s.mem))) ∧
    (∀ (c : CoreId) (rs1 : BitVec 5) (s : State) (slot : Fin 64), coreSlot s c = some slot →
      Completes (.tdone c rs1) s (fun t => coreSlot t c = none)))

/-! ### Cores -/

/-- R202, R203, R208, R470: RV64_INSTRUCTION runs the word at the core's pc (here add, addi, beq and, on a rigger core, sd to
scratch), a read of a counter CSR puts the counter into rd, and the rigger's block instructions work on scratch. -/
def Obligations.CoresAndRiggersExecute : Prop :=
  ((∀ (c : CoreId) (slot : Fin 64) (w : Nat) (s : State), Fetches s c slot w →
      (fld w 6 0 = 0x33 → fld w 14 12 = 0 → fld w 31 25 = 0 →
        Completes (.rv64Instruction c) s (fun t => WentOn s t c (reg5 w 11 7) (getX s c (reg5 w 19 15) + getX s c (reg5 w 24 20)) ∧
          t.mem.cells = s.mem.cells)) ∧
      (fld w 6 0 = 0x13 → fld w 14 12 = 0 →
        Completes (.rv64Instruction c) s (fun t => WentOn s t c (reg5 w 11 7) (getX s c (reg5 w 19 15) + BitVec.ofInt 64 (toSigned 12 (fld w 31 20))) ∧
          t.mem.cells = s.mem.cells)) ∧
      (fld w 6 0 = 0x63 → fld w 14 12 = 0 →
        Completes (.rv64Instruction c) s (fun t => (coreRegs t c).x = (coreRegs s c).x ∧ t.mem.cells = s.mem.cells ∧
          (coreRegs t c).pc = (coreRegs s c).pc + (if getX s c (reg5 w 19 15) = getX s c (reg5 w 24 20) then
            BitVec.ofInt 64 (toSigned 13 (fld w 31 31 <<< 12 + fld w 7 7 <<< 11 + fld w 30 25 <<< 5 + fld w 11 8 <<< 1)) else 4)))) ∧
    (∀ (r : Fin 64) (slot : Fin 64) (w a : Nat) (s : State), Fetches s (.rigger r) slot w → fld w 6 0 = 0x23 → fld w 14 12 = 3 →
      a = (getX s (.rigger r) (reg5 w 19 15) + BitVec.ofInt 64 (toSigned 12 (fld w 31 25 <<< 5 + fld w 11 7))).toNat → a % 8 = 0 → a + 8 ≤ 0x40000 →
      Completes (.rv64Instruction (.rigger r)) s (fun t => scrGet t r a 8 = leBytes 8 (getX s (.rigger r) (reg5 w 24 20)).toNat ∧
        (∀ k, k < a ∨ a + 8 ≤ k → scrGet t r k 1 = scrGet s r k 1) ∧ t.rigs[r].regs.pc = s.rigs[r].regs.pc + 4 ∧ t.mem.cells = s.mem.cells)) ∧
    (∀ (c : CoreId) (csr : BitVec 12) (rd : BitVec 5) (slot : Fin 64) (v : BitVec 64) (s : State), coreSlot s c = some slot →
      counterCsr s slot (coreDie c) csr = some v →
      Completes (.hpmCsrRead c csr rd) s (fun t => WentOn s t c rd v ∧ t.mem = s.mem ∧ t.clock = s.clock))) ∧
  (∀ (r : Fin 64) (t0 : TaskRef) (rd rs1 rs2 : BitVec 5) (s : State) (a b : Nat), s.rigs[r].task = some t0 → coreSlot s (.rigger r) = some t0.slot →
      a = (getX s (.rigger r) rs1).toNat → b = (getX s (.rigger r) rs2).toNat →
      -- SLD and SST move bytes between job memory and scratch
      (fld b 17 0 + fld b 49 32 ≤ 0x40000 → (peek s t0.slot a (fld b 49 32)).st = .ok →
        Completes (.sld r rs1 rs2) s (fun t => scrGet t r (fld b 17 0) (fld b 49 32) = (peek s t0.slot a (fld b 49 32)).data ∧
          t.rigs[r].regs = { s.rigs[r].regs with pc := s.rigs[r].regs.pc + 4 } ∧ t.mem.cells = s.mem.cells)) ∧
      (∀ u, fld b 17 0 + fld b 49 32 ≤ 0x40000 → jobWrite t0.slot a (scrGet s r (fld b 17 0) (fld b 49 32)) s = (u, .ok) →
        Completes (.sst r rs1 rs2) s (fun t => t.mem = u.mem ∧ t.rigs[r].scratch = s.rigs[r].scratch ∧
          t.rigs[r].regs = { s.rigs[r].regs with pc := s.rigs[r].regs.pc + 4 })) ∧
      -- BLKQ and BLKX convert 32 elements
      (∀ q, blkConvOk s.rigs[r].conv.toNat = true → a + 128 ≤ 0x40000 → b + blkBytes (convFmt s.rigs[r].conv.toNat) + 1 ≤ 0x40000 →
        q = toBlock ((f32sOf (scrGet s r a 128) 32).map (fun v => f32val (BitVec.ofNat 32 v))) (convFmt s.rigs[r].conv.toNat) (convFixed s.rigs[r].conv.toNat) →
        Completes (.blkq r rd rs1 rs2) s (fun t =>
          scrGet t r b (blkBytes (convFmt s.rigs[r].conv.toNat)) =
            leBytes (blkBytes (convFmt s.rigs[r].conv.toNat)) (packElems (fmtBits (convFmt s.rigs[r].conv.toNat)) q.1.q) ∧
          scrGet t r (b + blkBytes (convFmt s.rigs[r].conv.toNat)) 1 = leBytes 1 q.1.e ∧ WentOn s t (.rigger r) rd (BitVec.ofNat 64 q.2.sat))) ∧
      (∀ f, f = convFmt s.rigs[r].conv.toNat → blkxConvOk s.rigs[r].conv.toNat = true → a + (blkBytes f + blkExpBytes f) ≤ 0x40000 → b + 128 ≤ 0x40000 →
        Completes (.blkx r rs1 rs2) s (fun t => t.mem = s.mem ∧ t.rigs[r].regs.pc = s.rigs[r].regs.pc + 4 ∧
          ∀ k, k < 32 → scrGet t r (b + 4 * k) 4 = leBytes 4 (blkElem f (leNat (scrGet s r (a + blkBytes f) 1))
            (fld (leNat (scrGet s r a (blkBytes f))) (fmtBits f * k + fmtBits f - 1) (fmtBits f * k))).1.toNat)) ∧
      -- SORTKV leaves the pairs in ascending order of key
      (b ≤ 16384 → a + 8 * b ≤ 0x40000 → Completes (.sortkv r rs1 rs2) s (fun t => t.rigs[r].regs.pc = s.rigs[r].regs.pc + 4 ∧ t.mem = s.mem ∧
        (∀ k, k + 1 < b → leNat (scrGet t r (a + 8 * k) 4) ≤ leNat (scrGet t r (a + 8 * (k + 1)) 4)) ∧
        ((List.range b).map (fun k => scrGet t r (a + 8 * k) 8)).Perm ((List.range b).map (fun k => scrGet s r (a + 8 * k) 8)))) ∧
      -- HIST counts a key
      (fld b 31 0 = 1 → a + 2 ≤ 0x40000 → fld b 49 32 + 4 * leNat (scrGet s r a 2) + 4 ≤ 0x40000 →
        Completes (.hist r rs1 rs2) s (fun t => t.rigs[r].regs.pc = s.rigs[r].regs.pc + 4 ∧ t.mem = s.mem ∧
          leNat (scrGet t r (fld b 49 32 + 4 * leNat (scrGet s r a 2)) 4) =
            (leNat (scrGet s r (fld b 49 32 + 4 * leNat (scrGet s r a 2)) 4) + 1) % 2 ^ 32)) ∧
      -- PSUM leaves exclusive prefix sums and the total in rd
      (a + 4 * b ≤ 0x40000 → Completes (.psum r rd rs1 rs2) s (fun t => t.mem = s.mem ∧
        WentOn s t (.rigger r) rd (BitVec.ofNat 64 (((List.range b).map (fun k => leNat (scrGet s r (a + 4 * k) 4))).foldl (· + ·) 0)) ∧
        ∀ k, k < b → leNat (scrGet t r (a + 4 * k) 4) = (((List.range k).map (fun j => leNat (scrGet s r (a + 4 * j) 4))).foldl (· + ·) 0) % 2 ^ 32)) ∧
      -- NNZB counts the bytes that are not 0
      (a + b ≤ 0x40000 → Completes (.nnzb r rd rs1 rs2) s (fun t => t.mem = s.mem ∧ t.rigs[r].scratch = s.rigs[r].scratch ∧
        WentOn s t (.rigger r) rd (BitVec.ofNat 64 ((scrGet s r a b).filter (· != 0)).length))) ∧
      -- LAPP appends to a list that has room
      (a + 8 ≤ 0x40000 → leNat (scrGet s r a 4) < leNat (scrGet s r (a + 4) 4) → a + 8 + 8 * leNat (scrGet s r a 4) + 8 ≤ 0x40000 →
        Completes (.lapp r rd rs1 rs2) s (fun t => WentOn s t (.rigger r) rd 0 ∧ leNat (scrGet t r a 4) = leNat (scrGet s r a 4) + 1 ∧
          scrGet t r (a + 8 + 8 * leNat (scrGet s r a 4)) 8 = leBytes 8 b ∧ t.mem = s.mem)) ∧
      (a + 8 ≤ 0x40000 → leNat (scrGet s r (a + 4) 4) ≤ leNat (scrGet s r a 4) →
        Completes (.lapp r rd rs1 rs2) s (fun t => WentOn s t (.rigger r) rd 1 ∧ t.rigs[r].scratch = s.rigs[r].scratch ∧ t.mem = s.mem)))

/-! ### Matrix engines -/

/-- R14, R76, R77, R81, R82, R93, R98, R101, R117, R119: matrix units start on engines beside units whose passes have ended, hold
tiles of B in two buffers, pass their banks through the output writer and combine split sums; residue checks run a unit
again or fence its engine; the built-in test of a spare follows the health table. -/
def Obligations.MatrixUnitsRunAndEnginesHeal : Prop :=
  ((∀ (t0 : TaskRef) (eng : Fin 68) (s : State) (e : Entry) (u : Nat) (w : WorkUnit) (engs : List (Fin 68)),
      e = entryOf s t0 → unitOn s t0 eng = some (u, w, engs) → inP0P1 s = true → isFirst s (· == eng) t0 e = true →
      entsFail s t0.slot e w (readEnts s t0.slot e w) = none →
      (∀ p x, p < w.parts → (unitsOf e)[u + p]? = some x → (unitTiles s t0.slot e x ((readEnts s t0.slot e w).map Prod.fst)).2 = .ok) →
      Completes (.matrixUnitStart t0.slot t0.die t0.index eng) s (fun t =>
        (∀ p g x, engs[p]? = some g → (unitsOf e)[u + p]? = some x → t.engines[g].slot = some t0.slot ∧ t.engines[g].st = s.engines[g].st ∧
          t.engines[g].units = s.engines[g].units ++
            [MatUnit.start t0 (u + p) (unitTiles s t0.slot e x ((readEnts s t0.slot e w).map Prod.fst)).1 ((readEnts s t0.slot e w).map Prod.fst)]) ∧
        (∀ g : Fin 68, g ∉ engs → t.engines[g] = s.engines[g]) ∧
        (entryOf t t0).run = takeNext u w.parts e.run ∧ t.mem.cells = s.mem.cells)) ∧
    (∀ (eng : Fin 68) (s : State) (u : MatUnit) (e : Entry) (w : WorkUnit) (r : PassRes) (b : TileRead),
      passing s eng = some (u, e, w) → u.loaded < u.tiles.length * loadCount w → (0 < passesToFree w u → hasTokens s (.matrix eng) = true) →
      r = (if passesToFree w u = 0 then ⟨u, .ok, [], Cnt.none⟩ else morePasses s e w (passesToFree w u) (withBank s e w u)) → r.st = .ok →
      b = loadTileB s u.task.slot w (u.tiles.getD (u.loaded / loadCount w) 0)
        ((loadPieces (caseOf w.shape)).getD (u.loaded % loadCount w) 0) (u.loaded % loadCount w == 0) → b.st = .ok →
      Completes (.tileLoaded eng) s (fun t =>
        t.engines = (putUnit eng { r.unit with loaded := u.loaded + 1, bufs := r.unit.bufs ++ [⟨u.loaded, b.cols⟩] } s).engines ∧
        t.mem.cells = s.mem.cells)) ∧
    (∀ (eng : Fin 68) (s : State) (u : MatUnit) (e : Entry) (w : WorkUnit) (r : PassRes), passing s eng = some (u, e, w) →
      hasTokens s (.matrix eng) = true → u.tiles.length * loadCount w ≤ u.loaded →
      r = morePasses s e w (u.tiles.length * passCount w - u.passes) (withBank s e w u) → r.st = .ok →
      (1 < w.parts → Completes (.unitPassesEnd eng) s (fun t =>
        t.engines = (putUnit eng { r.unit with ended := true, bufs := [], waitParts := true } s).engines ∧ t.mem = s.mem)) ∧
      (∀ x, w.parts = 1 → w.part = 0 → (w.solo = true → orCnt (u.ents.getD 0 0) = 0) → ArrayOutputs e.desc → Undisturbed s →
        writeOuts u.task e w ((unitRows e w u.ents).map Prod.fst) r.unit.bank
          (putUnit eng { r.unit with ended := true, bufs := [] } (countTask u.task r.cnt s)) = (x, .ok) →
        Completes (.unitPassesEnd eng) s (fun t => GroupLeft s t u 1 ∧ t.mem = x.mem ∧
          ∀ n d tot back, e.run = .matrix n d tot back none → (entryOf t u.task).run = .matrix n (d + 1) tot back none))) ∧
    (∀ (eng : Fin 68) (s x : State) (u : MatUnit) (e : Entry) (w : WorkUnit) (ps : List MatUnit), readyGroup s eng = some (u, e, w, ps) →
      (w.solo = true → orCnt (u.ents.getD 0 0) = 0) → ArrayOutputs e.desc → Undisturbed s →
      writeOuts u.task e w ((unitRows e w u.ents).map Prod.fst) (combineAll (ps.map (·.bank))).1
        (countTask u.task ⟨(combineAll (ps.map (·.bank))).2, 0⟩ s) = (x, .ok) →
      Completes (.ksplitCombine eng) s (fun t => GroupLeft s t u w.parts ∧ t.mem = x.mem ∧
        ∀ n d tot back, e.run = .matrix n d tot back none → (entryOf t u.task).run = .matrix n (d + w.parts) tot back none))) ∧
  ((∀ (eng : Fin 68) (s : State) (u : MatUnit), s.engines[eng].units.getLast? = some u → (u.ended = true → u.waitParts = true) →
      (u.rerun = false → s.engines[eng].err.toNat < 7 → Completes (.residueCheckFail eng) s (fun t =>
        t.engines = (putUnit eng { u with
          loaded := 0, passes := 0, bufs := [], bank := [], ended := false, waitParts := false, rerun := true }
          (modEngine eng (fun k => { k with err := k.err + 1 }) s)).engines ∧ t.mem = s.mem ∧ t.jobs = s.jobs)) ∧
      (u.rerun = true ∨ 7 ≤ s.engines[eng].err.toNat → s.engines[eng].st ≠ meSPARE → (∀ k : Fin 68, k ≠ eng → s.engines[k].fence = false) →
        Completes (.residueCheckFail eng) s (fun t => t.engines[eng].st = meFENCED ∧ t.engines[eng].logical = 0xFF ∧
          (∀ k : Fin 68, spareOf s (engineDie eng) = some k → t.engines[k].st = meTESTING ∧
            t.engines[k].standIn = some s.engines[eng].logical.toNat)))) ∧
    (∀ (die : Fin 4) (s : State) (e : Fin 68),
      (dieEngines die).find? (fun e => s.engines[e].st == meTESTING && !s.engines[e].returned) = some e →
      (∀ l, s.engines[e].standIn = some l → Completes (.spareTestDone die true) s (fun t =>
        t.engines[e].st = meACTIVE ∧ t.engines[e].logical = BitVec.ofNat 8 l ∧ t.health.me = s.health.me.set e.val (BitVec.ofNat 8 l, meACTIVE) ∧
        (∀ k : Fin 68, k ≠ e → t.engines[k] = s.engines[k]) ∧ t.mem = s.mem ∧ t.jobs = s.jobs)) ∧
      (s.engines[e].standIn = none → Completes (.spareTestDone die true) s (fun t =>
        t.engines[e].st = meSPARE ∧ t.engines[e].logical = 0xFF ∧ t.health.me = s.health.me.set e.val (0xFF, meSPARE) ∧
        (∀ k : Fin 68, k ≠ e → t.engines[k] = s.engines[k]) ∧ t.mem = s.mem ∧ t.jobs = s.jobs)) ∧
      Completes (.spareTestDone die false) s (fun t => t.engines[e].st = meFENCED ∧ t.engines[e].logical = 0xFF)))

/-! ### Vector engines -/

/-- R128, R137: an instruction that computes lane by lane writes td's active lanes, and leaves or clears the others as
mz says; no other tile, no mask and no top-k state changes. -/
def Obligations.VectorInstructionsComputeTheirLanes : Prop :=
  ∀ (c : Instr) (ve : Fin 64) (f : VFields) (op : Nat) (g : VecEng → VecInst → Nat → F32) (s : State) (i : VecInst),
    laneRow c = some (ve, f, op, g) → Executes s ve op f i →
    Completes c s (fun t => VectorWentOn s t ve i ∧ t.jobs = s.jobs ∧
      (∀ l, l < 2048 → lane (getTile t.ves[ve] f.td) l =
        if (getMask s.ves[ve] f.mask).getLsbD l then g s.ves[ve] i l else if f.mz then 0 else lane (getTile s.ves[ve] f.td) l) ∧
      (∀ r, r ≠ f.td → getTile t.ves[ve] r = getTile s.ves[ve] r) ∧ (∀ m, getMask t.ves[ve] m = getMask s.ves[ve] m) ∧
      t.ves[ve].topk = s.ves[ve].topk)

/-- R127: m0 reads as all ones and no instruction changes it. Instructions on masks and scalars, reductions and the
top-k state (R128, R137, R147, R160 to R162). That R128's merge and zeroing hold of a reduction's td too is the model's reading
(notes/assumptions/46). -/
def Obligations.VectorMasksReductionsAndRanks : Prop :=
  ∀ (ve : Fin 64) (f : VFields) (s : State) (i : VecInst) (e : VecEng) (m : BitVec 2048), e = s.ves[ve] → m = getMask e f.mask →
    (∀ l, l < 2048 → (getMask e 0).getLsbD l = true) ∧
    -- TCMP and MOP write the active lanes of a mask; m0 stays all ones
    (Executes s ve 0x20 f i → Completes (.tcmp ve f) s (fun t => VectorWentOn s t ve i ∧ (∀ r, getTile t.ves[ve] r = getTile e r) ∧
      ∀ n l, l < 2048 → (getMask t.ves[ve] n).getLsbD l =
        if n ≠ 0 ∧ n = BitVec.ofNat 3 (fld f.imm.toNat 5 3) then
          (if m.getLsbD l then f32test (fld f.imm.toNat 2 0) (lane (getTile e f.ta) l) (lane (getTile e f.tb) l)
           else !f.mz && (getMask e n).getLsbD l)
        else (getMask e n).getLsbD l)) ∧
    (Executes s ve 0x21 f i → Completes (.mop ve f) s (fun t => VectorWentOn s t ve i ∧ (∀ r, getTile t.ves[ve] r = getTile e r) ∧
      ∀ n l, l < 2048 → (getMask t.ves[ve] n).getLsbD l =
        if n ≠ 0 ∧ n = BitVec.ofNat 3 (fld f.imm.toNat 5 3) then
          (if m.getLsbD l then (maskOp (fld f.imm.toNat 2 0) (getMask e (BitVec.ofNat 3 (fld f.imm.toNat 8 6)))
             (getMask e (BitVec.ofNat 3 (fld f.imm.toNat 11 9)))).getLsbD l
           else !f.mz && (getMask e n).getLsbD l)
        else (getMask e n).getLsbD l)) ∧
    (Executes s ve 0x22 f i → Completes (.mpop ve f) s (fun t =>
      VectorWentOn s t ve (i.setCs f.cs (BitVec.ofNat 64 (activeLanes m).length)) ∧ t.jobs = s.jobs)) ∧
    (Executes s ve 0x7D f i → Completes (.sadd ve f) s (fun t =>
      VectorWentOn s t ve (i.setCs f.cs (i.getCs f.cs + f.imm.signExtend 64)) ∧ t.jobs = s.jobs)) ∧
    -- reductions: inactive lanes of ta enter as the unit of the operation, those of td stay or become 0 as mz says (R128;
    -- notes/assumptions/46)
    (∀ c comb unit, (c, comb, unit) ∈ [(Instr.trsum ve f, f32add, (0 : F32)), (Instr.trmax ve f, f32pick true, f32ninf)] →
      Executes s ve (if c = .trsum ve f then 0x40 else 0x41) f i →
      Completes c s (fun t => VectorWentOn s t ve i ∧ (∀ r, r ≠ f.td → getTile t.ves[ve] r = getTile e r) ∧
        ∀ r k, r < 32 → k < 64 → lane (getTile t.ves[ve] f.td) (64 * r + k) =
          if m.getLsbD (64 * r + k) then
            (if k = 0 then tree comb 6 ((List.range 64).map (fun j => if m.getLsbD (64 * r + j) then lane (getTile e f.ta) (64 * r + j) else unit)) else 0)
          else if f.mz then 0 else lane (getTile e f.td) (64 * r + k))) ∧
    (∀ c comb unit, (c, comb, unit) ∈ [(Instr.tcsum ve f, f32add, (0 : F32)), (Instr.tcmax ve f, f32pick true, f32ninf)] →
      Executes s ve (if c = .tcsum ve f then 0x42 else 0x43) f i →
      Completes c s (fun t => VectorWentOn s t ve i ∧ (∀ r, r ≠ f.td → getTile t.ves[ve] r = getTile e r) ∧
        ∀ r k, r < 32 → k < 64 → lane (getTile t.ves[ve] f.td) (64 * r + k) =
          if m.getLsbD (64 * r + k) then
            (if r = 0 then tree comb 5 ((List.range 32).map (fun j => if m.getLsbD (64 * j + k) then lane (getTile e f.ta) (64 * j + k) else unit)) else 0)
          else if f.mz then 0 else lane (getTile e f.td) (64 * r + k))) ∧
    -- TCOMP packs the active lanes from position cs on, TEXPD takes them from there
    (∀ p, p = (i.getCs f.cs).toNat → activeLanes m = [] ∨ f.td.toNat + (p + (activeLanes m).length - 1) / 2048 < 32 → Executes s ve 0x50 f i →
      Completes (.tcomp ve f) s (fun t => VectorWentOn s t ve (i.setCs f.cs (BitVec.ofNat 64 (p + (activeLanes m).length))) ∧
        ∀ k l, (activeLanes m)[k]? = some l →
          lane (getTile t.ves[ve] (BitVec.ofNat 5 (f.td.toNat + (p + k) / 2048))) ((p + k) % 2048) = lane (getTile e f.ta) l)) ∧
    (∀ p, p = (i.getCs f.cs).toNat → activeLanes m = [] ∨ f.ta.toNat + (p + (activeLanes m).length - 1) / 2048 < 32 → Executes s ve 0x51 f i →
      Completes (.texpd ve f) s (fun t => VectorWentOn s t ve (i.setCs f.cs (BitVec.ofNat 64 (p + (activeLanes m).length))) ∧
        (∀ k l, (activeLanes m)[k]? = some l →
          lane (getTile t.ves[ve] f.td) l = lane (getTile e (BitVec.ofNat 5 (f.ta.toNat + (p + k) / 2048))) ((p + k) % 2048)) ∧
        (∀ l, l < 2048 → m.getLsbD l = false → lane (getTile t.ves[ve] f.td) l = if f.mz then 0 else lane (getTile e f.td) l) ∧
        (∀ r, r ≠ f.td → getTile t.ves[ve] r = getTile e r))) ∧
    -- the top-k state enters each active lane that is no NaN, and TOPKRD reads it
    (∀ c op idx, (c = .topk ve f ∧ op = 0x60 ∧ idx = fun l => BitVec.ofNat 32 (fld (i.getCs f.cs).toNat 19 0 + l % 64)) ∨
        (c = .topkx ve f ∧ op = 0x61 ∧ idx = fun l => lane (getTile e f.tb) l) → Executes s ve op f i →
      Completes c s (fun t => VectorWentOn s t ve i ∧ t.ves[ve].tiles = e.tiles ∧ t.ves[ve].masks = e.masks ∧
        ∀ r, r < 32 → topRow t.ves[ve] r = (List.range 64).foldl (fun row k =>
          if m.getLsbD (64 * r + k) && !f32isNaN (lane (getTile e f.ta) (64 * r + k)) then
            (rankIn (lane (getTile e f.ta) (64 * r + k), idx (64 * r + k)) row).take 16 else row) (topRow e r))) ∧
    (∀ k, k = fld f.imm.toNat 4 0 → 0 < k → k ≤ 16 → f.td ≠ 31 → Executes s ve 0x62 f i →
      Completes (.topkrd ve f) s (fun t => VectorWentOn s t ve i ∧ t.jobs = s.jobs ∧ t.ves[ve].topk = e.topk ∧
        (∀ r, r ≠ f.td → r ≠ f.td + 1 → getTile t.ves[ve] r = getTile e r) ∧
        ∀ l, l < 2048 → m.getLsbD l = true →
          lane (getTile t.ves[ve] f.td) l = (if l % 64 < k then ((topRow e (l / 64)).getD (l % 64) (f32ninf, 0xFFFFFFFF)).2 else 0) ∧
          lane (getTile t.ves[ve] (f.td + 1)) l = (if l % 64 < k then ((topRow e (l / 64)).getD (l % 64) (f32ninf, 0xFFFFFFFF)).1 else 0)))

/-- R22, R133, R141 to R146, R150 to R153, R158: instances start with cleared registers and their scalars, landing groups land in
the instance's tiles, TLD loads a tile of an array, TST stores one, TSTS hands one to a retained entry, TLDFT loads a
function table, LWAIT waits for a group and LREL releases it. That TSTS finds its tile by imm and cs + 1 as TST does, and that
its inactive lanes enter as 0, is the model's choice where R146 is silent (notes/assumptions/46). An instance starts on an engine
that is bound to no task of another job (R22). -/
def Obligations.VectorInstancesStartLoadAndStore : Prop :=
  (∀ (slot : Fin 64) (die : Fin 4) (k : BitVec 16) (ve : Fin 64) (s : State) (n d tot : Nat) (cs : List (BitVec 64)) (back : List (Nat × BitVec 64)),
    (entryOf s ⟨slot, die, k⟩).st = .running → (entryOf s ⟨slot, die, k⟩).run = .vector n d tot cs back → n < tot → unitDie ve = die →
    s.ves[ve].inst = none → veFor s slot ve = true → awaitsPair s ve = false → inP0P1 s = true →
    Completes (.vectorInstanceStart slot die k ve) s (fun t =>
      (∃ i, t.ves[ve].inst = some i ∧ i.task = ⟨slot, die, k⟩ ∧ i.instance_ = n ∧ i.pc = 0 ∧ i.base = vBase (entryOf s ⟨slot, die, k⟩).desc ∧
        i.count = vInstr (entryOf s ⟨slot, die, k⟩).desc ∧ i.loop = none ∧ i.getCs 62 = BitVec.ofNat 64 tot ∧ i.getCs 63 = BitVec.ofNat 64 n ∧
        ∀ c : BitVec 6, c.toNat < 62 → i.getCs c = cs.getD c.toNat 0) ∧
      (∀ r l, lane (getTile t.ves[ve] r) l = 0) ∧ (∀ r, topRow t.ves[ve] r = []) ∧
      (entryOf t ⟨slot, die, k⟩).run = .vector (n + 1) d tot cs back ∧ t.mem = s.mem ∧ t.engines = s.engines)) ∧
  (∀ (ve : Fin 64) (s : State) (eng : Fin 68) (u : MatUnit) (e : Entry) (w : WorkUnit),
    awaited s ve = some (eng, u, e, w) → s.ves[ve].inst = none → veFor s u.task.slot ve = true → inP0P1 s = true → u.ended = false → 0 < vInstr (capOf e (mOut0 e.desc)) →
    Completes (.pairedInstanceStart ve) s (fun t =>
      (∃ i, t.ves[ve].inst = some i ∧ i.paired = true ∧ i.task = u.task ∧ i.unit = u.unit ∧ i.pc = 0 ∧ i.landed = 0 ∧
        i.groups = ceilDiv w.count 32 ∧ i.getCs 63 = BitVec.ofNat 64 u.unit ∧ i.getCs 62 = BitVec.ofNat 64 w.first ∧
        i.getCs 61 = BitVec.ofNat 64 w.n0 ∧ i.getCs 60 = BitVec.ofNat 64 w.count ∧ i.getCs 59 = BitVec.ofNat 64 w.shape.tag ∧
        i.getCs 58 = BitVec.ofNat 64 (ceilDiv w.count 32) ∧
        ∀ c : BitVec 6, c.toNat < 58 → i.getCs c = BitVec.ofNat 64 (capOf e (scalarKey c.toNat))) ∧
      (∀ r l, lane (getTile t.ves[ve] r) l = 0) ∧ t.engines = (putUnit eng { u with pair := 1 } s).engines ∧ t.mem = s.mem)) ∧
  (∀ (ve : Fin 64) (s : State) (i : VecInst), s.ves[ve].inst = some i → i.paired = true → i.drained = true → i.landed < i.groups →
    (i.landCnt / 4 ≤ i.landed → bitAt i.released (i.landed - i.landCnt / 4) = true) →
    Completes (.landingGroupLand ve) s (fun t => t.ves[ve].inst = some { i with landed := i.landed + 1 } ∧
      (∀ j r c, j < 4 → r < 32 → c < 64 →
        lane (getTile t.ves[ve] (BitVec.ofNat 5 (i.landBase + 4 * (i.landed % (i.landCnt / 4)) + j))) (64 * r + c) =
          (i.outRows.getD (32 * i.landed + r) []).getD (64 * j + c) 0) ∧
      (∀ v : Fin 64, v ≠ ve → t.ves[v] = s.ves[v]) ∧ t.mem = s.mem ∧ t.jobs = s.jobs)) ∧
  (∀ (ve : Fin 64) (f : VFields) (s : State) (i : VecInst) (d : Nat) (u : State),
    (Executes s ve 0x01 f i → (i.getCs f.cs).toNat % 2 = 0 → tileArr i (i.getCs f.cs).toNat false s = (.ok d, u) →
      (∀ rc ∈ loadLanes (arrOf d).rows (arrOf d).cols (tileAt i f).1 (tileAt i f).2 (getMask s.ves[ve] f.mask),
        (arrVal u i.task.slot (arrOf d) rc.1 rc.2).2 = .ok) →
      Completes (.tld ve f) s (fun t => VectorWentOn s t ve { i with descs := i.descs.put (i.getCs f.cs).toNat d } ∧
        ∀ r c, r < 32 → c < 64 → (getMask s.ves[ve] f.mask).getLsbD (64 * r + c) = true →
          lane (getTile t.ves[ve] f.td) (64 * r + c) =
            if 32 * (tileAt i f).1 + r < (arrOf d).rows ∧ 64 * (tileAt i f).2 + c < (arrOf d).cols then
              loadF32 (arrVal u i.task.slot (arrOf d) (32 * (tileAt i f).1 + r) (64 * (tileAt i f).2 + c)).1 else 0)) ∧
    (∀ a, Executes s ve 0x01 f i → (i.getCs f.cs).toNat = a + 1 → a % 2 = 0 → tileEntry i a s = (.ok d, u) →
      (∀ rc ∈ loadLanes (eRows d) (eCols d) (tileAt i f).1 (tileAt i f).2 (getMask s.ves[ve] f.mask),
        (entryVal u i.task.slot a d rc.1 rc.2).2 = .ok) →
      Completes (.tld ve f) s (fun t => VectorWentOn u t ve i ∧
        ∀ r c, r < 32 → c < 64 → (getMask s.ves[ve] f.mask).getLsbD (64 * r + c) = true →
          lane (getTile t.ves[ve] f.td) (64 * r + c) =
            if 32 * (tileAt i f).1 + r < eRows d ∧ 64 * (tileAt i f).2 + c < eCols d then
              loadF32 (entryVal u i.task.slot a d (32 * (tileAt i f).1 + r) (64 * (tileAt i f).2 + c)).1 else 0)) ∧
    (∀ x cnt, Executes s ve 0x02 f i → tileArr i (i.getCs f.cs).toNat true s = (.ok d, u) →
      storeTile i.task.slot (arrOf d) (tileAt i f).1 (tileAt i f).2 (getMask s.ves[ve] f.mask) (getTile s.ves[ve] f.ta)
        (modInst ve (fun i => { i with descs := i.descs.put (i.getCs f.cs).toNat d }) u) = (x, .ok, cnt) →
      Completes (.tst ve f) s (fun t => t.mem = x.mem ∧ t.ves[ve].tiles = s.ves[ve].tiles ∧ t.ves[ve].masks = s.ves[ve].masks ∧
        t.ves[ve].inst = some { i with descs := i.descs.put (i.getCs f.cs).toNat d }.next)) ∧
    (∀ x y, Executes s ve 0x03 f i → jobRead s i.task.slot (i.getCs f.cs).toNat 64 = (⟨leBytes 64 d, .ok⟩, u) → d < 2 ^ 512 →
      entryDescOk (i.getCs f.cs).toNat d = true → fallbackOk u i.task.slot d = true →
      (tileAt i f).1 < ceilDiv (eRows d) 32 → (tileAt i f).2 < ceilDiv (eCols d) 64 →
      s.jobs[i.task.slot].stash.entries.find (i.getCs f.cs).toNat = some x → x.writer = some i.task →
      tileArrive i.task (i.getCs f.cs).toNat (tileAt i f).1 (tileAt i f).2 (tileBlocks d (fun r c =>
          if (getMask s.ves[ve] f.mask).getLsbD (64 * r + c) = true ∧ 32 * (tileAt i f).1 + r < eRows d ∧ 64 * (tileAt i f).2 + c < eCols d then
            f32val (lane (getTile s.ves[ve] f.ta) (64 * r + c)) else .zero false)).1
        (modEntry i.task (fun e => { e with caps := e.caps.put (i.getCs f.cs).toNat d }) s) = (y, .ok) →
      Completes (.tsts ve f) s (fun t => t.ves[ve].inst = some i.next ∧ t.ves[ve].tiles = s.ves[ve].tiles ∧ t.engines = s.engines ∧
        t.mem = y.mem ∧ t.jobs[i.task.slot].stash = y.jobs[i.task.slot].stash)) ∧
    (∀ b, Executes s ve 0x31 f i → (i.getCs f.cs).toNat % 64 = 0 → jobRead s i.task.slot (i.getCs f.cs).toNat 4128 = (⟨b, .ok⟩, u) →
      FuncTable.ok ⟨(List.range 1032).map (fun k => BitVec.ofNat 32 (leNat ((b.drop (4 * k)).take 4)))⟩ = true →
      Completes (.tldft ve f) s (fun t => VectorWentOn s t ve i ∧ t.ves[ve].tiles = s.ves[ve].tiles ∧
        t.ves[ve].tables.find (2 * fld f.imm.toNat 3 0 + if bitAt f.imm.toNat 4 then 1 else 0) =
          some ⟨(List.range 1032).map (fun k => BitVec.ofNat 32 (leNat ((b.drop (4 * k)).take 4)))⟩)) ∧
    (Executes s ve 0x70 f i → (i.getCs f.cs).toNat < i.landed → i.landed ≤ i.groups →
      Completes (.lwait ve f) s (fun t => VectorWentOn s t ve i ∧ t.jobs = s.jobs)) ∧
    (Executes s ve 0x70 f i → i.landed ≤ (i.getCs f.cs).toNat → (i.getCs f.cs).toNat < i.groups → Completes (.lwait ve f) s (fun t => t = s)) ∧
    (Executes s ve 0x71 f i → (i.getCs f.cs).toNat < i.groups →
      Completes (.lrel ve f) s (fun t => VectorWentOn s t ve { i with released := i.released ||| 2 ^ (i.getCs f.cs).toNat } ∧ t.jobs = s.jobs)))

/-- R136, R138, R166, R168: LOOP repeats its body, END and the last instruction end an instance, a word that is no
instruction faults its task; WOPEN, WLOSS, WCLOSE and WVERD move the job's watch. -/
def Obligations.VectorControlAndTheWatch : Prop :=
  (∀ (ve : Fin 64) (f : VFields) (s : State) (i : VecInst), vReady s ve = some i → vFieldsOk 0x7C f = true → i.loop = none →
    0 < fld f.imm.toNat 11 0 → i.pc + 1 + fld f.imm.toNat 11 0 ≤ i.count →
    (∀ n, n = fld (i.getCs f.cs).toNat 31 0 → 0 < n → Completes (.vLoop ve f) s (fun t =>
      t.ves[ve].inst = some { i with pc := i.pc + 1, loop := some ⟨i.pc + 1, fld f.imm.toNat 11 0, n⟩ } ∧ t.mem = s.mem ∧ t.jobs = s.jobs)) ∧
    (fld (i.getCs f.cs).toNat 31 0 = 0 → i.pc + 1 + fld f.imm.toNat 11 0 < i.count → Completes (.vLoop ve f) s (fun t =>
      t.ves[ve].inst = some { i with pc := i.pc + 1 + fld f.imm.toNat 11 0 } ∧ t.mem = s.mem ∧ t.jobs = s.jobs))) ∧
  (∀ (c : Instr) (ve : Fin 64) (f : VFields) (s : State) (i : VecInst) (n d tot : Nat) (cs : List (BitVec 64)) (back : List (Nat × BitVec 64)),
    vReady s ve = some i → i.paired = false → Calm s i.task.slot → (entryOf s i.task).run = .vector n d tot cs back →
    (c = .vEnd ve f ∧ vFieldsOk 0x7F f = true) ∨ (c = .tmov ve f ∧ vFieldsOk 0x04 f = true ∧ i.count ≤ i.next.pc) →
    Completes c s (fun t => t.ves[ve].inst = none ∧ t.mem.cells = s.mem.cells ∧
      ∃ b, (entryOf t i.task).run = .vector n (d + 1) tot cs b ∧ (i.instance_ ≠ 0 → b = back))) ∧
  (∀ (ve : Fin 64) (w : BitVec 64) (s : State) (i : VecInst), vReady s ve = some i → vFieldsOk (fld w.toNat 63 56) (vFieldsOf w.toNat) = false →
    Calm s i.task.slot → Completes (.vectorUndefinedOpcode ve w) s (fun t => (entryOf t i.task).st = .faulted ∧ t.ves[ve].inst = none)) ∧
  (∀ (ve : Fin 64) (f : VFields) (s : State) (i : VecInst),
    (Executes s ve 0x78 f i → s.jobs[i.task.slot].watch.st = .idle →
      s.jobs[i.task.slot].watch.dropping = false ∨ readyUpd s i.task.slot = [] → Completes (.wopen ve f) s (fun t => VectorWentOn s t ve i ∧
      t.jobs[i.task.slot].watch.st = .opened ∧ t.jobs[i.task.slot].watch.cur.step = i.getCs f.cs ∧
      t.jobs[i.task.slot].watch.recNo = s.jobs[i.task.slot].watch.recNo + 1 ∧ t.jobs[i.task.slot].watch.tally = Cnt.none ∧
      (∀ k : Fin 64, k ≠ i.task.slot → t.jobs[k] = s.jobs[k]))) ∧
    (Executes s ve 0x79 f i → s.jobs[i.task.slot].watch.st = .opened → Completes (.wloss ve f) s (fun t => VectorWentOn s t ve i ∧
      t.jobs[i.task.slot].watch.st = .opened ∧ t.jobs[i.task.slot].watch.cur.loss = lane (getTile s.ves[ve] f.ta) 0 ∧
      t.jobs[i.task.slot].watch.cur.lossReported = true)) ∧
    (vReady s ve = some i → vFieldsOk 0x7A f = true → s.jobs[i.task.slot].watch.st = .opened →
      (∀ die : Fin 4, ∀ p ∈ (jobDie s i.task.slot die).entries, ∀ n th d, p.2.run ≠ .wait n th d) → s.jobs[i.task.slot].buckets = [] →
      (∃ die : Fin 4, ∃ p ∈ (jobDie s i.task.slot die).entries, p.2.st = .running ∧ p.2.watchRec = some s.jobs[i.task.slot].watch.recNo ∧
        ∀ v : Fin 64, s.ves[v].inst.map (·.task) ≠ some ⟨i.task.slot, die, BitVec.ofNat 16 p.1⟩) →
      Completes (.wclose ve f) s (fun t => t.jobs[i.task.slot].watch.st = .closing ∧
        t.ves[ve].inst = some { i.next with closing := true, closeCs := f.cs })) ∧
    (∀ given final : Nat, Executes s ve 0x7B f i → s.jobs[i.task.slot].watch.st = .held → Calm s i.task.slot → readyUpd s i.task.slot = [] →
      given = fld f.imm.toNat 1 0 → final = max s.jobs[i.task.slot].watch.localV.toNat given → final < 2 →
      Completes (.wverd ve f) s (fun t => t.ves[ve].inst = some i.next ∧ t.jobs[i.task.slot].watch.st = .idle ∧
        t.jobs[i.task.slot].watch.last.verdict = BitVec.ofNat 2 final ∧ t.jobs[i.task.slot].watch.dropping = decide (final ≠ 0) ∧
        t.jobs[i.task.slot].watch.last.raised = decide (s.jobs[i.task.slot].watch.localV.toNat < given))))

/-! ### Memory -/

/-- R277, R282 to R287, R290, R293, R302, R306, R613 to R617: MEMORY_READ, MEMORY_WRITE and AS_ACCESS; the stream prefetchers,
patrols, recalibrations and the migration of a FAILING stack; a tile that arrives for an entry in WRITING. That a sector of the
Activation Store takes no line, and where in its pages a tile lies, are the model's choices (notes/assumptions/47). -/
def Obligations.MemoryIsReadWrittenAndKeptUp : Prop :=
  ((∀ (r : MemReq) (s : State) (slot : Fin 64) (d : Nat), memRuns s = true → r.slot = some slot → translate s slot r.addr true false = some d →
      dpaExists s d = true → oneSector d r.len = true →
      (tagMismatch s (jobTag s slot) d = false → (sectorMeta s d).poison = false →
        Completes (.memoryRead r .clean) s (fun t => t = emit (.memory (sectorData s (jobTag s slot) d r.len) false) s) ∧
        Completes (.memoryRead r .corrected) s (fun t => t.mem.cells = s.mem.cells ∧ t.out = s.out ++ [.memory (sectorData s (jobTag s slot) d r.len) false] ∧
          t.mem.memStacks[servedBy s d].corrected = satInc s.mem.memStacks[servedBy s d].corrected 1)) ∧
      Completes (.memoryRead r .uncorrectable) s (fun t => t.mem.cells = s.mem.cells ∧ (sectorMeta t d).poison = true ∧
        t.out.getLast? = some (.memory (List.replicate r.len 0) true))) ∧
    (∀ (r : MemReq) (s : State) (slot : Fin 64) (d : Nat) (data : List Byte), memRuns s = true → r.slot = some slot → translate s slot r.addr false true = some d →
      dpaExists s d = true → oneSector d data.length = true →
      (data.length = 64 ∨ (tagMismatch s (jobTag s slot) d = false ∧ (sectorMeta s d).poison = false)) →
      Completes (.memoryWrite r data .clean) s (fun t => t.mem.cells = (storePart (jobTag s slot) d data s).mem.cells ∧
        sectorMeta t d = { tag := jobTag s slot, zero := false, poison := false } ∧ t.out = s.out ∧
        ∀ k, k / 64 ≠ d / 64 → sectorMeta t k = sectorMeta s k)) ∧
    (∀ (r : MemReq) (s : State) (slot : Fin 64) (d : Nat), memRuns s = true → r.slot = some slot → dpaExists s d = true → isAs d = true →
      s.mem.asBad = [] →
      (translate s slot r.addr true false = some d → 0 < r.len → d % 8 + r.len ≤ 8 →
        Completes (.asAccess r none .clean) s (fun t => t = emit (.memory (cellGets s.mem.cells d r.len) false) s)) ∧
      (∀ bs, translate s slot r.addr false true = some d → 0 < bs.length → d % 8 + bs.length ≤ 8 →
        Completes (.asAccess r (some bs) .clean) s (fun t => t.mem.cells = cellPuts s.mem.cells d bs ∧ t.mem.asBad = [] ∧ t.out = s.out)))) ∧
  ((∀ (die : Fin 4) (pf : Fin 64) (s : State) (p q : Prefetch) (all bad new : List Nat), inP0P1 s = true →
      s.mem.prefetch[die][pf] = some p → p.next < p.count →
      all = (newSectors s die p).filter (fun x => inStack s p.task.slot (64 * x)) →
      bad = all.filter (fun x => (peek s p.task.slot (64 * x) 64).st = .integrity) → new = all.filter (fun x => !bad.contains x) →
      q = { p with next := p.next + 1, held := p.held ++ new } →
      ((rowSectors p).all (fun x => readable s p.task.slot (64 * x)) = true → rowFits s die p q = true →
        Completes (.prefetchFetch die pf) s (fun t => t.mem.prefetch[die][pf] = some q ∧
          t.mem.lines = s.mem.lines ++ new.map (fun x => ⟨p.task.slot, die, x⟩) ∧ t.mem.cells = s.mem.cells ∧ t.jobs = s.jobs)) ∧
      ((rowSectors p).all (fun x => readable s p.task.slot (64 * x)) = true → rowFits s die p q = false →
        Completes (.prefetchFetch die pf) s (fun t => t = s)) ∧
      ((rowSectors p).all (fun x => readable s p.task.slot (64 * x)) = false →
        Completes (.prefetchFetch die pf) s (fun t => t = setPrefetch die pf (some { p with count := p.next }) s))) ∧
    (∀ (k : Fin 20) (sector : Nat) (s : State), powered s = true → s.mem.memStacks[k].st ≠ .retired → sector < bandCount s * 16777216 →
      s.mem.memStacks[k].passCorrected ≤ 65536 →
      Completes (.patrolScrub k sector .clean true) s (fun t => t.mem.memStacks[k] = { s.mem.memStacks[k] with
        passCorrected := 0, patrols := satInc s.mem.memStacks[k].patrols 1 } ∧ t.mem.cells = s.mem.cells ∧ t.jobs = s.jobs)) ∧
    (∀ (k : Fin 20) (s : State) (recent : List Nat), powered s = true → s.mem.memStacks[k].st ≠ .retired →
      recent = s.mem.memStacks[k].calFails.filter (fun t => decide (s.clock.now < t + 800000000)) ++ [s.clock.now] →
      Completes (.stackRecalibration k true) s (fun t =>
        t = modCalib (fun c => { c with memStacks := c.memStacks.set k c.loaded.stackPhy }) s) ∧
      Completes (.stackRecalibration k false) s (fun t => t.mem.memStacks[k].calFails = recent ∧ t.mem.cells = s.mem.cells ∧
        t.calib.memStacks = s.calib.memStacks.set k s.calib.loaded.stackPhy ∧
        (recent.length < 3 → t.mem.memStacks[k].st = s.mem.memStacks[k].st) ∧
        (3 ≤ recent.length → (∀ j : Fin 20, s.mem.memStacks[j].st = .ok) → s.mem.memStacks[k].reported = false →
          t.mem.memStacks[k].st = .failing))) ∧
    (∀ (k : Fin 20) (s : State), powered s = true →
      (s.mem.memStacks[k].st = .failing → withdrawnHeld s = false →
        Completes (.migrationStart k) s (fun t => t.mem.memStacks[k].st = .migrating ∧ t.mem.cells = s.mem.cells ∧ t.jobs = s.jobs)) ∧
      (s.mem.memStacks[k].st = .migrating →
        Completes (.granuleMigrate k []) s (fun t => t.mem.memStacks[k].moved = s.mem.memStacks[k].moved + 1 ∧ t.mem.cells = s.mem.cells ∧
          t.mem.memStacks[k].st = if (movedGranules s k).length ≤ s.mem.memStacks[k].moved + 1 then .retired else .migrating))) ∧
    (∀ (slot : Fin 64) (addr ti tj n : Nat) (raw : Bool) (vals : List (BitVec 32)) (s c : State) (x : REntry) (w : TaskRef) (b : List Block × Cnt),
      coresRun s = true → s.jobs[slot].stash.entries.find addr = some x → x.st = .writing → x.writer = some w → w.slot = slot →
      ti < ceilDiv (eRows x.desc) 32 → tj < ceilDiv (eCols x.desc) 64 →
      b = tileBlocks x.desc (fun r c =>
        if 32 * ti + r < eRows x.desc ∧ 64 * tj + c < eCols x.desc then f32val (vals.getD (64 * r + c) 0) else .zero false) →
      c = countTask w b.2 s → (n, raw) = (if x.spill then (entryRaw x.desc, true) else tileBytes x.desc b.1) →
      (placeTile c slot x ti tj n = none → Completes (.stashTileArrive slot addr ti tj vals) s (fun t =>
        ∃ y, t.jobs[slot].stash.entries.find addr = some y ∧ y.st = .absent ∧ y.tiles = [] ∧ y.pages = [])) ∧
      (∀ x' a u, placeTile c slot x ti tj n = some (x', a) →
        storeTileAt slot x' ti tj ⟨a, n, raw⟩ b.1 (if x.gather then c else takeStash slot (x'.pages.length - x.pages.length) c) = (u, .ok) →
        Completes (.stashTileArrive slot addr ti tj vals) s (fun t => ∃ y, t.jobs[slot].stash.entries.find addr = some y ∧
          t.mem = (jobWrite slot addr (leBytes 32 (entryMirror (some y) s.clock.now)) u).1.mem ∧ y.tiles = x'.tiles.put (ti, tj) ⟨a, n, raw⟩ ∧ y.pages = x'.pages ∧
          y.st = if y.tiles.length = entryTiles x.desc then (if x.spill then .spilled else .held) else .writing))))

/-! ### The in-stack update -/

/-- R327, R328, R330, R423, R425, R444: segments are claimed, skipped and stepped; bucket halves open, wait, close and time
out; UPDATE and PERMUTE start. -/
def Obligations.SegmentsAndBucketsTakeSteps : Prop :=
  ((∀ (slot : Fin 64) (die : Fin 4) (k : BitVec 16) (s : State) (seg : Nat) (aux : List Nat) (d h : Nat),
      collRun s ⟨slot, die, k⟩ = some (seg, aux) → cOp (entryOf s ⟨slot, die, k⟩).desc = 5 → seg < uCount (updDesc s ⟨slot, die, k⟩) →
      dieSegs s die < 64 → s.claims.length < 256 → segAt s ⟨slot, die, k⟩ seg = (d, .ok) →
      segCheck s slot (uBase (updDesc s ⟨slot, die, k⟩) + 64 * seg) d (updGroup s ⟨slot, die, k⟩ (gGroup d)) = none →
      (∀ c ∈ s.claims, c.slot = slot → c.header = gHdr d → c.task = ⟨slot, die, k⟩) → jobNat s slot (gHdr d) 64 = (h, .ok) →
      (hTag h = uStep (updDesc s ⟨slot, die, k⟩) → segBuffer s ⟨slot, die, k⟩ d = none →
        ((realTiles d).filter (fun q => bitAt (hDone h) q)).length ≠ (realTiles d).length →
        Completes (.segmentStart slot die k) s (fun t => t.claims = s.claims ++ [⟨slot, gHdr d, ⟨slot, die, k⟩⟩] ∧
          collRun t ⟨slot, die, k⟩ = some (seg + 1, aux ++ [seg, 1, 0, 0]) ∧ t.mem = s.mem ∧
          t.jobs[slot].upd.subtilesSkipped = satInc s.jobs[slot].upd.subtilesSkipped ((realTiles d).filter (fun q => bitAt (hDone h) q)).length)) ∧
      (hTag h ≠ uStep (updDesc s ⟨slot, die, k⟩) → hTag h = (uStep (updDesc s ⟨slot, die, k⟩) + 1) % 2 ^ 64 →
        Completes (.segmentStart slot die k) s (fun t => t.claims = s.claims ∧ collRun t ⟨slot, die, k⟩ = some (seg + 1, aux) ∧
          t.jobs[slot].upd.segsSkipped = satInc s.jobs[slot].upd.segsSkipped 1))) ∧
    (∀ (slot : Fin 64) (die : Fin 4) (k : BitVec 16) (seg : Nat) (q : Fin 16) (s u : State) (st : Nat) (aux : List Nat) (i d b g : Nat)
        (cs : Arr × Arr) (x : TileStep),
      collRun s ⟨slot, die, k⟩ = some (st, aux) → cOp (entryOf s ⟨slot, die, k⟩).desc = 5 → sgFind aux seg = some i →
      cs = segCopies s ⟨slot, die, k⟩ seg → d = (segAt s ⟨slot, die, k⟩ seg).1 → g = updGroup s ⟨slot, die, k⟩ (gGroup d) → b = (bufAt s slot (gBuf d)).1 → realTile d q.val = true →
      bitAt (hDone (jobNat s slot (gHdr d) 64).1) q.val = false → (jobNat s slot (gHdr d) 64).2 = .ok → tileReadable s slot cs b d q.val g = .ok →
      x = stepTile slot cs b d q.val g s → x.st = .ok →
      jobWrite slot (gHdr d) (leBytes 64 (setFld (setFld (jobNat x.s slot (gHdr d) 64).1 (304 + q.val) (304 + q.val) 1) 511 448 x.s.clock.now)) x.s = (u, .ok) →
      (realTiles d).all (fun q => bitAt (hDone (jobNat u slot (gHdr d) 64).1) q) = false →
      Completes (.subtileUpdate slot die k seg q) s (fun t => t.mem = u.mem ∧ t.claims = s.claims ∧
        t.jobs[slot].upd.mastersClipped = satInc s.jobs[slot].upd.mastersClipped x.clipped ∧
        t.jobs[slot].upd.mastersNonfinite = satInc s.jobs[slot].upd.mastersNonfinite x.nonf ∧
        t.jobs[slot].upd.gradNonfinite = satInc s.jobs[slot].upd.gradNonfinite x.gradNonf))) ∧
  ((∀ (t0 : TaskRef) (s : State) (d : Nat), collStart s t0 1 = some d → initCheck s t0.slot d = none → Calm s t0.slot →
      Completes (.collInit t0) s (fun t => (entryOf t t0).run = .coll Track.new 1 [] ∧
        t.jobs[t0.slot].buckets.find (cDesc d, halfOf (cStep d)) =
          some { buf := kBuf (bucketAt s t0.slot (cDesc d)).1 (halfOf (cStep d)), die := t0.die, closer := none, deadline := none } ∧
        (fullHalf (collDone t0 (initApply t0 d s)) t0.slot = none → t.mem = (initApply t0 d s).mem))) ∧
    (∀ (t0 : TaskRef) (s : State) (d k : Nat), collStart s t0 4 = some d → bucketAt s t0.slot (cDesc d) = (k, .ok) →
      (∀ b, kState k (halfOf (cStep d)) = 1 → s.jobs[t0.slot].buckets = [((cDesc d, halfOf (cStep d)), b)] →
        (∀ die : Fin 4, ∀ p ∈ (jobDie s t0.slot die).entries, ∀ n th d, p.2.run ≠ .wait n th d) → s.jobs[t0.slot].watch.st ≠ .closing →
        s.jobs[t0.slot].watch.dropping = false → fullHalf (closeOpen t0 (cDesc d) k (halfOf (cStep d)) b s) t0.slot = none →
        (jobSt s t0.slot = .running → Completes (.collClose t0) s (fun t => (entryOf t t0).run = .coll Track.new 0 [] ∧
          t.jobs[t0.slot].buckets = [((cDesc d, halfOf (cStep d)), BucketHalf.mk b.buf b.die (some t0)
            (if kDeadline k = 0 then none else some (s.clock.now + usTicks (kDeadline k))))])) ∧
        (jobSt s t0.slot = .draining → Completes (.collClose t0) s (fun t => (entryOf t t0).st = .faulted))) ∧
      (kState k (halfOf (cStep d)) = 3 → Completes (.collClose t0) s (fun t => (entryOf t t0).run = .coll Track.new 1 [] ∧ t.mem = s.mem))) ∧
    (∀ (slot : Fin 64) (addr : Nat) (h : Bool) (s : State) (b : BucketHalf), s.jobs[slot].buckets = [((addr, h), b)] →
      kState (bucketAt s slot addr).1 h = 2 → b.deadline.isSome = true → depsApply (jobSt s slot) = true →
      (∀ die : Fin 4, ∀ p ∈ (jobDie s slot die).entries, ∀ n th d, p.2.run ≠ .wait n th d) → s.jobs[slot].watch.st ≠ .closing →
      s.jobs[slot].watch.dropping = false → (∀ t0, b.closer = some t0 → t0.slot = slot ∧ NoSuccessors (entryOf s t0).desc ∧ (entryOf s t0).reads = []) →
      Completes (.bucketDeadline slot addr h) s (fun t => t.jobs[slot].buckets = [((addr, h), { b with closer := none, deadline := none })] ∧
        ∀ t0, b.closer = some t0 → (entryOf t t0).st = .free 0)) ∧
    (∀ (t0 : TaskRef) (s : State) (d : Nat),
      (collStart s t0 5 = some d → Completes (.collUpdate t0) s (fun t => (entryOf t t0).run = .coll Track.new 0 [] ∧ t.claims = s.claims)) ∧
      (collStart s t0 7 = some d → Completes (.collPermute t0) s (fun t => (entryOf t t0).run = .coll Track.new 0 [] ∧ t.mem = s.mem))))

/-! ### Collective steps -/

/-- R434, R439, R442, R446: REDUCE sends its parts' operations to their nodes; RING tells its predecessor that it is ready,
and sends a part to its successor at each stage; GATHER asks for the planes of its sources; an entry of a PERMUTE is sent
to its node, or saved. -/
def Obligations.CollectiveStepsIssueTheirRequests : Prop :=
  (∀ (t0 : TaskRef) (s : State) (d k e : Nat) (p : PartSend), collStart s t0 2 = some d → Calm s t0.slot → bucketAt s t0.slot (cDesc d) = (k, .ok) →
    (halfBuf s t0.slot k (halfOf (cStep d))).2 = .ok → cCount d = 1 → partAt s t0.slot d 0 = (e, .ok) → partCheck s t0.slot (e, .ok) = none →
    p = partSend s t0 d k e 0 → p.st = .ok → CanIssue s t0.slot (ptNode e) p.rs →
    Completes (.collReduce t0) s (fun t => Issued s t t0.slot (ptNode e) p.rs ∧ (entryOf t t0).run = .coll ⟨p.rs.length, p.rs.length, none⟩ 1 [] ∧
      t.jobs[t0.slot].totals.produced = s.jobs[t0.slot].totals.produced + p.rs.length ∧ t.mem.cells = s.mem.cells)) ∧
  (∀ (t0 : TaskRef) (s u : State) (d k m : Nat) (pred : BitVec 18), collStart s t0 3 = some d → bucketAt s t0.slot (cDesc d) = (k, .ok) →
    ringIndex s t0.slot d = some m → addOwnAll t0 d k (List.range (cCount d)) s = (u, none) → Calm u t0.slot →
    pred = (ringMembers s t0.slot d).getD ((m + (ringMembers s t0.slot d).length - 1) % (ringMembers s t0.slot d).length) 0 →
    CanIssue u t0.slot pred [signalOf t0 3 0 (kRing k (halfOf (cStep d))) 0 false] →
    Completes (.collRing t0) s (fun t => Issued u t t0.slot pred [signalOf t0 3 0 (kRing k (halfOf (cStep d))) 0 false] ∧
      (entryOf t t0).run = .coll ⟨1, 1, none⟩ 0 [1] ∧ t.mem = u.mem)) ∧
  (∀ (t0 : TaskRef) (s : State) (j m : Nat) (q : Track) (aux : List Nat) (d k : Nat) (rs : List TxReq) (succ : BitVec 18),
    collRun s t0 = some (j, aux) → (entryOf s t0).run = .coll q j aux → q.fail = none → d = (entryOf s t0).desc → cOp d = 3 →
    ringIndex s t0.slot d = some m → k = (bucketAt s t0.slot (cDesc d)).1 → j + 1 < (ringMembers s t0.slot d).length →
    ringWait s t0.slot k (halfOf (cStep d)) j = true → stageOps s t0 d k m j (aux.getD 0 0) = (rs, .ok) →
    succ = (ringMembers s t0.slot d).getD ((m + 1) % (ringMembers s t0.slot d).length) 0 → CanIssue s t0.slot succ rs → Calm s t0.slot →
    Completes (.ringStageSend t0) s (fun t => Issued s t t0.slot succ rs ∧ collRun t t0 = some (j + 1, [aux.getD 0 0 + rs.length]) ∧ t.mem = s.mem)) ∧
  (∀ (t0 : TaskRef) (s : State) (td : Nat) (peer : BitVec 18) (loads : List (BitVec 18 × Nat × Nat × Nat)) (rs : List TxReq),
    collStart s t0 6 = some td → Calm s t0.slot → loads = gatherLoads s t0 (readDesc s t0.slot (cDesc td) 64).1 → (∀ l ∈ loads, l.1 = peer) →
    rs = (List.zip (List.range loads.length) loads).map (fun l =>
      { TxReq.of t0 opLOAD 5 l.2.2.1 l.2.2.2.1 l.1 with dest := .entry (cDesc td) l.1 }) → CanIssue s t0.slot peer rs →
    Completes (.collGather t0) s (fun t => Issued s t t0.slot peer rs ∧ (entryOf t t0).run = .coll ⟨rs.length, rs.length, none⟩ 0 [] ∧ t.mem = s.mem)) ∧
  (∀ (t0 : TaskRef) (s : State) (i st : Nat) (q : Track) (aux : List Nat) (d e : Nat), collRun s t0 = some (st, aux) →
    (entryOf s t0).run = .coll q st aux → q.fail = none → aux.length % 3 = 0 → isPermute (entryOf s t0).desc = true →
    d = (entryOf s t0).caps.getD (cDesc (entryOf s t0).desc) 0 → i < pmCount d → mvBegun aux i = false →
    (∀ j, j < i → mvBegun aux j = true ∨ ((moveAt s t0.slot d j).2 = .ok ∧ mvReady s t0.slot (moveAt s t0.slot d j).1 = false)) →
    mvInProgress s t0.die < 64 → moveAt s t0.slot d i = (e, .ok) → mvReady s t0.slot e = true → moveCheck s d e = none → Calm s t0.slot →
    (∀ rs, mvKind e ≠ 1 → rs = storesOf t0 5 ((if mvKind e = 2 then pmScratch d else pmSlotBase d) + pmChunk d * mvSrc e)
        (pmSlotBase d + pmChunk d * mvTo e) (pmChunk d) (mvPos (mvStarted aux) 0) → CanIssue s t0.slot (mvDst e) rs →
      Completes (.moveEntryStart t0 i) s (fun t => Issued s t t0.slot (mvDst e) rs ∧ collRun t t0 = some (st, aux ++ [i, rs.length, 0]) ∧ t.mem.cells = s.mem.cells)) ∧
    (∀ u, mvKind e = 1 → mvNotify (moveAt u t0.slot d i).1 = false →
      saveChunk t0 (pmSlotBase d + pmChunk d * mvSrc e) (pmScratch d + pmChunk d * mvTo e) (pmChunk d)
        (modColl t0 (fun st aux => (st, aux ++ [i, 0, 0])) s) = (u, .ok) →
      Completes (.moveEntryStart t0 i) s (fun t => t.mem = u.mem ∧ collRun t t0 = some (st, aux ++ [i, 0, 1]))))

/-! ### Token exchange and copies -/

/-- R221, R227, R229, R233, R244: DISPATCH offers every assignment to its own candidate and awaits the grants of the others;
COMBINE, RDISPATCH and RCOMBINE send their rows; a message that arrives for the current step or the next one is kept, one of
another step is counted and dropped (one of an exchange that the die knows nothing of is kept: the model's choice of
notes/assumptions/44); a deadline that passes ends a running exchange in fault. -/
def Obligations.ExchangesOfferSendAndTimeOut : Prop :=
  (∀ (t0 : TaskRef) (s : State) (e : Entry), Calm s t0.slot →
    (∀ g, g < xG (xDesc e) → g ≠ xMe s t0 e → (nodeValid s = true → xNode e g ≠ ownNode s) ∧ hasFlow s t0.slot (xNode e g) = true) →
    (∀ die : Fin 4, ∀ p ∈ (jobDie s t0.slot die).entries, p.2.isExch = true → die = t0.die ∧ p.1 = t0.index.toNat) →
    (∀ g0, exchStart s t0 8 = some e → candFail s t0.slot (xDesc e) = none → g0 < xG (xDesc e) → g0 ≠ xMe s t0 e →
      (∀ m ∈ (jobDie s t0.slot t0.die).msgs, m.exch = xId (xDesc e) → m.src ≠ g0) →
      (∀ n, 64 ≤ n → n ≤ msgBytes (xDesc e) →
        writeStat s t0.slot (xMsg (xDesc e) + xSeq (xDesc e) % 2 * 2 * xG (xDesc e) * msgBytes (xDesc e) + xMe s t0 e * msgBytes (xDesc e)) n = .ok) →
      Completes (.exDispatch t0) s (fun t => ∃ q, q.fail = none ∧ (entryOf t t0).run = .exch q
        { ExchSt.start 0 with offers := offers0 s t0.slot (xDesc e), ended := nones0 s t0.slot (xDesc e), locals := locals0 s t0 e })) ∧
    (∀ c op rows, (c, op, rows) ∈ [(Instr.exCombine t0, 9, returnRows s t0 e false), (.exRdispatch t0, 10, gradRows s t0 e),
        (.exRcombine t0, 11, returnRows s t0 e true)] → exchStart s t0 op = some e →
      (∀ r ∈ rows, r.code = stOK ∧ r.out.mem < xG (xDesc e) ∧ r.out.mem ≠ xMe s t0 e) →
      Completes c s (fun t => (∃ q, (entryOf t t0).run = .exch q { ExchSt.start 3 with rows := rows.length } ∧ q.fail = none) ∧
        t.jobs[t0.slot].totals.rowsSent = s.jobs[t0.slot].totals.rowsSent + rows.length ∧ t.mem = s.mem))) ∧
  (∀ (t0 : TaskRef) (src : BitVec 12) (s : State) (c : Instr) (x : ExMsg),
    ((∃ m : CountMsg, c = .countMessage t0 src m ∧
        x = ⟨m.exch.toNat, m.step.toNat, m.round.toNat, src.toNat, false, m.shape, m.counts.map (fun n => (n, 0))⟩) ∨
      (∃ m : GrantMsg, c = .grantMessage t0 src m ∧ x = ⟨m.exch.toNat, m.step.toNat, m.round.toNat, src.toNat, true, m.shape, m.grants⟩)) →
    depsApply (jobSt s t0.slot) = true → Calm s t0.slot → (∀ die : Fin 4, ∀ p ∈ (jobDie s t0.slot die).entries, p.2.isExch = false) →
    ((currentSeq s t0.slot t0.die x.exch).all (fun q => seqLive q x.seq) = true → Completes c s (fun t =>
      x ∈ (jobDie t t0.slot t0.die).msgs ∧ t.mem = s.mem)) ∧
    ((currentSeq s t0.slot t0.die x.exch).all (fun q => seqLive q x.seq) = false → Completes c s (fun t =>
      (ctl t t0.slot).hostErrors = (ctl s t0.slot).hostErrors + 1 ∧ (jobDie t t0.slot t0.die).msgs = (jobDie s t0.slot t0.die).msgs ∧ t.mem = s.mem))) ∧
  (∀ (t0 : TaskRef) (s : State), (entryOf s t0).isExch = true → xDeadline (xDesc (entryOf s t0)) ≠ 0 → exchFinished s t0 = false → Calm s t0.slot →
    Completes (.exchDeadline t0) s (fun t => (entryOf t t0).st = .faulted))

/-- R337, R351, R352: a copy task issues the requests that its descriptor gives: STOREs of at most 4,096 bytes for a PUT, LOADs
for a GET, an ATOMIC, a SIGNAL; a FENCE whose covered requests are all answered completes; a waiting request gets the next
sequence number of its flow. -/
def Obligations.CopyTasksIssueTheirRequests : Prop :=
  (∀ (c : Instr) (op : Nat) (f : Nat → List TxReq) (t0 : TaskRef) (s : State) (d : Nat),
    (c = .copyPut t0 ∧ op = 0 ∧ f = putRequests t0) ∨ (c = .copyGet t0 ∧ op = 1 ∧ f = getRequests t0) ∨
      (c = .copyAtomic t0 ∧ op = 2 ∧ f = fun d => [atomicRequest t0 d]) ∨ (c = .copySignal t0 ∧ op = 3 ∧ f = fun d => [signalRequest t0 d]) →
    copyStart s t0 op = some d → CanIssue s t0.slot (yNode d) (f d) → Calm s t0.slot →
    Completes c s (fun t => Issued s t t0.slot (yNode d) (f d) ∧ (entryOf t t0).run = .copy ⟨(f d).length, (f d).length, none⟩ ∧ t.mem.cells = s.mem.cells)) ∧
  (∀ (t0 : TaskRef) (s : State) (cov : List (Fin 64 × BitVec 18 × BitVec 32)), (entryOf s t0).st = .running → (entryOf s t0).run = .fence cov →
    (fenceMet s cov = true → NoSuccessors (entryOf s t0).desc → (entryOf s t0).reads = [] → Calm s t0.slot →
      Completes (.copyFence t0) s (fun t => (entryOf t t0).st = .free 0 ∧ (entryOf t t0).desc = 0)) ∧
    (fenceMet s cov = false → Completes (.copyFence t0) s (fun t => t = s))) ∧
  (∀ (slot : Fin 64) (peer : BitVec 18) (s : State) (r : TxReq) (rest : List TxReq), (flowOf s slot peer).waiting = r :: rest →
    (flowOf s slot peer).out.length < 4096 → (reqPayload s slot r).2 = .ok →
    Completes (.flowRequestIssue slot peer) s (fun t => Issued s t slot peer [r] ∧ (flowOf t slot peer).waiting = rest ∧ t.mem = s.mem))

/-! ### Transport -/

/-- R338, R341, R343, R344, R346, R360, R366: a request that reaches a job, comes next in its flow and passes the checks is
applied and disposed of; an ATOMIC's old value is kept in the reply cache; a request that fails a check, as one of a reserved
opcode does, or that memory refuses, is refused with its code, which the reply cache keeps. -/
def Obligations.VmtRequestsAreAppliedOrRefused : Prop :=
  ∀ (c : Instr) (a b : Arrival) (op : Byte) (s : State) (slot : Fin 64),
    (c = .vmtLoad a ∧ op = opLOAD) ∨ (c = .vmtStore a ∧ op = opSTORE) ∨ (c = .vmtAtomic a ∧ op = opATOMIC) ∨
      (c = .vmtAccumulate a ∧ op = opACCUMULATE) ∨ (c = .vmtSignal a ∧ op = opSIGNAL) ∨ c = .vmtReservedOpcode op a →
    Reaches s a op slot → NextInOrder s a slot → Calm s slot → b = openArrival s slot a →
    (∀ pl u v, checkRequest s slot a.pkt.src op b.pkt = .ok pl → applyRequest slot op b.pkt pl (atTarget a slot s) = (u, v) →
      (op = opATOMIC → cacheFree s slot = true) →
      ((∃ bs p, v = .data bs p) ∨ v = .done → Completes c s (fun t => t.mem = u.mem ∧ Disposed t a slot ∧ t.fabric.cache = s.fabric.cache)) ∧
      (∀ x, v = .old x → Completes c s (fun t => t.mem = u.mem ∧ Disposed t a slot ∧
        t.fabric.cache.find (keyOf slot a.pkt) = some ⟨.old x, s.clock.now⟩)) ∧
      (∀ code, v = .refused code → code ≠ rfBUSY → cacheFree s slot = true → Completes c s (fun t => t.mem = u.mem ∧ Disposed t a slot ∧
        t.fabric.cache.find (keyOf slot a.pkt) = some ⟨.refuse code, s.clock.now⟩))) ∧
    (∀ code, checkRequest s slot a.pkt.src op b.pkt = .error code → code ≠ rfBUSY → cacheFree s slot = true →
      Completes c s (fun t => t.mem = s.mem ∧ Disposed t a slot ∧ t.fabric.cache.find (keyOf slot a.pkt) = some ⟨.refuse code, s.clock.now⟩ ∧
        a.pkt.seq ∈ (flowOf t slot a.pkt.src).unnoted ∧
        t.jobs[slot].vmt.counts.refusedOut = satInc s.jobs[slot].vmt.counts.refusedOut 1)) ∧
    (op ∉ [opLOAD, opSTORE, opATOMIC, opACCUMULATE, opSIGNAL] → checkRequest s slot a.pkt.src op b.pkt = .error rfBAD_FIELD)

/-- R352, R360, R362, R364 to R366, R369, R370, R396 to R398: RESP, REFUSE and ACK end their requests, ACKs are sent when due; a
request that stays unanswered is tried again and in the end fails as unreachable, which is reported when a report can be sent;
entries of the reply cache and of the hold expire; a frame for another node leaves by the relay's path, with an FCS that
matches only where its own did. When a report can be sent, and that a try without a usable path counts as one of its path's,
are the model's readings of notes/assumptions/49. -/
def Obligations.VmtAnswersAndTimersEndRequests : Prop :=
  ((∀ (a b : Arrival) (s u : State) (slot : Fin 64) (o : Outstanding) (va : Nat) (tk : TaskRef) (k : Track), Reaches s a opRESP slot →
      Calm s slot → b = openArrival s slot a → outOf s slot a.pkt.src a.pkt.seq = some o → o.req.opcode = opLOAD →
      b.pkt.payload.length = o.req.len → o.req.dest = .land va →
      a.pkt.poison = false → o.req.task = some tk → tk.slot = slot → Clean s tk → (entryOf s tk).run.track = some k →
      jobWrite slot va b.pkt.payload (atAnswer a slot o s) = (u, .ok) →
      Completes (.vmtResp a) s (fun t => t.mem = u.mem ∧ (entryOf t tk).run.track = some { k with left := k.left - 1 } ∧
        (flowOf t slot a.pkt.src).out = (flowOf s slot a.pkt.src).out.filter (fun x => x.seq != a.pkt.seq) ∧
        t.jobs[slot].totals.reqApplied = s.jobs[slot].totals.reqApplied + 1)) ∧
    (∀ (a b : Arrival) (s : State) (slot : Fin 64) (o : Outstanding) (tk : TaskRef) (k : Track) (code : Byte), Reaches s a opREFUSE slot →
      Calm s slot → b = openArrival s slot a → b.pkt.payload.length = 8 → code = b.pkt.payload.getD 0 0 →
      hasFlow s slot a.pkt.src = true → outOf s slot a.pkt.src a.pkt.seq = some o →
      (code ≠ rfBUSY → o.req.task = some tk → tk.slot = slot → Clean s tk → (entryOf s tk).run.track = some k → 2 ≤ k.left →
        Completes (.vmtRefuse a) s (fun t => (entryOf t tk).run.track = some { k with left := k.left - 1, fail := some (o.req.pos, refuseStatus code) } ∧
          outOf t slot a.pkt.src a.pkt.seq = none ∧ a.pkt.seq ∈ (flowOf t slot a.pkt.src).notes)) ∧
      (code = rfBUSY → o.busyCount = 0 →
        Completes (.vmtRefuse a) s (fun t => outOf t slot a.pkt.src a.pkt.seq = some { o with
          busyCount := 1, busySince := s.clock.now, busyUntil := some (s.clock.now + busyBaseNs s * 800 / 1000) } ∧
          a.pkt.seq ∈ (flowOf t slot a.pkt.src).notes))) ∧
    (∀ (a b : Arrival) (s : State) (slot : Fin 64) (aw : BitVec 32), Reaches s a opACK slot → Calm s slot → b = openArrival s slot a →
      hasFlow s slot a.pkt.src = true → ackOk b.pkt.payload = true → aw = BitVec.ofNat 32 (leNat (b.pkt.payload.take 4)) →
      ackNotes b.pkt.payload = [] →
      (∀ o ∈ ackedBy (flowOf s slot a.pkt.src) aw (leNat ((b.pkt.payload.drop 8).take 8)), o.req.dest = .none ∧
        ∀ tk, o.req.task = some tk → tk.slot = slot ∧ Clean s tk) →
      Completes (.vmtAck a) s (fun t => ∀ o ∈ ackedBy (flowOf s slot a.pkt.src) aw (leNat ((b.pkt.payload.drop 8).take 8)),
        outOf t slot a.pkt.src o.seq = none)) ∧
    (∀ (slot : Fin 64) (peer : BitVec 18) (s : State),
      ((flowOf s slot peer).ackDue = true → Completes (.ackSend slot peer) s (fun t => (flowOf t slot peer).notes = (flowOf s slot peer).notes.drop 32 ∧
        (flowOf t slot peer).ceEcho = false ∧ (flowOf t slot peer).ackDue = decide (32 < (flowOf s slot peer).notes.length) ∧
        (flowOf t slot peer).out = (flowOf s slot peer).out ∧ t.mem = s.mem)) ∧
      ((flowOf s slot peer).ackDue = false → Completes (.ackSend slot peer) s (fun t => t = s)))) ∧
  ((∀ (slot : Fin 64) (peer : BitVec 18) (seq : BitVec 32) (s : State) (o : Outstanding), outOf s slot peer seq = some o → Calm s slot →
      (∀ o', o.busyUntil = none → retryOf s peer o = some o' → Completes (.retransmitTimeout slot peer seq) s (fun t =>
        outOf t slot peer seq = some (o'.noteTx (sendable s slot peer o').isSome) ∧
        t.jobs[slot].vmt.counts.retransmits = if o.sent && (sendable s slot peer o').isSome
          then satInc s.jobs[slot].vmt.counts.retransmits 1 else s.jobs[slot].vmt.counts.retransmits)) ∧
      (o.busyUntil = none → retryOf s peer o = none →
        (∀ tk, o.req.task = some tk → tk.slot = slot ∧ isPermute (entryOf s tk).desc = false ∧
          ∀ k, (entryOf s tk).run.track = some k → 2 ≤ k.left) →
        Completes (.retransmitTimeout slot peer seq) s (fun t => outOf t slot peer seq = none ∧
          t.jobs[slot].vmt.counts.unreachable = satInc s.jobs[slot].vmt.counts.unreachable 1 ∧
          (peer ∈ t.jobs[slot].vmt.reported ↔ peer ∈ s.jobs[slot].vmt.reported ∨ (devFld s oVMT_CFG 0 109 109 ≠ 0 ∧
            s.sec.mgmtKey.isSome = true ∧ (choosePath s false (BitVec.ofNat 18 (devFld s oVMT_CFG 0 127 110)) 0).isSome = true)))) ∧
      (o.busyUntil.isSome = true → Completes (.busyResend slot peer seq) s (fun t => ∃ o', outOf t slot peer seq = some o' ∧ o'.seq = o.seq ∧
        o'.req = o.req ∧ o'.tryN = o.tryN ∧ o'.path = livePath s peer o ∧ o'.busyUntil = none ∧ o'.lastTx = s.clock.now))) ∧
    (∀ (slot : Fin 64) (peer : BitVec 18) (seq : BitVec 32) (s : State),
      ((s.fabric.cache.find ⟨slot, peer, seq⟩).isSome = true → Completes (.replyCacheExpiry slot peer seq) s (fun t =>
        t.fabric.cache.find ⟨slot, peer, seq⟩ = none ∧ seq ∉ (flowOf t slot peer).unnoted ∧ t.mem = s.mem)) ∧
      (∀ h, heldAt s slot peer seq = some h → Completes (.holdExpiry slot peer seq) s (fun t =>
        t.fabric.hold = s.fabric.hold.filter (fun x => !(x == h)) ∧ t.mem = s.mem ∧
        t.jobs[slot].vmt.counts.refusedOut = satInc s.jobs[slot].vmt.counts.refusedOut 1))) ∧
    (∀ (a : Arrival) (op : Byte) (s : State) (k : Nat) (p : Fin 32) (f : QueuedFrame), a.fecBad = 0 → frameFaulty s a = false → a.pkt.vl ≠ 7 →
      s.fabric.accepting = true → forOther s a = true → (port s a.port).st = .up → isCrew s a.port = true →
      pRelay (portEntry s a.port) = true → a.shim.hop = 0 →
      relayPath s (ioDie s a.port) a.pkt.dst a.pkt.vl = some k → p = pePort (pathEntry s (ioDie s a.port) a.pkt.dst k) → (port s p).queue = [] →
      f = { shim := { a.shim with hop := 1, transit := true }, body := .vmt op a.pkt, bytes := frameSize (portEntry s p) a.pkt.payload.length
            held := some (a.port, creditIdx a.shim.vl a.shim.transit, frameCredits (arrivalBytes s a)), badFcs := !a.fcsOk } →
      canSend s p f = true → Completes (.relayFrame a op) s (fun t => .vmt p (hdrOf s p f) f.shim op a.pkt a.fcsOk ∈ t.out ∧ t.mem = s.mem)))

/-! ### Ports -/

/-- R391: signals, training, losses, stalls, promotions and reuse move a port between its states; no other port changes
state. -/
def Obligations.PortsFollowTheirStates : Prop :=
  ∀ (p : Fin 32) (s : State),
    ((port s p).st = .down → Completes (.portSignalDetect p) s (fun t => (port t p).st = .training ∧ OthersStay p s t)) ∧
    ((port s p).st = .training → isCrew s p = true → Completes (.trainingComplete p) s (fun t => (port t p).st = .discovering ∧
      (port t p).tries = 1 ∧ (port t p).hello = none ∧ OthersStay p s t)) ∧
    ((port s p).st = .training → isUplink s p = true → Completes (.trainingComplete p) s (fun t => (port t p).st = .up ∧
      (port t p).credSent = Vector.replicate 16 0 ∧ OthersStay p s t)) ∧
    ((port s p).st = .training → Completes (.trainingTimeout p) s (fun t => (port t p).st = .down ∧ OthersStay p s t)) ∧
    (∀ c, c = .portLost p ∨ (c = .portSilenceTimeout p ∧ isCrew s p = true) → (port s p).st.live = true →
      Completes c s (fun t => (port t p).flaps = satInc16 (port s p).flaps 1 ∧ (port t p).penalty = min 65535 (penaltyNow s p + 1000) ∧
        (port t p).peerValid = false ∧ (port t p).queue = [] ∧ (port t p).swap = none ∧ OthersStay p s t ∧
        (port t p).st = (if devFld s oLINK_CFG 0 135 120 ≤ min 65535 (penaltyNow s p + 1000) then .damped else .down))) ∧
    (∀ vl, (port s p).st = .up → stalled s p vl = true → Completes (.creditStallTimeout p vl) s (fun t => (port t p).st = .demoted ∧
      (port t p).stalls = satInc16 (port s p).stalls 1 ∧ (port t p).queue = (port s p).queue ∧ OthersStay p s t)) ∧
    ((port s p).st = .demoted → Completes (.promoteTimeout p) s (fun t => (port t p).st = .up ∧ (port t p).queue = (port s p).queue ∧
      OthersStay p s t)) ∧
    ((port s p).st = .damped → Completes (.dampReuse p) s (fun t => (port t p).st = .down ∧ OthersStay p s t))

/-- R387 to R389, R485: HELLO and PROOF with a partner: checks in their order, the link key and UP, or QUARANTINED with a reason;
discovery is repeated; LLDP is sent and recorded. The bytes of a HELLO (`ownHello`, `helloOf`), the order of the two HELLOs under
a PROOF and in the link key's context (`helloPair`), and the reason LIFECYCLE of a port whose own device is not DEPLOYED are the
model's choices of notes/assumptions/17. -/
def Obligations.DiscoveryAuthenticatesThePartner : Prop :=
  (∀ (p : Fin 32) (h : Hello) (s : State), isCrew s p = true → discovers s p = true → CtlRoom s p →
    Completes (.helloReceive p h) s (fun t =>
      if h.chainOk = false then (port t p).st = .quarantined ∧ (port t p).reason = 1
      else if h.deployed = false then (port t p).st = .quarantined ∧ (port t p).reason = 3
      else if h.fabricId.toNat ≠ devFld s oFABRIC_NODE 0 511 448 then (port t p).st = .quarantined ∧ (port t p).reason = 2
      else match ownSigner s with
        | none => (port t p).st = .quarantined ∧ (port t p).reason = 3
        | some k => (port t p).hello = some h ∧ (port t p).st = (port s p).st ∧
          t.out = s.out ++ [frameOut s p .proof (nats (Config.ecSign k ((port s p).helloSent ++ helloOf h)))])) ∧
  (∀ (p : Fin 32) (sig : List Byte) (s : State) (h : Hello) (own : List Byte), isCrew s p = true → discovers s p = true →
    (port s p).hello = some h → own = (port s p).helloSent → CtlRoom s p →
    Completes (.proofReceive p sig) s (fun t =>
      if Config.ecVerify h.idKey (helloOf h ++ own) sig = false then (port t p).st = .quarantined ∧ (port t p).reason = 1
      else if ownSigner s = none then (port t p).st = .quarantined ∧ (port t p).reason = 3
      else if nodeTaken s p h = true then (port t p).st = .quarantined ∧ (port t p).reason = 5
      else (port t p).st = .up ∧ (port t p).peerNode = h.node ∧ (port t p).peerValid = h.nodeValid ∧ (port t p).peerKeyFull = h.idKey ∧
        (port t p).linkKey = some (Config.kdf (Config.ecdh (port s p).eph h.ecdhKey) (helloPair own (helloOf h))))) ∧
  (∀ (p : Fin 32) (s : State),
    (discovers s p = true → (port s p).hello = none → (port s p).tries < devFld s oLINK_CFG 0 95 88 →
      Completes (.helloResend p) s (fun t => (port t p).tries = (port s p).tries + 1 ∧ (port t p).helloSent = ownHello s p ∧
        (port t p).st = (port s p).st)) ∧
    (isCrew s p = true → discovers s p = true → Completes (.discoveryTimeout p) s (fun t => (port t p).st = .quarantined ∧ (port t p).reason = 4)) ∧
    (isCrew s p = true → (port s p).st = .quarantined → Completes (.quarantineRetry p) s (fun t => (port t p).st = .quarantined ∧
      (port t p).hello = none ∧ (port t p).tries = 1)) ∧
    (∀ d, d = [devFld s oFABRIC_NODE 0 319 272, p.val, 4, if nodeValid s then 1 else 0, (ownNode s).toNat] →
      (port s p).st ≠ .disabled → (port s p).st ≠ .damped → SendsAtOnce s p .lldp d →
      Completes (.lldpTimer p) s (fun t => t.out = s.out ++ [frameOut s p .lldp d] ∧ t.mem = s.mem ∧ t.jobs = s.jobs)) ∧
    (∀ tlvs, (port s p).st.live = true ∨ discovers s p = true → CtlRoom s p →
      Completes (.lldpReceive p tlvs) s (fun t => (port t p).lldp = tlvs ∧ (port t p).st = (port s p).st ∧ t.out = s.out)))

/-- R383, R395, R400, R401, R403, R406, R409 to R411, R512: CREDIT and PFC frames, Neighbor Solicitations and MGMT frames; lane swaps on a
partner's request, their acceptance or refusal, their marker and their bound. The marker that the device names is a free
value (notes/assumptions/40); the bytes under the tag of a LINKCTL frame (`linkTag`) are the model's choice of
notes/assumptions/17. -/
def Obligations.PortFramesAndLaneSwapsAreTaken : Prop :=
  (∀ (p : Fin 32) (s : State),
      (∀ freed : List (BitVec 32), isCrew s p = true → (port s p).st.live = true → Completes (.creditFrame p freed) s (fun t =>
        (∀ i : Fin 16, (port t p).credBack[i] = (freed[i.val]?).getD (port s p).credBack[i]) ∧ (port t p).st = (port s p).st ∧ t.mem = s.mem)) ∧
      (∀ d f, isCrew s p = true → (port s p).st.live = true → (port s p).queue = [] → d = (port s p).credFreed.toList.map BitVec.toNat →
        f = otherFrame s p .credit d 0 0 →
        (canSend s p f = true → Completes (.creditFrameSend p) s (fun t => t.out = s.out ++ [frameOut s p .credit d] ∧ (port t p).queue = [] ∧ t.mem = s.mem)) ∧
        (canSend s p f = false → Completes (.creditFrameSend p) s (fun t => t.out = s.out ∧ (port t p).queue = [f] ∧ t.mem = s.mem))) ∧
      (∀ prio pause, isUplink s p = true → (port s p).st.live = true → Completes (.pfcFrame p prio pause) s (fun t =>
        (∀ k, k < 8 → (port t p).paused.getLsbD k = if k = prio.toNat then pause else (port s p).paused.getLsbD k) ∧ t.mem = s.mem)) ∧
      (∀ target source d, isUplink s p = true → (port s p).st.live = true → target = nodeAddress s (ownNode s) →
        d = [target.toNat, source.toNat, (portMac s p).toNat] → SendsAtOnce s p .advert d →
        Completes (.neighborSolicitation p target source) s (fun t => t.out = s.out ++ [frameOut s p .advert d] ∧ t.mem = s.mem ∧ t.jobs = s.jobs)) ∧
      Completes .congestionDecay s (fun t => t.fabric.ports = s.fabric.ports ∧ t.mem = s.mem ∧
        t.fabric.routes.congestion = (s.fabric.routes.congestion.map (fun c => (c.1, c.2 / 2))).filter (fun c => c.2 != 0)) ∧
      (∀ m, (port s p).st.live = true → powered s = true → s.cox.halted = false → CtlRoom s p → s.cox.change = none →
        (m.dst = ownNode s → nodeValid s = true → mgmtOk s m = true → ((∃ d, m.body = .report d) ∨ ∃ k, m.body = .other k) →
          Completes (.mgmtFrame p m) s (fun t => t.sec.mgmtHigh.find m.src.toNat = some m.ctr ∧ t.jobs = s.jobs ∧ t.mem = s.mem ∧ t.out = s.out)) ∧
        (m.dst ≠ ownNode s ∨ mgmtOk s m = false → Completes (.mgmtFrame p m) s (fun t =>
          t.fabric.vmtErr.mgmtDrop = satInc s.fabric.vmtErr.mgmtDrop 1 ∧ t.sec = s.sec ∧ t.jobs = s.jobs ∧ t.mem = s.mem)))) ∧
  (∀ (p : Fin 32) (s : State), isCrew s p = true → (port s p).st.live = true →
      (∀ pos tag, CtlRoom s p → linkTag s p (leBytes 8 pos.toNat) = some tag → (port s p).swap = none → (port s p).subValid = false →
        pos.toNat < pLanes (portEntry s p) →
        ((idleSpare s p).isSome = true → Completes (.linkctlSwap p pos tag) s (fun t => (port t p).st = (port s p).st ∧
          (port t p).swap = some ⟨pos, false, true, (Config.freeValue s.fresh).toNat, s.clock.now + usTicks 25000⟩)) ∧
        (idleSpare s p = none → Completes (.linkctlSwap p pos tag) s (fun t => (port t p).st = .training ∧ (port t p).swap = none))) ∧
      (∀ w accept marker tag, CtlRoom s p → linkTag s p (leBytes 8 (if accept then 1 else 0) ++ leBytes 8 marker) = some tag →
        (port s p).swap = some w → w.accepted = false → Completes (.linkctlAccept p accept marker tag) s (fun t =>
          if accept then (port t p).swap = some { w with accepted := true, marker := marker } ∧ (port t p).st = (port s p).st
          else (port t p).st = .training ∧ (port t p).swap = none)) ∧
      (∀ w, (port s p).swap = some w →
        (w.accepted = true → (w.back = true ∨ (idleSpare s p).isSome = true) →
          Completes (.swapMarker p w.marker) s (fun t => (port t p).swap = none ∧ (port t p).subValid = !w.back ∧
            (port t p).subPos = (if w.back then 0 else w.pos) ∧ (port t p).subLane = (if w.back then 0 else (idleSpare s p).getD 0) ∧
            (port t p).st = (port s p).st)) ∧
        (w.accepted = true → w.back = false → idleSpare s p = none →
          Completes (.swapMarker p w.marker) s (fun t => (port t p).st = .training ∧ (port t p).swap = none)) ∧
        Completes (.laneSwapTimeout p) s (fun t => (port t p).st = .training ∧ (port t p).swap = none ∧ (port t p).penalty = (port s p).penalty)) ∧
      (∀ lane pos, laneHome s lane = some (p, pos) → pAutoSpare (portEntry s p) = true → (port s p).swap = none → (port s p).subValid = false →
        (idleSpare s p).isSome = true → Completes (.autoSpareTrigger lane) s (fun t => s.host[pf0].intCause ||| 4#32 = t.host[pf0].intCause ∧
          (port t p).swap = some ⟨BitVec.ofNat 3 pos, false, false, 0, s.clock.now + usTicks 25000⟩)))

/-! ### Time -/

/-- R453, R457, R458, R466, R475, R476: time messages move global time of a device that follows, and are forwarded and measured; a
device that accepts no Sync for 16 sync intervals leaves LOCKED; when global time has passed a multiple of 2^30 ticks, a buoy goes
into the queue of every enabled stream; an armed trigger whose time has come acts on the counters of its scope. That the
Follow_Up made for a one-step Sync carries the Sync's origin time and no correction is the model's choice
(notes/assumptions/21). -/
def Obligations.TimeMessagesBuoysAndTriggers : Prop :=
  ((∀ (p : Fin 32) (m : TimeMsg) (s : State),
      (timeDropped s p m true = true → Completes (.syncReceive p m) s (fun t => t.clock.t.msgsDropped = satInc s.clock.t.msgsDropped 1 ∧ t.out = s.out)) ∧
      (timeDropped s p m true = false → follows s = false → Completes (.syncReceive p m) s (fun t => t.clock.t = s.clock.t ∧ t.out = s.out)) ∧
      (timeDropped s p m true = false → follows s = true → m.oneStep = false → Completes (.syncReceive p m) s (fun t =>
        t.clock.t.sync = some (m.seqId, m.rx, m.corr) ∧ t.clock.t.lastSync = s.clock.now ∧ t.clock.now = s.clock.now)) ∧
      (timeDropped s p m true = false → follows s = true → Completes (.syncReceive p m) s (fun t =>
        ∀ q : Fin 32, bitAt (tDown s) q.val = true → (port s q).st.live = true → TimeRoom s q 2 →
          (∃ corr, frameOut s q .sync [m.seqId.toNat, 0, corr] ∈ t.out) ∧
          (m.oneStep = true → frameOut s q .followUp [m.seqId.toNat, ofSigned 80 m.stamp, 0] ∈ t.out))) ∧
      (∀ rx corr off, timeDropped s p m true = false → s.clock.t.sync = some (m.seqId, rx, corr) → follows s = true →
        off = rx - m.stamp - (corr + m.corr) - upDelay s → off.natAbs * 5 ≤ tLimit s * 4 * 65536 →
        Completes (.followUpReceive p m) s (fun t => t.clock.t.offsetNs = toNs off ∧ t.clock.t.slew = off ∧ t.clock.t.st = .locked ∧
          t.clock.t.sync = none ∧ t.clock.now = s.clock.now)) ∧
      (timeDropped s p m false = false → tUpValid s = true → tUpPort s = p → Completes (.announceReceive p m) s (fun t =>
        ∀ q : Fin 32, bitAt (tDown s) q.val = true → (port s q).st.live = true → TimeRoom s q 2 →
          frameOut s q .announce [m.seqId.toNat, ofSigned 80 m.stamp, ofSigned 64 m.corr] ∈ t.out)) ∧
      (timeDropped s p m false = false → isCrew s p = true → m.kind.toNat = 2 → TimeRoom s p 4 → Completes (.pdelayMessage p m) s (fun t =>
        t.out = s.out ++ [frameOut s p .pdelayResp [m.seqId.toNat, ofSigned 80 m.rx],
          frameOut s p .pdelayRespFollowUp [m.seqId.toNat, ofSigned 80 (localTime s)]])) ∧
      (∀ t1, timeDropped s p m false = false → isCrew s p = true → m.kind.toNat = 3 → (port s p).delaySent = some (m.seqId, t1) →
        Completes (.pdelayMessage p m) s (fun t => (port t p).delayResp = some (m.seqId, m.rx - t1 + m.stamp - m.corr) ∧ (port t p).delaySent = none)) ∧
      (∀ x, timeDropped s p m false = false → isCrew s p = true → m.kind.toNat = 10 → (port s p).delayResp = some (m.seqId, x) →
        Completes (.pdelayMessage p m) s (fun t => (port t p).pathDelay = (x - m.stamp - m.corr) / 2 ∧ (port t p).delayResp = none)) ∧
      (∀ t3, timeDropped s p m false = false → isUplink s p = true → tUpValid s = true → tUpPort s = p → s.clock.t.delaySent = some (m.seqId, t3) →
        Completes (.delayRespReceive p m) s (fun t => (port t p).pathDelay = (s.clock.t.syncDiff + (m.stamp - m.corr - t3)) / 2 ∧
          t.clock.t.delaySent = none))) ∧
    (∀ (p : Fin 32) (s : State), (port s p).st.live = true →
      (isCrew s p = true → Completes (.delayRequestTransmit p) s (fun t => (port t p).delaySent = some (s.clock.t.seq, localTime s) ∧
        t.clock.t.seq = s.clock.t.seq + 1 ∧
        (TimeRoom s p 2 → t.out = s.out ++ [frameOut s p .pdelayReq [s.clock.t.seq.toNat]]))) ∧
      (isUplink s p = true → tUpValid s = true → tUpPort s = p → Completes (.delayRequestTransmit p) s (fun t =>
        t.clock.t.delaySent = some (s.clock.t.seq, localTime s) ∧ t.clock.t.seq = s.clock.t.seq + 1))) ∧
    (∀ s : State,
      (tRole s = 2 → Completes .syncTransmit s (fun t => t.clock.t.seq = s.clock.t.seq + 1 ∧ ∀ q : Fin 32, bitAt (tDown s) q.val = true →
        (port s q).st.live = true → TimeRoom s q 2 → frameOut s q .sync [s.clock.t.seq.toNat, 0, 0] ∈ t.out ∧
          frameOut s q .followUp [s.clock.t.seq.toNat, ofSigned 80 (localTime s), 0] ∈ t.out)) ∧
      (s.clock.t.st = .locked → follows s = true → syncBound s ≤ (s.clock.now + 2 ^ 64 - s.clock.t.lastSync) % 2 ^ 64 →
        Completes .syncLossTimeout s (fun t => t.clock.t.st = .free ∧ t.clock.t.lockLosses = satInc s.clock.t.lockLosses 1 ∧ t.host[pf0].intCause = s.host[pf0].intCause ||| 16#32)))) ∧
  ((∀ s : State,
      (s.clock.now / 2 ^ 30 ≠ s.clock.buoys → s.power.mode ≠ .rest → Completes .buoyTimer s (fun t =>
        (∀ (sc : Option (Fin 64)) (d : Fin 4), getStream t sc d = if fld (traceCfg s sc d) 0 0 = 1
          then Stream.push ⟨s.clock.now, 1, (match sc with | some k => k.val | none => 0), d.val, (s.clock.now % 2 ^ 64) <<< 128⟩ (getStream s sc d)
          else getStream s sc d) ∧
        t.clock.buoys = s.clock.now / 2 ^ 30 ∧ t.clock.now = s.clock.now ∧ t.clock.pmu = s.clock.pmu)) ∧
      (s.clock.now / 2 ^ 30 = s.clock.buoys ∨ s.power.mode = .rest → Completes .buoyTimer s (fun t => t = s))) ∧
    (∀ (scope : Option (Fin 64)) (s : State), (triggerOf s scope).armed = true →
      ((triggerOf s scope).at_.toNat ≤ s.clock.now → Completes (.triggerFire scope) s (fun t =>
        (triggerOf t scope).armed = false ∧ (triggerOf t scope).late = false ∧ (triggerOf t scope).firedAt = BitVec.ofNat 64 s.clock.now ∧
        (∀ i : Fin 32, t.clock.pmu[i] = if s.clock.pmu[i].inScope scope then s.clock.pmu[i].act (triggerOf s scope).action else s.clock.pmu[i]) ∧
        t.clock.now = s.clock.now)) ∧
      (s.clock.now < (triggerOf s scope).at_.toNat → Completes (.triggerFire scope) s (fun t => t = s))))

/-! ### Power -/

/-- R521 to R523: a measurement sets the input power and the token budget; a decision names the divisor that the mode, the
demand or the heat calls for; a new divisor takes effect outside P2. -/
def Obligations.PowerIsMeasuredAndDivided : Prop :=
  ∀ s : State, powered s = true →
    (∀ (w : BitVec 16) (temps : List Nat), (∀ n, n < 4 → dieTemp s temps n < 90) → Completes (.powerMeasure w temps) s (fun t =>
      t.power.inputW = w ∧ t.power.budget = BitVec.ofNat 16 (min 65535 (2 * limitW s - 2 * reserveW s - (2 * w.toNat - s.power.held))) ∧
      t.power.hotDies = 0 ∧ t.board.pinW = w ∧ t.power.aclk = s.power.aclk ∧ t.mem = s.mem ∧ t.jobs = s.jobs)) ∧
    (forced12 s = true → s.power.aclk ≠ 2 → Completes .divisorDecision s (fun t => t.power.pending = some 2 ∧ t.power.lowerCalls = 0 ∧
      t.host[pf0].intCause = s.host[pf0].intCause ||| 32#32)) ∧
    (∀ d : BitVec 2, forced12 s = false → (p1Mode s = 1 ∧ d = 0) ∨ (p1Mode s = 2 ∧ d = 1) ∨ (p1Mode s = 3 ∧ d = 2) →
      Completes .divisorDecision s (fun t => t.power.pending = (if d = s.power.aclk then none else some d) ∧ t.mem = s.mem ∧ t.jobs = s.jobs)) ∧
    (forced12 s = false → p1Mode s = 0 → autoDivisor s < s.power.aclk → Completes .divisorDecision s (fun t =>
      (s.power.lowerCalls = 0 → t.power.pending = none ∧ t.power.lowerCalls = 1) ∧
      (1 ≤ s.power.lowerCalls → t.power.pending = some (autoDivisor s) ∧ t.power.lowerCalls = s.power.lowerCalls + 1))) ∧
    (∀ d, s.power.pending = some d → s.power.mode ≠ .hold → Completes .divisorApply s (fun t => t.power.aclk = d ∧ t.power.pending = none ∧
      t.power.returned = s.power.returned + s.power.held ∧ t.mem = s.mem ∧ t.jobs = s.jobs))

/-! ### Frames -/

/-- R391, R396, R523: what the commands of a port's link and of the power manager leave unchanged, wherever they end. The
link's commands leave every object, engine, vector engine and core, the power manager, global time, the counters and the waiting
commands; where no port leaves UP and DEMOTED, they leave every byte and tag of memory and every job too, but for the transmit
counts of packets that leave (a port that leaves them moves the requests of its paths). The power manager's commands leave the
jobs, the memory, the fabric and the security state. -/
def Obligations.LinksAndPowerLeaveTheRest : Prop :=
  ∀ (c : Instr) (s t : State), exec c s = .next t →
    (linkRow c = true →
      Keeps [.objs, .engines, .ves, .rigs, .claims, .power, .rst, .health, .numVfs, .board, .pending] s t ∧
      t.clock.now = s.clock.now ∧ t.clock.pmu = s.clock.pmu ∧
      ((∀ p, (port s p).st.live = true → (port t p).st.live = true) →
        t.mem = s.mem ∧ ∀ i : Fin 64, JobKept s.jobs[i] t.jobs[i])) ∧
    ((∃ w temps, c = .powerMeasure w temps) ∨ c = .divisorDecision ∨ c = .divisorApply →
      Keeps [.mem, .jobs, .objs, .engines, .ves, .rigs, .claims, .fabric, .sec, .rst, .health, .numVfs, .clock, .pending] s t)
end

