-- ==== Sys2Proof/Laws/State.lean ====
section
/-! SUPPORT. What each update of the state leaves as it was, field by field, and what it puts in its place: a
conjunction that simp takes as one rewriting rule a field. -/

namespace Sys2Proof.Machine

/-- `modJob` writes `jobs` alone. -/
@[simp] theorem modJob_keeps (slot : Fin 64) (f : Job → Job) (s : State) :
    ((modJob slot f s).pending = s.pending ∧ (modJob slot f s).host = s.host ∧ (modJob slot f s).numVfs = s.numVfs ∧ (modJob slot f s).bar2Size = s.bar2Size ∧ (modJob slot f s).cox = s.cox) ∧
    ((modJob slot f s).objs = s.objs ∧ (modJob slot f s).mem = s.mem) ∧
    ((modJob slot f s).fabric = s.fabric ∧ (modJob slot f s).rigs = s.rigs ∧ (modJob slot f s).engines = s.engines ∧ (modJob slot f s).ves = s.ves ∧ (modJob slot f s).claims = s.claims) ∧
    ((modJob slot f s).clock = s.clock ∧ (modJob slot f s).logs = s.logs ∧ (modJob slot f s).health = s.health ∧ (modJob slot f s).healthFlash = s.healthFlash) ∧
    ((modJob slot f s).sec = s.sec ∧ (modJob slot f s).power = s.power ∧ (modJob slot f s).calib = s.calib) ∧
    ((modJob slot f s).rst = s.rst ∧ (modJob slot f s).board = s.board) ∧
    ((modJob slot f s).out = s.out ∧ (modJob slot f s).fresh = s.fresh ∧ (modJob slot f s).stamps = s.stamps) := by
  repeat' apply And.intro
  all_goals rfl

/-- `modCtl` writes `jobs` alone. -/
@[simp] theorem modCtl_keeps (slot : Fin 64) (f : JobCtl → JobCtl) (s : State) :
    ((modCtl slot f s).pending = s.pending ∧ (modCtl slot f s).host = s.host ∧ (modCtl slot f s).numVfs = s.numVfs ∧ (modCtl slot f s).bar2Size = s.bar2Size ∧ (modCtl slot f s).cox = s.cox) ∧
    ((modCtl slot f s).objs = s.objs ∧ (modCtl slot f s).mem = s.mem) ∧
    ((modCtl slot f s).fabric = s.fabric ∧ (modCtl slot f s).rigs = s.rigs ∧ (modCtl slot f s).engines = s.engines ∧ (modCtl slot f s).ves = s.ves ∧ (modCtl slot f s).claims = s.claims) ∧
    ((modCtl slot f s).clock = s.clock ∧ (modCtl slot f s).logs = s.logs ∧ (modCtl slot f s).health = s.health ∧ (modCtl slot f s).healthFlash = s.healthFlash) ∧
    ((modCtl slot f s).sec = s.sec ∧ (modCtl slot f s).power = s.power ∧ (modCtl slot f s).calib = s.calib) ∧
    ((modCtl slot f s).rst = s.rst ∧ (modCtl slot f s).board = s.board) ∧
    ((modCtl slot f s).out = s.out ∧ (modCtl slot f s).fresh = s.fresh ∧ (modCtl slot f s).stamps = s.stamps) := by
  repeat' apply And.intro
  all_goals rfl

/-- `modVmt` writes `jobs` alone. -/
@[simp] theorem modVmt_keeps (slot : Fin 64) (f : JobVmt → JobVmt) (s : State) :
    ((modVmt slot f s).pending = s.pending ∧ (modVmt slot f s).host = s.host ∧ (modVmt slot f s).numVfs = s.numVfs ∧ (modVmt slot f s).bar2Size = s.bar2Size ∧ (modVmt slot f s).cox = s.cox) ∧
    ((modVmt slot f s).objs = s.objs ∧ (modVmt slot f s).mem = s.mem) ∧
    ((modVmt slot f s).fabric = s.fabric ∧ (modVmt slot f s).rigs = s.rigs ∧ (modVmt slot f s).engines = s.engines ∧ (modVmt slot f s).ves = s.ves ∧ (modVmt slot f s).claims = s.claims) ∧
    ((modVmt slot f s).clock = s.clock ∧ (modVmt slot f s).logs = s.logs ∧ (modVmt slot f s).health = s.health ∧ (modVmt slot f s).healthFlash = s.healthFlash) ∧
    ((modVmt slot f s).sec = s.sec ∧ (modVmt slot f s).power = s.power ∧ (modVmt slot f s).calib = s.calib) ∧
    ((modVmt slot f s).rst = s.rst ∧ (modVmt slot f s).board = s.board) ∧
    ((modVmt slot f s).out = s.out ∧ (modVmt slot f s).fresh = s.fresh ∧ (modVmt slot f s).stamps = s.stamps) := by
  repeat' apply And.intro
  all_goals rfl

/-- `modTasks` writes `jobs` alone. -/
@[simp] theorem modTasks_keeps (slot : Fin 64) (f : JobTasks → JobTasks) (s : State) :
    ((modTasks slot f s).pending = s.pending ∧ (modTasks slot f s).host = s.host ∧ (modTasks slot f s).numVfs = s.numVfs ∧ (modTasks slot f s).bar2Size = s.bar2Size ∧ (modTasks slot f s).cox = s.cox) ∧
    ((modTasks slot f s).objs = s.objs ∧ (modTasks slot f s).mem = s.mem) ∧
    ((modTasks slot f s).fabric = s.fabric ∧ (modTasks slot f s).rigs = s.rigs ∧ (modTasks slot f s).engines = s.engines ∧ (modTasks slot f s).ves = s.ves ∧ (modTasks slot f s).claims = s.claims) ∧
    ((modTasks slot f s).clock = s.clock ∧ (modTasks slot f s).logs = s.logs ∧ (modTasks slot f s).health = s.health ∧ (modTasks slot f s).healthFlash = s.healthFlash) ∧
    ((modTasks slot f s).sec = s.sec ∧ (modTasks slot f s).power = s.power ∧ (modTasks slot f s).calib = s.calib) ∧
    ((modTasks slot f s).rst = s.rst ∧ (modTasks slot f s).board = s.board) ∧
    ((modTasks slot f s).out = s.out ∧ (modTasks slot f s).fresh = s.fresh ∧ (modTasks slot f s).stamps = s.stamps) := by
  repeat' apply And.intro
  all_goals rfl

/-- `modDie` writes `jobs` alone. -/
@[simp] theorem modDie_keeps (slot : Fin 64) (die : Fin 4) (f : JobDie → JobDie) (s : State) :
    ((modDie slot die f s).pending = s.pending ∧ (modDie slot die f s).host = s.host ∧ (modDie slot die f s).numVfs = s.numVfs ∧ (modDie slot die f s).bar2Size = s.bar2Size ∧ (modDie slot die f s).cox = s.cox) ∧
    ((modDie slot die f s).objs = s.objs ∧ (modDie slot die f s).mem = s.mem) ∧
    ((modDie slot die f s).fabric = s.fabric ∧ (modDie slot die f s).rigs = s.rigs ∧ (modDie slot die f s).engines = s.engines ∧ (modDie slot die f s).ves = s.ves ∧ (modDie slot die f s).claims = s.claims) ∧
    ((modDie slot die f s).clock = s.clock ∧ (modDie slot die f s).logs = s.logs ∧ (modDie slot die f s).health = s.health ∧ (modDie slot die f s).healthFlash = s.healthFlash) ∧
    ((modDie slot die f s).sec = s.sec ∧ (modDie slot die f s).power = s.power ∧ (modDie slot die f s).calib = s.calib) ∧
    ((modDie slot die f s).rst = s.rst ∧ (modDie slot die f s).board = s.board) ∧
    ((modDie slot die f s).out = s.out ∧ (modDie slot die f s).fresh = s.fresh ∧ (modDie slot die f s).stamps = s.stamps) := by
  repeat' apply And.intro
  all_goals rfl

/-- `modTotals` writes `jobs` alone. -/
@[simp] theorem modTotals_keeps (slot : Fin 64) (f : Totals → Totals) (s : State) :
    ((modTotals slot f s).pending = s.pending ∧ (modTotals slot f s).host = s.host ∧ (modTotals slot f s).numVfs = s.numVfs ∧ (modTotals slot f s).bar2Size = s.bar2Size ∧ (modTotals slot f s).cox = s.cox) ∧
    ((modTotals slot f s).objs = s.objs ∧ (modTotals slot f s).mem = s.mem) ∧
    ((modTotals slot f s).fabric = s.fabric ∧ (modTotals slot f s).rigs = s.rigs ∧ (modTotals slot f s).engines = s.engines ∧ (modTotals slot f s).ves = s.ves ∧ (modTotals slot f s).claims = s.claims) ∧
    ((modTotals slot f s).clock = s.clock ∧ (modTotals slot f s).logs = s.logs ∧ (modTotals slot f s).health = s.health ∧ (modTotals slot f s).healthFlash = s.healthFlash) ∧
    ((modTotals slot f s).sec = s.sec ∧ (modTotals slot f s).power = s.power ∧ (modTotals slot f s).calib = s.calib) ∧
    ((modTotals slot f s).rst = s.rst ∧ (modTotals slot f s).board = s.board) ∧
    ((modTotals slot f s).out = s.out ∧ (modTotals slot f s).fresh = s.fresh ∧ (modTotals slot f s).stamps = s.stamps) := by
  repeat' apply And.intro
  all_goals rfl

/-- `modUpd` writes `jobs` alone. -/
@[simp] theorem modUpd_keeps (slot : Fin 64) (f : UpdCounts → UpdCounts) (s : State) :
    ((modUpd slot f s).pending = s.pending ∧ (modUpd slot f s).host = s.host ∧ (modUpd slot f s).numVfs = s.numVfs ∧ (modUpd slot f s).bar2Size = s.bar2Size ∧ (modUpd slot f s).cox = s.cox) ∧
    ((modUpd slot f s).objs = s.objs ∧ (modUpd slot f s).mem = s.mem) ∧
    ((modUpd slot f s).fabric = s.fabric ∧ (modUpd slot f s).rigs = s.rigs ∧ (modUpd slot f s).engines = s.engines ∧ (modUpd slot f s).ves = s.ves ∧ (modUpd slot f s).claims = s.claims) ∧
    ((modUpd slot f s).clock = s.clock ∧ (modUpd slot f s).logs = s.logs ∧ (modUpd slot f s).health = s.health ∧ (modUpd slot f s).healthFlash = s.healthFlash) ∧
    ((modUpd slot f s).sec = s.sec ∧ (modUpd slot f s).power = s.power ∧ (modUpd slot f s).calib = s.calib) ∧
    ((modUpd slot f s).rst = s.rst ∧ (modUpd slot f s).board = s.board) ∧
    ((modUpd slot f s).out = s.out ∧ (modUpd slot f s).fresh = s.fresh ∧ (modUpd slot f s).stamps = s.stamps) := by
  repeat' apply And.intro
  all_goals rfl

/-- `modStash` writes `jobs` alone. -/
@[simp] theorem modStash_keeps (slot : Fin 64) (f : Stash → Stash) (s : State) :
    ((modStash slot f s).pending = s.pending ∧ (modStash slot f s).host = s.host ∧ (modStash slot f s).numVfs = s.numVfs ∧ (modStash slot f s).bar2Size = s.bar2Size ∧ (modStash slot f s).cox = s.cox) ∧
    ((modStash slot f s).objs = s.objs ∧ (modStash slot f s).mem = s.mem) ∧
    ((modStash slot f s).fabric = s.fabric ∧ (modStash slot f s).rigs = s.rigs ∧ (modStash slot f s).engines = s.engines ∧ (modStash slot f s).ves = s.ves ∧ (modStash slot f s).claims = s.claims) ∧
    ((modStash slot f s).clock = s.clock ∧ (modStash slot f s).logs = s.logs ∧ (modStash slot f s).health = s.health ∧ (modStash slot f s).healthFlash = s.healthFlash) ∧
    ((modStash slot f s).sec = s.sec ∧ (modStash slot f s).power = s.power ∧ (modStash slot f s).calib = s.calib) ∧
    ((modStash slot f s).rst = s.rst ∧ (modStash slot f s).board = s.board) ∧
    ((modStash slot f s).out = s.out ∧ (modStash slot f s).fresh = s.fresh ∧ (modStash slot f s).stamps = s.stamps) := by
  repeat' apply And.intro
  all_goals rfl

/-- `modWatch` writes `jobs` alone. -/
@[simp] theorem modWatch_keeps (slot : Fin 64) (f : Watch → Watch) (s : State) :
    ((modWatch slot f s).pending = s.pending ∧ (modWatch slot f s).host = s.host ∧ (modWatch slot f s).numVfs = s.numVfs ∧ (modWatch slot f s).bar2Size = s.bar2Size ∧ (modWatch slot f s).cox = s.cox) ∧
    ((modWatch slot f s).objs = s.objs ∧ (modWatch slot f s).mem = s.mem) ∧
    ((modWatch slot f s).fabric = s.fabric ∧ (modWatch slot f s).rigs = s.rigs ∧ (modWatch slot f s).engines = s.engines ∧ (modWatch slot f s).ves = s.ves ∧ (modWatch slot f s).claims = s.claims) ∧
    ((modWatch slot f s).clock = s.clock ∧ (modWatch slot f s).logs = s.logs ∧ (modWatch slot f s).health = s.health ∧ (modWatch slot f s).healthFlash = s.healthFlash) ∧
    ((modWatch slot f s).sec = s.sec ∧ (modWatch slot f s).power = s.power ∧ (modWatch slot f s).calib = s.calib) ∧
    ((modWatch slot f s).rst = s.rst ∧ (modWatch slot f s).board = s.board) ∧
    ((modWatch slot f s).out = s.out ∧ (modWatch slot f s).fresh = s.fresh ∧ (modWatch slot f s).stamps = s.stamps) := by
  repeat' apply And.intro
  all_goals rfl

/-- `modEntry` writes `jobs` alone. -/
@[simp] theorem modEntry_keeps (t : TaskRef) (f : Entry → Entry) (s : State) :
    ((modEntry t f s).pending = s.pending ∧ (modEntry t f s).host = s.host ∧ (modEntry t f s).numVfs = s.numVfs ∧ (modEntry t f s).bar2Size = s.bar2Size ∧ (modEntry t f s).cox = s.cox) ∧
    ((modEntry t f s).objs = s.objs ∧ (modEntry t f s).mem = s.mem) ∧
    ((modEntry t f s).fabric = s.fabric ∧ (modEntry t f s).rigs = s.rigs ∧ (modEntry t f s).engines = s.engines ∧ (modEntry t f s).ves = s.ves ∧ (modEntry t f s).claims = s.claims) ∧
    ((modEntry t f s).clock = s.clock ∧ (modEntry t f s).logs = s.logs ∧ (modEntry t f s).health = s.health ∧ (modEntry t f s).healthFlash = s.healthFlash) ∧
    ((modEntry t f s).sec = s.sec ∧ (modEntry t f s).power = s.power ∧ (modEntry t f s).calib = s.calib) ∧
    ((modEntry t f s).rst = s.rst ∧ (modEntry t f s).board = s.board) ∧
    ((modEntry t f s).out = s.out ∧ (modEntry t f s).fresh = s.fresh ∧ (modEntry t f s).stamps = s.stamps) := by
  repeat' apply And.intro
  all_goals rfl

/-- `modTag` writes `jobs` alone. -/
@[simp] theorem modTag_keeps (slot tag : Fin 64) (f : Tag → Tag) (s : State) :
    ((modTag slot tag f s).pending = s.pending ∧ (modTag slot tag f s).host = s.host ∧ (modTag slot tag f s).numVfs = s.numVfs ∧ (modTag slot tag f s).bar2Size = s.bar2Size ∧ (modTag slot tag f s).cox = s.cox) ∧
    ((modTag slot tag f s).objs = s.objs ∧ (modTag slot tag f s).mem = s.mem) ∧
    ((modTag slot tag f s).fabric = s.fabric ∧ (modTag slot tag f s).rigs = s.rigs ∧ (modTag slot tag f s).engines = s.engines ∧ (modTag slot tag f s).ves = s.ves ∧ (modTag slot tag f s).claims = s.claims) ∧
    ((modTag slot tag f s).clock = s.clock ∧ (modTag slot tag f s).logs = s.logs ∧ (modTag slot tag f s).health = s.health ∧ (modTag slot tag f s).healthFlash = s.healthFlash) ∧
    ((modTag slot tag f s).sec = s.sec ∧ (modTag slot tag f s).power = s.power ∧ (modTag slot tag f s).calib = s.calib) ∧
    ((modTag slot tag f s).rst = s.rst ∧ (modTag slot tag f s).board = s.board) ∧
    ((modTag slot tag f s).out = s.out ∧ (modTag slot tag f s).fresh = s.fresh ∧ (modTag slot tag f s).stamps = s.stamps) := by
  repeat' apply And.intro
  all_goals rfl

/-- `modHost` writes `host` alone. -/
@[simp] theorem modHost_keeps (fn : Fin 65) (f : HostFn → HostFn) (s : State) :
    ((modHost fn f s).pending = s.pending ∧ (modHost fn f s).numVfs = s.numVfs ∧ (modHost fn f s).bar2Size = s.bar2Size ∧ (modHost fn f s).cox = s.cox) ∧
    ((modHost fn f s).objs = s.objs ∧ (modHost fn f s).jobs = s.jobs ∧ (modHost fn f s).mem = s.mem) ∧
    ((modHost fn f s).fabric = s.fabric ∧ (modHost fn f s).rigs = s.rigs ∧ (modHost fn f s).engines = s.engines ∧ (modHost fn f s).ves = s.ves ∧ (modHost fn f s).claims = s.claims) ∧
    ((modHost fn f s).clock = s.clock ∧ (modHost fn f s).logs = s.logs ∧ (modHost fn f s).health = s.health ∧ (modHost fn f s).healthFlash = s.healthFlash) ∧
    ((modHost fn f s).sec = s.sec ∧ (modHost fn f s).power = s.power ∧ (modHost fn f s).calib = s.calib) ∧
    ((modHost fn f s).rst = s.rst ∧ (modHost fn f s).board = s.board) ∧
    ((modHost fn f s).out = s.out ∧ (modHost fn f s).fresh = s.fresh ∧ (modHost fn f s).stamps = s.stamps) := by
  repeat' apply And.intro
  all_goals rfl

/-- `modPort` writes `fabric` alone. -/
@[simp] theorem modPort_keeps (p : Fin 32) (f : Port → Port) (s : State) :
    ((modPort p f s).pending = s.pending ∧ (modPort p f s).host = s.host ∧ (modPort p f s).numVfs = s.numVfs ∧ (modPort p f s).bar2Size = s.bar2Size ∧ (modPort p f s).cox = s.cox) ∧
    ((modPort p f s).objs = s.objs ∧ (modPort p f s).jobs = s.jobs ∧ (modPort p f s).mem = s.mem) ∧
    ((modPort p f s).rigs = s.rigs ∧ (modPort p f s).engines = s.engines ∧ (modPort p f s).ves = s.ves ∧ (modPort p f s).claims = s.claims) ∧
    ((modPort p f s).clock = s.clock ∧ (modPort p f s).logs = s.logs ∧ (modPort p f s).health = s.health ∧ (modPort p f s).healthFlash = s.healthFlash) ∧
    ((modPort p f s).sec = s.sec ∧ (modPort p f s).power = s.power ∧ (modPort p f s).calib = s.calib) ∧
    ((modPort p f s).rst = s.rst ∧ (modPort p f s).board = s.board) ∧
    ((modPort p f s).out = s.out ∧ (modPort p f s).fresh = s.fresh ∧ (modPort p f s).stamps = s.stamps) := by
  repeat' apply And.intro
  all_goals rfl

/-- `modPortErr` writes `fabric` alone. -/
@[simp] theorem modPortErr_keeps (p : Fin 32) (f : PortErr → PortErr) (s : State) :
    ((modPortErr p f s).pending = s.pending ∧ (modPortErr p f s).host = s.host ∧ (modPortErr p f s).numVfs = s.numVfs ∧ (modPortErr p f s).bar2Size = s.bar2Size ∧ (modPortErr p f s).cox = s.cox) ∧
    ((modPortErr p f s).objs = s.objs ∧ (modPortErr p f s).jobs = s.jobs ∧ (modPortErr p f s).mem = s.mem) ∧
    ((modPortErr p f s).rigs = s.rigs ∧ (modPortErr p f s).engines = s.engines ∧ (modPortErr p f s).ves = s.ves ∧ (modPortErr p f s).claims = s.claims) ∧
    ((modPortErr p f s).clock = s.clock ∧ (modPortErr p f s).logs = s.logs ∧ (modPortErr p f s).health = s.health ∧ (modPortErr p f s).healthFlash = s.healthFlash) ∧
    ((modPortErr p f s).sec = s.sec ∧ (modPortErr p f s).power = s.power ∧ (modPortErr p f s).calib = s.calib) ∧
    ((modPortErr p f s).rst = s.rst ∧ (modPortErr p f s).board = s.board) ∧
    ((modPortErr p f s).out = s.out ∧ (modPortErr p f s).fresh = s.fresh ∧ (modPortErr p f s).stamps = s.stamps) := by
  repeat' apply And.intro
  all_goals rfl

/-- `modVmtErr` writes `fabric` alone. -/
@[simp] theorem modVmtErr_keeps (f : VmtErr → VmtErr) (s : State) :
    ((modVmtErr f s).pending = s.pending ∧ (modVmtErr f s).host = s.host ∧ (modVmtErr f s).numVfs = s.numVfs ∧ (modVmtErr f s).bar2Size = s.bar2Size ∧ (modVmtErr f s).cox = s.cox) ∧
    ((modVmtErr f s).objs = s.objs ∧ (modVmtErr f s).jobs = s.jobs ∧ (modVmtErr f s).mem = s.mem) ∧
    ((modVmtErr f s).rigs = s.rigs ∧ (modVmtErr f s).engines = s.engines ∧ (modVmtErr f s).ves = s.ves ∧ (modVmtErr f s).claims = s.claims) ∧
    ((modVmtErr f s).clock = s.clock ∧ (modVmtErr f s).logs = s.logs ∧ (modVmtErr f s).health = s.health ∧ (modVmtErr f s).healthFlash = s.healthFlash) ∧
    ((modVmtErr f s).sec = s.sec ∧ (modVmtErr f s).power = s.power ∧ (modVmtErr f s).calib = s.calib) ∧
    ((modVmtErr f s).rst = s.rst ∧ (modVmtErr f s).board = s.board) ∧
    ((modVmtErr f s).out = s.out ∧ (modVmtErr f s).fresh = s.fresh ∧ (modVmtErr f s).stamps = s.stamps) := by
  repeat' apply And.intro
  all_goals rfl

/-- `modStack` writes `mem` alone. -/
@[simp] theorem modStack_keeps (k : Fin 20) (f : Stack → Stack) (s : State) :
    ((modStack k f s).pending = s.pending ∧ (modStack k f s).host = s.host ∧ (modStack k f s).numVfs = s.numVfs ∧ (modStack k f s).bar2Size = s.bar2Size ∧ (modStack k f s).cox = s.cox) ∧
    ((modStack k f s).objs = s.objs ∧ (modStack k f s).jobs = s.jobs) ∧
    ((modStack k f s).fabric = s.fabric ∧ (modStack k f s).rigs = s.rigs ∧ (modStack k f s).engines = s.engines ∧ (modStack k f s).ves = s.ves ∧ (modStack k f s).claims = s.claims) ∧
    ((modStack k f s).clock = s.clock ∧ (modStack k f s).logs = s.logs ∧ (modStack k f s).health = s.health ∧ (modStack k f s).healthFlash = s.healthFlash) ∧
    ((modStack k f s).sec = s.sec ∧ (modStack k f s).power = s.power ∧ (modStack k f s).calib = s.calib) ∧
    ((modStack k f s).rst = s.rst ∧ (modStack k f s).board = s.board) ∧
    ((modStack k f s).out = s.out ∧ (modStack k f s).fresh = s.fresh ∧ (modStack k f s).stamps = s.stamps) := by
  repeat' apply And.intro
  all_goals rfl

/-- `modRig` writes `rigs` alone. -/
@[simp] theorem modRig_keeps (r : Fin 64) (f : Rigger → Rigger) (s : State) :
    ((modRig r f s).pending = s.pending ∧ (modRig r f s).host = s.host ∧ (modRig r f s).numVfs = s.numVfs ∧ (modRig r f s).bar2Size = s.bar2Size ∧ (modRig r f s).cox = s.cox) ∧
    ((modRig r f s).objs = s.objs ∧ (modRig r f s).jobs = s.jobs ∧ (modRig r f s).mem = s.mem) ∧
    ((modRig r f s).fabric = s.fabric ∧ (modRig r f s).engines = s.engines ∧ (modRig r f s).ves = s.ves ∧ (modRig r f s).claims = s.claims) ∧
    ((modRig r f s).clock = s.clock ∧ (modRig r f s).logs = s.logs ∧ (modRig r f s).health = s.health ∧ (modRig r f s).healthFlash = s.healthFlash) ∧
    ((modRig r f s).sec = s.sec ∧ (modRig r f s).power = s.power ∧ (modRig r f s).calib = s.calib) ∧
    ((modRig r f s).rst = s.rst ∧ (modRig r f s).board = s.board) ∧
    ((modRig r f s).out = s.out ∧ (modRig r f s).fresh = s.fresh ∧ (modRig r f s).stamps = s.stamps) := by
  repeat' apply And.intro
  all_goals rfl

/-- `modEngine` writes `engines` alone. -/
@[simp] theorem modEngine_keeps (e : Fin 68) (f : Engine → Engine) (s : State) :
    ((modEngine e f s).pending = s.pending ∧ (modEngine e f s).host = s.host ∧ (modEngine e f s).numVfs = s.numVfs ∧ (modEngine e f s).bar2Size = s.bar2Size ∧ (modEngine e f s).cox = s.cox) ∧
    ((modEngine e f s).objs = s.objs ∧ (modEngine e f s).jobs = s.jobs ∧ (modEngine e f s).mem = s.mem) ∧
    ((modEngine e f s).fabric = s.fabric ∧ (modEngine e f s).rigs = s.rigs ∧ (modEngine e f s).ves = s.ves ∧ (modEngine e f s).claims = s.claims) ∧
    ((modEngine e f s).clock = s.clock ∧ (modEngine e f s).logs = s.logs ∧ (modEngine e f s).health = s.health ∧ (modEngine e f s).healthFlash = s.healthFlash) ∧
    ((modEngine e f s).sec = s.sec ∧ (modEngine e f s).power = s.power ∧ (modEngine e f s).calib = s.calib) ∧
    ((modEngine e f s).rst = s.rst ∧ (modEngine e f s).board = s.board) ∧
    ((modEngine e f s).out = s.out ∧ (modEngine e f s).fresh = s.fresh ∧ (modEngine e f s).stamps = s.stamps) := by
  repeat' apply And.intro
  all_goals rfl

/-- `modVe` writes `ves` alone. -/
@[simp] theorem modVe_keeps (v : Fin 64) (f : VecEng → VecEng) (s : State) :
    ((modVe v f s).pending = s.pending ∧ (modVe v f s).host = s.host ∧ (modVe v f s).numVfs = s.numVfs ∧ (modVe v f s).bar2Size = s.bar2Size ∧ (modVe v f s).cox = s.cox) ∧
    ((modVe v f s).objs = s.objs ∧ (modVe v f s).jobs = s.jobs ∧ (modVe v f s).mem = s.mem) ∧
    ((modVe v f s).fabric = s.fabric ∧ (modVe v f s).rigs = s.rigs ∧ (modVe v f s).engines = s.engines ∧ (modVe v f s).claims = s.claims) ∧
    ((modVe v f s).clock = s.clock ∧ (modVe v f s).logs = s.logs ∧ (modVe v f s).health = s.health ∧ (modVe v f s).healthFlash = s.healthFlash) ∧
    ((modVe v f s).sec = s.sec ∧ (modVe v f s).power = s.power ∧ (modVe v f s).calib = s.calib) ∧
    ((modVe v f s).rst = s.rst ∧ (modVe v f s).board = s.board) ∧
    ((modVe v f s).out = s.out ∧ (modVe v f s).fresh = s.fresh ∧ (modVe v f s).stamps = s.stamps) := by
  repeat' apply And.intro
  all_goals rfl

/-- `modPower` writes `power` alone. -/
@[simp] theorem modPower_keeps (f : Power → Power) (s : State) :
    ((modPower f s).pending = s.pending ∧ (modPower f s).host = s.host ∧ (modPower f s).numVfs = s.numVfs ∧ (modPower f s).bar2Size = s.bar2Size ∧ (modPower f s).cox = s.cox) ∧
    ((modPower f s).objs = s.objs ∧ (modPower f s).jobs = s.jobs ∧ (modPower f s).mem = s.mem) ∧
    ((modPower f s).fabric = s.fabric ∧ (modPower f s).rigs = s.rigs ∧ (modPower f s).engines = s.engines ∧ (modPower f s).ves = s.ves ∧ (modPower f s).claims = s.claims) ∧
    ((modPower f s).clock = s.clock ∧ (modPower f s).logs = s.logs ∧ (modPower f s).health = s.health ∧ (modPower f s).healthFlash = s.healthFlash) ∧
    ((modPower f s).sec = s.sec ∧ (modPower f s).calib = s.calib) ∧
    ((modPower f s).rst = s.rst ∧ (modPower f s).board = s.board) ∧
    ((modPower f s).out = s.out ∧ (modPower f s).fresh = s.fresh ∧ (modPower f s).stamps = s.stamps) := by
  repeat' apply And.intro
  all_goals rfl

/-- `modClock` writes `clock` alone. -/
@[simp] theorem modClock_keeps (f : Clock → Clock) (s : State) :
    ((modClock f s).pending = s.pending ∧ (modClock f s).host = s.host ∧ (modClock f s).numVfs = s.numVfs ∧ (modClock f s).bar2Size = s.bar2Size ∧ (modClock f s).cox = s.cox) ∧
    ((modClock f s).objs = s.objs ∧ (modClock f s).jobs = s.jobs ∧ (modClock f s).mem = s.mem) ∧
    ((modClock f s).fabric = s.fabric ∧ (modClock f s).rigs = s.rigs ∧ (modClock f s).engines = s.engines ∧ (modClock f s).ves = s.ves ∧ (modClock f s).claims = s.claims) ∧
    ((modClock f s).logs = s.logs ∧ (modClock f s).health = s.health ∧ (modClock f s).healthFlash = s.healthFlash) ∧
    ((modClock f s).sec = s.sec ∧ (modClock f s).power = s.power ∧ (modClock f s).calib = s.calib) ∧
    ((modClock f s).rst = s.rst ∧ (modClock f s).board = s.board) ∧
    ((modClock f s).out = s.out ∧ (modClock f s).fresh = s.fresh ∧ (modClock f s).stamps = s.stamps) := by
  repeat' apply And.intro
  all_goals rfl

/-- `modTime` writes `clock` alone. -/
@[simp] theorem modTime_keeps (f : TimeSt → TimeSt) (s : State) :
    ((modTime f s).pending = s.pending ∧ (modTime f s).host = s.host ∧ (modTime f s).numVfs = s.numVfs ∧ (modTime f s).bar2Size = s.bar2Size ∧ (modTime f s).cox = s.cox) ∧
    ((modTime f s).objs = s.objs ∧ (modTime f s).jobs = s.jobs ∧ (modTime f s).mem = s.mem) ∧
    ((modTime f s).fabric = s.fabric ∧ (modTime f s).rigs = s.rigs ∧ (modTime f s).engines = s.engines ∧ (modTime f s).ves = s.ves ∧ (modTime f s).claims = s.claims) ∧
    ((modTime f s).logs = s.logs ∧ (modTime f s).health = s.health ∧ (modTime f s).healthFlash = s.healthFlash) ∧
    ((modTime f s).sec = s.sec ∧ (modTime f s).power = s.power ∧ (modTime f s).calib = s.calib) ∧
    ((modTime f s).rst = s.rst ∧ (modTime f s).board = s.board) ∧
    ((modTime f s).out = s.out ∧ (modTime f s).fresh = s.fresh ∧ (modTime f s).stamps = s.stamps) := by
  repeat' apply And.intro
  all_goals rfl

/-- `modCalib` writes `calib` alone. -/
@[simp] theorem modCalib_keeps (f : Calib → Calib) (s : State) :
    ((modCalib f s).pending = s.pending ∧ (modCalib f s).host = s.host ∧ (modCalib f s).numVfs = s.numVfs ∧ (modCalib f s).bar2Size = s.bar2Size ∧ (modCalib f s).cox = s.cox) ∧
    ((modCalib f s).objs = s.objs ∧ (modCalib f s).jobs = s.jobs ∧ (modCalib f s).mem = s.mem) ∧
    ((modCalib f s).fabric = s.fabric ∧ (modCalib f s).rigs = s.rigs ∧ (modCalib f s).engines = s.engines ∧ (modCalib f s).ves = s.ves ∧ (modCalib f s).claims = s.claims) ∧
    ((modCalib f s).clock = s.clock ∧ (modCalib f s).logs = s.logs ∧ (modCalib f s).health = s.health ∧ (modCalib f s).healthFlash = s.healthFlash) ∧
    ((modCalib f s).sec = s.sec ∧ (modCalib f s).power = s.power) ∧
    ((modCalib f s).rst = s.rst ∧ (modCalib f s).board = s.board) ∧
    ((modCalib f s).out = s.out ∧ (modCalib f s).fresh = s.fresh ∧ (modCalib f s).stamps = s.stamps) := by
  repeat' apply And.intro
  all_goals rfl

/-- `modSec` writes `sec` alone. -/
@[simp] theorem modSec_keeps (f : Security → Security) (s : State) :
    ((modSec f s).pending = s.pending ∧ (modSec f s).host = s.host ∧ (modSec f s).numVfs = s.numVfs ∧ (modSec f s).bar2Size = s.bar2Size ∧ (modSec f s).cox = s.cox) ∧
    ((modSec f s).objs = s.objs ∧ (modSec f s).jobs = s.jobs ∧ (modSec f s).mem = s.mem) ∧
    ((modSec f s).fabric = s.fabric ∧ (modSec f s).rigs = s.rigs ∧ (modSec f s).engines = s.engines ∧ (modSec f s).ves = s.ves ∧ (modSec f s).claims = s.claims) ∧
    ((modSec f s).clock = s.clock ∧ (modSec f s).logs = s.logs ∧ (modSec f s).health = s.health ∧ (modSec f s).healthFlash = s.healthFlash) ∧
    ((modSec f s).power = s.power ∧ (modSec f s).calib = s.calib) ∧
    ((modSec f s).rst = s.rst ∧ (modSec f s).board = s.board) ∧
    ((modSec f s).out = s.out ∧ (modSec f s).fresh = s.fresh ∧ (modSec f s).stamps = s.stamps) := by
  repeat' apply And.intro
  all_goals rfl

/-- `modRst` writes `rst` alone. -/
@[simp] theorem modRst_keeps (f : ResetSt → ResetSt) (s : State) :
    ((modRst f s).pending = s.pending ∧ (modRst f s).host = s.host ∧ (modRst f s).numVfs = s.numVfs ∧ (modRst f s).bar2Size = s.bar2Size ∧ (modRst f s).cox = s.cox) ∧
    ((modRst f s).objs = s.objs ∧ (modRst f s).jobs = s.jobs ∧ (modRst f s).mem = s.mem) ∧
    ((modRst f s).fabric = s.fabric ∧ (modRst f s).rigs = s.rigs ∧ (modRst f s).engines = s.engines ∧ (modRst f s).ves = s.ves ∧ (modRst f s).claims = s.claims) ∧
    ((modRst f s).clock = s.clock ∧ (modRst f s).logs = s.logs ∧ (modRst f s).health = s.health ∧ (modRst f s).healthFlash = s.healthFlash) ∧
    ((modRst f s).sec = s.sec ∧ (modRst f s).power = s.power ∧ (modRst f s).calib = s.calib) ∧
    ((modRst f s).board = s.board) ∧
    ((modRst f s).out = s.out ∧ (modRst f s).fresh = s.fresh ∧ (modRst f s).stamps = s.stamps) := by
  repeat' apply And.intro
  all_goals rfl

/-- `modBoard` writes `board` alone. -/
@[simp] theorem modBoard_keeps (f : ModuleSt → ModuleSt) (s : State) :
    ((modBoard f s).pending = s.pending ∧ (modBoard f s).host = s.host ∧ (modBoard f s).numVfs = s.numVfs ∧ (modBoard f s).bar2Size = s.bar2Size ∧ (modBoard f s).cox = s.cox) ∧
    ((modBoard f s).objs = s.objs ∧ (modBoard f s).jobs = s.jobs ∧ (modBoard f s).mem = s.mem) ∧
    ((modBoard f s).fabric = s.fabric ∧ (modBoard f s).rigs = s.rigs ∧ (modBoard f s).engines = s.engines ∧ (modBoard f s).ves = s.ves ∧ (modBoard f s).claims = s.claims) ∧
    ((modBoard f s).clock = s.clock ∧ (modBoard f s).logs = s.logs ∧ (modBoard f s).health = s.health ∧ (modBoard f s).healthFlash = s.healthFlash) ∧
    ((modBoard f s).sec = s.sec ∧ (modBoard f s).power = s.power ∧ (modBoard f s).calib = s.calib) ∧
    ((modBoard f s).rst = s.rst) ∧
    ((modBoard f s).out = s.out ∧ (modBoard f s).fresh = s.fresh ∧ (modBoard f s).stamps = s.stamps) := by
  repeat' apply And.intro
  all_goals rfl

/-- `emit` writes `out` alone. -/
@[simp] theorem emit_keeps (e : OutEvent) (s : State) :
    ((emit e s).pending = s.pending ∧ (emit e s).host = s.host ∧ (emit e s).numVfs = s.numVfs ∧ (emit e s).bar2Size = s.bar2Size ∧ (emit e s).cox = s.cox) ∧
    ((emit e s).objs = s.objs ∧ (emit e s).jobs = s.jobs ∧ (emit e s).mem = s.mem) ∧
    ((emit e s).fabric = s.fabric ∧ (emit e s).rigs = s.rigs ∧ (emit e s).engines = s.engines ∧ (emit e s).ves = s.ves ∧ (emit e s).claims = s.claims) ∧
    ((emit e s).clock = s.clock ∧ (emit e s).logs = s.logs ∧ (emit e s).health = s.health ∧ (emit e s).healthFlash = s.healthFlash) ∧
    ((emit e s).sec = s.sec ∧ (emit e s).power = s.power ∧ (emit e s).calib = s.calib) ∧
    ((emit e s).rst = s.rst ∧ (emit e s).board = s.board) ∧
    ((emit e s).fresh = s.fresh ∧ (emit e s).stamps = s.stamps) := by
  repeat' apply And.intro
  all_goals rfl

/-- `objPut` writes `objs` alone. -/
@[simp] theorem objPut_keeps (k : ObjKey) (bits : Nat) (s : State) :
    ((objPut k bits s).pending = s.pending ∧ (objPut k bits s).host = s.host ∧ (objPut k bits s).numVfs = s.numVfs ∧ (objPut k bits s).bar2Size = s.bar2Size ∧ (objPut k bits s).cox = s.cox) ∧
    ((objPut k bits s).jobs = s.jobs ∧ (objPut k bits s).mem = s.mem) ∧
    ((objPut k bits s).fabric = s.fabric ∧ (objPut k bits s).rigs = s.rigs ∧ (objPut k bits s).engines = s.engines ∧ (objPut k bits s).ves = s.ves ∧ (objPut k bits s).claims = s.claims) ∧
    ((objPut k bits s).clock = s.clock ∧ (objPut k bits s).logs = s.logs ∧ (objPut k bits s).health = s.health ∧ (objPut k bits s).healthFlash = s.healthFlash) ∧
    ((objPut k bits s).sec = s.sec ∧ (objPut k bits s).power = s.power ∧ (objPut k bits s).calib = s.calib) ∧
    ((objPut k bits s).rst = s.rst ∧ (objPut k bits s).board = s.board) ∧
    ((objPut k bits s).out = s.out ∧ (objPut k bits s).fresh = s.fresh ∧ (objPut k bits s).stamps = s.stamps) := by
  repeat' apply And.intro
  all_goals rfl

/-- `objClear` writes `objs` alone. -/
@[simp] theorem objClear_keeps (k : ObjKey) (s : State) :
    ((objClear k s).pending = s.pending ∧ (objClear k s).host = s.host ∧ (objClear k s).numVfs = s.numVfs ∧ (objClear k s).bar2Size = s.bar2Size ∧ (objClear k s).cox = s.cox) ∧
    ((objClear k s).jobs = s.jobs ∧ (objClear k s).mem = s.mem) ∧
    ((objClear k s).fabric = s.fabric ∧ (objClear k s).rigs = s.rigs ∧ (objClear k s).engines = s.engines ∧ (objClear k s).ves = s.ves ∧ (objClear k s).claims = s.claims) ∧
    ((objClear k s).clock = s.clock ∧ (objClear k s).logs = s.logs ∧ (objClear k s).health = s.health ∧ (objClear k s).healthFlash = s.healthFlash) ∧
    ((objClear k s).sec = s.sec ∧ (objClear k s).power = s.power ∧ (objClear k s).calib = s.calib) ∧
    ((objClear k s).rst = s.rst ∧ (objClear k s).board = s.board) ∧
    ((objClear k s).out = s.out ∧ (objClear k s).fresh = s.fresh ∧ (objClear k s).stamps = s.stamps) := by
  repeat' apply And.intro
  all_goals rfl

/-- `countRsvWrite` writes `logs` alone. -/
@[simp] theorem countRsvWrite_keeps (s : State) :
    ((countRsvWrite s).pending = s.pending ∧ (countRsvWrite s).host = s.host ∧ (countRsvWrite s).numVfs = s.numVfs ∧ (countRsvWrite s).bar2Size = s.bar2Size ∧ (countRsvWrite s).cox = s.cox) ∧
    ((countRsvWrite s).objs = s.objs ∧ (countRsvWrite s).jobs = s.jobs ∧ (countRsvWrite s).mem = s.mem) ∧
    ((countRsvWrite s).fabric = s.fabric ∧ (countRsvWrite s).rigs = s.rigs ∧ (countRsvWrite s).engines = s.engines ∧ (countRsvWrite s).ves = s.ves ∧ (countRsvWrite s).claims = s.claims) ∧
    ((countRsvWrite s).clock = s.clock ∧ (countRsvWrite s).health = s.health ∧ (countRsvWrite s).healthFlash = s.healthFlash) ∧
    ((countRsvWrite s).sec = s.sec ∧ (countRsvWrite s).power = s.power ∧ (countRsvWrite s).calib = s.calib) ∧
    ((countRsvWrite s).rst = s.rst ∧ (countRsvWrite s).board = s.board) ∧
    ((countRsvWrite s).out = s.out ∧ (countRsvWrite s).fresh = s.fresh ∧ (countRsvWrite s).stamps = s.stamps) := by
  repeat' apply And.intro
  all_goals rfl

/-- `countIgnored` writes `logs` alone. -/
@[simp] theorem countIgnored_keeps (s : State) :
    ((countIgnored s).pending = s.pending ∧ (countIgnored s).host = s.host ∧ (countIgnored s).numVfs = s.numVfs ∧ (countIgnored s).bar2Size = s.bar2Size ∧ (countIgnored s).cox = s.cox) ∧
    ((countIgnored s).objs = s.objs ∧ (countIgnored s).jobs = s.jobs ∧ (countIgnored s).mem = s.mem) ∧
    ((countIgnored s).fabric = s.fabric ∧ (countIgnored s).rigs = s.rigs ∧ (countIgnored s).engines = s.engines ∧ (countIgnored s).ves = s.ves ∧ (countIgnored s).claims = s.claims) ∧
    ((countIgnored s).clock = s.clock ∧ (countIgnored s).health = s.health ∧ (countIgnored s).healthFlash = s.healthFlash) ∧
    ((countIgnored s).sec = s.sec ∧ (countIgnored s).power = s.power ∧ (countIgnored s).calib = s.calib) ∧
    ((countIgnored s).rst = s.rst ∧ (countIgnored s).board = s.board) ∧
    ((countIgnored s).out = s.out ∧ (countIgnored s).fresh = s.fresh ∧ (countIgnored s).stamps = s.stamps) := by
  repeat' apply And.intro
  all_goals rfl

/-- `countDpa` writes `logs` alone. -/
@[simp] theorem countDpa_keeps (s : State) :
    ((countDpa s).pending = s.pending ∧ (countDpa s).host = s.host ∧ (countDpa s).numVfs = s.numVfs ∧ (countDpa s).bar2Size = s.bar2Size ∧ (countDpa s).cox = s.cox) ∧
    ((countDpa s).objs = s.objs ∧ (countDpa s).jobs = s.jobs ∧ (countDpa s).mem = s.mem) ∧
    ((countDpa s).fabric = s.fabric ∧ (countDpa s).rigs = s.rigs ∧ (countDpa s).engines = s.engines ∧ (countDpa s).ves = s.ves ∧ (countDpa s).claims = s.claims) ∧
    ((countDpa s).clock = s.clock ∧ (countDpa s).health = s.health ∧ (countDpa s).healthFlash = s.healthFlash) ∧
    ((countDpa s).sec = s.sec ∧ (countDpa s).power = s.power ∧ (countDpa s).calib = s.calib) ∧
    ((countDpa s).rst = s.rst ∧ (countDpa s).board = s.board) ∧
    ((countDpa s).out = s.out ∧ (countDpa s).fresh = s.fresh ∧ (countDpa s).stamps = s.stamps) := by
  repeat' apply And.intro
  all_goals rfl

/-- `draw` writes `fresh` alone, and answers its old value. -/
@[simp] theorem draw_keeps (s : State) :
    (draw s).1 = s.fresh ∧ (draw s).2 = { s with fresh := s.fresh + 1 } := ⟨rfl, rfl⟩

/-! ### Reading back -/

/-- The element that an update of a vector changes (as simp writes the index). -/
@[simp] theorem vmod_get {α : Type} {n : Nat} (v : Vector α n) (i : Fin n) (f : α → α) :
    (vmod v i f)[(i : Nat)] = f v[(i : Nat)] := by
  simp [vmod]

/-- The element that an update of a vector changes. -/
theorem vmod_same {α : Type} {n : Nat} (v : Vector α n) (i : Fin n) (f : α → α) : (vmod v i f)[i] = f v[i] :=
  vmod_get v i f

/-- Every other element. -/
theorem vmod_other {α : Type} {n : Nat} (v : Vector α n) (i j : Fin n) (f : α → α) (h : j ≠ i) : (vmod v i f)[j] = v[j] := by
  have h' : (i : Nat) ≠ j := fun e => h (Fin.ext e.symm)
  simpa [vmod, Vector.getElem_set] using fun e => absurd e h'

/-- The fields of an updated job slot. -/
@[simp] theorem modJob_job (slot : Fin 64) (f : Job → Job) (s : State) :
    (modJob slot f s).jobs[(slot : Nat)] = f s.jobs[(slot : Nat)] := by
  simp [modJob]

/-- Other job slots. -/
theorem modJob_other (slot j : Fin 64) (f : Job → Job) (s : State) (h : j ≠ slot) : (modJob slot f s).jobs[j] = s.jobs[j] :=
  vmod_other _ _ _ _ h

/-- Control state of an updated slot. -/
@[simp] theorem ctl_modCtl (slot : Fin 64) (f : JobCtl → JobCtl) (s : State) : ctl (modCtl slot f s) slot = f (ctl s slot) := by
  simp [ctl, modCtl, modJob]

/-- A port after its update. -/
@[simp] theorem port_modPort (p : Fin 32) (f : Port → Port) (s : State) : port (modPort p f s) p = f (port s p) := by
  simp [port, modPort]

/-- Other ports. -/
theorem port_modPort_other (p q : Fin 32) (f : Port → Port) (s : State) (h : q ≠ p) : port (modPort p f s) q = port s q :=
  vmod_other _ _ _ _ h

/-- A job on a die after its update. -/
@[simp] theorem jobDie_modDie (slot : Fin 64) (die : Fin 4) (f : JobDie → JobDie) (s : State) :
    jobDie (modDie slot die f s) slot die = f (jobDie s slot die) := by
  simp [jobDie, modDie, modTasks, modJob]

/-- A function's BAR0 after its update. -/
@[simp] theorem modHost_same (fn : Fin 65) (f : HostFn → HostFn) (s : State) : (modHost fn f s).host[(fn : Nat)] = f s.host[(fn : Nat)] := by
  simp [modHost]

/-- What the parts of the state become. -/
@[simp] theorem modSec_sec (f : Security → Security) (s : State) : (modSec f s).sec = f s.sec := rfl
@[simp] theorem modCalib_calib (f : Calib → Calib) (s : State) : (modCalib f s).calib = f s.calib := rfl
@[simp] theorem modRst_rst (f : ResetSt → ResetSt) (s : State) : (modRst f s).rst = f s.rst := rfl
@[simp] theorem modBoard_board (f : ModuleSt → ModuleSt) (s : State) : (modBoard f s).board = f s.board := rfl
@[simp] theorem modPower_power (f : Power → Power) (s : State) : (modPower f s).power = f s.power := rfl
@[simp] theorem modClock_clock (f : Clock → Clock) (s : State) : (modClock f s).clock = f s.clock := rfl
@[simp] theorem emit_out (e : OutEvent) (s : State) : (emit e s).out = s.out ++ [e] := rfl

end Sys2Proof.Machine
end

