-- ==== Sys2Proof/Laws/Memory.lean ====
section
/-! SUPPORT. Laws of the sparse tables and of memory: what is read after a write, and that every operation that
writes memory keeps its canonical form. -/

namespace Sys2Proof

section Maps
variable {κ α : Type} [DecidableEq κ]

/-- The value put for a key is the one found for it. -/
@[simp] theorem AMap.find_put_same (m : AMap κ α) (k : κ) (v : α) : AMap.find (AMap.put m k v) k = some v := by
  induction m with
  | nil => simp [AMap.put, AMap.find]
  | cons p rest ih => obtain ⟨k', w⟩ := p; by_cases h : k' = k <;> simp [AMap.put, AMap.find, h, ih]

/-- A put leaves what is found for any other key. -/
theorem AMap.find_put_other (m : AMap κ α) {k k' : κ} (v : α) (h : k' ≠ k) : AMap.find (AMap.put m k v) k' = AMap.find m k' := by
  induction m with
  | nil => simp [AMap.put, AMap.find, h.symm]
  | cons p rest ih =>
    obtain ⟨a, w⟩ := p
    by_cases e : a = k
    · subst e; simp [AMap.put, AMap.find, h.symm]
    · simp [AMap.put, AMap.find, e, ih]

/-- Nothing is found for a key that was taken off. -/
@[simp] theorem AMap.find_del_same (m : AMap κ α) (k : κ) : AMap.find (AMap.del m k) k = none := by
  induction m with
  | nil => rfl
  | cons p rest ih =>
    obtain ⟨a, w⟩ := p
    by_cases e : a = k
    · simpa [AMap.del, e] using ih
    · simpa [AMap.del, AMap.find, e] using ih

/-- Taking a key off leaves what is found for any other. -/
theorem AMap.find_del_other (m : AMap κ α) {k k' : κ} (h : k' ≠ k) : AMap.find (AMap.del m k) k' = AMap.find m k' := by
  induction m with
  | nil => rfl
  | cons p rest ih =>
    obtain ⟨a, w⟩ := p
    by_cases e : a = k
    · subst e; simpa [AMap.del, AMap.find, h.symm] using ih
    · by_cases e' : a = k'
      · subst e'; simp [AMap.del, AMap.find, e]
      · simpa [AMap.del, AMap.find, e, e'] using ih

end Maps

namespace Machine

/-! ### Cells -/

/-- A lower start of a canonical list is one too. -/
theorem cellsOkFrom_mono {m : List Host.Cell} {lo lo' : Nat} (h : lo' ≤ lo) (hm : cellsOkFrom lo m = true) :
    cellsOkFrom lo' m = true := by
  cases m with
  | nil => rfl
  | cons c rest => simp [cellsOkFrom] at hm ⊢; exact ⟨⟨by omega, hm.1.2⟩, hm.2⟩

/-- Below its first address, a canonical list reads as 0. -/
theorem cellGet_below {m : List Host.Cell} {lo a : Nat} (h : cellsOkFrom lo m = true) (ha : a < lo) : cellGet m a = 0 := by
  induction m generalizing lo with
  | nil => rfl
  | cons c rest ih =>
    simp [cellsOkFrom] at h
    have : c.1 ≠ a := by omega
    simp [cellGet, this, ih h.2 (by omega)]

/-- A byte written at `a` keeps the canonical form. -/
theorem cellPut_ok {m : List Host.Cell} {lo a : Nat} (b : Byte) (h : cellsOkFrom lo m = true) (ha : lo ≤ a) :
    cellsOkFrom lo (cellPut m a b) = true := by
  induction m generalizing lo with
  | nil => by_cases hb : b = 0#8 <;> simp [cellPut, cellsOkFrom, hb, ha]
  | cons c rest ih =>
    simp [cellsOkFrom] at h
    obtain ⟨⟨h1, h2⟩, h3⟩ := h
    by_cases hlt : a < c.1
    · by_cases hb : b = 0#8
      · simp [cellPut, hlt, hb, cellsOkFrom, h1, h2, h3]
      · simp [cellPut, hlt, hb, cellsOkFrom, h2, h3, ha]
    · by_cases he : a = c.1
      · by_cases hb : b = 0#8
        · simp only [cellPut, he, hb, if_true, if_false, lt_irrefl]; exact cellsOkFrom_mono (by omega) h3
        · simp [cellPut, he, hb, cellsOkFrom, h1, h3]
      · simp [cellPut, hlt, he, cellsOkFrom, h1, h2, ih h3 (by omega)]

/-- What is read after a byte is written. -/
theorem cellGet_put {m : List Host.Cell} {lo : Nat} (a : Nat) (b : Byte) (h : cellsOkFrom lo m = true) (x : Nat) :
    cellGet (cellPut m a b) x = if x = a then b else cellGet m x := by
  induction m generalizing lo with
  | nil =>
    by_cases hb : b = 0#8
    · subst hb; simp [cellPut, cellGet]
    · by_cases hx : x = a
      · subst hx; simp [cellPut, hb, cellGet]
      · simp [cellPut, hb, cellGet, hx, Ne.symm hx]
  | cons c rest ih =>
    simp [cellsOkFrom] at h
    obtain ⟨⟨h1, h2⟩, h3⟩ := h
    by_cases hlt : a < c.1
    · have hz : cellGet (c :: rest) a = 0 := by
        have : c.1 ≠ a := by omega
        simp [cellGet, this, cellGet_below h3 (show a < c.1 + 1 by omega)]
      by_cases hb : b = 0#8
      · by_cases hx : x = a
        · subst hx; simp [cellPut, hlt, hb, hz]
        · simp [cellPut, hlt, hb, hx]
      · by_cases hx : x = a
        · subst hx; simp [cellPut, hlt, hb, cellGet]
        · simp [cellPut, hlt, hb, hx, Ne.symm hx, cellGet]
    · by_cases he : a = c.1
      · by_cases hb : b = 0#8
        · by_cases hx : x = a
          · subst hx; simp [cellPut, he, hb, cellGet_below h3 (show c.1 < c.1 + 1 by omega)]
          · have : c.1 ≠ x := by omega
            simp [cellPut, he, hb, cellGet, this, show x ≠ c.1 by omega]
        · by_cases hx : x = a
          · subst hx; simp [cellPut, he, hb, cellGet]
          · have : c.1 ≠ x := by omega
            simp [cellPut, he, hb, cellGet, this, show x ≠ c.1 by omega]
      · by_cases hx : c.1 = x
        · subst hx; simp [cellPut, hlt, he, cellGet, Ne.symm he]
        · simp [cellPut, hlt, he, cellGet, hx, ih h3]

/-- Bytes written at ascending addresses keep the canonical form. -/
theorem cellPuts_ok {m : List Host.Cell} {lo : Nat} (bs : List Byte) (a : Nat) (h : cellsOkFrom lo m = true) (ha : lo ≤ a) :
    cellsOkFrom lo (cellPuts m a bs) = true := by
  induction bs generalizing m a with
  | nil => exact h
  | cons b rest ih => exact ih (a + 1) (cellPut_ok b h ha) (by omega)

/-- Cells picked from memory keep the canonical form. -/
theorem cellFilter_ok {m : List Host.Cell} {lo : Nat} (p : Host.Cell → Bool) (h : cellsOkFrom lo m = true) :
    cellsOkFrom lo (m.filter p) = true := by
  induction m generalizing lo with
  | nil => rfl
  | cons c rest ih =>
    simp [cellsOkFrom] at h
    have hr := ih h.2
    rw [List.filter_cons]
    split
    · unfold cellsOkFrom; rw [hr]; simp [h.1.1, h.1.2]
    · exact cellsOkFrom_mono (by omega) hr

/-- A range that is cleared keeps the canonical form. -/
theorem cellClear_ok {m : List Host.Cell} {lo : Nat} (first n : Nat) (h : cellsOkFrom lo m = true) :
    cellsOkFrom lo (cellClear m first n) = true := cellFilter_ok _ h

/-- Cells written one by one keep the canonical form. -/
theorem cellPutAll_ok {m : List Host.Cell} (xs : List Host.Cell) (h : cellsOkFrom 0 m = true) :
    cellsOkFrom 0 (xs.foldl (fun m c => cellPut m c.1 c.2) m) = true := by
  induction xs generalizing m with
  | nil => exact h
  | cons c rest ih => exact ih (cellPut_ok c.2 h (Nat.zero_le _))

/-- What is read after a range is cleared. -/
theorem cellGet_clear (m : List Host.Cell) (first n x : Nat) :
    cellGet (cellClear m first n) x = if first ≤ x ∧ x < first + n then 0 else cellGet m x := by
  induction m with
  | nil => simp [cellClear, cellGet]
  | cons c rest ih =>
    unfold cellClear at ih ⊢
    rw [List.filter_cons]
    by_cases hc : first ≤ c.1 ∧ c.1 < first + n
    · by_cases hx : first ≤ x ∧ x < first + n
      · simp [hc, hx] at ih ⊢; exact ih
      · have : c.1 ≠ x := fun e => hx (e ▸ hc)
        simp [hc, hx, cellGet, this] at ih ⊢; exact ih
    · by_cases he : c.1 = x
      · subst he; simp [hc, cellGet]
      · simp only [hc, decide_false, Bool.not_false, if_true, cellGet, he, if_false]; exact ih

/-! ### Operations of the state -/

/-- The memory of the state after reset is in canonical form. -/
theorem reset_mem_wf : State.reset.mem.wf = true := by decide

/-- An operation that leaves the cells leaves their form. -/
theorem wf_of_cells {s t : State} (h : t.mem.cells = s.mem.cells) (hs : s.mem.wf = true) : t.mem.wf = true := by
  unfold Mem.wf at hs ⊢; rw [h]; exact hs

/-- Storing bytes at an address keeps the canonical form. -/
theorem putSector_wf {s : State} (dpa : Nat) (bs : List Byte) (m : SectorMeta) (h : s.mem.wf = true) :
    (putSector dpa bs m s).mem.wf = true := cellPuts_ok bs dpa h (Nat.zero_le _)

/-- A record for a trace stream leaves memory. -/
theorem trace_mem (scope : Option (Fin 64)) (die : Fin 4) (cls kind payload : Nat) (s : State) :
    (trace scope die cls kind payload s).mem = s.mem := by
  unfold trace queueTrace setStream; split
  · split <;> rfl
  · rfl

/-- A mismatch that is counted leaves the cells. -/
theorem countMismatch_cells (tag : BitVec 16) (dpa : Nat) (s : State) : (countMismatch tag dpa s).mem.cells = s.mem.cells := by
  unfold countMismatch traceMem; split
  · rw [trace_mem]; rfl
  · rfl

/-- Writes that are counted leave memory. -/
theorem countWrites_mem (slot : Fin 64) (va n : Nat) (s : State) : (countWrites slot va n s).mem = s.mem := by
  have h : ∀ die sl e b k t, (pmuCount die sl e b k t).mem = t.mem := fun _ _ _ _ _ _ => by unfold pmuCount; rfl
  unfold countWrites; dsimp only; split
  · rfl
  · rw [h, h]

/-- Lines that are dropped leave the cells. -/
theorem dropLines_cells (slot : Fin 64) (sector : Nat) (s : State) : (dropLines slot sector s).mem.cells = s.mem.cells := rfl

/-- A loop whose body keeps a property keeps it. -/
theorem forEach_keeps {α : Type} {P : State → Prop} (l : List α) (f : α → State → State) (hf : ∀ a s, P s → P (f a s)) (s : State) (h : P s) :
    P (forEach l f s) := by
  unfold forEach
  induction l generalizing s with
  | nil => exact h
  | cons a rest ih => exact ih _ (hf a s h)

/-- A record of a word with a double-bit error leaves the cells. -/
theorem logAsWord_cells (w : Nat) (s : State) : (logAsWord w s).mem.cells = s.mem.cells := by
  unfold logAsWord logError raiseCause fireVector; dsimp only; split
  · rfl
  · split <;> rfl

/-- Records of words with double-bit errors leave the cells. -/
theorem logAsWords_cells (ws : List Nat) (s : State) : (forEach ws logAsWord s).mem.cells = s.mem.cells :=
  forEach_keeps (P := fun t => t.mem.cells = s.mem.cells) _ _ (fun _ _ ht => (logAsWord_cells _ _).trans ht) s rfl

/-- What is recorded of a read of a part leaves the cells. -/
theorem notePart_cells (tag : BitVec 16) (dpa n : Nat) (s : State) : (notePart tag dpa n s).mem.cells = s.mem.cells := by
  unfold notePart; split
  · exact logAsWords_cells _ _
  · exact countMismatch_cells _ _ _

/-- What is recorded of reads of ranges leaves the cells. -/
theorem noteReads_cells (slot : Fin 64) (rs : List (Nat × Nat)) (s : State) : (noteReads slot rs s).mem.cells = s.mem.cells := by
  unfold noteReads
  refine forEach_keeps (P := fun t => t.mem.cells = s.mem.cells) _ _ (fun c t ht => ?_) s rfl
  split
  · exact (notePart_cells _ _ _ _).trans ht
  · exact ht

/-- Storing a part of a sector for a tag keeps the canonical form. -/
theorem storePart_wf {s : State} (tag : BitVec 16) (dpa : Nat) (bs : List Byte) (h : s.mem.wf = true) :
    (storePart tag dpa bs s).mem.wf = true := by
  unfold storePart; dsimp only; split <;> exact putSector_wf _ _ _ h

/-- A write of one part of a sector keeps the canonical form. -/
theorem writePart_wf {s : State} (tag : BitVec 16) (dpa : Nat) (bs : List Byte) (h : s.mem.wf = true) :
    (writePart tag dpa bs s).1.mem.wf = true := by
  unfold writePart
  dsimp only
  split
  · split
    · exact cellPuts_ok bs dpa h (Nat.zero_le _)
    · exact wf_of_cells (logAsWords_cells _ _) h
  · split
    · exact storePart_wf _ _ _ h
    · split
      · exact wf_of_cells (countMismatch_cells _ _ _) h
      · exact storePart_wf _ _ _ h

/-- A job's write keeps the canonical form. -/
theorem jobWrite_wf {s : State} (slot : Fin 64) (va : Nat) (bs : List Byte) (h : s.mem.wf = true) :
    (jobWrite slot va bs s).1.mem.wf = true := by
  unfold jobWrite
  split
  · exact h
  · have key : ∀ (l : List (Nat × Nat)) (acc : State × MStat), acc.1.mem.wf = true →
        (l.foldl (fun (acc : State × MStat) c =>
          (dropLines slot (c.1 / 64) (writePart (jobTag s slot) ((translate s slot c.1 false true).getD 0)
              ((bs.drop (c.1 - va)).take c.2) acc.1).1,
            acc.2.and (writePart (jobTag s slot) ((translate s slot c.1 false true).getD 0)
              ((bs.drop (c.1 - va)).take c.2) acc.1).2)) acc).1.mem.wf = true := by
      intro l
      induction l with
      | nil => exact fun _ ha => ha
      | cons c rest ih => exact fun acc ha => ih _ (wf_of_cells (dropLines_cells _ _ _) (writePart_wf _ _ _ ha))
    exact key _ _ (wf_of_cells (congrArg Mem.cells (countWrites_mem _ _ _ _)) h)

/-- A job's read leaves the cells. -/
theorem jobRead_cells (s : State) (slot : Fin 64) (va len : Nat) : (jobRead s slot va len).2.mem.cells = s.mem.cells := by
  unfold jobRead
  dsimp only
  split
  · exact noteReads_cells _ _ _
  · rfl

/-- Poisoning leaves the cells. -/
theorem jobPoison_cells (slot : Fin 64) (va len : Nat) (s : State) : (jobPoison slot va len s).mem.cells = s.mem.cells := by
  unfold jobPoison
  refine forEach_keeps (P := fun t => t.mem.cells = s.mem.cells) _ _ (fun c t ht => ?_) s rfl
  split
  · exact ht
  · split
    · exact ht
    · exact ht

/-- A read-modify-write keeps the canonical form. -/
theorem jobRmw_wf {s : State} (slot : Fin 64) (va n : Nat) (f : Nat → Nat) (h : s.mem.wf = true) :
    (jobRmw slot va n f s).2.2.mem.wf = true := by
  unfold jobRmw
  split
  · exact h
  · have hr : (jobRead s slot va n).2.mem.wf = true := wf_of_cells (jobRead_cells _ _ _ _) h
    dsimp only
    split
    · exact jobWrite_wf _ _ _ hr
    · exact hr

/-- A scrub of frames keeps the canonical form. -/
theorem scrubFrames_wf {s : State} (r : Nat × Nat) (h : s.mem.wf = true) : (scrubFrames r s).mem.wf = true := cellClear_ok _ _ h

/-- Clearing an Activation Store page keeps the canonical form. -/
theorem zeroAsPage_wf {s : State} (die : Fin 4) (pg : Nat) (h : s.mem.wf = true) : (zeroAsPage die pg s).mem.wf = true :=
  cellClear_ok _ _ h

/-- Restoring a slice of the self-test keeps the canonical form. -/
theorem restoreSlice_wf {s : State} (h : s.mem.wf = true) : (restoreSlice s).mem.wf = true := by
  unfold restoreSlice; split
  · exact h
  · exact cellPutAll_ok _ (cellFilter_ok _ h)

end Machine

end Sys2Proof
end

