-- ==== Sys2Proof/Laws/Ops.lean ====
section
/-! SUPPORT. What each shared operation can change: the parts of the state that it writes, said once. `Changes l s t`
says that `t` differs from `s` in the parts of `l` alone; what an operation leaves is read off by `h .mem (by decide)`. -/

namespace Sys2Proof.Machine

theorem Part.same_refl (p : Part) (s : State) : p.Same s s := by cases p <;> rfl

theorem Part.same_trans {p : Part} {s t u : State} (h : p.Same s t) (g : p.Same t u) : p.Same s u := by
  cases p <;> exact Eq.trans g h

theorem Changes.refl (l : List Part) (s : State) : Changes l s s := fun p _ => p.same_refl s

theorem Changes.trans {l : List Part} {s t u : State} (h : Changes l s t) (g : Changes l t u) : Changes l s u :=
  fun p hp => Part.same_trans (h p hp) (g p hp)

theorem Changes.mono {l l' : List Part} {s t : State} (h : Changes l s t) (hl : l ⊆ l') : Changes l' s t :=
  fun p hp => h p (fun hm => hp (hl hm))

/-- A loop changes what its body changes. -/
theorem Changes.forEach {α : Type} {l : List Part} (xs : List α) (f : α → State → State) (hf : ∀ a s, Changes l s (f a s)) (s : State) :
    Changes l s (forEach xs f s) :=
  forEach_keeps (P := Changes l s) xs f (fun a t ht => ht.trans (hf a t)) s (.refl l s)

/-! ### Updates -/

theorem modJob_changes (slot : Fin 64) (f : Job → Job) (s : State) : Changes [.jobs] s (modJob slot f s) := by
  intro p hp; cases p <;> first | exact absurd (by decide) hp | rfl

theorem modCtl_changes (slot : Fin 64) (f : JobCtl → JobCtl) (s : State) : Changes [.jobs] s (modCtl slot f s) := by
  intro p hp; cases p <;> first | exact absurd (by decide) hp | rfl

theorem modVmt_changes (slot : Fin 64) (f : JobVmt → JobVmt) (s : State) : Changes [.jobs] s (modVmt slot f s) := by
  intro p hp; cases p <;> first | exact absurd (by decide) hp | rfl

theorem modTasks_changes (slot : Fin 64) (f : JobTasks → JobTasks) (s : State) : Changes [.jobs] s (modTasks slot f s) := by
  intro p hp; cases p <;> first | exact absurd (by decide) hp | rfl

theorem modDie_changes (slot : Fin 64) (die : Fin 4) (f : JobDie → JobDie) (s : State) : Changes [.jobs] s (modDie slot die f s) := by
  intro p hp; cases p <;> first | exact absurd (by decide) hp | rfl

theorem modEntry_changes (t : TaskRef) (f : Entry → Entry) (s : State) : Changes [.jobs] s (modEntry t f s) := by
  intro p hp; cases p <;> first | exact absurd (by decide) hp | rfl

theorem modFlow_changes (slot : Fin 64) (peer : BitVec 18) (f : Flow → Flow) (s : State) : Changes [.jobs] s (modFlow slot peer f s) := by
  intro p hp; cases p <;> first | exact absurd (by decide) hp | rfl

theorem modCounts_changes (slot : Fin 64) (f : VmtCounts → VmtCounts) (s : State) : Changes [.jobs] s (modCounts slot f s) := by
  intro p hp; cases p <;> first | exact absurd (by decide) hp | rfl

theorem countHostError_changes (slot : Fin 64) (s : State) : Changes [.jobs] s (countHostError slot s) := by
  intro p hp; cases p <;> first | exact absurd (by decide) hp | rfl

theorem dropEvent_changes (slot : Fin 64) (die : Fin 4) (s : State) : Changes [.jobs] s (dropEvent slot die s) := by
  intro p hp; cases p <;> first | exact absurd (by decide) hp | rfl

theorem modHost_changes (fn : Fin 65) (f : HostFn → HostFn) (s : State) : Changes [.host] s (modHost fn f s) := by
  intro p hp; cases p <;> first | exact absurd (by decide) hp | rfl

theorem modPort_changes (p : Fin 32) (f : Port → Port) (s : State) : Changes [.fabric] s (modPort p f s) := by
  intro p hp; cases p <;> first | exact absurd (by decide) hp | rfl

theorem modPortErr_changes (p : Fin 32) (f : PortErr → PortErr) (s : State) : Changes [.fabric] s (modPortErr p f s) := by
  intro p hp; cases p <;> first | exact absurd (by decide) hp | rfl

theorem dropFrame_changes (p : Fin 32) (s : State) : Changes [.fabric] s (dropFrame p s) := by
  intro p hp; cases p <;> first | exact absurd (by decide) hp | rfl

theorem countRx_changes (p : Fin 32) (s : State) : Changes [.fabric] s (countRx p s) := by
  intro p hp; cases p <;> first | exact absurd (by decide) hp | rfl

theorem freshCredits_changes (p : Fin 32) (s : State) : Changes [.fabric] s (freshCredits p s) := by
  intro p hp; cases p <;> first | exact absurd (by decide) hp | rfl

theorem modStack_changes (k : Fin 20) (f : Stack → Stack) (s : State) : Changes [.mem] s (modStack k f s) := by
  intro p hp; cases p <;> first | exact absurd (by decide) hp | rfl

theorem putSector_changes (dpa : Nat) (bs : List Byte) (m : SectorMeta) (s : State) : Changes [.mem] s (putSector dpa bs m s) := by
  intro p hp; cases p <;> first | exact absurd (by decide) hp | rfl

theorem scrubFrames_changes (r : Nat × Nat) (s : State) : Changes [.mem] s (scrubFrames r s) := by
  intro p hp; cases p <;> first | exact absurd (by decide) hp | rfl

theorem zeroAsPage_changes (die : Fin 4) (pg : Nat) (s : State) : Changes [.mem] s (zeroAsPage die pg s) := by
  intro p hp; cases p <;> first | exact absurd (by decide) hp | rfl

theorem modSec_changes (f : Security → Security) (s : State) : Changes [.sec] s (modSec f s) := by
  intro p hp; cases p <;> first | exact absurd (by decide) hp | rfl

theorem extend_changes (k : Fin 6) (data : List Byte) (s : State) : Changes [.sec] s (extend k data s) := by
  intro p hp; cases p <;> first | exact absurd (by decide) hp | rfl

theorem endSessions_changes (s : State) : Changes [.sec] s (endSessions s) := by
  intro p hp; cases p <;> first | exact absurd (by decide) hp | rfl

theorem modPower_changes (f : Power → Power) (s : State) : Changes [.power] s (modPower f s) := by
  intro p hp; cases p <;> first | exact absurd (by decide) hp | rfl

theorem modClock_changes (f : Clock → Clock) (s : State) : Changes [.clock] s (modClock f s) := by
  intro p hp; cases p <;> first | exact absurd (by decide) hp | rfl

theorem modTime_changes (f : TimeSt → TimeSt) (s : State) : Changes [.clock] s (modTime f s) := by
  intro p hp; cases p <;> first | exact absurd (by decide) hp | rfl

theorem dropTime_changes (s : State) : Changes [.clock] s (dropTime s) := by
  intro p hp; cases p <;> first | exact absurd (by decide) hp | rfl

theorem pmuCount_changes (die : Fin 4) (slot : Option (Fin 64)) (event bit n : Nat) (s : State) : Changes [.clock] s (pmuCount die slot event bit n s) := by
  unfold pmuCount; intro p hp; cases p <;> first | exact absurd (by decide) hp | rfl

theorem modCalib_changes (f : Calib → Calib) (s : State) : Changes [.calib] s (modCalib f s) := by
  intro p hp; cases p <;> first | exact absurd (by decide) hp | rfl

theorem emit_changes (e : OutEvent) (s : State) : Changes [.out] s (emit e s) := by
  intro p hp; cases p <;> first | exact absurd (by decide) hp | rfl

theorem objPut_changes (k : ObjKey) (bits : Nat) (s : State) : Changes [.objs] s (objPut k bits s) := by
  intro p hp; cases p <;> first | exact absurd (by decide) hp | rfl

theorem objClear_changes (k : ObjKey) (s : State) : Changes [.objs] s (objClear k s) := by
  intro p hp; cases p <;> first | exact absurd (by decide) hp | rfl

theorem countRsvWrite_changes (s : State) : Changes [.logs] s (countRsvWrite s) := by
  intro p hp; cases p <;> first | exact absurd (by decide) hp | rfl

theorem countIgnored_changes (s : State) : Changes [.logs] s (countIgnored s) := by
  intro p hp; cases p <;> first | exact absurd (by decide) hp | rfl

theorem countDpa_changes (s : State) : Changes [.logs] s (countDpa s) := by
  intro p hp; cases p <;> first | exact absurd (by decide) hp | rfl

theorem logEvent_changes (code : Byte) (slot : Option (Fin 64)) (unit detail : Nat) (s : State) : Changes [.logs] s (logEvent code slot unit detail s) := by
  intro p hp; cases p <;> first | exact absurd (by decide) hp | rfl

theorem powerEvent_changes (s : State) : Changes [.logs] s (powerEvent s) := by
  intro p hp; cases p <;> first | exact absurd (by decide) hp | rfl

/-! ### Interrupts, logs and replies -/

theorem sendMsix_changes (fn : Fin 65) (v : Nat) (s : State) : Changes [.out] s (sendMsix fn v s) := by
  unfold sendMsix; split
  · exact emit_changes _ _
  · exact .refl _ _

/-- A vector is sent, or its pending bit is set. -/
theorem fireVector_changes (fn : Fin 65) (v : Fin 6) (s : State) : Changes [.host, .out] s (fireVector fn v s) := by
  unfold fireVector; split
  · exact (modHost_changes _ _ _).mono (by decide)
  · exact (sendMsix_changes _ _ _).mono (by decide)

/-- A cause is set, and vector 1 may fire. -/
theorem raiseCause_changes (fn : Fin 65) (c : Nat) (s : State) : Changes [.host, .out] s (raiseCause fn c s) := by
  unfold raiseCause
  have h : Changes [.host, .out] s (modHost fn (fun h => { h with intCause := h.intCause ||| (1#32 <<< c) }) s) := (modHost_changes _ _ _).mono (by decide)
  dsimp only
  split
  · exact h
  · exact h.trans (fireVector_changes _ _ _)

/-- A record is added, and cause 0 of PF0 is raised. -/
theorem logError_changes (code : Byte) (slot : Option (Fin 64)) (unit detail : Nat) (s : State) :
    Changes [.host, .out, .logs] s (logError code slot unit detail s) := by
  refine Changes.trans ?_ ((raiseCause_changes pf0 0 _).mono (by decide))
  intro p hp; cases p <;> first | exact absurd (by decide) hp | rfl

/-- A reply stands in its slot, and vector 0 may fire. -/
theorem writeReply_changes (fn : Fin 65) (mb : Fin 16) (img : BitVec 2048) (final : Bool) (s : State) :
    Changes [.host, .out] s (writeReply fn mb img final s) := by
  have key : ∀ f, Changes [.host, .out] s (if (modHost fn f s).host[fn].irqMask.getLsbD mb.val then modHost fn f s
      else fireVector fn 0 (modHost fn f s)) := fun f => by
    have h : Changes [.host, .out] s (modHost fn f s) := (modHost_changes _ _ _).mono (by decide)
    split
    · exact h
    · exact h.trans (fireVector_changes _ _ _)
  exact key _

/-! ### Trace streams -/

theorem setStream_changes (scope : Option (Fin 64)) (die : Fin 4) (f : Stream → Stream) (s : State) :
    Changes [.jobs, .clock] s (setStream scope die f s) := by
  unfold setStream; split
  · exact (modCtl_changes _ _ _).mono (by decide)
  · intro p hp; cases p <;> first | exact absurd (by decide) hp | rfl

theorem queueTrace_changes (scope : Option (Fin 64)) (die : Fin 4) (kind payload : Nat) (s : State) :
    Changes [.jobs, .clock] s (queueTrace scope die kind payload s) := setStream_changes _ _ _ _

theorem writeBuoy_changes (scope : Option (Fin 64)) (die : Fin 4) (s : State) : Changes [.jobs, .clock] s (writeBuoy scope die s) :=
  queueTrace_changes _ _ _ _ _

/-- A record waits in its stream. -/
theorem trace_changes (scope : Option (Fin 64)) (die : Fin 4) (cls kind payload : Nat) (s : State) :
    Changes [.jobs, .clock] s (trace scope die cls kind payload s) := by
  unfold trace; split
  · exact queueTrace_changes _ _ _ _ _
  · exact .refl _ _

/-- A record of a stream of the device. -/
theorem trace_dev (die : Fin 4) (cls kind payload : Nat) (s : State) : Changes [.clock] s (trace none die cls kind payload s) := by
  unfold trace; split
  · intro p hp; cases p <;> first | exact absurd (by decide) hp | rfl
  · exact .refl _ _

theorem writeBuoy_dev (die : Fin 4) (s : State) : Changes [.clock] s (writeBuoy none die s) := by
  intro p hp; cases p <;> first | exact absurd (by decide) hp | rfl

theorem traceDev_changes (cls kind payload : Nat) (s : State) : Changes [.clock] s (traceDev cls kind payload s) :=
  Changes.forEach _ _ (fun d t => trace_dev d cls kind payload t) s

theorem traceMem_changes (what : Nat) (k : Fin 20) (dpa : Nat) (s : State) : Changes [.clock] s (traceMem what k dpa s) := trace_dev _ _ _ _ _

/-! ### Memory -/

theorem countMismatch_changes (tag : BitVec 16) (dpa : Nat) (s : State) : Changes [.mem, .clock] s (countMismatch tag dpa s) := by
  unfold countMismatch; split
  · exact ((modStack_changes _ _ _).mono (by decide)).trans ((traceMem_changes _ _ _ _).mono (by decide))
  · exact .refl _ _

/-- A word with a double-bit error is recorded. -/
theorem logAsWord_changes (w : Nat) (s : State) : Changes [.host, .out, .logs] s (logAsWord w s) := logError_changes _ _ _ _ _

/-- What the controllers record of a read of a part. -/
theorem notePart_changes (tag : BitVec 16) (dpa n : Nat) (s : State) : Changes [.mem, .clock, .host, .out, .logs] s (notePart tag dpa n s) := by
  unfold notePart; split
  · exact Changes.forEach _ _ (fun w t => (logAsWord_changes w t).mono (by decide)) s
  · exact (countMismatch_changes _ _ _).mono (by decide)

theorem noteReads_changes (slot : Fin 64) (rs : List (Nat × Nat)) (s : State) :
    Changes [.mem, .clock, .host, .out, .logs] s (noteReads slot rs s) := by
  unfold noteReads
  exact Changes.forEach _ _ (fun c t => by
    split
    · exact notePart_changes _ _ _ _
    · exact .refl _ _) s

theorem dropCopies_changes (dpa : Nat) (s : State) : Changes [.mem] s (dropCopies dpa s) := by
  intro p hp; cases p <;> first | exact absurd (by decide) hp | rfl

theorem storePart_changes (tag : BitVec 16) (dpa : Nat) (bs : List Byte) (s : State) : Changes [.mem] s (storePart tag dpa bs s) := by
  unfold storePart; dsimp only; split <;> exact putSector_changes _ _ _ _

theorem dropLines_changes (slot : Fin 64) (sector : Nat) (s : State) : Changes [.jobs, .mem] s (dropLines slot sector s) := by
  intro p hp; cases p <;> first | exact absurd (by decide) hp | rfl

theorem writePart_changes (tag : BitVec 16) (dpa : Nat) (bs : List Byte) (s : State) :
    Changes [.mem, .clock, .host, .out, .logs] s (writePart tag dpa bs s).1 := by
  have w : ∀ b, Changes [.mem, .clock, .host, .out, .logs] s (storePart tag dpa b s) := fun b => (storePart_changes _ _ _ _).mono (by decide)
  unfold writePart
  dsimp only
  split
  · split
    · intro p hp; cases p <;> first | exact absurd (by decide) hp | rfl
    · exact Changes.forEach _ _ (fun w t => (logAsWord_changes w t).mono (by decide)) s
  · split
    · exact w _
    · split
      · exact (countMismatch_changes _ _ _).mono (by decide)
      · exact w _

/-- The sectors of a write are counted. -/
theorem countWrites_changes (slot : Fin 64) (va n : Nat) (s : State) : Changes [.clock] s (countWrites slot va n s) := by
  unfold countWrites; dsimp only; split
  · exact .refl _ _
  · exact (pmuCount_changes _ _ _ _ _ _).trans (pmuCount_changes _ _ _ _ _ _)

/-- A job's write changes memory and the reservations of its cores; one that meets a word with a double-bit error is recorded. -/
theorem jobWrite_changes (slot : Fin 64) (va : Nat) (bs : List Byte) (s : State) : Changes [.jobs, .mem, .clock, .host, .out, .logs] s (jobWrite slot va bs s).1 := by
  unfold jobWrite
  split
  · exact .refl _ _
  · have key : ∀ (l : List (Nat × Nat)) (acc : State × MStat), Changes [.jobs, .mem, .clock, .host, .out, .logs] s acc.1 →
        Changes [.jobs, .mem, .clock, .host, .out, .logs] s (l.foldl (fun (acc : State × MStat) c =>
          (dropLines slot (c.1 / 64) (writePart (jobTag s slot) ((translate s slot c.1 false true).getD 0)
              ((bs.drop (c.1 - va)).take c.2) acc.1).1,
            acc.2.and (writePart (jobTag s slot) ((translate s slot c.1 false true).getD 0)
              ((bs.drop (c.1 - va)).take c.2) acc.1).2)) acc).1 := by
      intro l
      induction l with
      | nil => exact fun _ ha => ha
      | cons c rest ih =>
        exact fun acc ha => ih _ ((ha.trans ((writePart_changes _ _ _ _).mono (by decide))).trans ((dropLines_changes _ _ _).mono (by decide)))
    exact key _ _ ((countWrites_changes _ _ _ _).mono (by decide))

/-- A write of an unmapped range is BOUND and changes nothing (R277). -/
theorem jobWrite_bound {s : State} {slot : Fin 64} {va : Nat} {bs : List Byte} (h : mapped s slot va bs.length false true = false) :
    jobWrite slot va bs s = (s, .bound) := by
  simp [jobWrite, h]

/-- A job's read changes what the controllers record of it. -/
theorem jobRead_changes (s : State) (slot : Fin 64) (va len : Nat) : Changes [.mem, .clock, .host, .out, .logs] s (jobRead s slot va len).2 := by
  unfold jobRead; dsimp only; split
  · exact noteReads_changes _ _ _
  · exact .refl _ _

/-- What a job's read answers. -/
theorem jobRead_peek (s : State) (slot : Fin 64) (va len : Nat) : (jobRead s slot va len).1 = peek s slot va len := rfl

theorem jobPoison_changes (slot : Fin 64) (va len : Nat) (s : State) : Changes [.jobs, .mem, .clock, .host, .out, .logs] s (jobPoison slot va len s) :=
  Changes.forEach _ _ (fun c t => by
    split
    · exact .refl _ _
    · split
      · intro p hp; cases p <;> first | exact absurd (by decide) hp | rfl
      · intro p hp; cases p <;> first | exact absurd (by decide) hp | rfl) s

theorem jobRmw_changes (slot : Fin 64) (va n : Nat) (f : Nat → Nat) (s : State) : Changes [.jobs, .mem, .clock, .host, .out, .logs] s (jobRmw slot va n f s).2.2 := by
  unfold jobRmw
  split
  · exact .refl _ _
  · have h : Changes [.jobs, .mem, .clock, .host, .out, .logs] s (jobRead s slot va n).2 := (jobRead_changes _ _ _ _).mono (by decide)
    dsimp only
    split
    · exact h.trans (jobWrite_changes _ _ _ _)
    · exact h

theorem addCounter_changes (slot : Fin 64) (n : Nat) (s : State) : Changes [.jobs, .mem, .clock, .host, .out, .logs] s (addCounter slot n s).1 :=
  jobRmw_changes _ _ _ _ _

/-! ### Records of jobs, streams and queues -/

/-- A job slot changes its state: the JOB event, and the interrupts of R545. -/
theorem setJob_changes (slot : Fin 64) (st : JobState) (s : State) : Changes [.jobs, .logs, .host, .out] s (setJob slot st s) := by
  have h : Changes [.jobs, .logs, .host, .out] s
      (logEvent 0x0B (some slot) st.code (ctl (modCtl slot (fun c => { c with st := st, since := s.clock.now }) s) slot).tearCause.toNat
        (modCtl slot (fun c => { c with st := st, since := s.clock.now }) s)) :=
    ((modCtl_changes _ _ _).mono (by decide)).trans ((logEvent_changes _ _ _ _ _).mono (by decide))
  have r : ∀ fn c t, Changes [.jobs, .logs, .host, .out] t (raiseCause fn c t) := fun fn c t => (raiseCause_changes fn c t).mono (by decide)
  unfold setJob
  cases st with
  | paused => dsimp only; split
              · exact (h.trans (r _ _ _)).trans (r _ _ _)
              · exact h.trans (r _ _ _)
  | torn => exact (h.trans (r _ _ _)).trans (r _ _ _)
  | _ => exact h

/-- The slot is in the state it was put into. -/
theorem setJob_st (slot : Fin 64) (st : JobState) (s : State) : jobSt (setJob slot st s) slot = st := by
  have key : ∀ t, Changes [.logs, .host, .out] (modCtl slot (fun c => { c with st := st, since := s.clock.now }) s) t → jobSt t slot = st := by
    intro t ht
    have hj : t.jobs = _ := ht .jobs (by decide)
    simp [jobSt, hj, modCtl, modJob]
  have hl := (logEvent_changes 0x0B (some slot) st.code (ctl (modCtl slot (fun c => { c with st := st, since := s.clock.now }) s) slot).tearCause.toNat
    (modCtl slot (fun c => { c with st := st, since := s.clock.now }) s)).mono (l' := [.logs, .host, .out]) (by decide)
  have r : ∀ fn c t, Changes [.logs, .host, .out] t (raiseCause fn c t) := fun fn c t => (raiseCause_changes fn c t).mono (by decide)
  unfold setJob
  cases st with
  | paused => dsimp only; split
              · exact key _ ((hl.trans (r _ _ _)).trans (r _ _ _))
              · exact key _ (hl.trans (r _ _ _))
  | torn => exact key _ ((hl.trans (r _ _ _)).trans (r _ _ _))
  | _ => exact key _ hl

/-! ### Trace records that are written -/

/-- A record is written to job memory, or by DMA. -/
theorem putTrace_changes (scope : Option (Fin 64)) (die : Fin 4) (r : TraceRec) (s : State) :
    Changes [.jobs, .mem, .clock, .host, .out, .logs, .fresh] s (putTrace scope die r s).1 := by
  have hs : ∀ sc f t, Changes [.jobs, .mem, .clock, .host, .out, .logs, .fresh] t (setStream sc die f t) := fun sc f t => (setStream_changes sc die f t).mono (by decide)
  unfold putTrace
  cases scope with
  | none =>
    have hd : Changes [.jobs, .mem, .clock, .host, .out, .logs, .fresh] s (draw s).2 := by
      intro p hp; cases p <;> first | exact absurd (by decide) hp | rfl
    dsimp only
    split
    · exact hd
    · exact (hd.trans ((emit_changes _ _).mono (by decide))).trans (hs _ _ _)
  | some k =>
    have hw : ∀ a b, Changes [.jobs, .mem, .clock, .host, .out, .logs, .fresh] s (jobWrite k a b s).1 := fun a b => (jobWrite_changes k a b s).mono (by decide)
    dsimp only
    split
    · exact (hw _ _).trans (hs _ _ _)
    · exact hw _ _

theorem putBuoy_changes (scope : Option (Fin 64)) (die : Fin 4) (r : TraceRec) (s : State) :
    Changes [.jobs, .mem, .clock, .host, .out, .logs, .fresh] s (putBuoy scope die r s) :=
  (putTrace_changes _ _ _ _).trans ((setStream_changes _ _ _ _).mono (by decide))

/-- A record that waited is written, behind a buoy when one is due, or lost. -/
theorem drainRec_changes (scope : Option (Fin 64)) (die : Fin 4) (r : TraceRec) (s : State) :
    Changes [.jobs, .mem, .clock, .host, .out, .logs, .fresh] s (drainRec scope die r s) := by
  have key : ∀ t, Changes [.jobs, .mem, .clock, .host, .out, .logs, .fresh] t
      (if (putTrace scope die r t).2 then (putTrace scope die r t).1 else setStream scope die Stream.lose (putTrace scope die r t).1) := by
    intro t; split
    · exact putTrace_changes _ _ _ _
    · exact (putTrace_changes _ _ _ _).trans ((setStream_changes _ _ _ _).mono (by decide))
  unfold drainRec
  split
  · exact putBuoy_changes _ _ _ _
  · dsimp only
    split
    · exact (putBuoy_changes _ _ _ _).trans (key _)
    · exact key _

/-- The records of every stream are written. -/
theorem drainTraces_changes (s : State) : Changes [.jobs, .mem, .clock, .host, .out, .logs, .fresh] s (drainTraces s) := by
  refine Changes.forEach _ _ (fun sc t => Changes.forEach _ _ (fun d u => ?_) t) s
  unfold drainStream
  split
  · exact .refl _ _
  · exact ((setStream_changes _ _ _ _).mono (by decide)).trans (Changes.forEach _ _ (fun r v => drainRec_changes sc d r v) _)

theorem fireQueue_changes (slot : Fin 64) (die : Fin 4) (s : State) : Changes [.jobs, .host, .out] s (fireQueue slot die s) := by
  unfold fireQueue; split
  · exact ((modDie_changes _ _ _ _).mono (by decide)).trans ((fireVector_changes _ _ _).mono (by decide))
  · exact .refl _ _

/-- An event record: its queue in the job's memory, or its count of lost records. -/
theorem event_changes (slot : Fin 64) (die : Fin 4) (r : EvRec) (s : State) : Changes [.jobs, .mem, .clock, .host, .out, .logs] s (event slot die r s) := by
  have d : ∀ t, Changes [.jobs, .mem, .clock, .host, .out, .logs] t (dropEvent slot die t) := fun t => (dropEvent_changes slot die t).mono (by decide)
  have w : ∀ a b, Changes [.jobs, .mem, .clock, .host, .out, .logs] s (jobWrite slot a b s).1 := fun a b => (jobWrite_changes slot a b s).mono (by decide)
  unfold event
  dsimp only
  split
  · exact .refl _ _
  · split
    · exact d s
    · split
      · exact ((w _ _).trans ((modDie_changes _ _ _ _).mono (by decide))).trans ((fireQueue_changes _ _ _).mono (by decide))
      · exact (w _ _).trans (d _)

/-! ### Frames -/

theorem freeHeld_changes (f : QueuedFrame) (s : State) : Changes [.fabric] s (freeHeld f s) := by
  unfold freeHeld; split
  · exact .refl _ _
  · exact modPort_changes _ _ _

/-- A frame is counted and sent; a packet of a job of the device takes its transmit count. -/
theorem emitFrame_changes (p : Fin 32) (f : QueuedFrame) (s : State) : Changes [.jobs, .fabric, .out] s (emitFrame p f s) := by
  have g : Changes [.jobs, .fabric, .out] s (modPortErr p (fun e => { e with framesTx := e.framesTx + 1 }) s) := (modPortErr_changes _ _ _).mono (by decide)
  have e : ∀ v t, Changes [.jobs, .fabric, .out] t (emit v t) := fun v t => (emit_changes v t).mono (by decide)
  have m : ∀ k h t, Changes [.jobs, .fabric, .out] t (modVmt k h t) := fun k h t => (modVmt_changes k h t).mono (by decide)
  unfold emitFrame
  dsimp only
  split
  · split
    · exact .refl _ _
    · exact (g.trans (m _ _ _)).trans (e _ _)
  · exact g.trans (e _ _)
  · exact g.trans (e _ _)

theorem putFrame_changes (p : Fin 32) (f : QueuedFrame) (s : State) : Changes [.jobs, .fabric, .out] s (putFrame p f s) := by
  have e : ∀ t, Changes [.jobs, .fabric, .out] t (freeHeld f (emitFrame p f t)) :=
    fun t => (emitFrame_changes _ _ _).trans ((freeHeld_changes _ _).mono (by decide))
  unfold putFrame
  dsimp only
  split
  · exact ((modPort_changes _ _ _).mono (by decide)).trans (e _)
  · exact e _

theorem drainN_changes (p : Fin 32) (n : Nat) (s : State) : Changes [.jobs, .fabric, .out] s (drainN p n s) := by
  induction n generalizing s with
  | zero => exact .refl _ _
  | succ n ih =>
    unfold drainN
    split
    · exact .refl _ _
    · exact (((modPort_changes _ _ _).mono (by decide)).trans (putFrame_changes _ _ _)).trans (ih _)

theorem drainPort_changes (p : Fin 32) (s : State) : Changes [.jobs, .fabric, .out] s (drainPort p s) := drainN_changes _ _ _

theorem enqueue_changes (p : Fin 32) (f : QueuedFrame) (s : State) : Changes [.jobs, .fabric, .out] s (enqueue p f s) :=
  ((modPort_changes _ _ _).mono (by decide)).trans (drainPort_changes _ _)

theorem flushQueue_changes (p : Fin 32) (s : State) : Changes [.fabric] s (flushQueue p s) :=
  (modPort_changes _ _ _).trans (Changes.forEach _ _ (fun f t => freeHeld_changes f t) _)

theorem sendTo_changes (p : Fin 32) (k : FrameKind) (data : List Nat) (dst : BitVec 18) (path : Nat) (s : State) :
    Changes [.jobs, .fabric, .out] s (sendTo p k data dst path s) := by
  unfold sendTo; dsimp only; split
  · exact enqueue_changes _ _ _
  · exact emitFrame_changes _ _ _

theorem sendOther_changes (p : Fin 32) (k : FrameKind) (data : List Nat) (s : State) : Changes [.jobs, .fabric, .out] s (sendOther p k data s) :=
  sendTo_changes _ _ _ _ _ _

/-- A MGMT frame takes the next send counter; without a key, or with a partner that has not passed discovery, none is sent. -/
theorem sendMgmtOn_changes (p : Fin 32) (k : FrameKind) (dst : BitVec 18) (path : Nat) (body : List Byte) (s : State) :
    Changes [.jobs, .fabric, .sec, .out] s (sendMgmtOn p k dst path body s) := by
  unfold sendMgmtOn; split
  · exact .refl _ _
  · refine Changes.trans ?_ ((sendTo_changes _ _ _ _ _ _).mono (by decide))
    intro q hq; cases q <;> first | exact absurd (by decide) hq | rfl

theorem freeRx_changes (p : Fin 32) (vl : BitVec 3) (transit : Bool) (bytes : Nat) (s : State) :
    Changes [.fabric] s (freeRx p vl transit bytes s) := by
  unfold freeRx; split
  · exact modPort_changes _ _ _
  · exact .refl _ _

theorem consumeFrame_changes (p : Fin 32) (k : FrameKind) (fields : Nat) (s : State) : Changes [.fabric] s (consumeFrame p k fields s) :=
  freeRx_changes _ _ _ _ _

theorem clearLink_changes (p : Fin 32) (s : State) : Changes [.fabric] s (clearLink p s) :=
  (flushQueue_changes _ _).trans (modPort_changes _ _ _)

/-! ### Replies by MGMT, running commands -/

/-- A reply leaves in a MGMT frame. -/
theorem mgmtReply_changes (p : Fin 32) (dst : BitVec 18) (img : BitVec 2048) (s : State) :
    Changes [.jobs, .fabric, .sec, .out] s (mgmtReply p dst img s) :=
  sendMgmtOn_changes _ _ _ _ _ _

theorem answer_changes (fn : Fin 65) (mb : Fin 16) (mgmt : Option (Fin 32 × BitVec 18)) (img : BitVec 2048) (final : Bool) (s : State) :
    Changes [.jobs, .host, .fabric, .sec, .out] s (answer fn mb mgmt img final s) := by
  unfold answer; split
  · exact (mgmtReply_changes _ _ _ _).mono (by decide)
  · exact (writeReply_changes _ _ _ _ _).mono (by decide)

/-- A running command leaves the list and replies. -/
theorem finishBg_changes (c : BgCmd) (b : ReplyBody) (s : State) : Changes [.jobs, .host, .cox, .fabric, .sec, .out] s (finishBg c b s) := by
  refine Changes.trans ?_ ((answer_changes _ _ _ _ _ _).mono (by decide))
  intro p hp; cases p <;> first | exact absurd (by decide) hp | rfl

theorem finishAll_changes (f : BgCmd → Bool) (b : ReplyBody) (s : State) : Changes [.jobs, .host, .cox, .fabric, .sec, .out] s (finishAll f b s) :=
  Changes.forEach _ _ (fun c t => finishBg_changes c b t) s

/-! ### Ports -/

/-- The records and the interrupt of a port's change. -/
theorem portChange_changes (p : Fin 32) (old new : PortState) (reason : BitVec 4) (s : State) :
    Changes [.clock, .logs, .host, .out] s (portChange p old new reason s) := by
  unfold portChange; split
  · exact .refl _ _
  · exact (((logEvent_changes _ _ _ _ _).mono (by decide)).trans ((traceDev_changes _ _ _ _).mono (by decide))).trans
      ((raiseCause_changes _ _ _).mono (by decide))

/-- The records and the interrupt of a lane's event. -/
theorem laneEvent_changes (p : Fin 32) (step : Nat) (failed : Bool) (op : Nat) (s : State) :
    Changes [.clock, .logs, .host, .out] s (laneEvent p step failed op s) :=
  (((logEvent_changes _ _ _ _ _).mono (by decide)).trans ((traceDev_changes _ _ _ _).mono (by decide))).trans
    ((raiseCause_changes _ _ _).mono (by decide))

/-- A swap that comes to nothing is recorded, and LANE replies. -/
theorem dropSwap_changes (p : Fin 32) (status : BitVec 8) (s : State) :
    Changes [.jobs, .fabric, .clock, .logs, .host, .cox, .sec, .out] s (dropSwap p status s) := by
  unfold dropSwap
  split
  · exact .refl _ _
  · exact (((modPort_changes _ _ _).mono (by decide)).trans ((laneEvent_changes _ _ _ _ _).mono (by decide))).trans
      ((finishAll_changes _ _ _).mono (by decide))

theorem countMove_changes (slot : Fin 64) (peer : BitVec 18) (o : Outstanding) (new : Nat) (s : State) :
    Changes [.jobs, .clock] s (countMove slot peer o new s) := by
  unfold countMove; split
  · exact .refl _ _
  · exact ((modCounts_changes _ _ _).mono (by decide)).trans (trace_changes _ _ _ _ _ _)

theorem modOut_changes (slot : Fin 64) (peer : BitVec 18) (seq : BitVec 32) (f : Outstanding → Outstanding) (s : State) :
    Changes [.jobs] s (modOut slot peer seq f s) := modFlow_changes _ _ _ _

/-- The move of requests whose paths are withdrawn leaves ports, routes and counters of the device. -/
theorem withdraw_changes (s : State) : Changes [.jobs, .clock] s (withdraw s) := by
  have one : ∀ i peer o t, Changes [.jobs, .clock] t (withdrawOne i peer o t) := by
    intro i peer o t
    unfold withdrawOne
    dsimp only
    split
    · exact .refl _ _
    · split
      · exact (countMove_changes _ _ _ _ _).trans ((modOut_changes _ _ _ _ _).mono (by decide))
      · exact .refl _ _
  have two : ∀ i (f : BitVec 18 × Flow) t,
      Changes [.jobs, .clock] t (forEach f.2.out (fun o st => withdrawOne i f.1 o st) t) :=
    fun i f t => Changes.forEach f.2.out (fun o st => withdrawOne i f.1 o st) (fun o t => one i f.1 o t) t
  unfold withdraw
  refine Changes.forEach allSlots _ (fun i t => ?_) s
  exact Changes.forEach t.jobs[i].vmt.flows _ (fun f u => two i f u) t

/-- What a port's change of state writes before the moves of its requests. -/
def setPortLink (p : Fin 32) (st : PortState) (reason : BitVec 4) (s : State) : State :=
  let u := if st.live then (if (port s p).st.live then s else freshCredits p s) else clearLink p (dropSwap p stTIMEOUT s)
  modPort p (fun q => { q with st := st, reason := reason, since := u.clock.now }) u

theorem setPortLink_changes (p : Fin 32) (st : PortState) (reason : BitVec 4) (s : State) :
    Changes [.jobs, .fabric, .clock, .logs, .host, .cox, .sec, .out] s (setPortLink p st reason s) := by
  refine Changes.trans ?_ ((modPort_changes _ _ _).mono (by decide))
  split
  · split
    · exact .refl _ _
    · exact (freshCredits_changes _ _).mono (by decide)
  · exact (dropSwap_changes _ _ _).trans ((clearLink_changes _ _).mono (by decide))

theorem setPort_eq (p : Fin 32) (st : PortState) (reason : BitVec 4) (s : State) :
    setPort p st reason s = portChange p (port s p).st st reason
      (if (port s p).st.live && !st.live then withdraw (setPortLink p st reason s) else setPortLink p st reason s) := by
  unfold setPort setPortLink
  cases st <;> rfl

/-- A port's state: its link, the records of the change, and the LANE command of a swap that comes to nothing; the requests
move when the port leaves UP and DEMOTED. -/
theorem setPort_changes (p : Fin 32) (st : PortState) (reason : BitVec 4) (s : State) :
    Changes [.jobs, .fabric, .clock, .logs, .host, .cox, .sec, .out] s (setPort p st reason s) := by
  have link := setPortLink_changes p st reason s
  rw [setPort_eq]
  split
  · exact (link.trans ((withdraw_changes _).mono (by decide))).trans ((portChange_changes _ _ _ _ _).mono (by decide))
  · exact link.trans ((portChange_changes _ _ _ _ _).mono (by decide))

/-! ### Measurements, sessions and power -/

theorem extendDebug_changes (level : Nat) (token : List Byte) (s : State) : Changes [.sec] s (extendDebug level token s) := extend_changes _ _ _

/-- Cores that were halted run again. -/
theorem resumeCores_changes (slot : Option (Fin 64)) (s : State) : Changes [.jobs, .rigs] s (resumeCores slot s) := by
  have h := Changes.forEach (l := [.jobs, .rigs]) (allSlots.filter (fun i => slot.all (· == i)))
    (fun i st => forEach allDies (fun d st => modDie i d (fun k => { k with regs := { k.regs with halted := false } }) st) st)
    (fun i t => Changes.forEach _ _ (fun d u => (modDie_changes i d _ u).mono (by decide)) t) s
  unfold resumeCores
  refine h.trans ?_
  intro p hp; cases p <;> first | exact absurd (by decide) hp | rfl

theorem resumeAll_changes (s : State) : Changes [.jobs, .rigs, .cox] s (resumeAll s) := by
  have h : ∀ t : State, Changes [.jobs, .rigs, .cox] t { t with cox := { t.cox with halted := false } } := fun t => by
    intro p hp; cases p <;> first | exact absurd (by decide) hp | rfl
  exact ((resumeCores_changes none s).mono (by decide)).trans (h _)

theorem closeD2_changes (slot : Fin 64) (s : State) : Changes [.sec, .logs, .jobs, .rigs] s (closeD2 slot s) := by
  unfold closeD2; split
  · exact .refl _ _
  · exact ((((modSec_changes _ _).mono (by decide)).trans ((resumeCores_changes _ _).mono (by decide))).trans
      ((extendDebug_changes _ _ _).mono (by decide))).trans ((logEvent_changes _ _ _ _ _).mono (by decide))

theorem closeAllD2_changes (s : State) : Changes [.sec, .logs, .jobs, .rigs] s (closeAllD2 s) := Changes.forEach _ _ (fun d t => closeD2_changes d t) s

theorem closeDebug_changes (s : State) : Changes [.sec, .logs, .jobs, .rigs, .cox] s (closeDebug s) := by
  unfold closeDebug
  split
  · exact .refl _ _
  · dsimp only
    refine Changes.trans ?_ ((logEvent_changes _ _ _ _ _).mono (by decide))
    refine Changes.trans ?_ ((extendDebug_changes _ _ _).mono (by decide))
    refine Changes.trans ?_ ((endSessions_changes _).mono (by decide))
    refine Changes.trans ?_ ((modSec_changes _ _).mono (by decide))
    split
    · exact (resumeAll_changes s).mono (by decide)
    · exact .refl _ _

theorem powerChange_changes (s : State) : Changes [.board, .logs] s (powerChange s) := by
  refine Changes.trans ?_ ((powerEvent_changes _).mono (by decide))
  intro p hp; cases p <;> first | exact absurd (by decide) hp | rfl

theorem setPower_changes (m : PowerMode) (s : State) : Changes [.power, .board, .logs] s (setPower m s) :=
  ((modPower_changes _ _).mono (by decide)).trans ((powerChange_changes _).mono (by decide))

/-! ### Mailboxes -/

/-- A write to BAR0 of a function that does not answer changes nothing (R541). -/
theorem bar0_closed {s : State} {fn : Fin 65} {ide : Bool} (f : State → State) (h : boxOpen s fn = false) : bar0 fn ide f s = s := by
  simp [bar0, h]

/-- A write to BAR0 of a function that answers has its effect. -/
theorem bar0_open {s : State} {fn : Fin 65} {ide : Bool} (f : State → State) (h : boxOpen s fn = true)
    (hl : ∀ i, slotOfFn fn = some i → hostLocked s i ide = false) : bar0 fn ide f s = f s := by
  unfold bar0
  simp only [h, Bool.not_true, Bool.false_eq_true, if_false]
  cases hs : slotOfFn fn with
  | none => rfl
  | some i => simp [hl i hs]

/-- A doorbell of a busy slot is counted and ignored (R543). -/
theorem ring_busy {s : State} {fn : Fin 65} {mb : Fin 16} (dma : IndBuf) (hp : s.rst.phase = .loader → mb = 0)
    (h : s.host[fn].busy.getLsbD mb.val = true) :
    ring fn mb dma s = modHost fn (fun h => { h with dbIgnored := satInc16 h.dbIgnored 1 }) s := by
  have h1 : (decide (s.rst.phase = .loader) && mb != 0) = false := by
    by_cases hl : s.rst.phase = .loader <;> simp [hl, hp]
  unfold ring
  rw [if_neg (by simpa using h1), if_pos h]

/-- A slot that is not busy is taken when no changeover runs (R546). -/
theorem ring_take {s : State} {fn : Fin 65} {mb : Fin 16} (dma : IndBuf) (hp : s.rst.phase = .loader → mb = 0)
    (h : s.host[fn].busy.getLsbD mb.val = false) (hc : s.cox.change = none) (hh : s.cox.halted = false) :
    ring fn mb dma s = takeSlot fn mb dma s := by
  have h1 : (decide (s.rst.phase = .loader) && mb != 0) = false := by
    by_cases hl : s.rst.phase = .loader <;> simp [hl, hp]
  unfold ring
  rw [if_neg (by simpa using h1), if_neg (by rw [h]; simp), if_neg (by rw [hh]; simp), hc]

end Sys2Proof.Machine
end

