-- ==== Sys2Proof/Machine/FunctionTables.lean ====
section
/-! DEFINITION. What the spec states of the built-in function tables (spec/04_vector_engines.md R155): the exact functions and
the bounds of their error, as propositions about `builtin`. The tables themselves are a constant with no body: a claim that
needs the bound takes `TablesAccurate` as a premise (notes/assumptions/38). -/

namespace Sys2Proof.Machine

/-- The real number that a dyadic number stands for. -/
def Dy.IsReal (d : Dy) (r : ℝ) : Prop := r = (d.m : ℝ) * (2 : ℝ) ^ d.e

/-- `y` is the error function at `x`. -/
def IsErf (x y : ℝ) : Prop := y = 2 / Real.sqrt Real.pi * ∫ t in (0 : ℝ)..x, Real.exp (-(t ^ 2))

/-- `y` is the normal distribution function at `x`. -/
def IsPhi (x y : ℝ) : Prop := ∃ e, IsErf (x / Real.sqrt 2) e ∧ y = (1 + e) / 2

/-- `y` is 1 / (1 + e^−x). -/
def IsSigma (x y : ℝ) : Prop := y = 1 / (1 + Real.exp (-x))

/-- Where a built-in function is defined among the reals (R155). -/
def InDomain (slot : Nat) (deriv : Bool) (x : ℝ) : Prop :=
  match slot, deriv with
  | 1, false => 0 < x
  | 1, true => x ≠ 0
  | 2, _ => x ≠ 0
  | 3, _ => 0 < x
  | 4, false => 0 ≤ x
  | 4, true => 0 < x
  | 11, false => -1 < x
  | 11, true => x ≠ -1
  | _, _ => True

/-- `y` is the exact value of a built-in function, or of its derivative, at `x` (R155). -/
def IsExact (slot : Nat) (deriv : Bool) (x y : ℝ) : Prop :=
  match slot, deriv with
  | 0, _ => y = Real.exp x
  | 1, false => y = Real.log x
  | 1, true => y = 1 / x
  | 2, false => y = 1 / x
  | 2, true => y = -1 / x ^ 2
  | 3, false => y = 1 / Real.sqrt x
  | 3, true => y = -1 / (2 * (x * Real.sqrt x))
  | 4, false => y = Real.sqrt x
  | 4, true => y = 1 / (2 * Real.sqrt x)
  | 5, false => y = Real.tanh x
  | 5, true => y = 1 - Real.tanh x ^ 2
  | 6, false => IsSigma x y
  | 6, true => ∃ g, IsSigma x g ∧ y = g * (1 - g)
  | 7, false => ∃ g, IsSigma x g ∧ y = x * g
  | 7, true => ∃ g, IsSigma x g ∧ y = g * (1 + x * (1 - g))
  | 8, false => ∃ p, IsPhi x p ∧ y = x * p
  | 8, true => ∃ p, IsPhi x p ∧ y = p + x * (Real.exp (-(x ^ 2) / 2) / Real.sqrt (2 * Real.pi))
  | 9, false => y = Real.log (1 + Real.exp x)
  | 9, true => IsSigma x y
  | 10, false => IsErf x y
  | 10, true => y = 2 / Real.sqrt Real.pi * Real.exp (-(x ^ 2))
  | 11, false => y = Real.log (1 + x)
  | 11, true => y = 1 / (1 + x)
  | _, _ => False

/-- Bound of a table's error in units of the last place of the result (R155). -/
def boundUlps (slot : Nat) (deriv : Bool) : Nat :=
  if 5 ≤ slot && slot ≤ 10 then (if deriv then 8 else 4)
  else if (slot = 2 || slot = 3 || slot = 4) && !deriv then 1
  else 2

/-- Bound of a table's error as an absolute error, as a power of two (R155). -/
def boundAbs (slot : Nat) (deriv : Bool) : Option Int :=
  if 5 ≤ slot && slot ≤ 10 then some (if deriv then -20 else -22) else none

/-- Unit in the last place of a binary32 value, as a power of two. -/
def ulpExp (v : Val) : Int :=
  match v with
  | .fin d => max d.floorLog2 (-126) - 23
  | _ => -149

/-- The error of a result `v` against the exact `y` is within the table's bound: of the two measures, the larger one counts. -/
def WithinBound (slot : Nat) (deriv : Bool) (v : F32) (y : ℝ) : Prop :=
  (f32val v).nonfinite = false ∧ ∃ z, (f32val v).dy.IsReal z ∧
    (|z - y| ≤ (boundUlps slot deriv : ℝ) * (2 : ℝ) ^ ulpExp (f32val v) ∨ ∃ k, boundAbs slot deriv = some k ∧ |z - y| ≤ (2 : ℝ) ^ k)

/-- What R155 states of the built-in tables: at every finite argument of a function's domain whose exact value lies within
the finite binary32 numbers, the result is within the bound. -/
def TablesAccurate : Prop :=
  ∀ (slot : Nat) (deriv : Bool) (x : F32) (r y : ℝ), slot ≤ 11 → (f32val x).nonfinite = false → (f32val x).dy.IsReal r →
    InDomain slot deriv r → IsExact slot deriv r y → |y| ≤ (2 ^ 24 - 1) * (2 : ℝ) ^ (104 : Int) →
    WithinBound slot deriv (builtin slot deriv x) y

end Sys2Proof.Machine
end

