-- ==== Sys2Proof/WellFormed.lean ====
section
/-! DEFINITION. Operands that can come with a command: sizes that the spec fixes for what a bus, a link or a sensor
delivers. A meaning is total on any operands. -/

namespace Sys2Proof

/-- The payload of a VMT packet is at most 4,096 bytes (R340). -/
def Arrival.wf (a : Arrival) : Bool := decide (a.pkt.payload.length ≤ 4096)

/-- A strap code of the 12-bit converter, and a restart count of the health record (R600, R640). -/
def BootEnv.wf (b : BootEnv) : Bool := decide (b.strapCode < 4096) && decide (b.restarts < 16)

/-- An aligned 32-bit write within BAR0, or a byte write of the SMBus port (R540, R650). -/
def regWf (bus : RegBus) (offset : Nat) (value : BitVec 32) : Bool :=
  match bus with
  | .bar0 _ _ => decide (offset % 4 = 0 ∧ offset < 0x10000)
  | .smbus _ => decide (offset < 256 ∧ value.toNat < 256)

/-- A request of one sector (R278). -/
def sectorWf (addr n : Nat) : Bool := decide (0 < n ∧ addr % 64 + n ≤ 64)

/-- A request of one Activation Store word (R290). -/
def wordWf (addr n : Nat) : Bool := decide (0 < n ∧ addr % 8 + n ≤ 8)

/-- A decoder produces 64 bytes (R284). -/
def eccWf (e : SectorEcc) : Bool :=
  match e with
  | .miscorrected _ d => d.length == 64
  | .undetected _ d => d.length == 64
  | _ => true

/-- Operands of a command are such as can come. -/
def Instr.wf (i : Instr) : Bool :=
  match i with
  | .unlorVersion _ => true
  | .unlorGet _ => true
  | .unlorSet _ => true
  | .setTime _ => true
  | .pmuTriggerArm _ => true
  | .unlorReservedOpcode _ _ => true
  | .jobCreate _ => true
  | .jobAttest _ => true
  | .jobKey _ => true
  | .jobReady _ => true
  | .jobStart _ => true
  | .jobPause _ => true
  | .jobResume _ => true
  | .taskReset _ => true
  | .jobSeal _ => true
  | .jobTear _ => true
  | .jobFree _ => true
  | .scrubComplete _ => true
  | .frameGrant _ => true
  | .frameRevoke _ => true
  | .frameScrubComplete _ => true
  | .jobMap _ => true
  | .jobUnmap _ => true
  | .asGrant _ => true
  | .routeLoad _ => true
  | .laneSwap _ => true
  | .laneSwapBack _ => true
  | .laneRetrain _ => true
  | .linkClear _ => true
  | .meFenceFence _ => true
  | .meFenceReturn _ => true
  | .engineTestDone _ _ => true
  | .lcProvision _ => true
  | .lcDeploy _ => true
  | .lcHold _ => true
  | .lcRetire _ => true
  | .opMgmtKey _ => true
  | .fwCommit _ => true
  | .dbgOpen _ => true
  | .dbgClose _ => true
  | .pwrSetRun _ => true
  | .pwrSetHold _ => true
  | .pwrHoldTimeout => true
  | .pwrSetRest _ => true
  | .pwrSetOff _ => true
  | .fwLoad _ => true
  | .fwChangeover _ => true
  | .changeoverQuiesced => true
  | .quiesceTimeout => true
  | .changeoverReady => true
  | .incomingReadyTimeout _ => true
  | .tally _ => true
  | .logRead _ => true
  | .devReset _ => true
  | .devResetStart => true
  | .mbDoorbell _ _ dma => decide (dma.length ≤ 16)
  | .mbIrqClear _ _ => true
  | .intCauseClear _ _ => true
  | .dbSq _ _ _ => true
  | .dbEq _ _ _ => true
  | .registerWrite bus offset value => regWf bus offset value
  | .bar2Read _ _ len _ => decide (0 < len ∧ len ≤ 4096)
  | .bar2Write _ _ data _ => decide (0 < data.length ∧ data.length ≤ 512)
  | .vfFlr _ => true
  | .pf0Flr => true
  | .pcieHotReset => true
  | .numvfsLower _ => true
  | .tdispLeaveRun _ _ => true
  | .getVersion _ _ => true
  | .getCapabilities _ _ => true
  | .negotiateAlgorithms _ _ => true
  | .getDigests _ _ => true
  | .getCertificate _ _ => true
  | .spdmChallenge _ _ => true
  | .getMeasurements _ _ => true
  | .keyExchange _ _ => true
  | .spdmFinish _ _ _ => true
  | .endSession _ _ _ => true
  | .spdmHeartbeat _ _ _ => true
  | .spdmUnsupportedRequest _ _ _ => true
  | .admitDescriptor _ _ => true
  | .decrement _ _ _ => true
  | .taskRelease _ _ _ => true
  | .taskComplete _ _ _ => true
  | .routineStart _ _ => true
  | .riggerProgramStart _ _ _ _ => true
  | .budgetExpiry _ => true
  | .waitTimeout _ _ _ => true
  | .tsubmit _ _ _ _ => true
  | .tpatch _ _ _ _ => true
  | .tskip _ _ _ => true
  | .trearm _ _ _ _ => true
  | .tdone _ _ => true
  | .sld _ _ _ => true
  | .sst _ _ _ => true
  | .blkq _ _ _ _ => true
  | .blkx _ _ _ => true
  | .sortkv _ _ _ => true
  | .hist _ _ _ => true
  | .psum _ _ _ _ => true
  | .nnzb _ _ _ _ => true
  | .lapp _ _ _ _ => true
  | .hpmCsrRead _ _ _ => true
  | .rv64Instruction _ => true
  | .matrixUnitStart _ _ _ _ => true
  | .tileLoaded _ => true
  | .unitPassesEnd _ => true
  | .ksplitCombine _ => true
  | .residueCheckFail _ => true
  | .spareTestDone _ _ => true
  | .vectorInstanceStart _ _ _ _ => true
  | .pairedInstanceStart _ => true
  | .landingGroupLand _ => true
  | .tld _ _ => true
  | .tst _ _ => true
  | .tsts _ _ => true
  | .tmov _ _ => true
  | .tbcast _ _ => true
  | .trowb _ _ => true
  | .tcolb _ _ => true
  | .tadd _ _ => true
  | .tsub _ _ => true
  | .tmul _ _ => true
  | .tfma _ _ => true
  | .tmin _ _ => true
  | .tmax _ _ => true
  | .tdiv _ _ => true
  | .tsqrt _ _ => true
  | .tiadd _ _ => true
  | .tcmp _ _ => true
  | .mop _ _ => true
  | .mpop _ _ => true
  | .tfunc _ _ => true
  | .tldft _ _ => true
  | .trsum _ _ => true
  | .trmax _ _ => true
  | .tcsum _ _ => true
  | .tcmax _ _ => true
  | .tcomp _ _ => true
  | .texpd _ _ => true
  | .topk _ _ => true
  | .topkx _ _ => true
  | .topkrd _ _ => true
  | .lwait _ _ => true
  | .lrel _ _ => true
  | .wopen _ _ => true
  | .wloss _ _ => true
  | .wclose _ _ => true
  | .wverd _ _ => true
  | .vLoop _ _ => true
  | .sadd _ _ => true
  | .vEnd _ _ => true
  | .vectorUndefinedOpcode _ _ => true
  | .memoryRead r ecc => sectorWf r.addr r.len && eccWf ecc
  | .memoryWrite r data ecc => sectorWf r.addr data.length && eccWf ecc
  | .asAccess r write _ => wordWf r.addr (match write with | some b => b.length | none => r.len)
  | .prefetchFetch _ _ => true
  | .patrolScrub _ _ ecc _ => eccWf ecc
  | .stackRecalibration _ _ => true
  | .migrationStart _ => true
  | .granuleMigrate _ _ => true
  | .stashTileArrive _ _ _ _ vals => vals.length == 2048
  | .segmentStart _ _ _ => true
  | .subtileUpdate _ _ _ _ _ => true
  | .collInit _ => true
  | .collReduce _ => true
  | .collRing _ => true
  | .ringStageSend _ => true
  | .collClose _ => true
  | .bucketDeadline _ _ _ => true
  | .collUpdate _ => true
  | .collGather _ => true
  | .collPermute _ => true
  | .moveEntryStart _ _ => true
  | .exDispatch _ => true
  | .exCombine _ => true
  | .exRdispatch _ => true
  | .exRcombine _ => true
  | .countMessage _ _ _ => true
  | .grantMessage _ _ _ => true
  | .exchDeadline _ => true
  | .copyPut _ => true
  | .copyGet _ => true
  | .copyAtomic _ => true
  | .copySignal _ => true
  | .copyFence _ => true
  | .flowRequestIssue _ _ => true
  | .vmtLoad a => a.wf
  | .vmtStore a => a.wf
  | .vmtAtomic a => a.wf
  | .vmtAccumulate a => a.wf
  | .vmtSignal a => a.wf
  | .vmtReservedOpcode _ a => a.wf
  | .vmtResp a => a.wf
  | .vmtRefuse a => a.wf
  | .vmtAck a => a.wf
  | .ackSend _ _ => true
  | .retransmitTimeout _ _ _ => true
  | .busyResend _ _ _ => true
  | .replyCacheExpiry _ _ _ => true
  | .holdExpiry _ _ _ => true
  | .portSignalDetect _ => true
  | .trainingComplete _ => true
  | .trainingTimeout _ => true
  | .portLost _ => true
  | .portSilenceTimeout _ => true
  | .helloReceive _ _ => true
  | .proofReceive _ _ => true
  | .helloResend _ => true
  | .discoveryTimeout _ => true
  | .quarantineRetry _ => true
  | .lldpTimer _ => true
  | .lldpReceive _ _ => true
  | .creditFrame _ freed => freed.length == 16
  | .creditFrameSend _ => true
  | .creditStallTimeout _ _ => true
  | .promoteTimeout _ => true
  | .dampReuse _ => true
  | .pfcFrame _ _ _ => true
  | .relayFrame a _ => a.wf
  | .neighborSolicitation _ _ _ => true
  | .mgmtFrame _ _ => true
  | .linkctlSwap _ _ _ => true
  | .linkctlAccept _ _ _ _ => true
  | .swapMarker _ _ => true
  | .laneSwapTimeout _ => true
  | .autoSpareTrigger _ => true
  | .congestionDecay => true
  | .syncReceive _ _ => true
  | .followUpReceive _ _ => true
  | .announceReceive _ _ => true
  | .pdelayMessage _ _ => true
  | .delayRespReceive _ _ => true
  | .syncTransmit => true
  | .syncLossTimeout => true
  | .buoyTimer => true
  | .triggerFire _ => true
  | .debugExpiry _ => true
  | .powerMeasure _ temps => temps.length == 32
  | .divisorDecision => true
  | .divisorApply => true
  | .smbWake => true
  | .smbAlertClear _ => true
  | .tapInstruction _ => true
  | .vinRise _ => true
  | .undervoltageWarning _ => true
  | .inputLost _ => true
  | .rstNAssert => true
  | .rstNRelease b => b.wf
  | .wrstNAssert => true
  | .wrstNRelease => true
  | .coxWatchdogExpiry _ => true
  | .criticalStateError _ _ => true
  | .clockFault _ b => b.wf
  | .umpireSecurityReset b => b.wf
  | .thermalTrip _ => true
  | .thermalHoldEnd => true
  | .coxBlockReset _ => true
  | .backgroundWorkEnd _ _ => true
  | .refclkStable b => b.wf
  | .numvfsRaise _ => true
  | .ideKmRequest _ _ _ _ => true
  | .tdispRequest _ _ _ => true
  | .delayRequestTransmit _ => true

end Sys2Proof
end

