-- ==== Sys2Proof/Tests/Slice0.lean ====
section
/-! SUPPORT. Tests: an ill-formed term for each check of well-formedness; for each statement a concrete state and
operands that meet its hypotheses; and single steps. -/

set_option Elab.async false

namespace Sys2Proof.Tests

open Sys2Proof Sys2Proof.Machine

/-! ### States and commands -/

/-- PF0 has negotiated 5.2, and two virtual functions are enabled. -/
def booted : State := modHost 0 (fun h => { h with version := some 2 }) { State.reset with numVfs := 2 }

/-- Job slot 0 in a state, under incarnation 1. -/
def jobIn (st : JobState) : State := modCtl 0 (fun c => { c with st := st, incarnation := 1 }) booted

/-- A command that PF0 writes into slot 0. -/
def hostCmd (handle len : Nat) (payload : Nat) : HostCmd :=
  { fn := 0, mb := 0, ide := true, seq := 7, handle := BitVec.ofNat 16 handle, length := BitVec.ofNat 16 len, ind := false, indAddr := 0, indLen := 0,
    rsv := 0, payload := BitVec.ofNat 1792 payload, dma := ⟨[], true, none⟩ }

/-- The same with an indirect buffer. -/
def bulkCmd (handle len payload indLen : Nat) (data : List Byte) : HostCmd :=
  { hostCmd handle len payload with ind := true, indAddr := 4096, indLen := BitVec.ofNat 32 indLen, dma := ⟨data, true, none⟩ }

/-- What the witnesses conclude: a command answers a next state. -/
def Goes (i : Instr) (s : State) : Prop := ∃ t, exec i s = .next t

theorem goes {i : Instr} {s : State} {P : State → Prop} (h : Completes i s P) : Goes i s := h.imp (fun _ x => x.1)

theorem taken {c : HostCmd} {s : State} (h1 : boxOpen s c.fn = true ∧ s.rst.phase = .running)
    (h2 : slotOfFn c.fn = none) (h3 : s.host[c.fn].busy.getLsbD c.mb.val = false ∧ s.cox.change = none ∧ s.cox.halted = false) : Taken c s :=
  ⟨h1.1, (fun h => absurd (h1.2.symm.trans h) (by decide)), (fun i h => absurd (h2.symm.trans h) (by simp)), h3.1, h3.2⟩

theorem accepts {op : BitVec 16} {c : HostCmd} {s : State} (h1 : boxOpen s c.fn = true ∧ s.rst.phase = .running)
    (h2 : slotOfFn c.fn = none) (h3 : s.host[c.fn].busy.getLsbD c.mb.val = false ∧ s.cox.change = none ∧ s.cox.halted = false)
    (h4 : preCheck s (sent op c) = none) : Accepts op c s :=
  ⟨taken h1 h2 h3, h4, (fun h => absurd (h1.2.symm.trans h) (by decide))⟩

/-! ### Witnesses: the block -/

theorem witness_StepRunsTheFrontCommand (h : Obligations.StepRunsTheFrontCommand) :
    step { State.reset with pending := [.buoyTimer] } = exec .buoyTimer State.reset := h _ [] _ rfl

/-- A trigger of the operator that is armed for the next tick. -/
def armedNext : State := { State.reset with clock := { State.reset.clock with trigger := { Trigger.reset with armed := true, at_ := 1 } } }

theorem quiet_reset : Quiet State.reset := by
  refine ⟨?_, ?_, ?_, ?_, ?_, ?_, (fun b hb => absurd hb (List.not_mem_nil)), ?_⟩ <;> decide +kernel

theorem witness_EmptyQueueIsOneTick (h : Obligations.EmptyQueueIsOneTick) : Runs State.reset ∧ Runs armedNext :=
  ⟨⟨_, h.1 State.reset rfl rfl (by decide) quiet_reset⟩, (h.2 armedNext rfl rfl (by decide) quiet_reset rfl rfl).imp (fun _ x => x.1)⟩

theorem witness_EveryStepKeepsTheInvariant (h : Obligations.EveryStepKeepsTheInvariant) (t : State)
    (ht : step State.reset = .next t) : t.Inv := h _ _ (by unfold State.Inv; decide) ht

theorem witness_MemoryOperationsKeepCanonicalForm (h : Obligations.MemoryOperationsKeepCanonicalForm) :
    (jobWrite 0 0 [1] State.reset).1.mem.wf = true := (h State.reset rfl).1 0 0 [1]

/-- A job with one mapped frame at address 0. -/
def mappedJob : State :=
  modCtl 0 (fun c => { c with grants := [(5, 1)], pages := [{ va := 0, frame := 5, big := false, r := true, w := true }] }) (jobIn .running)

theorem witness_BytesAndJobsReadBackWhatWasWritten (h : Obligations.BytesAndJobsReadBackWhatWasWritten) :
    (∃ t, writePart 1 4096 [7, 0, 9] State.reset = (t, .ok) ∧ readPart t 1 4096 3 = ([7, 0, 9], false)) ∧
    (∃ t, jobWrite 0 64 [1, 0, 3] mappedJob = (t, .ok) ∧ peek t 0 64 3 = ⟨[1, 0, 3], .ok⟩) :=
  have e1 : writePart 1 4096 [7, 0, 9] State.reset = ((writePart 1 4096 [7, 0, 9] State.reset).1, .ok) := Prod.ext rfl (by decide +kernel)
  have e2 : jobWrite 0 64 [1, 0, 3] mappedJob = ((jobWrite 0 64 [1, 0, 3] mappedJob).1, .ok) := Prod.ext rfl (by decide +kernel)
  ⟨⟨_, e1, (h.1 State.reset _ 1 4096 [7, 0, 9] rfl (by decide) (by decide) e1).1⟩,
   ⟨_, e2, h.2 mappedJob _ 0 64 [1, 0, 3] rfl (by decide) (by decide) (by decide +kernel) (by decide +kernel) e2⟩⟩

theorem witness_MailboxWordsHoldEveryField (h : Obligations.MailboxWordsHoldEveryField) :
    fld (replyImage booted 2 7 1 ⟨stOK, 8, 0, 0, 99⟩).toNat 31 16 = 7 :=
  (h.2 booted 2 7 1 ⟨stOK, 8, 0, 0, 99⟩ (by decide) (by decide) (by decide)).2.1

theorem witness_RefusedCommandsChangeNoJob (h : Obligations.RefusedCommandsChangeNoJob) :
    Goes (.unlorGet (hostCmd 0 8 0x40)) { State.reset with numVfs := 2 } ∧ Goes (.unlorReservedOpcode 9 (hostCmd 0 0 0)) booted :=
  ⟨goes (h.1 (.unlorGet (hostCmd 0 8 0x40)) 2 (hostCmd 0 8 0x40) { State.reset with numVfs := 2 } (.of stVERSION) rfl
      (taken (by decide) rfl (by decide)) (by decide +kernel)),
   goes (h.2 9 (hostCmd 0 0 0) booted (taken (by decide) rfl (by decide)) rfl rfl)⟩

/-! ### Witnesses: versions and objects -/

/-- The payload of a SET: object, instance 0, generation and value. -/
def setPayload (id gen v : Nat) : Nat := id + gen <<< 32 + v <<< 64

theorem witness_VersionAndGetReply (h : Obligations.VersionAndGetReply) :
    Goes (.unlorVersion (hostCmd 0 8 (0x0500 <<< 32 + 0x0501 <<< 48))) State.reset ∧ Goes (.unlorGet (hostCmd 0 8 0x30)) booted := by
  refine ⟨goes (h.1 (hostCmd 0 8 (0x0500 <<< 32 + 0x0501 <<< 48)) State.reset 1 (accepts ?_ rfl ?_ ?_) ?_ ?_ ?_ ?_ (fun k a b => ?_)),
   goes (h.2 (hostCmd 0 8 0x30) booted (accepts ?_ rfl ?_ ?_) ?_ ?_ ?_ ?_ rfl ?_)⟩ <;>
  first | decide +kernel | (obtain rfl : k = 2 := (by omega); decide +kernel)

/-- OBJ_VMT_CFG as after reset with 64 retries of 20 µs. -/
def vmtCfg : Nat := 0x14 <<< 56 + 5 <<< 53 + 0x03E8 <<< 32 + 0x0800 <<< 16 + 0x07D0

theorem witness_SetStoresTheWritableFields (h : Obligations.SetStoresTheWritableFields) :
    Goes (.unlorSet (hostCmd 0 (8 + objSize booted 0x30 0) (setPayload 0x30 0 vmtCfg))) booted := by
  refine goes (h (hostCmd 0 (8 + objSize booted 0x30 0) (setPayload 0x30 0 vmtCfg)) booted (accepts ?_ rfl ?_ ?_) ?_ ?_ ?_
    rfl ?_ ?_ ?_ ?_ ?_) <;> decide +kernel

/-- OBJ_TIME of a grandmaster with a time. -/
def timeObj : Nat := 0x3E8 <<< 320 + 0xC <<< 244 + 2 <<< 256 + 5000 <<< 512

theorem witness_SetTimeAndArmTrigger (h : Obligations.SetTimeAndArmTrigger) :
    Goes (.setTime (hostCmd 0 (8 + objSize booted 0x40 0) (setPayload 0 0xFFFFFFFF timeObj))) booted ∧
    Goes (.pmuTriggerArm (hostCmd 0 (8 + objSize booted 0x43 0) (setPayload 0 0xFFFFFFFF (1 + 900 <<< 64)))) booted := by
  refine ⟨goes (h.1 (hostCmd 0 (8 + objSize booted 0x40 0) (setPayload 0 0xFFFFFFFF timeObj)) booted
      (accepts ?_ ?_ ?_ ?_) ?_ ?_ ?_ ?_ ?_ ?_ ?_),
   goes (h.2 (hostCmd 0 (8 + objSize booted 0x43 0) (setPayload 0 0xFFFFFFFF (1 + 900 <<< 64))) booted
      (accepts ?_ ?_ ?_ ?_) ?_ ?_ ?_ ?_ ?_ ?_ ?_ ?_)⟩ <;> decide +kernel

/-! ### Witnesses: jobs -/

theorem witness_JobCreateTakesAnEmptySlot (h : Obligations.JobCreateTakesAnEmptySlot) :
    Goes (.jobCreate (hostCmd 0 8 1)) booted ∧ Goes (.jobReady (hostCmd 0 0 0)) booted := by
  refine ⟨goes (h.1 (hostCmd 0 8 1) booted 1 (accepts ?_ rfl ?_ ?_) ?_ ?_ ?_ ?_ ?_),
   goes (h.2 (hostCmd 0 0 0) booted (taken ?_ rfl ?_) rfl rfl rfl rfl rfl rfl)⟩ <;> decide +kernel

/-- A CREATED job of a DEPLOYED device that holds an ephemeral key. -/
def eph0 : Ephemeral := { scalar := 0, nonce := [], report := [] }
def keyState : State :=
  { jobIn .created with
    sec := { State.reset.sec with lifecycle := .deployed, eph := State.reset.sec.eph.set 0 (some eph0) },
    clock := { State.reset.clock with t := { State.reset.clock.t with st := .free } } }

/-- Whether a bundle opens, and to what, is the cryptography's: an assumption here. -/
theorem witness_JobAttestAndKeyFillTheSlot (h : Obligations.JobAttestAndKeyFillTheSlot)
    (hv : unwrap ((sent 0x0012 (hostCmd 1 216 5)).pl 1727 0) 104 (sent 0x0012 (hostCmd 1 216 5)).slot.val
      (ctl keyState (sent 0x0012 (hostCmd 1 216 5)).slot).incarnation.toNat eph0 = some 0) :
    Goes (.jobAttest (bulkCmd 1 32 77 384 [])) (jobIn .created) ∧ Goes (.jobKey (hostCmd 1 216 5)) keyState := by
  refine ⟨goes (h.1 (bulkCmd 1 32 77 384 []) (jobIn .created) (accepts ?_ rfl ?_ ?_) ?_ rfl ?_ ?_ ?_ rfl),
   goes (h.2 (hostCmd 1 216 5) keyState eph0 0 (accepts ?_ rfl ?_ ?_) rfl ?_ ?_ ?_ hv ?_ ?_ ?_ ?_ ?_)⟩ <;> decide +kernel

theorem witness_ReadyStartPauseResumeMoveTheJob (h : Obligations.ReadyStartPauseResumeMoveTheJob) :
    Goes (.jobReady (hostCmd 1 0 0)) (jobIn .keyed) ∧ Goes (.jobStart (hostCmd 1 0 0)) (jobIn .ready) ∧
    Goes (.jobResume (hostCmd 1 0 0)) (jobIn .paused) ∧ Goes (.jobPause (hostCmd 1 0 0)) (jobIn .running) ∧
    Goes (.jobPause (hostCmd 1 0 0)) (jobIn .paused) := by
  refine ⟨goes (h.1.1 (hostCmd 1 0 0) (jobIn .keyed) (accepts ?_ rfl ?_ ?_) ?_),
   goes (h.1.2.1 (hostCmd 1 0 0) (jobIn .ready) (accepts ?_ rfl ?_ ?_) ?_ ?_ ?_ ?_ ?_),
   goes (h.1.2.2 (hostCmd 1 0 0) (jobIn .paused) (accepts ?_ rfl ?_ ?_) ?_ ?_ ?_ ?_ ?_),
   goes (h.2.1 (hostCmd 1 0 0) (jobIn .running) (accepts ?_ rfl ?_ ?_) ?_ ?_ ?_ ?_ ?_),
   goes (h.2.2 (hostCmd 1 0 0) (jobIn .paused) (accepts ?_ rfl ?_ ?_) ?_)⟩ <;> decide +kernel

theorem witness_ResetSealAndTearActOnTheJob (h : Obligations.ResetSealAndTearActOnTheJob) :
    Goes (.taskReset (hostCmd 1 8 15)) (jobIn .paused) ∧ Goes (.jobSeal (hostCmd 1 8 9)) (jobIn .running) ∧
    Goes (.jobTear (hostCmd 1 0 0)) (jobIn .draining) := by
  refine ⟨goes (h.1.1 (hostCmd 1 8 15) (jobIn .paused) (accepts ?_ rfl ?_ ?_) ?_ ?_ ?_),
   goes (h.1.2 (hostCmd 1 8 9) (jobIn .running) (accepts ?_ rfl ?_ ?_) ?_),
   goes (h.2 (hostCmd 1 0 0) (jobIn .draining) (accepts ?_ rfl ?_ ?_) ?_ ?_ ?_)⟩ <;> decide +kernel

theorem witness_FreeAndScrubEmptyTheSlot (h : Obligations.FreeAndScrubEmptyTheSlot) :
    Goes (.jobFree (hostCmd 1 0 0)) (jobIn .torn) ∧ Goes (.scrubComplete 0) (jobIn .scrubbing) := by
  refine ⟨goes (h.1 (hostCmd 1 0 0) (jobIn .torn) (accepts ?_ rfl ?_ ?_) ?_),
   goes (h.2 0 (jobIn .scrubbing) ?_)⟩ <;> decide +kernel

/-- Frames 4 and 5 granted to job 0, READY, or in revocation. -/
def grantedJob : State := modCtl 0 (fun c => { c with grants := [(4, 2)] }) (jobIn .ready)
def revokingJob : State := modCtl 0 (fun c => { c with revoking := [(4, 2)] }) (jobIn .ready)

theorem witness_FramesAreGrantedRevokedAndScrubbed (h : Obligations.FramesAreGrantedRevokedAndScrubbed) :
    Goes (.frameGrant (hostCmd 1 24 (8 <<< 32 + 2 <<< 64))) (jobIn .ready) ∧ Goes (.frameRevoke (hostCmd 1 24 (5 <<< 32 + 1 <<< 64))) grantedJob ∧
    Goes (.frameScrubComplete 0) revokingJob := by
  refine ⟨goes (h.1 (hostCmd 1 24 (8 <<< 32 + 2 <<< 64)) (jobIn .ready) (accepts ?_ rfl ?_ ?_) ?_ ?_ ?_ ?_ ?_ ?_ ?_),
   goes (h.2.1 (hostCmd 1 24 (5 <<< 32 + 1 <<< 64)) grantedJob (accepts ?_ rfl ?_ ?_) ?_ ?_ ?_ ?_ ?_ ?_ ?_),
   goes (h.2.2 0 revokingJob (4, 2) [] rfl ?_)⟩ <;> decide +kernel

/-- One frame of job 0 mapped at the bottom of its addresses, PAUSED. -/
def pausedMapped : State :=
  modCtl 0 (fun c => { c with grants := [(5, 1)], pages := [{ va := 0, frame := 5, big := false, r := true, w := true }] }) (jobIn .paused)

/-- A virtual function's own command. -/
def vfCmd (handle len payload : Nat) : HostCmd := { hostCmd handle len payload with fn := 1 }
def vfBooted (s : State) : State := modHost 1 (fun h => { h with version := some 2 }) s

theorem vfAccepts {op : BitVec 16} {c : HostCmd} {s : State} (h1 : boxOpen s c.fn = true ∧ s.rst.phase = .running)
    (h2 : ∀ i : Fin 64, hostLocked s i c.ide = false) (h3 : s.host[c.fn].busy.getLsbD c.mb.val = false ∧ s.cox.change = none ∧ s.cox.halted = false)
    (h4 : preCheck s (sent op c) = none) : Accepts op c s :=
  ⟨⟨h1.1, (fun h => absurd (h1.2.symm.trans h) (by decide)), (fun i _ => h2 i), h3.1, h3.2⟩, h4, (fun h => absurd (h1.2.symm.trans h) (by decide))⟩

theorem witness_MapUnmapAndAsGrantChangeTheJobsMemory (h : Obligations.MapUnmapAndAsGrantChangeTheJobsMemory) :
    Goes (.jobMap (vfCmd 1 24 (8 + 16 + 4 <<< 32 + 2 <<< 64 + 0x40000000 <<< 96))) (vfBooted grantedJob) ∧
    Goes (.jobUnmap (vfCmd 1 24 (1 <<< 64))) (vfBooted pausedMapped) ∧ Goes (.asGrant (hostCmd 1 8 (3 + 7 <<< 36))) (jobIn .paused) := by
  refine ⟨goes (h.1 (vfCmd 1 24 (8 + 16 + 4 <<< 32 + 2 <<< 64 + 0x40000000 <<< 96)) (vfBooted grantedJob)
     (vfAccepts ?_ ?_ ?_ ?_) ?_ ?_ ?_ ?_ ?_ ?_ ?_ ?_ (fun hb => absurd hb (by decide +kernel)) ?_ ?_ ?_ ?_ ?_),
   goes (h.2.1 (vfCmd 1 24 (1 <<< 64)) (vfBooted pausedMapped) (vfAccepts ?_ ?_ ?_ ?_) ?_ ?_ ?_ ?_ ?_ ?_ ?_ ?_ ?_ ?_ ?_ ?_ ?_),
   goes (h.2.2 (hostCmd 1 8 (3 + 7 <<< 36)) (jobIn .paused) (accepts ?_ rfl ?_ ?_) ?_ ?_ ?_ ?_)⟩ <;> decide +kernel

/-! ### Witnesses: routes, lanes, engines -/

/-- A command of PF0 that runs with a piece of work. -/
def running (op : BitVec 16) (w : BgWork) : BgCmd :=
  { fn := 0, mb := 0, seq := 7, opcode := op, handle := 0, indLen := 0, indAddr := 0, payload := 0, dma := ⟨[], true, none⟩, mgmt := none, work := w }
def withRunning (op : BitVec 16) (w : BgWork) (s : State) : State := { s with cox := { s.cox with running := [running op w] } }

theorem ends {b : BgCmd} {s : State} (h : s.cox.halted = false ∧ (powered s || s.rst.phase == .loader) = true ∧
    s.cox.running.find? (fun x => x.fn == b.fn && x.mb == b.mb) = some b) : EndsWork b s := h

/-- Two route entries: by port 0 to the node itself, and by port 1 over node 9. -/
def routeBytes : List Byte := leBytes 16 (1 <<< 27) ++ leBytes 16 (1 <<< 27 + 1 <<< 24 + 1 <<< 19 + 9)

theorem witness_RouteLoadReplacesTheEntries (h : Obligations.RouteLoadReplacesTheEntries) :
    Goes (.routeLoad (bulkCmd 0 8 (3 + 5 <<< 10 + 1 <<< 28) 32 routeBytes)) booted ∧
    Goes (.routeLoad (bulkCmd 0 8 (3 + 5 <<< 10 + 4096 <<< 28) 65552 [])) booted ∧
    Goes (.backgroundWorkEnd 0 0) (withRunning 0x30 (.routes 0 5 2 3 0) booted) := by
  refine ⟨goes (h.1 (bulkCmd 0 8 (3 + 5 <<< 10 + 1 <<< 28) 32 routeBytes) booted (accepts ?_ ?_ ?_ ?_) ?_ ?_ ?_ ?_ ?_ ?_ ?_ ?_ ?_),
   goes (h.2.1 (bulkCmd 0 8 (3 + 5 <<< 10 + 4096 <<< 28) 65552 []) booted (accepts ?_ ?_ ?_ ?_) ?_ ?_ ?_ ?_ ?_ ?_ ?_ ?_ ?_),
   goes (h.2.2 (running 0x30 (.routes 0 5 2 3 0)) (withRunning 0x30 (.routes 0 5 2 3 0) booted) 0 5 2 3 (ends ?_) rfl ?_)⟩ <;> decide +kernel

/-- Port 0 in a state, on a device that takes commands. -/
def portIn (st : PortState) : State := modPort 0 (fun q => { q with st := st }) booted
def swappedPort : State := modPort 0 (fun q => { q with st := .up, subValid := true, subPos := 1, subLane := 14 }) booted

theorem witness_LaneCommandsActOnThePort (h : Obligations.LaneCommandsActOnThePort) :
    Goes (.laneSwap (hostCmd 0 8 (1 <<< 20))) (portIn .up) ∧ Goes (.laneSwapBack (hostCmd 0 8 0)) swappedPort ∧
    Goes (.laneRetrain (hostCmd 0 8 0)) (portIn .up) ∧ Goes (.linkClear (hostCmd 0 8 0)) (portIn .damped) := by
  refine ⟨goes (h.1 (hostCmd 0 8 (1 <<< 20)) (portIn .up) (accepts ?_ ?_ ?_ ?_) ?_ ?_ ?_ ?_ ?_ ?_ ?_),
    goes (h.2.1 (hostCmd 0 8 0) swappedPort (accepts ?_ ?_ ?_ ?_) ?_ ?_ ?_ ?_ ?_),
    goes (h.2.2.1 (hostCmd 0 8 0) (portIn .up) (accepts ?_ ?_ ?_ ?_) ?_ ?_ ?_ ?_),
    goes (h.2.2.2 (hostCmd 0 8 0) (portIn .damped) (accepts ?_ ?_ ?_ ?_) ?_ ?_)⟩ <;> decide +kernel

/-- An engine in a state of the health table, with a unit or without. -/
def modEng (e : Fin 68) (f : Engine → Engine) (s : State) : State := { s with engines := vmod s.engines e f }
def someUnit : MatUnit := 
  { task := ⟨0, 0, 0⟩, unit := 0, tiles := [0], loaded := 0, passes := 0, bufs := [], bank := [], ended := false, waitParts := false, rerun := false,
    pair := 0, ents := [] }
def engineBusy : State := modEng 3 (fun x => { x with units := [someUnit] }) booted
def engineFenced : State := modEng 3 (fun x => { x with st := meFENCED, logical := 0xFF }) booted
def engineTested : State := modEng 3 (fun x => { x with st := meTESTING, logical := 0xFF, returned := true }) booted

theorem witness_EnginesAreFencedReturnedAndTested (h : Obligations.EnginesAreFencedReturnedAndTested) :
    Goes (.meFenceFence (hostCmd 0 8 3)) engineBusy ∧ Goes (.meFenceFence (hostCmd 0 8 3)) booted ∧
    Goes (.meFenceReturn (hostCmd 0 8 3)) engineFenced ∧ Goes (.engineTestDone 3 true) engineTested ∧ Goes (.engineTestDone 3 false) engineTested := by
  refine ⟨goes ((h.1 (hostCmd 0 8 3) engineBusy (accepts ?_ ?_ ?_ ?_) ?_ ?_).1 ?_),
    goes ((h.1 (hostCmd 0 8 3) booted (accepts ?_ ?_ ?_ ?_) ?_ ?_).2 64 ?_ ?_),
    goes (h.2.1 (hostCmd 0 8 3) engineFenced (accepts ?_ ?_ ?_ ?_) ?_ ?_),
    goes (h.2.2 3 engineTested ?_ ?_).1, goes (h.2.2 3 engineTested ?_ ?_).2⟩ <;> decide +kernel

/-! ### Witnesses: lifecycle, keys, debug -/

/-- A lifecycle state, with the keys that its commands need; whether a signature verifies is the cryptography's, an
assumption here. -/
def lifeIn (l : Lifecycle) : State :=
  { booted with sec := { State.reset.sec with lifecycle := l, nonce := 0, opKey := some [1], mgmtKey := some 5, mgmtNext := some 6 } }

theorem witness_LifecycleCommandsChangeTheLifecycle (h : Obligations.LifecycleCommandsChangeTheLifecycle)
    (ha : Config.ecVerify Config.falruineKey (leBytes 8 (lifeIn .blank).sec.serial.toNat ++
      measBytes (Config.sha384 (leBytes 96 (sent 0x0040 (hostCmd 0 200 0)).payload))) (leBytes 96 ((sent 0x0040 (hostCmd 0 200 0)).payload >>> 768)) = true)
    (hb : lcSigned (sent 0x0041 (hostCmd 0 128 0)) (lifeIn .provisioned) = true) (hc : lcSigned (sent 0x0042 (hostCmd 0 128 0)) (lifeIn .deployed) = true)
    (hd : lcSigned (sent 0x0043 (hostCmd 0 128 0)) (lifeIn .deployed) = true) :
    Goes (.lcProvision (hostCmd 0 200 0)) (lifeIn .blank) ∧ Goes (.lcDeploy (hostCmd 0 128 0)) (lifeIn .provisioned) ∧
    Goes (.lcHold (hostCmd 0 128 0)) (lifeIn .deployed) ∧ Goes (.lcRetire (hostCmd 0 128 0)) (lifeIn .deployed) := by
  refine ⟨goes (h.1 (hostCmd 0 200 0) (lifeIn .blank) (accepts ?_ ?_ ?_ ?_) ?_ ?_ ?_ ha),
    goes (h.2.1 (hostCmd 0 128 0) (lifeIn .provisioned) (accepts ?_ ?_ ?_ ?_) ?_ ?_ ?_ hb),
    goes (h.2.2.1 (hostCmd 0 128 0) (lifeIn .deployed) (accepts ?_ ?_ ?_ ?_) ?_ ?_ hc),
    goes (h.2.2.2 (hostCmd 0 128 0) (lifeIn .deployed) (accepts ?_ ?_ ?_ ?_) ?_ hd)⟩ <;> decide +kernel

def ownKeyState : State := { lifeIn .provisioned with sec := { (lifeIn .provisioned).sec with devEph := some eph0 } }

theorem witness_ManagementKeyAndRollback (h : Obligations.ManagementKeyAndRollback)
    (hv : unwrap ((sent 0x0044 (hostCmd 0 152 0)).pl 1215 64) 32 0 0 eph0 = some 9) :
    Goes (.opMgmtKey (hostCmd 0 152 0)) ownKeyState ∧ Goes (.opMgmtKey (hostCmd 0 8 1)) (lifeIn .deployed) ∧
    Goes (.fwCommit (hostCmd 0 0 0)) booted ∧ Goes (.backgroundWorkEnd 0 0) (withRunning 0x45 .fwCommit booted) := by
  refine ⟨goes (h.1 (hostCmd 0 152 0) ownKeyState eph0 9 (accepts ?_ ?_ ?_ ?_) ?_ ?_ ?_ ?_ hv),
    goes (h.2.1 (hostCmd 0 8 1) (lifeIn .deployed) (accepts ?_ ?_ ?_ ?_) ?_ ?_ ?_ ?_),
    goes (h.2.2.1 (hostCmd 0 0 0) booted (accepts ?_ ?_ ?_ ?_)),
    goes (h.2.2.2 (running 0x45 .fwCommit) (withRunning 0x45 .fwCommit booted) (ends ?_) ?_)⟩ <;> decide +kernel

/-- A D1 session of the operator's own token, and a D2 session of slot 0. -/
def debugOpen : State := { booted with sec := { State.reset.sec with debug := some ⟨1, 1, 900⟩ } }
def d2Opened : State := { booted with sec := { State.reset.sec with d2 := State.reset.sec.d2.set 0 (some 900) } }

/-- A DEPLOYED device whose job in slot 0 runs under keys, with global time set. -/
def keyedJob : State :=
  { vfBooted (jobIn .running) with
    sec := { (lifeIn .deployed).sec with jobKeys := State.reset.sec.jobKeys.set 0 (some ⟨0, 0, 5, 0, false, false, false⟩) },
    clock := { State.reset.clock with t := { State.reset.clock.t with st := .free } } }

/-- The token of a D2 session of slot 0: signer 2, level 2, incarnation 1, not_after 900. -/
def d2Cmd : HostCmd := { hostCmd 0 160 (1 + 2 <<< 16 + 2 <<< 18 + 900 <<< 192) with fn := 1 }

theorem witness_DebugSessionsOpenAndClose (h : Obligations.DebugSessionsOpenAndClose)
    (ha : debugAuth (sent 0x0046 d2Cmd) keyedJob 2 0 = true) :
    Goes (.dbgOpen (hostCmd 0 160 (3 <<< 16 + 1 <<< 18))) (lifeIn .blank) ∧ Goes (.dbgOpen d2Cmd) keyedJob ∧
    Goes (.dbgClose (hostCmd 0 8 0)) debugOpen ∧ Goes (.dbgClose (hostCmd 0 8 1)) d2Opened ∧ Goes (.debugExpiry none) debugOpen ∧
    Goes (.debugExpiry (some 0)) d2Opened := by
  refine ⟨goes (h.1 (hostCmd 0 160 (3 <<< 16 + 1 <<< 18)) (lifeIn .blank) (accepts ?_ ?_ ?_ ?_) ?_ ?_ ?_ ?_ ?_ ?_ ?_ ?_ ?_),
    goes (h.2.1 d2Cmd keyedJob 0 (vfAccepts ?_ ?_ ?_ ?_) ?_ ?_ ?_ ?_ ?_ ?_ ?_ ?_ ?_ ?_ ha),
    goes ((h.2.2.1 (hostCmd 0 8 0) debugOpen (accepts ?_ ?_ ?_ ?_) ?_).1 ?_ ?_),
    goes ((h.2.2.1 (hostCmd 0 8 1) d2Opened (accepts ?_ ?_ ?_ ?_) ?_).2 0 ?_ ?_ ?_),
    goes (h.2.2.2.1 debugOpen ⟨1, 1, 900⟩ ?_ ?_), goes (h.2.2.2.2 d2Opened 0 ?_)⟩ <;> decide +kernel

/-! ### Witnesses: power, firmware, logs -/

def powerIn (m : PowerMode) (stopping : Bool) (s : State) : State := { s with power := { State.reset.power with mode := m, stopping := stopping } }

/-- A rigger core that runs a program. -/
def riggerRuns (s : State) : State := modRig 0 (fun r => { r with slot := some 0, task := some ⟨0, 0, 0⟩ }) s

/-- The last step of the entry into P3 is next. -/
def restEntry : State := { booted with power := { State.reset.power with entry := some 4 } }

theorem witness_PowerCommandsChangeTheMode (h : Obligations.PowerCommandsChangeTheMode) :
    Goes (.pwrSetRun (hostCmd 0 8 (5 <<< 16))) (powerIn .hold false booted) ∧ Goes (.pwrSetHold (hostCmd 0 8 (5 <<< 16))) booted ∧
    Goes (.pwrSetHold (hostCmd 0 8 (5 <<< 16))) (riggerRuns booted) ∧ Goes (.pwrSetRest (hostCmd 0 8 (5 <<< 16))) booted ∧
    Goes (.pwrSetOff (hostCmd 0 8 (5 <<< 16))) booted ∧
    Goes .pwrHoldTimeout (withRunning 0x48 (.power 1 99) (riggerRuns (powerIn .run true booted))) ∧
    Goes (.backgroundWorkEnd 0 0) (withRunning 0x48 .rest (powerIn .run true booted)) ∧ Runs restEntry ∧
    Goes (.backgroundWorkEnd 0 0) (withRunning 0x48 (.power 3 99) (powerIn .run true booted)) ∧
    Goes (.backgroundWorkEnd 0 0) (withRunning 0x48 (.shutdown 8) booted) ∧
    Goes (.backgroundWorkEnd 0 0) (withRunning 0x48 (.shutdown 9) booted) := by
  refine ⟨goes (h.1 (hostCmd 0 8 (5 <<< 16)) (powerIn .hold false booted) (accepts ?_ ?_ ?_ ?_) ?_ ?_ ?_ ?_ ?_),
    goes ((h.2.1 (hostCmd 0 8 (5 <<< 16)) booted (accepts ?_ ?_ ?_ ?_) ?_ ?_ ?_ ?_ ?_).1 ?_),
    goes ((h.2.1 (hostCmd 0 8 (5 <<< 16)) (riggerRuns booted) (accepts ?_ ?_ ?_ ?_) ?_ ?_ ?_ ?_ ?_).2 ?_),
    goes (h.2.2.1 (hostCmd 0 8 (5 <<< 16)) booted (accepts ?_ ?_ ?_ ?_) ?_ ?_ ?_ ?_ ?_ ?_),
    goes (h.2.2.2.2.2.1 (hostCmd 0 8 (5 <<< 16)) booted (accepts ?_ ?_ ?_ ?_) ?_ ?_ ?_ ?_),
    goes (h.2.2.2.2.2.2.1 (withRunning 0x48 (.power 1 99) (riggerRuns (powerIn .run true booted))) ?_ ?_ ?_),
    goes (h.2.2.2.1 (running 0x48 .rest) (withRunning 0x48 .rest (powerIn .run true booted)) (ends ?_) ?_),
    (h.2.2.2.2.1 restEntry ?_ ?_ ?_ ?_).imp (fun _ x => x.1),
    goes (h.2.2.2.2.2.2.2.1 (running 0x48 (.power 3 99)) (withRunning 0x48 (.power 3 99) (powerIn .run true booted)) 99 (ends ?_) ?_ ?_ ?_ ?_),
    goes (h.2.2.2.2.2.2.2.2.1 (running 0x48 (.shutdown 8)) (withRunning 0x48 (.shutdown 8) booted) (ends ?_) ?_ ?_),
    goes (h.2.2.2.2.2.2.2.2.2 (running 0x48 (.shutdown 9)) (withRunning 0x48 (.shutdown 9) booted) (ends ?_) ?_ ?_)⟩ <;> decide +kernel

def modFlash (k : Fin 2) (f : FlashSlot → FlashSlot) (s : State) : State := { s with cox := { s.cox with flash := vmod s.cox.flash k f } }

/-- 4,096 bytes of an image have been loaded: a header with its magic number, version 1 and 8 bytes of code. -/
def loadedPart : State :=
  modFlash 1 (fun f => { f with bytes := leBytes 4096 (0x46354B44 + 1 <<< 640 + 8 <<< 672), loading := true, loadTotal := 4104 }) booted
def lastChunk : HostCmd := bulkCmd 0 16 (4096 + 4104 <<< 32 + 1 <<< 64) 8 [1, 2, 3, 4, 5, 6, 7, 8]
def stagedState : State := modFlash 1 (fun f => { f with staged := true }) booted

theorem witness_FirmwareIsLoadedAndStaged (h : Obligations.FirmwareIsLoadedAndStaged)
    (ha : (headerImage (loadedPart.cox.flash[loadSlot loadedPart].bytes ++ leBytes lastChunk.indLen.toNat (sent 0x0050 lastChunk).bulk)).sigOk = true) :
    Goes (.fwLoad (bulkCmd 0 16 (4104 <<< 32) 4096 [9])) booted ∧ Goes (.fwLoad lastChunk) loadedPart ∧
    Goes (.fwChangeover (hostCmd 0 8 10)) stagedState := by
  refine ⟨goes (h.1 (bulkCmd 0 16 (4104 <<< 32) 4096 [9]) booted (accepts ?_ ?_ ?_ ?_) ?_ ?_ ?_ ?_ ?_ ?_ ?_ ?_ ?_),
    goes (h.2.1 lastChunk loadedPart (accepts ?_ ?_ ?_ ?_) ?_ ?_ ?_ ?_ ?_ ?_ ?_ ?_ ?_ ?_ ?_ ?_ ?_ ?_ ha ?_),
    goes (h.2.2 (hostCmd 0 8 10) stagedState 1 (accepts ?_ ?_ ?_ ?_) ?_ ?_ ?_ ?_ ?_ ?_ ?_ ?_)⟩ <;> decide +kernel

/-- A changeover in a phase. -/
def change0 (ph : ChangePhase) : Changeover := { phase := ph, deadline := 9, latched := [], mgmt := [], spdm := [] }
def changing (ph : ChangePhase) : State := { stagedState with cox := { stagedState.cox with change := some (change0 ph), running := [running 0x51 .changeover] } }
def changingBusy : State := { changing .quiesce with cox := { (changing .quiesce).cox with running := [running 0x51 .changeover, running 0x45 .fwCommit] } }

/-- The rollback counter has passed the staged image's svn meanwhile. -/
def changingOld : State := { changing .incoming with sec := { State.reset.sec with rollback := 1 } }

theorem witness_ChangeoverSwapsTheRunningImage (h : Obligations.ChangeoverSwapsTheRunningImage) :
    Goes .changeoverQuiesced (changing .quiesce) ∧ Goes .changeoverReady (changing .incoming) ∧ Goes .quiesceTimeout changingBusy ∧
    Goes (.incomingReadyTimeout true) (changing .incoming) ∧ Goes .changeoverReady changingOld := by
  refine ⟨goes (h.1 (changing .quiesce) (change0 .quiesce) ?_ ?_ ?_ ?_),
    goes (h.2.1 (changing .incoming) (change0 .incoming) 1 ?_ ?_ ?_ ?_ ?_ ?_ ?_ ?_),
    goes (h.2.2.2.1 changingBusy (change0 .quiesce) ?_ ?_ ?_ ?_ ?_ ?_ ?_),
    goes (h.2.2.2.2 (changing .incoming) (change0 .incoming) true ?_ ?_ ?_ ?_ ?_ ?_),
    goes (h.2.2.1 changingOld (change0 .incoming) 1 ?_ ?_ ?_ ?_ ?_ ?_ ?_ ?_)⟩ <;> decide +kernel

theorem witness_TallyLogReadAndDevReset (h : Obligations.TallyLogReadAndDevReset) :
    Goes (.tally (bulkCmd 0 8 7 4096 [])) booted ∧ Goes (.logRead (bulkCmd 0 8 (4 + 2 <<< 16) 128 [])) booted ∧
    Goes (.devReset (hostCmd 0 8 0)) booted := by
  refine ⟨goes (h.1 (bulkCmd 0 8 7 4096 []) booted (accepts ?_ ?_ ?_ ?_) ?_ ?_ ?_ ?_ ?_ ?_ ?_),
    goes (h.2.1 (bulkCmd 0 8 (4 + 2 <<< 16) 128 []) booted (accepts ?_ ?_ ?_ ?_) ?_ ?_ ?_ ?_ ?_ ?_ ?_),
    goes (h.2.2 (hostCmd 0 8 0) booted (accepts ?_ ?_ ?_ ?_) ?_)⟩ <;> decide +kernel

/-! ### Witnesses: registers and BAR2 -/

/-- Slot 3 of PF0's mailbox holds a GET. -/
def getCmd : HostCmd := { hostCmd 0 8 0x30 with mb := 3 }
def slotWritten : State := modHost 0 (fun h => { h with cmd := h.cmd.set 3 (slotImage 2 getCmd) }) booted
def slotBusy : State := modHost 0 (fun h => { h with busy := 8 }) booted

theorem witness_DoorbellTakesTheSlot (h : Obligations.DoorbellTakesTheSlot) :
    Goes (.unlorGet getCmd) slotWritten ∧ Goes (.mbDoorbell 0 ⟨1#32 <<< 3, true⟩ []) slotWritten ∧ Goes (.mbDoorbell 0 ⟨1#32 <<< 3, true⟩ []) slotBusy :=
  ⟨(h.1 (.unlorGet getCmd) 2 getCmd slotWritten (List.replicate 4 ⟨[], true, none⟩) rfl (by decide) (by decide) (by decide +kernel) rfl).imp (fun _ x => x.2),
   (h.2.1 0 3 0x8008 true slotWritten [] (by decide) (by decide) (by decide) (by decide) (by decide)).imp (fun _ x => x.1),
   goes (h.2.2 0 3 true slotBusy [] (by decide) (by decide) (by decide) (by decide))⟩

/-- The rings of job 0 on die 1 are enabled, of 64 entries each; two events wait. -/
def ringJob : State :=
  modDie 0 1 (fun d => { d with sqHead := 10, sqTail := 12, evqHead := 3, evqTail := 5 }) (objPut (jobKey oJOB_RING 0 1) 1 (jobIn .running))

/-- A job that locks its host path. -/
def lockedJob : State :=
  { jobIn .running with sec := { State.reset.sec with jobKeys := State.reset.sec.jobKeys.set 0 (some ⟨0, 0, 5, 0, true, false, false⟩) } }

theorem witness_RegistersAndRingsTakeWrites (h : Obligations.RegistersAndRingsTakeWrites) :
    Goes (.mbIrqClear 2 ⟨5, true⟩) booted ∧ Goes (.intCauseClear 2 ⟨5, true⟩) booted ∧ Goes (.registerWrite (.bar0 2 true) 0x200C 3) booted ∧
    Goes (.registerWrite (.bar0 2 true) 0x2024 3) booted ∧ Goes (.registerWrite (.bar0 2 true) 0x1008 0x100) booted ∧
    Goes (.registerWrite (.bar0 2 true) 0x7FFC 3) booted ∧ Goes (.registerWrite (.smbus none) 0x03 3) booted ∧
    Goes (.registerWrite (.smbus (some (smbPec [0xA8, 0x03, 3]))) 0x03 3) booted ∧
    Goes (.registerWrite (.smbus (some (smbPec [0xA8, 0x03, 3] + 1))) 0x03 3) booted ∧ Goes (.smbAlertClear 0xFF) booted ∧
    Goes (.dbSq 0 1 ⟨74, true⟩) ringJob ∧ Goes (.dbSq 0 1 ⟨75, true⟩) ringJob ∧ Goes (.dbEq 0 1 ⟨5, true⟩) ringJob ∧
    Goes (.registerWrite (.bar0 (vfOf 0) true) 0x200C 3) lockedJob := by
  refine ⟨goes ((h.1.1 2 true booted ?_ ?_).1 5).1, goes ((h.1.1 2 true booted ?_ ?_).1 5).2, goes ((h.1.1 2 true booted ?_ ?_).2 3).1,
    goes ((h.1.1 2 true booted ?_ ?_).2 3).2.1, goes (((h.1.1 2 true booted ?_ ?_).2 0x100).2.2.1 0x1008 ?_ ?_),
    goes (((h.1.1 2 true booted ?_ ?_).2 3).2.2.2 0x7FFC ?_ ?_), goes (((h.1.2.2 booted).1 none 3 ?_).1 (.inl rfl)),
    goes (((h.1.2.2 booted).1 (some (smbPec [0xA8, 0x03, 3])) 3 ?_).1 (.inr rfl)),
    goes (((h.1.2.2 booted).1 (some (smbPec [0xA8, 0x03, 3] + 1)) 3 ?_).2 _ rfl ?_), goes ((h.1.2.2 booted).2 0xFF ?_),
    goes ((h.2 0 1 74 true ringJob ?_ ?_ ?_ ?_).1 ?_), goes ((h.2 0 1 75 true ringJob ?_ ?_ ?_ ?_).2.1 ?_),
    goes ((h.2 0 1 5 true ringJob ?_ ?_ ?_ ?_).2.2 ?_), goes (h.1.2.1 0 0x200C true 3 lockedJob ?_ ?_)⟩ <;>
  decide +kernel

/-- The window of job 0, whose frame is mapped, is open. -/
def windowJob : State := objPut (jobKey oJOB_HOSTWIN 0 0) 1 mappedJob

theorem witness_Bar2ReachesTheJobsWindow (h : Obligations.Bar2ReachesTheJobsWindow) :
    Goes (.bar2Read 0 60 8 false) windowJob ∧ Goes (.bar2Write 0 60 [1, 2, 3, 4, 5] false) windowJob ∧
    Goes (.bar2Read 0 0 1 false) lockedJob ∧ Goes (.bar2Write 0 0 [1] false) lockedJob := by
  refine ⟨goes ((h 0 60 false windowJob).1 8 ?_ ?_ ?_ ?_ ?_), goes ((h 0 60 false windowJob).2.1 [1, 2, 3, 4, 5] ?_ ?_ ?_ ?_ ?_),
    goes ((h 0 0 false lockedJob).2.2 1 [1] ?_ ?_ ?_).1, goes ((h 0 0 false lockedJob).2.2 1 [1] ?_ ?_ ?_).2⟩ <;> decide +kernel

theorem witness_FunctionResetsClearTheMailboxes (h : Obligations.FunctionResetsClearTheMailboxes) :
    Goes (.vfFlr 1) lockedJob ∧ Goes .pf0Flr lockedJob ∧ Goes .pcieHotReset lockedJob ∧ Goes (.numvfsLower 0) lockedJob ∧
    Goes (.numvfsRaise 64) lockedJob := by
  refine ⟨goes ((h lockedJob ?_).1 1 ?_), goes (h lockedJob ?_).2.1, goes (h lockedJob ?_).2.2.1, goes ((h lockedJob ?_).2.2.2.1 0 ?_),
    goes ((h lockedJob ?_).2.2.2.2 64 ?_)⟩ <;> decide +kernel

/-! ### Witnesses: SPDM, IDE and TDISP -/

def sessionsIn (a b : Option SpdmSession) : State := { booted with sec := { State.reset.sec with sessions := #v[a, b, b, b] } }
def session0 (fin : Bool) : SpdmSession := ⟨.doe 2, 5, fin⟩

theorem witness_SpdmRequestsAndSessions (h : Obligations.SpdmRequestsAndSessions) :
    Goes (.getVersion (.doe 2) []) booted ∧ Goes (.getCapabilities (.doe 2) []) booted ∧ Goes (.negotiateAlgorithms (.doe 2) []) booted ∧
    Goes (.getDigests (.doe 2) []) booted ∧ Goes (.getCertificate (.doe 2) [0]) booted ∧ Goes (.spdmChallenge (.doe 2) [0]) booted ∧
    Goes (.getMeasurements (.doe 2) [0]) booted ∧ Goes (.spdmChallenge (.doe 2) [1]) booted ∧ Goes (.spdmUnsupportedRequest (.doe 2) 0xFF []) booted ∧
    Goes (.keyExchange (.doe 2) [0]) (sessionsIn (some (session0 true)) none) ∧
    Goes (.keyExchange (.doe 2) [0]) (sessionsIn (some (session0 true)) (some (session0 false))) ∧
    Goes (.spdmFinish (.doe 2) 0 (measBytes (Config.hmac (leBytes 32 5) []))) (sessionsIn (some (session0 false)) none) ∧
    Goes (.endSession (.doe 2) 0 []) (sessionsIn (some (session0 true)) none) ∧ Goes (.spdmHeartbeat (.doe 2) 0 []) (sessionsIn (some (session0 true)) none) := by
  refine ⟨goes (h.1 (.doe 2) [] booted ?_ ?_).1, goes (h.1 (.doe 2) [] booted ?_ ?_).2.1, goes (h.1 (.doe 2) [] booted ?_ ?_).2.2.1,
    goes (h.1 (.doe 2) [] booted ?_ ?_).2.2.2.1, goes ((h.1 (.doe 2) [0] booted ?_ ?_).2.2.2.2.1 ?_),
    goes ((h.1 (.doe 2) [0] booted ?_ ?_).2.2.2.2.2.1 ?_ ?_).1, goes ((h.1 (.doe 2) [0] booted ?_ ?_).2.2.2.2.2.1 ?_ ?_).2,
    goes ((h.1 (.doe 2) [1] booted ?_ ?_).2.2.2.2.2.2.1 ?_ ?_).2.1,
    goes ((h.1 (.doe 2) [] booted ?_ ?_).2.2.2.2.2.2.2 0xFF ?_), goes ((h.2 (.doe 2) [0] 1 (sessionsIn (some (session0 true)) none) ?_ ?_).1 ?_ ?_ ?_ ?_),
    goes ((h.2 (.doe 2) [0] 1 (sessionsIn (some (session0 true)) (some (session0 false))) ?_ ?_).2.1 ?_ ?_ ?_),
    goes ((h.2 (.doe 2) (measBytes (Config.hmac (leBytes 32 5) [])) 0 (sessionsIn (some (session0 false)) none) ?_ ?_).2.2.1 (session0 false) ?_ ?_ ?_ ?_),
    goes ((h.2 (.doe 2) [] 0 (sessionsIn (some (session0 true)) none) ?_ ?_).2.2.2 (session0 true) ?_ ?_).1,
    goes ((h.2 (.doe 2) [] 0 (sessionsIn (some (session0 true)) none) ?_ ?_).2.2.2 (session0 true) ?_ ?_).2⟩ <;>
  first | decide +kernel | exact List.take_of_length_le (by simp [measBytes, leBytes])

/-- A finished session, the interface of slot 1 in a state, and its IDE key. -/
def tdispIn (t : Tdisp) : State :=
  { booted with sec := { (sessionsIn (some (session0 true)) none).sec with
      tdisp := State.reset.sec.tdisp.set 1 t, ide := State.reset.sec.ide.set 1 (some ⟨5, false⟩) } }

theorem witness_InterfacesFollowTdisp (h : Obligations.InterfacesFollowTdisp) :
    Goes (.ideKmRequest 0 1 false 7) (tdispIn .unlocked) ∧ Goes (.ideKmRequest 0 1 true 7) (tdispIn .unlocked) ∧
    Goes (.tdispRequest 0 1 .lock) (tdispIn .unlocked) ∧ Goes (.tdispRequest 0 1 .start) (tdispIn .locked) ∧
    Goes (.tdispRequest 0 1 .stop) (tdispIn .run) ∧ Goes (.tdispRequest 0 1 .getState) (tdispIn .run) ∧
    Goes (.tdispLeaveRun 1 false) (tdispIn .run) ∧ Goes (.tdispLeaveRun 1 true) (tdispIn .run) := by
  refine ⟨goes (h.1 0 1 7 (tdispIn .unlocked) (.doe 2) ?_ ?_ ?_).1, goes ((h.1 0 1 7 (tdispIn .unlocked) (.doe 2) ?_ ?_ ?_).2.1 ⟨5, false⟩ ?_),
    goes ((h.1 0 1 7 (tdispIn .unlocked) (.doe 2) ?_ ?_ ?_).2.2.1 ?_), goes ((h.1 0 1 7 (tdispIn .locked) (.doe 2) ?_ ?_ ?_).2.2.2.1 ?_),
    goes (h.1 0 1 7 (tdispIn .run) (.doe 2) ?_ ?_ ?_).2.2.2.2.1, goes (h.1 0 1 7 (tdispIn .run) (.doe 2) ?_ ?_ ?_).2.2.2.2.2,
    goes (h.2 1 (tdispIn .run) ?_).1, goes (h.2 1 (tdispIn .run) ?_).2⟩ <;> decide +kernel

/-! ### Witnesses: pins, input and resets -/

/-- What a boot reads: a strap code, an image in each slot, and a number of restarts. -/
def bootEnv (strap restarts : Nat) (train : Bool) : BootEnv :=
  { refclkOk := true, strapCode := strap, slotA := some FlashImage.shipped, slotB := none, stackTrainOk := train, healthA := true, healthB := false,
    restarts := restarts, readA := true, readB := true, failedItems := [], failedStacks := [], failedLanes := [], failedEngines := [],
    failedSensors := [] }

def phaseIn (ph : BootPhase) : State := { booted with rst := { State.reset.rst with phase := ph } }
def unpowered : State := { phaseIn .off with board := { State.reset.board with vinValid := false, pwrgd := false } }
def hotUnpowered : State := { phaseIn .thermal with board := { State.reset.board with vinValid := false, pwrgd := false } }

theorem witness_InputVoltageAndColdResets (h : Obligations.InputVoltageAndColdResets) :
    Goes (.vinRise 46000) unpowered ∧ Goes (.vinRise 60000) unpowered ∧ Goes (.vinRise 60000) hotUnpowered ∧
    Goes (.undervoltageWarning 46999) booted ∧ Goes (.inputLost .over) (phaseIn .thermal) ∧ Goes (.inputLost .over) booted ∧
    Goes .rstNAssert booted ∧ Goes (.rstNRelease (bootEnv 100 8 true)) (phaseIn .held) ∧ Goes (.rstNRelease (bootEnv 4095 0 true)) (phaseIn .held) ∧
    Goes (.refclkStable (bootEnv 700 7 false)) (phaseIn .held) ∧ Goes (.rstNRelease (bootEnv 700 7 true)) (phaseIn .held) ∧
    Goes (.refclkStable (bootEnv 2700 0 true)) (phaseIn .held) := by
  refine ⟨goes ((h.1 unpowered 46000).1 ?_ ?_ ?_ ?_), goes ((h.1 unpowered 60000).1 ?_ ?_ ?_ ?_), goes ((h.1 hotUnpowered 60000).2.1 ?_ ?_ ?_ ?_),
    goes ((h.1 booted 46999).2.2.1 ?_ ?_ ?_), goes ((h.1 (phaseIn .thermal) 0).2.2.2.1 .over ?_ ?_),
    goes ((h.1 booted 0).2.2.2.2 .over ?_ ?_ ?_), goes (h.2.1 booted ?_ ?_),
    goes ((h.2.2 (bootEnv 100 8 true) (phaseIn .held) (.rstNRelease (bootEnv 100 8 true)) (.inl rfl) ?_ ?_ ?_ ?_).1 ?_),
    goes ((h.2.2 (bootEnv 4095 0 true) (phaseIn .held) (.rstNRelease (bootEnv 4095 0 true)) (.inl rfl) ?_ ?_ ?_ ?_).2.1 ?_ ?_),
    goes ((h.2.2 (bootEnv 700 7 false) (phaseIn .held) (.refclkStable (bootEnv 700 7 false)) (.inr ⟨rfl, rfl⟩) ?_ ?_ ?_ ?_).2.2.1 2 ?_ ?_ ?_),
    goes ((h.2.2 (bootEnv 700 7 true) (phaseIn .held) (.rstNRelease (bootEnv 700 7 true)) (.inl rfl) ?_ ?_ ?_ ?_).2.2.2.1 2 ?_ ?_ ?_ ?_ ?_),
    goes ((h.2.2 (bootEnv 2700 0 true) (phaseIn .held) (.refclkStable (bootEnv 2700 0 true)) (.inr ⟨rfl, rfl⟩) ?_ ?_ ?_ ?_).2.2.2.2 8 ?_ ?_ ?_ ?_)⟩ <;>
  decide +kernel

/-- The flash holds another image than the one that runs. -/
def otherImage (s : State) : State := modFlash 0 (fun f => { f with image := { f.image with digest := 1 } }) s
def resetAsked : State := { keyedJob with rst := { State.reset.rst with devResetAt := some 5 } }

theorem witness_WarmResetsKeepMemory (h : Obligations.WarmResetsKeepMemory) :
    Goes .wrstNAssert keyedJob ∧ Goes (.coxWatchdogExpiry 0x1000) keyedJob ∧ Goes (.criticalStateError 2 1) keyedJob ∧ Goes .devResetStart resetAsked ∧
    Goes .wrstNRelease (phaseIn .warm) ∧ Goes .wrstNRelease (otherImage (phaseIn .warm)) := by
  refine ⟨goes (h.1 keyedJob ?_).1, goes ((h.1 keyedJob ?_).2.1 0x1000 ?_ ?_ ?_ ?_), goes ((h.1 keyedJob ?_).2.2.1 2 1 ?_ ?_),
    goes ((h.1 resetAsked ?_).2.2.2 ?_ ?_ ?_), goes ((h.2 (phaseIn .warm) ?_).1 ?_ ?_), goes ((h.2 (otherImage (phaseIn .warm)) ?_).2 ?_)⟩ <;>
  decide +kernel

theorem witness_SecurityAndBlockResets (h : Obligations.SecurityAndBlockResets) :
    Goes (.umpireSecurityReset (bootEnv 0 0 true)) keyedJob ∧ Goes (.clockFault false (bootEnv 0 0 true)) keyedJob ∧
    Goes (.clockFault true (bootEnv 0 0 true)) keyedJob ∧ Goes (.coxBlockReset (.rigger 5)) booted ∧ Goes (.coxBlockReset (.matrix 3)) booted ∧
    Goes (.coxBlockReset (.vector 3)) booted ∧ Goes (.coxBlockReset (.stroke 3)) booted ∧ Goes (.coxBlockReset (.update 3)) booted ∧
    Goes (.coxBlockReset (.counts 0)) (jobIn .running) := by
  refine ⟨goes (h.1 (bootEnv 0 0 true) keyedJob ?_ ?_ ?_ ?_ ?_).1, goes (h.1 (bootEnv 0 0 true) keyedJob ?_ ?_ ?_ ?_ ?_).2.1,
    goes (h.1 (bootEnv 0 0 true) keyedJob ?_ ?_ ?_ ?_ ?_).2.2, goes ((h.2 booted ?_).1 5 ?_), goes ((h.2 booted ?_).2.1 3 3 3 3).1,
    goes ((h.2 booted ?_).2.1 3 3 3 3).2.1, goes ((h.2 booted ?_).2.1 3 3 3 3).2.2.1, goes ((h.2 booted ?_).2.1 3 3 3 3).2.2.2,
    goes ((h.2 (jobIn .running) ?_).2.2 0 ?_)⟩ <;> decide +kernel

def d3State : State := { booted with sec := { State.reset.sec with debug := some ⟨3, 1, 900⟩ } }

/-- A sensor that a self-test excluded. -/
def blindSensor : State := { booted with health := { State.reset.health with tempExcl := 8 } }

/-- Which code is which is not stated: that a code is no IDCODE, and what it does under D3, are assumptions here. -/
theorem witness_WakeThermalTripAndTestPort (h : Obligations.WakeThermalTripAndTestPort) (ir jr : Byte) (ha : ir ≠ Config.idcodeIr) (hb : ir ≠ 0xFF)
    (hc : Config.tapCode ir % 8 = 1) (ja : jr ≠ Config.idcodeIr) (jb : jr ≠ 0xFF) (jc : Config.tapCode jr % 8 = 3) :
    Goes .smbWake (powerIn .rest false booted) ∧ Goes (.thermalTrip ⟨3, 115⟩) booted ∧ Goes (.thermalTrip ⟨3, 115⟩) blindSensor ∧
    Goes .thermalHoldEnd (phaseIn .thermal) ∧ Goes (.tapInstruction 0xFF) d3State ∧ Goes (.tapInstruction 3) booted ∧
    Goes (.tapInstruction ir) d3State ∧ Goes (.tapInstruction jr) d3State ∧ falruineD3 d3State = false := by
  refine ⟨goes (h.1 (powerIn .rest false booted) ?_ ?_ ?_), goes ((h.2.1 booted 3 115 ?_ ?_ ?_).1 ?_), goes ((h.2.1 blindSensor 3 115 ?_ ?_ ?_).2 ?_),
    goes (h.2.2.1 (phaseIn .thermal) ?_), goes (h.2.2.2.1 d3State 0xFF ?_ (.inr (.inr rfl))), goes (h.2.2.2.1 booted 3 ?_ (.inl ?_)),
    goes ((h.2.2.2.2 d3State ir ?_ ?_ ha hb).1 hc), goes ((h.2.2.2.2 d3State jr ?_ ?_ ja jb).2.1 jc), ?_⟩ <;> decide +kernel
/-! ### Witnesses: tasks -/

/-- Memory of the mapped job with bytes at its address 0. -/
def withBytes (va : Nat) (bs : List Byte) (s : State) : State := (jobWrite 0 va bs s).1

/-- A descriptor of index 7 in job 0: opcode, dependences, phase, and the rest. -/
def descOf (opcode deps rest : Nat) : Nat := 7 <<< 152 + opcode <<< 128 + deps <<< 176 + rest

/-- Entry 7 of job 0 on die 0. -/
def task7 : TaskRef := ⟨0, 0, 7⟩
def taskIn (st : EState) (d : Nat) (run : Run) (s : State) : State :=
  modDie 0 0 (fun k => { k with entries := [(7, { next := 1, st := st, desc := d, run := run, watchRec := none, caps := [], reads := [] })] }) s

/-- Job 0's ring on die 0 holds one descriptor at address 0, and 256 entries are its quota. -/
def ringState (d : Nat) : State :=
  modDie 0 0 (fun k => { k with sqTail := 1 })
    (objPut (jobKey oJOB_SCHED 0 0) 256 (objPut (jobKey oJOB_RING 0 0) 1 (withBytes 0 (leBytes 128 d) mappedJob)))
def earlyState : State := modDie 0 0 (fun k => { k with entries := [(7, { next := 0, st := .free 2, desc := 0, run := .idle, watchRec := none, caps := [], reads := [] })] }) (ringState (descOf 4 2 0))

/-- A FENCE of every flow. -/
def fenceDesc : Nat := descOf 4 0 (4 <<< 709 + 1 <<< 705)

def waits : Run → Bool
  | .wait _ _ _ => true
  | _ => false

theorem no_wait {r : Run} (h : waits r = false) : ∀ n th d, r ≠ .wait n th d := by
  rintro n th d rfl
  cases h

theorem calm {s : State} {slot : Fin 64} (h1 : ∀ die : Fin 4, ∀ p ∈ (jobDie s slot die).entries, waits p.2.run = false)
    (h2 : s.jobs[slot].buckets = []) (h3 : s.jobs[slot].watch.st ≠ .closing)
    (h4 : s.jobs[slot].watch.dropping = false) : Calm s slot :=
  ⟨fun die p hp => no_wait (h1 die p hp), h2, h3, h4⟩

theorem validated {s : State} {t : TaskRef} {e : Entry} {r : Released}
    (h : (match validate s t e with | .ok q => decide (q = r) | .error _ => false) = true) : validate s t e = .ok r := by
  cases hq : validate s t e <;> simp_all

theorem witness_TasksRunFromAdmissionToTheirEnd (h : Obligations.TasksRunFromAdmissionToTheirEnd) :
    Goes (.admitDescriptor 0 0) (ringState (descOf 4 2 0)) ∧ Goes (.admitDescriptor 0 0) earlyState ∧
    Goes (.decrement 0 7 0) (taskIn (.waiting 1) (descOf 4 1 0) .idle mappedJob) ∧ Goes (.decrement 0 7 1) (taskIn (.free 65534) 0 .idle mappedJob) ∧
    Goes (.taskRelease 0 0 7) (taskIn (.ready 0) fenceDesc .idle mappedJob) ∧
    Goes (.taskComplete 0 0 7) (taskIn .running (descOf 4 0 0) (.copy Track.new) mappedJob) ∧
    Goes (.waitTimeout 0 0 7) (taskIn .running (descOf 7 0 (2 <<< 992)) (.wait 3 5 (some 100)) mappedJob) := by
  have hv : validate (taskIn (.ready 0) fenceDesc .idle mappedJob) task7 (entryOf (taskIn (.ready 0) fenceDesc .idle mappedJob) task7) =
    .ok (Released.plain (.fence [])) := validated (by decide +kernel)
  refine ⟨goes (h.1.1 0 0 (ringState (descOf 4 2 0)) (descOf 4 2 0) 0 ?_ ?_ ?_ ?_ ?_ ?_ ?_ ?_), goes (h.1.1 0 0 earlyState (descOf 4 2 0) 2 ?_ ?_ ?_ ?_ ?_ ?_ ?_ ?_),
    goes ((h.1.2 0 7 0 (taskIn (.waiting 1) (descOf 4 1 0) .idle mappedJob) ?_ ?_ (calm ?_ ?_ ?_ ?_)).1 1 ?_ ?_ ?_),
    goes ((h.1.2 0 7 1 (taskIn (.free 65534) 0 .idle mappedJob) ?_ ?_ (calm ?_ ?_ ?_ ?_)).2 65534 ?_ ?_ ?_),
    goes (h.2.1 0 0 7 (taskIn (.ready 0) fenceDesc .idle mappedJob) (Released.plain (.fence [])) ?_ ?_ ?_ ?_ hv ?_ ?_ ?_ (no_wait ?_)),
    goes (h.2.2.1 0 0 7 (taskIn .running (descOf 4 0 0) (.copy Track.new) mappedJob) Track.new ?_ ?_ ?_ ?_ ⟨?_, ?_⟩ ?_ (calm ?_ ?_ ?_ ?_) ?_),
    goes (h.2.2.2 0 0 7 (taskIn .running (descOf 7 0 (2 <<< 992)) (.wait 3 5 (some 100)) mappedJob) 3 100 5 ?_ ?_ ?_ ?_ ?_
      (fun d p hp => by
        have key : ∀ d : Fin 4, ∀ p ∈ (jobDie (taskIn .running (descOf 7 0 (2 <<< 992)) (.wait 3 5 (some 100)) mappedJob) 0 d).entries,
          (d = 0 ∧ p.1 = (7#16).toNat) ∨ waits p.2.run = false := by decide +kernel
        exact (key d p hp).imp id no_wait) ?_ ?_ ?_)⟩ <;>
  decide +kernel

/-- The context of job 0 on die 0 runs a routine, with registers 1 and 2. -/
def strokeRuns (x1 x2 : BitVec 64) (s : State) : State :=
  modDie 0 0 (fun k => { k with routine := some (.task 9), regs := { k.regs with x := (k.regs.x.set 1 x1).set 2 x2 } }) s

/-- Task 7 of job 0 runs on rigger core 0, with registers 1 and 2 and with scratch bytes. -/
def rigRuns (x1 x2 : BitVec 64) (scratch : AMap Nat Byte) (s : State) : State :=
  modRig 0 (fun k => { k with slot := some 0, task := some task7, scratch := scratch, regs := { k.regs with x := (k.regs.x.set 1 x1).set 2 x2 } }) s

def queueState : State := modDie 0 0 (fun k => { k with queue := [.task 7] }) (taskIn .running (descOf 7 0 (1 <<< 992)) .routine mappedJob)

/-- The name of task 7 and word 9, as TPATCH takes them. -/
def patchArg : BitVec 64 := 7 + 9 <<< 20
def fillState (x2 : BitVec 64) : State := strokeRuns patchArg x2 (taskIn (.waiting 3) (descOf 4 3 (1 <<< 114)) .idle mappedJob)

theorem witness_ProgramsRunOnTheCores (h : Obligations.ProgramsRunOnTheCores) :
    Goes (.routineStart 0 0) queueState ∧ Goes (.riggerProgramStart 0 0 7 15) (taskIn .running (descOf 6 0 0) (.rigger none) mappedJob) ∧
    Goes (.budgetExpiry (.stroke 0 0)) (strokeRuns 0 0 mappedJob) ∧ Goes (.tsubmit 0 0 3 1) (strokeRuns 128 0 (withBytes 128 (leBytes 128 (descOf 4 0 0)) mappedJob)) ∧
    Goes (.tsubmit 0 0 3 1) (strokeRuns 127 0 mappedJob) ∧ Goes (.tpatch 0 0 1 2) (fillState 99) ∧ Goes (.tskip 0 0 1) (fillState 99) ∧
    Goes (.trearm 0 0 1 2) (fillState 65532) ∧ Goes (.tdone (.rigger 0) 1) (rigRuns 0 0 [] mappedJob) := by
  refine ⟨goes (h.1.1 0 0 queueState 7 [] ?_ ?_ ?_ ?_ ?_), goes (h.1.2.1 0 0 7 15 (taskIn .running (descOf 6 0 0) (.rigger none) mappedJob) ?_ ?_ ?_ ?_ ?_ ?_),
    goes (h.1.2.2 (.stroke 0 0) (strokeRuns 0 0 mappedJob) 0 ?_),
    goes (h.2.1 0 0 3 1 (strokeRuns 128 0 (withBytes 128 (leBytes 128 (descOf 4 0 0)) mappedJob)) (descOf 4 0 0) ?_ ?_ ?_ ?_),
    goes (h.2.2.1 0 0 3 1 (strokeRuns 127 0 mappedJob) ?_ ?_),
    goes ((h.2.2.2.1 0 0 1 2 (fillState 99) task7 3 ?_ ?_ ?_ ?_).1 ?_ ?_), goes ((h.2.2.2.1 0 0 1 2 (fillState 99) task7 3 ?_ ?_ ?_ ?_).2.1 ?_),
    goes ((h.2.2.2.1 0 0 1 2 (fillState 65532) task7 3 ?_ ?_ ?_ ?_).2.2 ?_),
    goes (h.2.2.2.2 (.rigger 0) 1 (rigRuns 0 0 [] mappedJob) 0 ?_)⟩ <;> decide +kernel

/-! ### Witnesses: cores -/

/-- A context with an instruction at address 0: `add x3, x1, x2`, `addi x3, x1, -1`, `beq x1, x2, 8` (the forward half and
the backward reach of R202's base ISA), and on a rigger core `sd x2, 8(x1)`. -/
def strokeAt (w : Nat) (x1 x2 : BitVec 64) : State := strokeRuns x1 x2 (withBytes 0 (leBytes 4 w) mappedJob)
def rigAt (w : Nat) (x1 x2 : BitVec 64) : State := rigRuns x1 x2 [] (withBytes 0 (leBytes 4 w) mappedJob)

theorem witness_CoresAndRiggersExecute (h : Obligations.CoresAndRiggersExecute) :
    Goes (.rv64Instruction (.stroke 0 0)) (strokeAt 0x002081B3 5 9) ∧ Goes (.rv64Instruction (.stroke 0 0)) (strokeAt 0xFFF08193 0 9) ∧
    Goes (.rv64Instruction (.stroke 0 0)) (strokeAt 0x00208463 9 9) ∧ Goes (.rv64Instruction (.rigger 0)) (rigAt 0x0020B423 0x3FFF0 77) ∧
    Goes (.hpmCsrRead (.stroke 0 0) 0xC0A 3) (strokeRuns 0 0 mappedJob) := by
  refine ⟨goes ((h.1.1 (.stroke 0 0) 0 0x002081B3 (strokeAt 0x002081B3 5 9) ⟨?_, ?_, ?_, ?_, ?_, ?_⟩).1 ?_ ?_ ?_),
    goes ((h.1.1 (.stroke 0 0) 0 0xFFF08193 (strokeAt 0xFFF08193 0 9) ⟨?_, ?_, ?_, ?_, ?_, ?_⟩).2.1 ?_ ?_),
    goes ((h.1.1 (.stroke 0 0) 0 0x00208463 (strokeAt 0x00208463 9 9) ⟨?_, ?_, ?_, ?_, ?_, ?_⟩).2.2 ?_ ?_),
    goes (h.1.2.1 0 0 0x0020B423 0x3FFF8 (rigAt 0x0020B423 0x3FFF0 77) ⟨?_, ?_, ?_, ?_, ?_, ?_⟩ ?_ ?_ ?_ ?_ ?_),
    goes (h.1.2.2 (.stroke 0 0) 0xC0A 3 0 0 (strokeRuns 0 0 mappedJob) ?_ ?_)⟩ <;> decide +kernel

/-- 8 bytes at scratch offset 32, and a list of capacity 2 with one entry at 256. -/
def scratch0 : AMap Nat Byte := [(32, 5), (36, 2), (40, 5), (44, 1), (48, 3), (256, 1), (260, 2)]

theorem witness_RiggerInstructions (h : Obligations.CoresAndRiggersExecute) :
    Goes (.sld 0 1 2) (rigRuns 0 (0x3FFF8 + 8 <<< 32) [] mappedJob) ∧ Goes (.sst 0 1 2) (rigRuns 4 (32 + 8 <<< 32) scratch0 mappedJob) ∧
    Goes (.blkq 0 3 1 2) (rigRuns 32 512 scratch0 mappedJob) ∧ Goes (.blkx 0 1 2) (rigRuns 32 512 scratch0 mappedJob) ∧
    Goes (.sortkv 0 1 2) (rigRuns 32 3 scratch0 mappedJob) ∧ Goes (.hist 0 1 2) (rigRuns 32 (1 + 512 <<< 32) scratch0 mappedJob) ∧
    Goes (.psum 0 3 1 2) (rigRuns 32 5 scratch0 mappedJob) ∧ Goes (.nnzb 0 3 1 2) (rigRuns 32 16 scratch0 mappedJob) ∧
    Goes (.lapp 0 3 1 2) (rigRuns 256 7 scratch0 mappedJob) ∧ Goes (.lapp 0 3 1 2) (rigRuns 260 7 scratch0 mappedJob) := by
  refine ⟨goes ((h.2 0 task7 3 1 2 (rigRuns 0 (0x3FFF8 + 8 <<< 32) [] mappedJob) 0 (0x3FFF8 + 8 <<< 32) ?_ ?_ ?_ ?_).1 ?_ ?_),
    goes ((h.2 0 task7 3 1 2 (rigRuns 4 (32 + 8 <<< 32) scratch0 mappedJob) 4 (32 + 8 <<< 32) ?_ ?_ ?_ ?_).2.1 _ ?_ (Prod.ext rfl ?_)),
    goes ((h.2 0 task7 3 1 2 (rigRuns 32 512 scratch0 mappedJob) 32 512 ?_ ?_ ?_ ?_).2.2.1 _ ?_ ?_ ?_ rfl),
    goes ((h.2 0 task7 3 1 2 (rigRuns 32 512 scratch0 mappedJob) 32 512 ?_ ?_ ?_ ?_).2.2.2.1 _ rfl ?_ ?_ ?_),
    goes ((h.2 0 task7 3 1 2 (rigRuns 32 3 scratch0 mappedJob) 32 3 ?_ ?_ ?_ ?_).2.2.2.2.1 ?_ ?_),
    goes ((h.2 0 task7 3 1 2 (rigRuns 32 (1 + 512 <<< 32) scratch0 mappedJob) 32 (1 + 512 <<< 32) ?_ ?_ ?_ ?_).2.2.2.2.2.1 ?_ ?_ ?_),
    goes ((h.2 0 task7 3 1 2 (rigRuns 32 5 scratch0 mappedJob) 32 5 ?_ ?_ ?_ ?_).2.2.2.2.2.2.1 ?_),
    goes ((h.2 0 task7 3 1 2 (rigRuns 32 16 scratch0 mappedJob) 32 16 ?_ ?_ ?_ ?_).2.2.2.2.2.2.2.1 ?_),
    goes ((h.2 0 task7 3 1 2 (rigRuns 256 7 scratch0 mappedJob) 256 7 ?_ ?_ ?_ ?_).2.2.2.2.2.2.2.2.1 ?_ ?_ ?_),
    goes ((h.2 0 task7 3 1 2 (rigRuns 260 7 scratch0 mappedJob) 260 7 ?_ ?_ ?_ ?_).2.2.2.2.2.2.2.2.2 ?_ ?_)⟩ <;> decide +kernel

/-! ### Witnesses: matrix engines -/

theorem pair_ok {r : State × MStat} (h : r.2 = .ok) : r = (r.1, .ok) := Prod.ext rfl h
theorem read_ok {r : Rd × State} {x : Rd} (h : r.1 = x) : r = (x, r.2) := Prod.ext h rfl

theorem data_ok {r : Rd × State} (h : r.1.st = .ok) : r = (⟨r.1.data, .ok⟩, r.2) := by rw [← h]

/-- An array of binary32 elements: its descriptor. -/
def f32Arr (elem rows cols : Nat) : Nat := elem + 8 <<< 144 + rows <<< 160 + cols <<< 192

/-- A product of one row, one column and length `k` in `split` parts, whose operands are the 0 of empty memory. -/
def matDesc (k split : Nat) : Nat := descOf 1 0 (1024 <<< 512 + 1056 <<< 576 + 1088 <<< 640 + 1 <<< 768 + 1 <<< 800 + k <<< 832 + (split - 1) <<< 920)
def matCaps (k : Nat) : AMap Nat Nat := [(1024, f32Arr 0 1 k), (1056, f32Arr 4096 k 1), (1088, f32Arr 8192 1 1)]
def matEntry (d k nxt tot : Nat) : Entry :=
  { next := 1, st := .running, desc := d, run := .matrix nxt 0 tot [] none, watchRec := none, caps := matCaps k, reads := [] }
def matTask (e : Entry) : State :=
  { modDie 0 0 (fun k => { k with entries := [(7, e)] }) mappedJob with
    power := { State.reset.power with holders := [(.matrix 3, 100), (.vector 0, 100)] } }
def partOf (k p parts k0 k1 : Nat) : WorkUnit :=
  { shape := plainShape (matEntry (matDesc k parts) k parts parts), first := 0, count := 1, n0 := 0, cols := 1, part := p, parts := parts,
    k0 := k0, k1 := k1, solo := false }
def unitAt (u loaded : Nat) (ended : Bool) : MatUnit :=
  { MatUnit.start task7 u [0] [] with loaded := loaded, ended := ended, waitParts := ended, bank := if ended then [EA40.zero] else [] }
def holdsUnit (e : Fin 68) (u : MatUnit) (s : State) : State := modEng e (fun x => { x with units := [u], slot := some 0 }) s

def oneUnit : State := matTask (matEntry (matDesc 1 1) 1 0 1)
def loading1 : State := holdsUnit 3 (unitAt 0 0 false) (matTask (matEntry (matDesc 1 1) 1 1 1))
def loaded1 : State := holdsUnit 3 (unitAt 0 1 false) (matTask (matEntry (matDesc 1 1) 1 1 1))
def loaded2 : State := holdsUnit 3 (unitAt 1 1 false) (matTask (matEntry (matDesc 257 2) 257 2 2))
def waiting2 : State := holdsUnit 4 (unitAt 1 1 true) (holdsUnit 3 (unitAt 0 1 true) (matTask (matEntry (matDesc 257 2) 257 2 2)))
def failing (rerun : Bool) (err : Byte) : State :=
  modEng 3 (fun x => { x with units := [{ unitAt 0 1 false with rerun := rerun }], err := err }) loaded1

/-- The spare of die 0 is tested, in place of engine 3, which is fenced, or of none. -/
def testing (lost : Bool) : State :=
  modEng 3 (fun x => if lost then { x with st := meFENCED, logical := 0xFF } else x)
    (modEng 64 (fun x => { x with st := meTESTING, standIn := if lost then some 3 else none }) booted)

def failed : Run → Bool
  | .matrix _ _ _ _ (some _) => true
  | _ => false

theorem undisturbed {s : State} (h1 : ∀ slot die, ∀ p ∈ (jobDie s slot die).entries, failed p.2.run = false)
    (h2 : ∀ e : Fin 68, s.engines[e].fence = false) : Undisturbed s :=
  ⟨fun i d p hp n k tot back f hr => by have := h1 i d p hp; simp [hr, failed] at this, h2⟩

theorem witness_MatrixUnitsRunAndEnginesHeal (h : Obligations.MatrixUnitsRunAndEnginesHeal) :
    Goes (.matrixUnitStart 0 0 7 3) oneUnit ∧ Goes (.tileLoaded 3) loading1 ∧ Goes (.unitPassesEnd 3) loaded2 ∧ Goes (.unitPassesEnd 3) loaded1 ∧
    Goes (.ksplitCombine 3) waiting2 ∧ Goes (.residueCheckFail 3) (failing false 6) ∧ Goes (.residueCheckFail 3) (failing true 0) ∧
    Goes (.residueCheckFail 3) (failing false 7) ∧ Goes (.spareTestDone 0 true) (testing true) ∧ Goes (.spareTestDone 0 true) (testing false) ∧
    Goes (.spareTestDone 0 false) (testing false) := by
  refine ⟨goes (h.1.1 task7 3 oneUnit _ 0 (partOf 1 0 1 0 1) [3] rfl ?_ ?_ ?_ ?_ (fun p x hp hx => ?_)),
    goes (h.1.2.1 3 loading1 (unitAt 0 0 false) (matEntry (matDesc 1 1) 1 1 1) (partOf 1 0 1 0 1) _ _ ?_ ?_ (fun _ => ?_) rfl ?_ rfl ?_),
    goes ((h.1.2.2.1 3 loaded2 (unitAt 1 1 false) (matEntry (matDesc 257 2) 257 2 2) (partOf 257 1 2 1 2) _ ?_ ?_ ?_ rfl ?_).1 ?_),
    goes ((h.1.2.2.1 3 loaded1 (unitAt 0 1 false) (matEntry (matDesc 1 1) 1 1 1) (partOf 1 0 1 0 1) _ ?_ ?_ ?_ rfl ?_).2 _ ?_ ?_ (fun hs => ?_) ⟨?_, ?_⟩
      (undisturbed ?_ ?_) (pair_ok ?_)),
    goes (h.1.2.2.2 3 waiting2 _ (unitAt 0 1 true) (matEntry (matDesc 257 2) 257 2 2) (partOf 257 0 2 0 1) [unitAt 0 1 true, unitAt 1 1 true] ?_ (fun hs => ?_)
      ⟨?_, ?_⟩ (undisturbed ?_ ?_) (pair_ok ?_)),
    goes ((h.2.1 3 (failing false 6) (unitAt 0 1 false) ?_ ?_).1 ?_ ?_), goes ((h.2.1 3 (failing true 0) { unitAt 0 1 false with rerun := true } ?_ ?_).2 (.inl ?_) ?_ ?_),
    goes ((h.2.1 3 (failing false 7) (unitAt 0 1 false) ?_ ?_).2 (.inr ?_) ?_ ?_), goes ((h.2.2 0 (testing true) 64 ?_).1 3 ?_),
    goes ((h.2.2 0 (testing false) 64 ?_).2.1 ?_), goes (h.2.2 0 (testing false) 64 ?_).2.2⟩
  case refine_5 =>
    obtain rfl : p = 0 := Nat.lt_one_iff.mp hp
    have key : (unitsOf (entryOf oneUnit task7))[0]?.map (fun x => (unitTiles oneUnit task7.slot (entryOf oneUnit task7) x
      ((readEnts oneUnit task7.slot (entryOf oneUnit task7) (partOf 1 0 1 0 1)).map Prod.fst)).2) = some .ok := by decide +kernel
    rw [show (unitsOf (entryOf oneUnit task7))[0]? = some x from hx] at key
    exact Option.some.inj key
  all_goals decide +kernel

/-! ### Witnesses: vector engines -/

def vf (td ta tb : BitVec 5) (cs : BitVec 6) (imm : BitVec 26) : VFields :=
  { mask := 0, mz := false, td := td, ta := ta, tb := tb, tc := 0, cs := cs, imm := imm }

/-- An instance of task 7 of eight instructions whose scalar 5 holds a value, on vector engine 0, with tiles, a mask and tokens. -/
def vinst (c5 : BitVec 64) : VecInst := VecInst.start task7 0 4096 8 ((Vector.replicate 64 0).set 5 c5)
def vecOn (i : VecInst) (s : State) : State :=
  modVe 0 (fun k => { k with inst := some i, slot := some 0, tiles := [(1, List.replicate 2048 0x3F800000), (2, List.replicate 2048 0x40000000)], masks := [(1, 5)] }) s
def vecTask : Entry :=
  { next := 1, st := .running, desc := descOf 3 0 (8 <<< 912), run := .vector 1 0 1 [] [], watchRec := some 4, caps := [], reads := [] }
def vecAt (c5 : BitVec 64) : State := vecOn (vinst c5) (matTask vecTask)

theorem witness_VectorInstructionsComputeTheirLanes (h : Obligations.VectorInstructionsComputeTheirLanes) :
    Goes (.tadd 0 (vf 3 1 2 0 0)) (vecAt 0) ∧ Goes (.tbcast 0 (vf 3 0 0 5 0)) (vecAt 77) := by
  refine ⟨goes (h (.tadd 0 (vf 3 1 2 0 0)) 0 (vf 3 1 2 0 0) 0x10 _ (vecAt 0) (vinst 0) rfl ⟨?_, ?_, ?_⟩),
    goes (h (.tbcast 0 (vf 3 0 0 5 0)) 0 (vf 3 0 0 5 0) 0x05 _ (vecAt 77) (vinst 77) rfl ⟨?_, ?_, ?_⟩)⟩ <;> decide +kernel

theorem witness_VectorMasksReductionsAndRanks (h : Obligations.VectorMasksReductionsAndRanks) :
    Goes (.tcmp 0 (vf 0 1 2 0 0x0A)) (vecAt 0) ∧ Goes (.mop 0 (vf 0 0 0 0 0x050)) (vecAt 0) ∧ Goes (.mpop 0 (vf 0 0 0 5 0)) (vecAt 0) ∧
    Goes (.sadd 0 (vf 0 0 0 5 0x3FFFFFF)) (vecAt 9) ∧ Goes (.trsum 0 (vf 3 1 0 0 0)) (vecAt 0) ∧ Goes (.tcmax 0 (vf 3 1 0 0 0)) (vecAt 0) ∧
    Goes (.tcomp 0 { vf 31 1 0 5 0 with mask := 1 }) (vecAt 2046) ∧ Goes (.texpd 0 { vf 3 30 0 5 0 with mask := 1 }) (vecAt 4094) ∧
    Goes (.topk 0 (vf 0 1 0 5 0)) (vecAt 9) ∧ Goes (.topkrd 0 (vf 30 0 0 0 16)) (vecAt 0) := by
  refine ⟨goes ((h 0 (vf 0 1 2 0 0x0A) (vecAt 0) (vinst 0) _ _ rfl rfl).2.1 ⟨?_, ?_, ?_⟩),
    goes ((h 0 (vf 0 0 0 0 0x050) (vecAt 0) (vinst 0) _ _ rfl rfl).2.2.1 ⟨?_, ?_, ?_⟩),
    goes ((h 0 (vf 0 0 0 5 0) (vecAt 0) (vinst 0) _ _ rfl rfl).2.2.2.1 ⟨?_, ?_, ?_⟩),
    goes ((h 0 (vf 0 0 0 5 0x3FFFFFF) (vecAt 9) (vinst 9) _ _ rfl rfl).2.2.2.2.1 ⟨?_, ?_, ?_⟩),
    goes ((h 0 (vf 3 1 0 0 0) (vecAt 0) (vinst 0) _ _ rfl rfl).2.2.2.2.2.1 (.trsum 0 (vf 3 1 0 0 0)) f32add 0 List.mem_cons_self ⟨?_, ?_, ?_⟩),
    goes ((h 0 (vf 3 1 0 0 0) (vecAt 0) (vinst 0) _ _ rfl rfl).2.2.2.2.2.2.1 (.tcmax 0 (vf 3 1 0 0 0)) (f32pick true) f32ninf
      (List.mem_cons_of_mem _ List.mem_cons_self) ⟨?_, ?_, ?_⟩),
    goes ((h 0 { vf 31 1 0 5 0 with mask := 1 } (vecAt 2046) (vinst 2046) _ _ rfl rfl).2.2.2.2.2.2.2.1 2046 ?_ ?_ ⟨?_, ?_, ?_⟩),
    goes ((h 0 { vf 3 30 0 5 0 with mask := 1 } (vecAt 4094) (vinst 4094) _ _ rfl rfl).2.2.2.2.2.2.2.2.1 4094 ?_ ?_ ⟨?_, ?_, ?_⟩),
    goes ((h 0 (vf 0 1 0 5 0) (vecAt 9) (vinst 9) _ _ rfl rfl).2.2.2.2.2.2.2.2.2.1 (.topk 0 (vf 0 1 0 5 0)) 0x60 _ (.inl ⟨rfl, rfl, rfl⟩) ⟨?_, ?_, ?_⟩),
    goes ((h 0 (vf 30 0 0 0 16) (vecAt 0) (vinst 0) _ _ rfl rfl).2.2.2.2.2.2.2.2.2.2 16 ?_ ?_ ?_ ?_ ⟨?_, ?_, ?_⟩)⟩ <;> decide +kernel

/-- A matrix task whose first output is its paired vector engine, under a template of eight instructions. -/
def pairTask : Entry := { matEntry (matDesc 1 1 + 2 <<< 864) 1 1 1 with caps := (1088, descOf 3 0 (8 <<< 912)) :: matCaps 1 }
def pairState : State := holdsUnit 3 (unitAt 0 0 false) (matTask pairTask)
def landInst (landed released : Nat) : VecInst :=
  { vinst 0 with paired := true, drained := true, groups := 2, landBase := 4, landCnt := 4, landed := landed, released := released, outRows := [[7]] }
def spareVec : State := matTask { vecTask with run := .vector 1 0 4 [] [] }

theorem tile_ok {i : VecInst} {a d : Nat} {w : Bool} {s : State}
    (h : (match (tileArr i a w s).1 with | .ok q => decide (q = d) | .error _ => false) = true) : tileArr i a w s = (.ok d, (tileArr i a w s).2) := by
  cases hq : tileArr i a w s with
  | mk r u => cases r <;> simp_all
theorem store_ok {r : State × MStat × Cnt} (h : r.2.1 = .ok) : r = (r.1, .ok, r.2.2) := Prod.ext rfl (Prod.ext h rfl)

/-- An array of one row and two columns, a retained entry of one tile and a function table in job memory. -/
def entryD : Nat := 1 <<< 352 + 1 <<< 384
def writingEntry : REntry :=
  { st := .writing, gather := false, spill := false, tiles := [], pages := [], room := 0, reads := 0, writer := some task7, time := 0,
    desc := entryD, fb := 0 }
def arrState : State := vecOn (vinst 1024) (withBytes 1024 (leBytes 32 (f32Arr 0 1 2)) (matTask vecTask))
def entryState : State :=
  modJob 0 (fun j => { j with stash := { j.stash with entries := [(1024, writingEntry)] } })
    (objPut (jobKey oJOB_STASH 0 0) (4 <<< 192) (vecOn (vinst 1024) (withBytes 1024 (leBytes 64 entryD) (matTask vecTask))))
/-- The same entry, all of its tiles being the 0 of skipped blocks, under an instance that names it as an entry (bit 0). -/
def heldState : State :=
  modJob 0 (fun j => { j with stash := { j.stash with entries := [(1024, { writingEntry with st := .held, writer := none })] } })
    (vecOn (vinst 1025) (withBytes 1024 (leBytes 64 entryD) (matTask vecTask)))
theorem entry_ok {i : VecInst} {a d : Nat} {s : State}
    (h : (match (tileEntry i a s).1 with | .ok q => decide (q = d) | .error _ => false) = true) : tileEntry i a s = (.ok d, (tileEntry i a s).2) := by
  cases hq : tileEntry i a s with
  | mk r u => cases r <;> simp_all
def tableState : State := vecOn (vinst 1024) (withBytes 1024 (leBytes 16 (0x3F800000 <<< 96)) (matTask vecTask))

/-- The unit of `pairTask` that the instance serves. -/
def pairUnit : WorkUnit := { partOf 1 0 1 0 1 with shape := plainShape pairTask }

theorem witness_VectorInstancesStartLoadAndStore_1 (h : Obligations.VectorInstancesStartLoadAndStore) :
    Goes (.vectorInstanceStart 0 0 7 15) spareVec ∧ Goes (.pairedInstanceStart 3) pairState ∧
    Goes (.landingGroupLand 0) (vecOn (landInst 0 0) (matTask vecTask)) ∧ Goes (.landingGroupLand 0) (vecOn (landInst 1 1) (matTask vecTask)) := by
  refine ⟨goes (h.1 0 0 7 15 spareVec 1 0 4 [] [] ?_ ?_ ?_ ?_ ?_ ?_ ?_ ?_),
    goes (h.2.1 3 pairState 3 (unitAt 0 0 false) pairTask pairUnit ?_ ?_ ?_ ?_ ?_ ?_),
    goes (h.2.2.1 0 (vecOn (landInst 0 0) (matTask vecTask)) (landInst 0 0) ?_ ?_ ?_ ?_ ?_),
    goes (h.2.2.1 0 (vecOn (landInst 1 1) (matTask vecTask)) (landInst 1 1) ?_ ?_ ?_ ?_ ?_)⟩ <;> decide +kernel

theorem witness_VectorInstancesStartLoadAndStore_2 (h : Obligations.VectorInstancesStartLoadAndStore) :
    Goes (.tld 0 (vf 3 0 0 5 0)) arrState ∧ Goes (.tld 0 (vf 3 0 0 5 0)) heldState := by
  refine ⟨goes ((h.2.2.2 0 (vf 3 0 0 5 0) arrState (vinst 1024) (f32Arr 0 1 2) _).1 ⟨?_, ?_, ?_⟩ ?_ (tile_ok ?_) ?_),
    goes ((h.2.2.2 0 (vf 3 0 0 5 0) heldState (vinst 1025) entryD _).2.1 1024 ⟨?_, ?_, ?_⟩ ?_ ?_ (entry_ok ?_) ?_)⟩ <;> decide +kernel

theorem witness_VectorInstancesStartLoadAndStore_3 (h : Obligations.VectorInstancesStartLoadAndStore) :
    Goes (.tst 0 (vf 0 1 0 5 0)) arrState ∧ Goes (.tsts 0 (vf 0 1 0 5 0)) entryState := by
  refine ⟨goes ((h.2.2.2 0 (vf 0 1 0 5 0) arrState (vinst 1024) (f32Arr 0 1 2) _).2.2.1 _ _ ⟨?_, ?_, ?_⟩ (tile_ok ?_) (store_ok ?_)),
    goes ((h.2.2.2 0 (vf 0 1 0 5 0) entryState (vinst 1024) entryD _).2.2.2.1 writingEntry _ ⟨?_, ?_, ?_⟩ (read_ok ?_) ?_ ?_ ?_ ?_ ?_ ?_ ?_ (pair_ok ?_))⟩ <;>
  decide +kernel

theorem witness_VectorInstancesStartLoadAndStore_4 (h : Obligations.VectorInstancesStartLoadAndStore) :
    Goes (.tldft 0 (vf 0 0 0 5 12)) tableState ∧ Goes (.lwait 0 (vf 0 0 0 5 0)) (vecOn (landInst 1 0) (matTask vecTask)) ∧
    Goes (.lwait 0 (vf 0 0 0 5 0)) (vecOn (landInst 0 0) (matTask vecTask)) ∧ Goes (.lrel 0 (vf 0 0 0 5 0)) (vecOn (landInst 0 0) (matTask vecTask)) := by
  refine ⟨goes ((h.2.2.2 0 (vf 0 0 0 5 12) tableState (vinst 1024) 0 _).2.2.2.2.1 _ ⟨?_, ?_, ?_⟩ ?_ (data_ok ?_) ?_),
    goes ((h.2.2.2 0 (vf 0 0 0 5 0) (vecOn (landInst 1 0) (matTask vecTask)) (landInst 1 0) 0 booted).2.2.2.2.2.1 ⟨?_, ?_, ?_⟩ ?_ ?_),
    goes ((h.2.2.2 0 (vf 0 0 0 5 0) (vecOn (landInst 0 0) (matTask vecTask)) (landInst 0 0) 0 booted).2.2.2.2.2.2.1 ⟨?_, ?_, ?_⟩ ?_ ?_),
    goes ((h.2.2.2 0 (vf 0 0 0 5 0) (vecOn (landInst 0 0) (matTask vecTask)) (landInst 0 0) 0 booted).2.2.2.2.2.2.2 ⟨?_, ?_, ?_⟩ ?_)⟩ <;> decide +kernel

def watchIn (st : WatchSt) (s : State) : State := modJob 0 (fun j => { j with watch := { j.watch with st := st, recNo := 4 } }) s
/-- Another task of the watch record runs. -/
def otherRuns (s : State) : State := modDie 0 1 (fun k => { k with entries := [(9, vecTask)] }) s

theorem witness_VectorControlAndTheWatch (h : Obligations.VectorControlAndTheWatch) :
    Goes (.vLoop 0 (vf 0 0 0 5 7)) (vecAt 3) ∧ Goes (.vLoop 0 (vf 0 0 0 5 6)) (vecAt 0) ∧ Goes (.vEnd 0 (vf 0 0 0 0 0)) (vecAt 0) ∧
    Goes (.tmov 0 (vf 3 1 0 0 0)) (vecOn { vinst 0 with pc := 7 } (matTask vecTask)) ∧ Goes (.vectorUndefinedOpcode 0 0) (vecAt 0) ∧
    Goes (.wopen 0 (vf 0 0 0 5 0)) (vecAt 12) ∧ Goes (.wloss 0 (vf 0 1 0 0 0)) (watchIn .opened (vecAt 0)) ∧
    Goes (.wclose 0 (vf 0 0 0 5 0)) (otherRuns (watchIn .opened (vecAt 0))) ∧ Goes (.wverd 0 (vf 0 0 0 0 1)) (watchIn .held (vecAt 0)) := by
  have key : ∃ die : Fin 4, ∃ p ∈ (jobDie (otherRuns (watchIn .opened (vecAt 0))) 0 die).entries, p.2.st = .running ∧ p.2.watchRec = some 4 ∧
      ∀ v : Fin 64, (otherRuns (watchIn .opened (vecAt 0))).ves[v].inst.map (·.task) ≠ some ⟨0, die, BitVec.ofNat 16 p.1⟩ :=
    ⟨1, (9, vecTask), by decide +kernel⟩
  refine ⟨goes ((h.1 0 (vf 0 0 0 5 7) (vecAt 3) (vinst 3) ?_ ?_ ?_ ?_ ?_).1 3 ?_ ?_), goes ((h.1 0 (vf 0 0 0 5 6) (vecAt 0) (vinst 0) ?_ ?_ ?_ ?_ ?_).2 ?_ ?_),
    goes (h.2.1 (.vEnd 0 (vf 0 0 0 0 0)) 0 (vf 0 0 0 0 0) (vecAt 0) (vinst 0) 1 0 1 [] [] ?_ ?_ (calm ?_ ?_ ?_ ?_) ?_ (.inl ⟨rfl, ?_⟩)),
    goes (h.2.1 (.tmov 0 (vf 3 1 0 0 0)) 0 (vf 3 1 0 0 0) (vecOn { vinst 0 with pc := 7 } (matTask vecTask)) { vinst 0 with pc := 7 } 1 0 1 [] [] ?_ ?_
      (calm ?_ ?_ ?_ ?_) ?_ (.inr ⟨rfl, ?_, ?_⟩)),
    goes (h.2.2.1 0 0 (vecAt 0) (vinst 0) ?_ ?_ (calm ?_ ?_ ?_ ?_)),
    goes ((h.2.2.2 0 (vf 0 0 0 5 0) (vecAt 12) (vinst 12)).1 ⟨?_, ?_, ?_⟩ ?_ (.inl ?_)),
    goes ((h.2.2.2 0 (vf 0 1 0 0 0) (watchIn .opened (vecAt 0)) (vinst 0)).2.1 ⟨?_, ?_, ?_⟩ ?_),
    goes ((h.2.2.2 0 (vf 0 0 0 5 0) (otherRuns (watchIn .opened (vecAt 0))) (vinst 0)).2.2.1 ?_ ?_ ?_
      (calm (slot := 0) (s := otherRuns (watchIn .held (vecAt 0))) ?_ ?_ ?_ ?_).1 ?_ key),
    goes ((h.2.2.2 0 (vf 0 0 0 0 1) (watchIn .held (vecAt 0)) (vinst 0)).2.2.2 1 1 ⟨?_, ?_, ?_⟩ ?_ (calm ?_ ?_ ?_ ?_) ?_ ?_ ?_ ?_)⟩ <;> decide +kernel

/-! ### Witnesses: memory -/

def memReq (addr len : Nat) : MemReq := { slot := some 0, die := 0, addr := addr, len := len, task := none }
def asJob : State := modCtl 0 (fun c => { c with asAct := c.asAct.set 0 [3], asCache := c.asCache.set 0 [2] }) mappedJob

/-- A stream of two rows of 64 bytes, 4096 bytes apart, from a base on, of a job with a page of stream cache or without one. -/
def stream0 (base : Nat) : Prefetch :=
  { task := task7, user := .operand 3 false false, base := base, stride := 4096, len := 64, expBase := 8192, expStride := 0, expLen := 1, count := 2,
    rows := [], next := 1, held := [], idle := 0 }
def streamState (base : Nat) (j : State) : State :=
  { j with mem := { j.mem with prefetch := j.mem.prefetch.set 0 (j.mem.prefetch[0].set 5 (some (stream0 base))) } }
def stackIn (st : StackState) (fails : List Nat) : State := modStack 4 (fun k => { k with st := st, calFails := fails }) booted
/-- An entry in WRITING of a pool of `n` pages from 65536 on. -/
def arriving (n : Nat) : State :=
  modJob 0 (fun j => { j with stash := { j.stash with entries := [(1024, writingEntry)] } })
    (objPut (jobKey oJOB_STASH 0 0) (n <<< 192 + 65536 <<< 64) (withBytes 1024 (leBytes 64 entryD) mappedJob))
def tile0 : List (BitVec 32) := [0x3F800000]
def tile0Blocks : List Block × Cnt :=
  tileBlocks entryD (fun r c => if 32 * 0 + r < eRows entryD ∧ 64 * 0 + c < eCols entryD then f32val (tile0.getD (64 * r + c) 0) else .zero false)
theorem some_of {α β : Type} {x : Option (α × β)} (h : x.isSome = true) : x = some ((x.get h).1, (x.get h).2) := (Option.some_get h).symm

theorem witness_MemoryIsReadWrittenAndKeptUp (h : Obligations.MemoryIsReadWrittenAndKeptUp) :
    Goes (.memoryRead (memReq 70 8) .clean) (withBytes 70 [1, 2] mappedJob) ∧ Goes (.memoryRead (memReq 70 8) .corrected) (withBytes 70 [1, 2] mappedJob) ∧
    Goes (.memoryRead (memReq 70 8) .uncorrectable) (withBytes 70 [1, 2] mappedJob) ∧
    Goes (.memoryWrite (memReq 70 3) [7, 8, 9] .clean) (withBytes 70 [1, 2] mappedJob) ∧
    Goes (.asAccess (memReq 0xFFF000000008 8) none .clean) asJob ∧ Goes (.asAccess (memReq 0xFFF000000008 2) (some [5, 6]) .clean) asJob ∧
    Goes (.prefetchFetch 0 5) (streamState 0 asJob) ∧ Goes (.prefetchFetch 0 5) (streamState 0 mappedJob) ∧ Goes (.prefetchFetch 0 5) (streamState 0x300000 asJob) ∧
    Goes (.patrolScrub 4 77 .clean true) (stackIn .ok []) ∧ Goes (.stackRecalibration 4 true) (stackIn .ok []) ∧
    Goes (.stackRecalibration 4 false) (stackIn .ok [0, 0]) ∧ Goes (.migrationStart 4) (stackIn .failing []) ∧
    Goes (.granuleMigrate 4 []) (stackIn .migrating []) ∧ Goes (.stashTileArrive 0 1024 0 0 tile0) (arriving 0) ∧ Goes (.stashTileArrive 0 1024 0 0 tile0) (arriving 4) := by
  refine ⟨goes ((h.1.1 (memReq 70 8) (withBytes 70 [1, 2] mappedJob) 0 (5 * 2097152 + 70) ?_ ?_ ?_ ?_ ?_).1 ?_ ?_).1,
    goes ((h.1.1 (memReq 70 8) (withBytes 70 [1, 2] mappedJob) 0 (5 * 2097152 + 70) ?_ ?_ ?_ ?_ ?_).1 ?_ ?_).2,
    goes (h.1.1 (memReq 70 8) (withBytes 70 [1, 2] mappedJob) 0 (5 * 2097152 + 70) ?_ ?_ ?_ ?_ ?_).2,
    goes (h.1.2.1 (memReq 70 3) (withBytes 70 [1, 2] mappedJob) 0 (5 * 2097152 + 70) [7, 8, 9] ?_ ?_ ?_ ?_ ?_ (.inr ⟨?_, ?_⟩)),
    goes ((h.1.2.2 (memReq 0xFFF000000008 8) asJob 0 (asDpa 0 3 8) ?_ ?_ ?_ ?_ ?_).1 ?_ ?_ ?_),
    goes ((h.1.2.2 (memReq 0xFFF000000008 2) asJob 0 (asDpa 0 3 8) ?_ ?_ ?_ ?_ ?_).2 [5, 6] ?_ ?_ ?_),
    goes ((h.2.1 0 5 (streamState 0 asJob) (stream0 0) _ _ _ _ ?_ ?_ ?_ rfl rfl rfl rfl).1 ?_ ?_), goes ((h.2.1 0 5 (streamState 0 mappedJob) (stream0 0) _ _ _ _ ?_ ?_ ?_ rfl rfl rfl rfl).2.1 ?_ ?_),
    goes ((h.2.1 0 5 (streamState 0x300000 asJob) (stream0 0x300000) _ _ _ _ ?_ ?_ ?_ rfl rfl rfl rfl).2.2 ?_), goes (h.2.2.1 4 77 (stackIn .ok []) ?_ ?_ ?_ ?_),
    goes (h.2.2.2.1 4 (stackIn .ok []) [0] ?_ ?_ ?_).1, goes (h.2.2.2.1 4 (stackIn .ok [0, 0]) [0, 0, 0] ?_ ?_ ?_).2,
    goes ((h.2.2.2.2.1 4 (stackIn .failing []) ?_).1 ?_ ?_), goes ((h.2.2.2.2.1 4 (stackIn .migrating []) ?_).2 ?_),
    goes ((h.2.2.2.2.2 0 1024 0 0 (tileBytes entryD tile0Blocks.1).1 (tileBytes entryD tile0Blocks.1).2 tile0 (arriving 0) _ writingEntry task7 tile0Blocks
      ?_ ?_ ?_ ?_ ?_ ?_ ?_ rfl rfl ?_).1 ?_),
    goes ((h.2.2.2.2.2 0 1024 0 0 (tileBytes entryD tile0Blocks.1).1 (tileBytes entryD tile0Blocks.1).2 tile0 (arriving 4) _ writingEntry task7 tile0Blocks
      ?_ ?_ ?_ ?_ ?_ ?_ ?_ rfl rfl ?_).2 _ _ _ (some_of ?_) (pair_ok ?_))⟩ <;> decide +kernel

/-! ### Witnesses: the update and collective steps -/

/-- A job whose task 7 has a descriptor, a run and records, with flows to nodes 0 and 9. -/
def collTask (d : Nat) (run : Run) (caps : AMap Nat Nat) (s : State) : State :=
  modJob 0 (fun j => { j with vmt := { j.vmt with flows := [(0, Flow.new), (9, Flow.new)] } })
    (modDie 0 0 (fun k => { k with entries := [(7, { next := 1, st := .running, desc := d, run := run, watchRec := none, caps := caps, reads := [] })] }) s)
/-- A collective step of an operation: its record lies at 2048, its list at 3072. -/
def collDesc (op count rest : Nat) : Nat := descOf 5 0 (op <<< 896 + 2048 <<< 816 + 3072 <<< 768 + count <<< 752 + rest)

/-- A segment of one row and `cols` columns with its header at 4096 and its buffer's descriptor at 8192. -/
def segD (cols : Nat) : Nat := 8192 <<< 336 + 4096 <<< 272 + 65536 <<< 128 + 131072 <<< 224 + (cols - 1) <<< 66
def segMem (cols tag : Nat) : State :=
  withBytes 8192 (leBytes 1 2) (withBytes 4096 (leBytes 64 (tag <<< 384)) (withBytes 1024 (leBytes 64 (segD cols)) mappedJob))
def segTask (cols tag : Nat) (run : Run) : State := collTask (collDesc 5 0 0) run [(2048, 1024 <<< 400 + 1 <<< 383), (grpKey 0, 1)] (segMem cols tag)
/-- Two sub-tiles are real; the plane of the buffer lies at 262144. -/
def tileTask : State := withBytes 8192 (leBytes 128 (262144 <<< 976 + 1 <<< 942 + 2)) (segTask 33 0 (.coll Track.new 1 [0, 1, 0, 0]))

set_option maxRecDepth 20000 in
theorem witness_SegmentsAndBucketsTakeSteps_1 (h : Obligations.SegmentsAndBucketsTakeSteps) :
    Goes (.segmentStart 0 0 7) (segTask 1 0 (.coll Track.new 0 [])) ∧ Goes (.segmentStart 0 0 7) (segTask 1 1 (.coll Track.new 0 [])) ∧
    Goes (.subtileUpdate 0 0 7 0 0) tileTask := by
  refine ⟨goes ((h.1.1 0 0 7 (segTask 1 0 (.coll Track.new 0 [])) 0 [] (segD 1) 0 ?_ ?_ ?_ ?_ ?_ ?_ ?_ ?_ ?_).1 ?_ ?_ ?_),
    goes ((h.1.1 0 0 7 (segTask 1 1 (.coll Track.new 0 [])) 0 [] (segD 1) (1 <<< 384) ?_ ?_ ?_ ?_ ?_ ?_ ?_ ?_ ?_).2 ?_ ?_),
    goes (h.1.2 0 0 7 0 0 tileTask _ 1 [0, 1, 0, 0] 0 (segD 33) (262144 <<< 976 + 1 <<< 942 + 2) 1 _ _
      ?_ ?_ ?_ rfl ?_ ?_ ?_ ?_ ?_ ?_ ?_ rfl ?_ (pair_ok ?_) ?_)⟩ <;> decide +kernel

/-- A bucket at 2048 of buffers at 4096 and 8192, whose even half has a state; counters from address 0; threshold 5. -/
def bucketD (st : Nat) : Nat := 4096 <<< 976 + 8192 <<< 928 + 5 <<< 880 + st <<< 256
def half0 (closer : Option TaskRef) (dl : Option Nat) : BucketHalf := { buf := 4096, die := 0, closer := closer, deadline := dl }
def bucketState (st : Nat) (bs : AMap (Nat × Bool) BucketHalf) (d : Nat) (run : Run) : State :=
  modJob 0 (fun j => { j with buckets := bs })
    (objPut (jobKey oJOB_VMT 0 0) (9 <<< 191) (collTask d run [] (withBytes 2048 (leBytes 128 (bucketD st)) mappedJob)))
def initState : State :=
  withBytes 8192 (leBytes 128 (524288 <<< 976 + 1 <<< 942)) (withBytes 4096 (leBytes 128 (262144 <<< 976 + 1 <<< 942)) (bucketState 0 [] (collDesc 1 0 0) .idle))

def draining (s : State) : State := modCtl 0 (fun c => { c with st := .draining }) s

theorem witness_SegmentsAndBucketsTakeSteps_2 (h : Obligations.SegmentsAndBucketsTakeSteps) :
    Goes (.collInit task7) initState ∧ Goes (.collClose task7) (bucketState 1 [((2048, false), half0 none none)] (collDesc 4 0 0) .idle) ∧
    Goes (.collClose task7) (draining (bucketState 1 [((2048, false), half0 none none)] (collDesc 4 0 0) .idle)) ∧
    Goes (.collClose task7) (bucketState 3 [] (collDesc 4 0 0) .idle) ∧
    Goes (.bucketDeadline 0 2048 false) (bucketState 2 [((2048, false), half0 (some task7) (some 5))] (collDesc 4 0 0) (.coll Track.new 0 [])) ∧
    Goes (.collUpdate task7) (bucketState 0 [] (collDesc 5 0 0) .idle) ∧ Goes (.collPermute task7) (bucketState 0 [] (collDesc 7 0 0) .idle) := by
  have wait1 : ∀ die : Fin 4, ∀ p ∈ (jobDie (bucketState 1 [((2048, false), half0 none none)] (collDesc 4 0 0) .idle) 0 die).entries,
      waits p.2.run = false := by decide +kernel
  have wait3 : ∀ die : Fin 4, ∀ p ∈ (jobDie (draining (bucketState 1 [((2048, false), half0 none none)] (collDesc 4 0 0) .idle)) 0 die).entries,
      waits p.2.run = false := by decide +kernel
  have wait2 : ∀ die : Fin 4, ∀ p ∈ (jobDie (bucketState 2 [((2048, false), half0 (some task7) (some 5))] (collDesc 4 0 0) (.coll Track.new 0 [])) 0 die).entries,
      waits p.2.run = false := by decide +kernel
  have key : task7.slot = 0 ∧
      NoSuccessors (entryOf (bucketState 2 [((2048, false), half0 (some task7) (some 5))] (collDesc 4 0 0) (.coll Track.new 0 [])) task7).desc ∧
      (entryOf (bucketState 2 [((2048, false), half0 (some task7) (some 5))] (collDesc 4 0 0) (.coll Track.new 0 [])) task7).reads = [] :=
    ⟨rfl, ⟨by decide +kernel, by decide +kernel⟩, by decide +kernel⟩
  refine ⟨goes (h.2.1 task7 initState (collDesc 1 0 0) ?_ ?_ (calm ?_ ?_ ?_ ?_)),
    goes (((h.2.2.1 task7 (bucketState 1 [((2048, false), half0 none none)] (collDesc 4 0 0) .idle) (collDesc 4 0 0) (bucketD 1) ?_ ?_).1 (half0 none none) ?_ ?_
      (fun die p hp => no_wait (wait1 die p hp)) ?_ ?_ ?_).1 ?_),
    goes (((h.2.2.1 task7 (draining (bucketState 1 [((2048, false), half0 none none)] (collDesc 4 0 0) .idle)) (collDesc 4 0 0) (bucketD 1) ?_ ?_).1
      (half0 none none) ?_ ?_ (fun die p hp => no_wait (wait3 die p hp)) ?_ ?_ ?_).2 ?_),
    goes ((h.2.2.1 task7 (bucketState 3 [] (collDesc 4 0 0) .idle) (collDesc 4 0 0) (bucketD 3) ?_ ?_).2 ?_),
    goes (h.2.2.2.1 0 2048 false (bucketState 2 [((2048, false), half0 (some task7) (some 5))] (collDesc 4 0 0) (.coll Track.new 0 [])) (half0 (some task7) (some 5))
      ?_ ?_ ?_ ?_ (fun die p hp => no_wait (wait2 die p hp)) ?_ ?_
      (fun t0 ht => Option.some.inj ht ▸ key)),
    goes ((h.2.2.2.2 task7 (bucketState 0 [] (collDesc 5 0 0) .idle) (collDesc 5 0 0)).1 ?_),
    goes ((h.2.2.2.2 task7 (bucketState 0 [] (collDesc 7 0 0) .idle) (collDesc 7 0 0)).2 ?_)⟩ <;> decide +kernel

/-- Two parts without rows, of nodes 0 and 9. -/
def ringIn (d : Nat) (run : Run) : State :=
  withBytes 8 (leBytes 4 1) (withBytes 3104 (leBytes 32 (9 <<< 110)) (bucketState 1 [] d run))
/-- A gather source of one row at node 9. -/
def gsD : Nat := 9 <<< 94 + 1 <<< 112 + 4096 <<< 160 + 8192 <<< 208
def gatherState : State := collTask (collDesc 6 1 0) .idle [(3072, gsD)] (withBytes 2048 (leBytes 64 entryD) mappedJob)
/-- A PERMUTE of one entry at 3072: a chunk of 4,096 bytes for node 9, or one of no bytes that is saved. -/
def pmD (chunk : Nat) : Nat := 3072 <<< 464 + 1 <<< 432 + 65536 <<< 384 + 1 <<< 352 + 131072 <<< 304 + 1 <<< 272 + chunk <<< 232
def moveState (chunk e : Nat) : State := collTask (collDesc 7 0 0) (.coll Track.new 0 []) [(2048, pmD chunk)] (withBytes 3072 (leBytes 32 e) mappedJob)
theorem ops_ok {r : List TxReq × MStat} (h : r.2 = .ok) : r = (r.1, .ok) := Prod.ext rfl h
theorem own_ok {r : State × Option (BitVec 8)} (h : r.2 = none) : r = (r.1, none) := Prod.ext rfl h

theorem witness_CollectiveStepsIssueTheirRequests (h : Obligations.CollectiveStepsIssueTheirRequests) :
    Goes (.collReduce task7) (ringIn (collDesc 2 1 0) .idle) ∧ Goes (.collRing task7) (ringIn (collDesc 3 2 0) .idle) ∧
    Goes (.ringStageSend task7) (ringIn (collDesc 3 2 0) (.coll Track.new 0 [1])) ∧ Goes (.collGather task7) gatherState ∧
    Goes (.moveEntryStart task7 0) (moveState 1 (9 <<< 238)) ∧ Goes (.moveEntryStart task7 0) (moveState 0 (1 <<< 236)) := by
  refine ⟨goes (h.1 task7 (ringIn (collDesc 2 1 0) .idle) (collDesc 2 1 0) (bucketD 1) 0 _ ?_ (calm ?_ ?_ ?_ ?_) ?_ ?_ ?_ ?_ ?_ rfl ?_ ⟨?_, ?_, ?_, ?_, ?_⟩),
    goes (h.2.1 task7 (ringIn (collDesc 3 2 0) .idle) _ (collDesc 3 2 0) (bucketD 1) 0 9 ?_ ?_ ?_ (own_ok ?_) (calm ?_ ?_ ?_ ?_) ?_ ⟨?_, ?_, ?_, ?_, ?_⟩),
    goes (h.2.2.1 task7 (ringIn (collDesc 3 2 0) (.coll Track.new 0 [1])) 0 0 Track.new [1] (collDesc 3 2 0) (bucketD 1) _ 9 ?_ ?_ ?_ ?_ ?_ ?_ ?_ ?_ ?_
      (ops_ok ?_) ?_ ⟨?_, ?_, ?_, ?_, ?_⟩ (calm ?_ ?_ ?_ ?_)),
    goes (h.2.2.2.1 task7 gatherState (collDesc 6 1 0) 9 _ _ ?_ (calm ?_ ?_ ?_ ?_) rfl ?_ rfl ⟨?_, ?_, ?_, ?_, ?_⟩),
    goes ((h.2.2.2.2 task7 (moveState 1 (9 <<< 238)) 0 0 Track.new [] (pmD 1) (9 <<< 238) ?_ ?_ ?_ ?_ ?_ ?_ ?_
      ?_ (fun k hk => absurd hk (Nat.not_lt_zero k)) ?_ ?_ ?_ ?_ (calm ?_ ?_ ?_ ?_)).1 _ ?_ rfl ⟨?_, ?_, ?_, ?_, ?_⟩),
    goes ((h.2.2.2.2 task7 (moveState 0 (1 <<< 236)) 0 0 Track.new [] (pmD 0) (1 <<< 236) ?_ ?_ ?_ ?_ ?_ ?_ ?_
      ?_ (fun k hk => absurd hk (Nat.not_lt_zero k)) ?_ ?_ ?_ ?_ (calm ?_ ?_ ?_ ?_)).2 _ ?_ ?_ (pair_ok ?_))⟩ <;> decide +kernel

/-! ### Witnesses: token exchange and copies -/

/-- An exchange of two members, this device and node 9, of one expert that nobody holds; its first token's candidate is none. -/
def exD : Nat := 2 <<< 832 + 3072 <<< 768 + 100 <<< 960 + 7 <<< 976
def exState (op : Nat) (run : Run) : State := collTask (collDesc op 0 0) run [(2048, exD), (grpTabKey 3072, 9 <<< 32)] mappedJob
/-- A DISPATCH that is READY. -/
def exReady : State :=
  modDie 0 0 (fun k => { k with entries := [(7, { next := 1, st := .ready 3, desc := collDesc 8 0 0, run := .idle, watchRec := none, caps := [(2048, exD)], reads := [] })] }) mappedJob
def countMsg (step : BitVec 32) : CountMsg := { exch := 0, step := step, round := 0, shape := 0, counts := [1, 2] }
def grantMsg : GrantMsg := { exch := 0, step := 2, round := 0, shape := 0, grants := [] }

theorem witness_ExchangesOfferSendAndTimeOut (h : Obligations.ExchangesOfferSendAndTimeOut) :
    Goes (.exDispatch task7) (exState 8 .idle) ∧ Goes (.exCombine task7) (exState 9 .idle) ∧ Goes (.exRdispatch task7) (exState 10 .idle) ∧
    Goes (.countMessage task7 1 (countMsg 1)) exReady ∧ Goes (.grantMessage task7 1 grantMsg) exReady ∧
    Goes (.exchDeadline task7) (exState 8 (.exch Track.new (ExchSt.start 0))) := by
  have none8 : exchStart (exState 8 .idle) task7 8 = some (entryOf (exState 8 .idle) task7) := by decide +kernel
  have fits : ∀ n ∈ List.range (msgBytes exD + 1), 64 ≤ n → writeStat (exState 8 .idle) 0
      (xMsg exD + xSeq exD % 2 * 2 * xG exD * msgBytes exD + xMe (exState 8 .idle) task7 (entryOf (exState 8 .idle) task7) * msgBytes exD) n = .ok := by decide +kernel
  refine ⟨goes ((h.1 task7 (exState 8 .idle) (entryOf (exState 8 .idle) task7) (calm ?_ ?_ ?_ ?_) ?_ ?_).1 1 none8 ?_ ?_ ?_ ?_ (fun n h1 h2 => fits n (List.mem_range.mpr (Nat.lt_succ_of_le h2)) h1)),
    goes ((h.1 task7 (exState 9 .idle) (entryOf (exState 9 .idle) task7) (calm ?_ ?_ ?_ ?_) ?_ ?_).2 (.exCombine task7) 9 _ List.mem_cons_self ?_ ?_),
    goes ((h.1 task7 (exState 10 .idle) (entryOf (exState 10 .idle) task7) (calm ?_ ?_ ?_ ?_) ?_ ?_).2 (.exRdispatch task7) 10 _
      (List.mem_cons_of_mem _ List.mem_cons_self) ?_ ?_),
    goes ((h.2.1 task7 1 exReady (.countMessage task7 1 (countMsg 1)) _ (.inl ⟨countMsg 1, rfl, rfl⟩) ?_ (calm ?_ ?_ ?_ ?_) ?_).1 ?_),
    goes ((h.2.1 task7 1 exReady (.grantMessage task7 1 grantMsg) _ (.inr ⟨grantMsg, rfl, rfl⟩) ?_ (calm ?_ ?_ ?_ ?_) ?_).2 ?_),
    goes (h.2.2 task7 (exState 8 (.exch Track.new (ExchSt.start 0))) ?_ ?_ ?_ (calm ?_ ?_ ?_ ?_))⟩ <;> decide +kernel

/-- Copy tasks with node 9: five bytes, counter 3. -/
def copyDesc (op : Nat) : Nat := descOf 4 0 (op <<< 709 + 9 <<< 718 + 5 <<< 864 + 4096 <<< 816 + 3 <<< 800 + 64 <<< 752)
def copyState (op : Nat) (run : Run) : State := collTask (copyDesc op) run [] mappedJob
def unanswered (q : BitVec 32) (r : TxReq) : Outstanding :=
  { seq := q, req := r, tryN := 0, path := 0, charge := 0, onPath := 0, spent := [], txPaths := [], sent := true, lastTx := 0, busyCount := 0, busySince := 0, busyUntil := none }
/-- A request of task 7 with number 1 is unanswered at node 9. -/
def flowWith (out : List Outstanding) (wait : List TxReq) (s : State) : State :=
  modFlow 0 9 (fun f => { f with out := out, waiting := wait, txNext := 2 }) s
def waitFence : State := flowWith [unanswered 1 (signalRequest task7 (copyDesc 3))] [] (copyState 4 (.fence [(0, 9, 1)]))

theorem witness_CopyTasksIssueTheirRequests (h : Obligations.CopyTasksIssueTheirRequests) :
    Goes (.copyPut task7) (copyState 0 .idle) ∧ Goes (.copyGet task7) (copyState 1 .idle) ∧ Goes (.copyAtomic task7) (copyState 2 .idle) ∧
    Goes (.copySignal task7) (copyState 3 .idle) ∧ Goes (.copyFence task7) (copyState 4 (.fence [(0, 9, 1)])) ∧ Goes (.copyFence task7) waitFence ∧
    Goes (.flowRequestIssue 0 9) (flowWith [] [signalRequest task7 (copyDesc 3)] (copyState 3 (.copy Track.new))) := by
  refine ⟨goes (h.1 (.copyPut task7) 0 (putRequests task7) task7 (copyState 0 .idle) (copyDesc 0) (.inl ⟨rfl, rfl, rfl⟩) ?_ ⟨?_, ?_, ?_, ?_, ?_⟩ (calm ?_ ?_ ?_ ?_)),
    goes (h.1 (.copyGet task7) 1 (getRequests task7) task7 (copyState 1 .idle) (copyDesc 1) (.inr (.inl ⟨rfl, rfl, rfl⟩)) ?_ ⟨?_, ?_, ?_, ?_, ?_⟩ (calm ?_ ?_ ?_ ?_)),
    goes (h.1 (.copyAtomic task7) 2 _ task7 (copyState 2 .idle) (copyDesc 2) (.inr (.inr (.inl ⟨rfl, rfl, rfl⟩))) ?_ ⟨?_, ?_, ?_, ?_, ?_⟩ (calm ?_ ?_ ?_ ?_)),
    goes (h.1 (.copySignal task7) 3 _ task7 (copyState 3 .idle) (copyDesc 3) (.inr (.inr (.inr ⟨rfl, rfl, rfl⟩))) ?_ ⟨?_, ?_, ?_, ?_, ?_⟩ (calm ?_ ?_ ?_ ?_)),
    goes ((h.2.1 task7 (copyState 4 (.fence [(0, 9, 1)])) [(0, 9, 1)] ?_ ?_).1 ?_ ⟨?_, ?_⟩ ?_ (calm ?_ ?_ ?_ ?_)),
    goes ((h.2.1 task7 waitFence [(0, 9, 1)] ?_ ?_).2 ?_),
    goes (h.2.2 0 9 (flowWith [] [signalRequest task7 (copyDesc 3)] (copyState 3 (.copy Track.new))) (signalRequest task7 (copyDesc 3)) [] ?_ ?_ ?_)⟩ <;> decide +kernel

/-! ### Witnesses: transport -/

/-- Port 0 is UP on node 3; job 0 has ID 5 on the fabric, flows with nodes 0 and 9, a copy task and a window onto its page. -/
def netOf (run : Run) : State :=
  modPort 0 (fun q => { q with st := .up })
    (objPut (devKey oFABRIC_NODE 0) (3 <<< 222 + 1) (objPut (jobKey oJOB_WINDOW 0 0) (0x3F + 0x100000 <<< 368 + 8 <<< 304) (objPut (jobKey oJOB_VMT 0 0) (9 <<< 191)
      { copyState 0 run with sec := { State.reset.sec with jobKeys := State.reset.sec.jobKeys.set 0 (some ⟨0, 0, 5, 0, false, true, false⟩) } })))
def netState : State := modJob 0 (fun j => { j with vmt := { j.vmt with jobId := some 5 } }) (netOf (.copy ⟨3, 3, none⟩))

def packet (op va len : Nat) (payload : List Byte) : Packet :=
  { Packet.zero with
    jobId := 5, dst := 3, src := 9, seq := 1, time := BitVec.ofNat 40 booted.clock.now, va := BitVec.ofNat 48 va, ctr := 2,
    length := BitVec.ofNat 13 len, vl := 1, payload := if op = 1 then [] else payload }
/-- The packet as it is sent under the job's key, in mode AUTH: the payload stands in the clear (R341). -/
def authKey : JobKeys := ⟨0, 0, 5, 0, false, true, false⟩
def tagged (op : Byte) (p : Packet) : Packet := { p with tag := tagFor authKey op p }
def arrivalOf (p : Packet) : Arrival :=
  { port := 0, hdr := .crew 0 0 0, fecCorrected := 0, fecBad := 0, fcsOk := true,
    shim := { kind := 1, vl := 1, transit := false, hop := 0, ceEcho := false, rsv := 0 }, pkt := p }
def storeArr : Arrival := arrivalOf (tagged opSTORE (packet 2 64 3 [7, 8, 9]))
def loadArr : Arrival := arrivalOf (tagged opLOAD (packet 1 64 8 []))
def atomicArr : Arrival := arrivalOf (tagged opATOMIC (packet 3 64 16 (leBytes 16 5)))
def wideArr : Arrival := arrivalOf (tagged opSTORE (packet 2 0x200000 3 [7, 8, 9]))
def reservedArr : Arrival := arrivalOf (tagged 0x20 (packet 2 64 3 [7, 8, 9]))
def respArr : Arrival := arrivalOf (tagged opRESP (packet 2 0 3 [7, 8, 9]))
def refuseArr (code : Nat) : Arrival := arrivalOf (tagged opREFUSE (packet 2 0 8 (leBytes 8 code)))
def ackArr : Arrival := arrivalOf (tagged opACK (packet 2 0 16 (leBytes 16 1)))

theorem place_ok {s : State} {slot : Fin 64} {src : BitVec 18} {op : Byte} {p : Packet} {r : Except Byte Place}
    (h : (match checkRequest s slot src op p, r with
      | .ok a, .ok b => decide (a = b) | .error a, .error b => decide (a = b) | _, _ => false) = true) : checkRequest s slot src op p = r := by
  cases hq : checkRequest s slot src op p <;> cases r <;> simp_all
theorem served_ok {r : State × Served} {v : Served} (h : r.2 = v) : r = (r.1, v) := Prod.ext rfl h
/-- A packet under the job's key passes R342; that its tag holds needs no more than that the same tag is formed again. -/
theorem slot_ok {s : State} {op : Byte} {p : Packet} {i : Fin 64} (hk : s.sec.jobKeys[i] = some authKey) (h1 : p.dst = ownNode s ∧ nodeValid s = true)
    (h2 : p.ver = 1 ∧ p.length.toNat ≤ 4096 ∧ lengthFits op p = true) (h3 : slotOfJobId s p.jobId = some i)
    (h4 : (131072 < staleBy s.clock.now p.time || staleBy s.clock.now p.time < -4096) = false) : check1 s op (tagged op p) = .job i := by
  have d1 : (tagged op p).dst = p.dst := rfl
  have d2 : (tagged op p).ver = p.ver := rfl
  have d3 : (tagged op p).length = p.length := rfl
  have d4 : (tagged op p).jobId = p.jobId := rfl
  have d5 : (tagged op p).time = p.time := rfl
  have d6 : lengthFits op (tagged op p) = lengthFits op p := rfl
  have tg : tagHolds authKey op (tagged op p) = true := beq_self_eq_true (tagFor authKey op p)
  have hk' : s.sec.jobKeys[(i : Nat)] = some authKey := hk
  have n : ¬ 4096 < p.length.toNat := Nat.not_lt.mpr h2.2.1
  simp only [Bool.or_eq_false_iff, decide_eq_false_iff_not] at h4
  simp [check1, d1, d2, d3, d4, d5, d6, h1, h2, h3, h4, n, hk', tg]

theorem witness_VmtRequestsAreAppliedOrRefused (h : Obligations.VmtRequestsAreAppliedOrRefused) :
    Goes (.vmtStore storeArr) netState ∧ Goes (.vmtLoad loadArr) netState ∧ Goes (.vmtAtomic atomicArr) netState ∧ Goes (.vmtStore wideArr) netState ∧
    Goes (.vmtStore storeArr) (jobPoison 0 64 3 netState) ∧ checkRequest netState 0 9 0x20 (openArrival netState 0 reservedArr).pkt = .error rfBAD_FIELD := by
  refine ⟨goes (((h (.vmtStore storeArr) storeArr _ opSTORE netState 0 (.inr (.inl ⟨rfl, rfl⟩)) ⟨?_, ?_, ?_, ?_, ?_, ?_, slot_ok ?_ ⟨?_, ?_⟩ ⟨?_, ?_, ?_⟩ ?_ ?_⟩ ⟨?_, ?_, ?_, ?_⟩ (calm ?_ ?_ ?_ ?_) rfl).1
      ⟨64, 0, 0, 0⟩ _ _ (place_ok ?_) (served_ok ?_) (fun e => ?_)).1 (.inr rfl)),
    goes (((h (.vmtLoad loadArr) loadArr _ opLOAD netState 0 (.inl ⟨rfl, rfl⟩) ⟨?_, ?_, ?_, ?_, ?_, ?_, slot_ok ?_ ⟨?_, ?_⟩ ⟨?_, ?_, ?_⟩ ?_ ?_⟩ ⟨?_, ?_, ?_, ?_⟩ (calm ?_ ?_ ?_ ?_) rfl).1
      ⟨64, 0, 0, 0⟩ _ (.data (List.replicate 8 0) false) (place_ok ?_) (served_ok ?_) (fun e => ?_)).1 (.inl ⟨List.replicate 8 0, false, rfl⟩)),
    goes (((h (.vmtAtomic atomicArr) atomicArr _ opATOMIC netState 0 (.inr (.inr (.inl ⟨rfl, rfl⟩))) ⟨?_, ?_, ?_, ?_, ?_, ?_, slot_ok ?_ ⟨?_, ?_⟩ ⟨?_, ?_, ?_⟩ ?_ ?_⟩ ⟨?_, ?_, ?_, ?_⟩ (calm ?_ ?_ ?_ ?_) rfl).1
      ⟨64, 0, 0, 0⟩ _ (.old 0) (place_ok ?_) (served_ok ?_) (fun _ => ?_)).2.1 0 rfl),
    goes ((h (.vmtStore wideArr) wideArr _ opSTORE netState 0 (.inr (.inl ⟨rfl, rfl⟩)) ⟨?_, ?_, ?_, ?_, ?_, ?_, slot_ok ?_ ⟨?_, ?_⟩ ⟨?_, ?_, ?_⟩ ?_ ?_⟩ ⟨?_, ?_, ?_, ?_⟩ (calm ?_ ?_ ?_ ?_) rfl).2.1
      rfWINDOW (place_ok ?_) ?_ ?_),
    goes (((h (.vmtStore storeArr) storeArr _ opSTORE (jobPoison 0 64 3 netState) 0 (.inr (.inl ⟨rfl, rfl⟩)) ⟨?_, ?_, ?_, ?_, ?_, ?_, slot_ok ?_ ⟨?_, ?_⟩ ⟨?_, ?_, ?_⟩ ?_ ?_⟩ ⟨?_, ?_, ?_, ?_⟩ (calm ?_ ?_ ?_ ?_) rfl).1
      ⟨64, 0, 0, 0⟩ _ _ (place_ok ?_) (served_ok ?_) (fun e => ?_)).2.2 rfINTEGRITY rfl ?_ ?_),
    (h (.vmtReservedOpcode 0x20 reservedArr) reservedArr _ 0x20 netState 0 (.inr (.inr (.inr (.inr (.inr rfl))))) ⟨?_, ?_, ?_, ?_, ?_, ?_, slot_ok ?_ ⟨?_, ?_⟩ ⟨?_, ?_, ?_⟩ ?_ ?_⟩ ⟨?_, ?_, ?_, ?_⟩ (calm ?_ ?_ ?_ ?_) rfl).2.2 ?_⟩ <;> decide +kernel

/-- Requests of task 7 at node 9 that are unanswered: a LOAD of 3 bytes to address 128, and a SIGNAL. -/
def loadReq : TxReq := { TxReq.of task7 opLOAD 5 64 3 0 with dest := .land 128 }
def signalReq : TxReq := signalRequest task7 (copyDesc 3)
def netWith (o : Outstanding) : State := flowWith [o] [] netState
def due (b : Bool) : State := modFlow 0 9 (fun f => { f with ackDue := b }) netState

theorem clean_ok {s : State} {t : TaskRef} (h1 : isPermute (entryOf s t).desc = false) (h2 : (entryOf s t).run.track = some ⟨3, 3, none⟩)
    : Clean s t :=
  ⟨h1, fun k hk => by rw [h2] at hk; cases hk; rfl⟩

theorem retry_ok {x : Option Outstanding} (h : x.isSome = true) : x = some (x.get h) := (Option.some_get h).symm

theorem witness_VmtAnswersAndTimersEndRequests_1 (h : Obligations.VmtAnswersAndTimersEndRequests) :
    Goes (.vmtResp respArr) (netWith (unanswered 1 loadReq)) ∧ Goes (.vmtRefuse (refuseArr 1)) (netWith (unanswered 1 signalReq)) ∧
    Goes (.vmtRefuse (refuseArr 2)) (netWith (unanswered 1 signalReq)) ∧ Goes (.vmtAck ackArr) (netWith (unanswered 1 signalReq)) ∧
    Goes (.ackSend 0 9) (due true) ∧ Goes (.ackSend 0 9) (due false) := by
  refine ⟨goes (h.1.1 respArr _ (netWith (unanswered 1 loadReq)) _ 0 (unanswered 1 loadReq) 128 task7 ⟨3, 3, none⟩
      ⟨?_, ?_, ?_, ?_, ?_, ?_, slot_ok ?_ ⟨?_, ?_⟩ ⟨?_, ?_, ?_⟩ ?_ ?_⟩ (calm ?_ ?_ ?_ ?_) rfl ?_ ?_ ?_ ?_ ?_ ?_ ?_ (clean_ok ?_ ?_) ?_ (pair_ok ?_)),
    goes ((h.1.2.1 (refuseArr 1) _ (netWith (unanswered 1 signalReq)) 0 (unanswered 1 signalReq) task7 ⟨3, 3, none⟩ 1
      ⟨?_, ?_, ?_, ?_, ?_, ?_, slot_ok ?_ ⟨?_, ?_⟩ ⟨?_, ?_, ?_⟩ ?_ ?_⟩ (calm ?_ ?_ ?_ ?_) rfl ?_ ?_ ?_ ?_).1 ?_ ?_ ?_ (clean_ok ?_ ?_) ?_ ?_),
    goes ((h.1.2.1 (refuseArr 2) _ (netWith (unanswered 1 signalReq)) 0 (unanswered 1 signalReq) task7 ⟨3, 3, none⟩ 2
      ⟨?_, ?_, ?_, ?_, ?_, ?_, slot_ok ?_ ⟨?_, ?_⟩ ⟨?_, ?_, ?_⟩ ?_ ?_⟩ (calm ?_ ?_ ?_ ?_) rfl ?_ ?_ ?_ ?_).2 ?_ ?_),
    goes (h.1.2.2.1 ackArr _ (netWith (unanswered 1 signalReq)) 0 1 ⟨?_, ?_, ?_, ?_, ?_, ?_, slot_ok ?_ ⟨?_, ?_⟩ ⟨?_, ?_, ?_⟩ ?_ ?_⟩ (calm ?_ ?_ ?_ ?_) rfl ?_ ?_ ?_ ?_
      (fun o ho => by
        have e : ackedBy (flowOf (netWith (unanswered 1 signalReq)) 0 9) 1 0 = [unanswered 1 signalReq] := by decide +kernel
        have eo : o = unanswered 1 signalReq := List.mem_singleton.mp (e ▸ ho)
        subst eo
        refine ⟨by decide +kernel, fun tk ht => ?_⟩
        have et : task7 = tk := Option.some.inj ht
        subst et
        exact ⟨rfl, clean_ok (by decide +kernel) (by decide +kernel)⟩)),
    goes ((h.1.2.2.2 0 9 (due true)).1 ?_), goes ((h.1.2.2.2 0 9 (due false)).2 ?_)⟩ <;> decide +kernel

def keyOf0 : CacheKey := ⟨0, 9, 1⟩
def cached : State := { netState with fabric := { netState.fabric with cache := [(keyOf0, ⟨.old 7, 0⟩)] } }
def held0 : Held :=
  { opcode := opSTORE, arr := arrivalOf { packet 2 64 3 [7, 8, 9] with fin := true }, place := ⟨64, 0, 0, 0⟩, since := 0 }
def holding : State := { netState with fabric := { netState.fabric with hold := [held0] } }
/-- A request whose one path, to which no route leads, has had all its transmissions. -/
def lastTry : Outstanding := { unanswered 1 signalReq with tryN := 200, onPath := 200 }
/-- A frame for node 12, whose path leads over port 1; port 0 relays. -/
def relayArr (ok : Bool) : Arrival := { arrivalOf { packet 2 64 3 [7, 8, 9] with dst := 12 } with fcsOk := ok }
def relaying : State :=
  modPort 1 (fun q => { q with st := .up, peerValid := true, peerNode := 12 })
    (objPut (devKey oPORT_MAP 0) (1 <<< 8 + 1 <<< 15) { netState with fabric := { netState.fabric with
      routes := { netState.fabric.routes with x0 := [(12, 1 <<< 27 + 1 <<< 19)] } } })

theorem witness_VmtAnswersAndTimersEndRequests_2 (h : Obligations.VmtAnswersAndTimersEndRequests) :
    Goes (.retransmitTimeout 0 9 1) (netWith (unanswered 1 signalReq)) ∧ Goes (.retransmitTimeout 0 9 1) (netWith lastTry) ∧
    Goes (.busyResend 0 9 1) (netWith { unanswered 1 signalReq with busyUntil := some 5 }) ∧ Goes (.replyCacheExpiry 0 9 1) cached ∧
    Goes (.holdExpiry 0 9 1) holding ∧ Goes (.relayFrame (relayArr true) opSTORE) relaying ∧ Goes (.relayFrame (relayArr false) opSTORE) relaying := by
  refine ⟨goes ((h.2.1 0 9 1 (netWith (unanswered 1 signalReq)) (unanswered 1 signalReq) ?_ (calm ?_ ?_ ?_ ?_)).1 _ ?_ (retry_ok ?_)),
    goes ((h.2.1 0 9 1 (netWith lastTry) lastTry ?_ (calm ?_ ?_ ?_ ?_)).2.1 ?_ ?_ (fun tk ht => by
      have et : task7 = tk := Option.some.inj ht
      subst et
      refine ⟨rfl, by decide +kernel, fun k hk => ?_⟩
      have e : (entryOf (netWith lastTry) task7).run.track = some ⟨3, 3, none⟩ := by decide +kernel
      have ek : (⟨3, 3, none⟩ : Track) = k := Option.some.inj (e.symm.trans hk)
      subst ek
      decide)),
    goes ((h.2.1 0 9 1 (netWith { unanswered 1 signalReq with busyUntil := some 5 }) { unanswered 1 signalReq with busyUntil := some 5 } ?_ (calm ?_ ?_ ?_ ?_)).2.2 ?_),
    goes ((h.2.2.1 0 9 1 cached).1 ?_), goes ((h.2.2.1 0 9 1 holding).2 held0 ?_),
    goes (h.2.2.2 (relayArr true) opSTORE relaying 0 1 _ ?_ ?_ ?_ ?_ ?_ ?_ ?_ ?_ ?_ ?_ ?_ ?_ rfl ?_),
    goes (h.2.2.2 (relayArr false) opSTORE relaying 0 1 _ ?_ ?_ ?_ ?_ ?_ ?_ ?_ ?_ ?_ ?_ ?_ ?_ rfl ?_)⟩ <;>
  decide +kernel

/-! ### Witnesses: ports -/

def stuckFrame : QueuedFrame :=
  { shim := { kind := 1, vl := 7, transit := false, hop := 0, ceEcho := false, rsv := 0 }, body := .vmt opSTORE (packet 2 64 3 [7, 8, 9]),
    bytes := 81, held := none, badFcs := false }
def sendingPort : State := modPort 0 (fun q => { q with queue := [stuckFrame] }) (portIn .up)
def uplinkPort (st : PortState) : State := objPut (devKey oPORT_MAP 0) (2 <<< 8) (portIn st)

theorem witness_PortsFollowTheirStates (h : Obligations.PortsFollowTheirStates) :
    Goes (.portSignalDetect 0) (portIn .down) ∧ Goes (.trainingComplete 0) (portIn .training) ∧ Goes (.trainingComplete 0) (uplinkPort .training) ∧
    Goes (.trainingTimeout 0) (portIn .training) ∧ Goes (.portLost 0) (portIn .up) ∧ Goes (.portSilenceTimeout 0) (portIn .demoted) ∧
    Goes (.creditStallTimeout 0 7) sendingPort ∧ Goes (.promoteTimeout 0) (portIn .demoted) ∧ Goes (.dampReuse 0) (portIn .damped) := by
  refine ⟨goes ((h 0 (portIn .down)).1 ?_), goes ((h 0 (portIn .training)).2.1 ?_ ?_), goes ((h 0 (uplinkPort .training)).2.2.1 ?_ ?_),
    goes ((h 0 (portIn .training)).2.2.2.1 ?_), goes ((h 0 (portIn .up)).2.2.2.2.1 (.portLost 0) (.inl rfl) ?_),
    goes ((h 0 (portIn .demoted)).2.2.2.2.1 (.portSilenceTimeout 0) (.inr ⟨rfl, ?_⟩) ?_), goes ((h 0 sendingPort).2.2.2.2.2.1 7 ?_ ?_),
    goes ((h 0 (portIn .demoted)).2.2.2.2.2.2.1 ?_), goes ((h 0 (portIn .damped)).2.2.2.2.2.2.2 ?_)⟩ <;> decide +kernel

def hello0 : Hello :=
  { fabricId := 0, node := 9, nodeValid := true, peerPort := 1, nonce := 2, ecdhKey := [3], chain := [], chainOk := true, deployed := true, idKey := [4], mac := 5 }
def greeted : State := modPort 0 (fun q => { q with hello := some hello0, tries := 1 }) (portIn .discovering)

theorem witness_DiscoveryAuthenticatesThePartner (h : Obligations.DiscoveryAuthenticatesThePartner) :
    Goes (.helloReceive 0 hello0) (portIn .discovering) ∧ Goes (.helloReceive 0 { hello0 with chainOk := false }) (portIn .discovering) ∧
    Goes (.helloReceive 0 { hello0 with fabricId := 6 }) (portIn .quarantined) ∧ Goes (.proofReceive 0 [1]) greeted ∧
    Goes (.helloResend 0) (portIn .discovering) ∧ Goes (.discoveryTimeout 0) (portIn .discovering) ∧ Goes (.quarantineRetry 0) (portIn .quarantined) ∧
    Goes (.lldpTimer 0) (portIn .up) ∧ Goes (.lldpReceive 0 [1]) (portIn .up) := by
  refine ⟨goes (h.1 0 hello0 (portIn .discovering) ?_ ?_ ?_), goes (h.1 0 { hello0 with chainOk := false } (portIn .discovering) ?_ ?_ ?_),
    goes (h.1 0 { hello0 with fabricId := 6 } (portIn .quarantined) ?_ ?_ ?_), goes (h.2.1 0 [1] greeted hello0 _ ?_ ?_ ?_ rfl ?_),
    goes ((h.2.2 0 (portIn .discovering)).1 ?_ ?_ ?_), goes ((h.2.2 0 (portIn .discovering)).2.1 ?_ ?_), goes ((h.2.2 0 (portIn .quarantined)).2.2.1 ?_ ?_),
    goes ((h.2.2 0 (portIn .up)).2.2.2.1 _ rfl ?_ ?_ (fun _ => ⟨?_, ?_⟩)), goes ((h.2.2 0 (portIn .up)).2.2.2.2 [1] (.inl ?_) ?_)⟩ <;>
  first | decide +kernel | (unfold CtlRoom; decide +kernel)

/-- A report for node 3, tagged under management key 8. -/
def mgmt0 : MgmtFrame :=
  { src := 9, dst := 3, ctr := 4, time := BitVec.ofNat 64 booted.clock.now, tag := mgmtTag 8 3 9 4 (BitVec.ofNat 64 booted.clock.now).toNat [1], body := .report [1] }
def mgmtState : State :=
  modPort 0 (fun q => { q with st := .up })
    (objPut (devKey oFABRIC_NODE 0) (3 <<< 222 + 1) { booted with sec := { State.reset.sec with mgmtKey := some 8 } })
theorem mgmt_ok : mgmtOk mgmtState mgmt0 = true := by
  have tg : mgmtTagOk mgmt0 8 = true := beq_self_eq_true (mgmtTag 8 3 9 4 (BitVec.ofNat 64 booted.clock.now).toNat [1])
  have key : mgmtState.sec.mgmtKey = some 8 := rfl
  have rest : (decide (mgmtState.clock.now ≤ mgmt0.time.toNat + 131072) && decide (mgmt0.time.toNat ≤ mgmtState.clock.now + 4096) &&
    (match mgmtState.sec.mgmtHigh.find mgmt0.src.toNat with | some h => decide (h < mgmt0.ctr) | none => true)) = true := by decide +kernel
  simp only [mgmtOk, key, Option.any_some, tg, Bool.true_or, Bool.true_and]
  exact rest

/-- Port 0 is UP under link key 5, with an idle spare lane 62 of entry 20, and a lane swap or none. -/
def linked (w : Option Swap) : State :=
  objPut (devKey oPORT_MAP 20) (3 <<< 8 + 62) (objPut (devKey oPORT_MAP 0) (1 <<< 8 + 1 <<< 14) (modPort 0 (fun q => { q with st := .up, linkKey := some 5, swap := w }) booted))
def spareless : State := objPut (devKey oPORT_MAP 23) 0 (modPort 0 (fun q => { q with st := .up, linkKey := some 5 }) booted)
def swapAsked (acc : Bool) : Swap := { pos := 1, back := false, accepted := acc, marker := 6, deadline := 0 }

/-- Port 0 has spent its credits of virtual lane 0. -/
def creditless : State := modPort 0 (fun q => { q with credSent := Vector.replicate 16 64 }) (portIn .up)
def sparelessSwap : State := modPort 0 (fun q => { q with swap := some (swapAsked true) }) spareless
def swapTag (content : List Byte) : BitVec 128 := Config.gcmTag 5 0 content []

theorem witness_PortFramesAndLaneSwapsAreTaken (h : Obligations.PortFramesAndLaneSwapsAreTaken) :
    Goes (.creditFrame 0 [7]) (portIn .up) ∧ Goes (.creditFrameSend 0) (portIn .up) ∧ Goes (.creditFrameSend 0) creditless ∧
    Goes (.pfcFrame 0 3 true) (uplinkPort .up) ∧ Goes (.neighborSolicitation 0 (nodeAddress (uplinkPort .up) (ownNode (uplinkPort .up))) 5) (uplinkPort .up) ∧
    Goes .congestionDecay booted ∧ Goes (.mgmtFrame 0 mgmt0) mgmtState ∧ Goes (.mgmtFrame 0 { mgmt0 with dst := 4 }) mgmtState ∧
    Goes (.linkctlSwap 0 1 (swapTag (leBytes 8 1))) (linked none) ∧ Goes (.linkctlSwap 0 1 (swapTag (leBytes 8 1))) spareless ∧
    Goes (.linkctlAccept 0 true 6 (swapTag (leBytes 8 1 ++ leBytes 8 6))) (linked (some (swapAsked false))) ∧
    Goes (.swapMarker 0 6) (linked (some (swapAsked true))) ∧ Goes (.swapMarker 0 6) sparelessSwap ∧
    Goes (.laneSwapTimeout 0) (linked (some (swapAsked true))) ∧ Goes (.autoSpareTrigger 1) (linked none) := by
  refine ⟨goes ((h.1 0 (portIn .up)).1 [7] ?_ ?_), goes (((h.1 0 (portIn .up)).2.1 _ _ ?_ ?_ ?_ rfl rfl).1 ?_),
    goes (((h.1 0 creditless).2.1 _ _ ?_ ?_ ?_ rfl rfl).2 ?_), goes ((h.1 0 (uplinkPort .up)).2.2.1 3 true ?_ ?_),
    goes ((h.1 0 (uplinkPort .up)).2.2.2.1 _ 5 _ ?_ ?_ rfl rfl (fun _ => ⟨?_, ?_⟩)), goes (h.1 0 booted).2.2.2.2.1,
    goes (((h.1 0 mgmtState).2.2.2.2.2 mgmt0 ?_ ?_ ?_ ?_ ?_).1 ?_ ?_ mgmt_ok (.inl ⟨[1], rfl⟩)), goes (((h.1 0 mgmtState).2.2.2.2.2 { mgmt0 with dst := 4 } ?_ ?_ ?_ ?_ ?_).2 (.inl ?_)),
    goes (((h.2 0 (linked none) ?_ ?_).1 1 (swapTag (leBytes 8 1)) ?_ rfl ?_ ?_ ?_).1 ?_), goes (((h.2 0 spareless ?_ ?_).1 1 (swapTag (leBytes 8 1)) ?_ rfl ?_ ?_ ?_).2 ?_),
    goes ((h.2 0 (linked (some (swapAsked false))) ?_ ?_).2.1 (swapAsked false) true 6 (swapTag (leBytes 8 1 ++ leBytes 8 6)) ?_ rfl ?_ ?_),
    goes (((h.2 0 (linked (some (swapAsked true))) ?_ ?_).2.2.1 (swapAsked true) ?_).1 ?_ (.inr ?_)),
    goes (((h.2 0 sparelessSwap ?_ ?_).2.2.1 (swapAsked true) ?_).2.1 ?_ ?_ ?_), goes ((h.2 0 (linked (some (swapAsked true))) ?_ ?_).2.2.1 (swapAsked true) ?_).2.2,
    goes ((h.2 0 (linked none) ?_ ?_).2.2.2 1 1 ?_ ?_ ?_ ?_ ?_)⟩ <;>
  first | decide +kernel | (unfold CtlRoom; decide +kernel)

/-! ### Witnesses: time and power -/

def timeMsg (kind : BitVec 4) (domain : Byte) : TimeMsg :=
  { kind := kind, domain := domain, srcIp := 0, oneStep := false, seqId := 4, rx := 1000, stamp := 400, corr := 20 }
/-- A follower whose upstream is port 0, of which port 1 is downstream; the Sync 4 has been heard, requests are under way. -/
def timeOf (role : Nat) (s : State) : State :=
  modTime (fun t => { t with st := .locked, sync := some (4, 1000, 20), delaySent := some (4, 100) })
    (modPort 0 (fun q => { q with delaySent := some (4, 100), delayResp := some (4, 90) }) (modPort 1 (fun q => { q with st := .up })
      (objPut (devKey oTIME 0) (role <<< 256 + 1 <<< 258 + 2 <<< 288 + 1000 <<< 320) s)))
def follower : State := timeOf 1 (portIn .up)

/-- 16 sync intervals have passed since the last Sync; global time has passed a multiple of 2^30; a trigger is armed. -/
def lateSync (s : State) : State := { s with clock := { s.clock with now := s.clock.now + syncBound s, t := { s.clock.t with lastSync := 0 } } }
def buoyDue (s : State) : State := { s with clock := { s.clock with now := 2 ^ 30 + 7 } }
def armedAt (at_ : BitVec 64) : State := modTrigger none (fun t => { t with armed := true, action := 1, at_ := at_ }) booted

theorem witness_TimeMessagesBuoysAndTriggers (h : Obligations.TimeMessagesBuoysAndTriggers) :
    Goes (.syncReceive 0 (timeMsg 0 1)) follower ∧ Goes (.syncReceive 0 (timeMsg 0 0)) (timeOf 2 (portIn .up)) ∧
    Goes (.syncReceive 0 (timeMsg 0 0)) follower ∧ Goes (.syncReceive 0 { timeMsg 0 0 with oneStep := true }) follower ∧ Goes (.followUpReceive 0 (timeMsg 8 0)) follower ∧
    Goes (.announceReceive 0 (timeMsg 11 0)) follower ∧ Goes (.pdelayMessage 0 (timeMsg 2 0)) follower ∧ Goes (.pdelayMessage 0 (timeMsg 3 0)) follower ∧
    Goes (.pdelayMessage 0 (timeMsg 10 0)) follower ∧ Goes (.delayRespReceive 0 (timeMsg 9 0)) (timeOf 1 (uplinkPort .up)) ∧
    Goes (.delayRequestTransmit 0) follower ∧ Goes (.delayRequestTransmit 0) (timeOf 1 (uplinkPort .up)) ∧ Goes .syncTransmit (timeOf 2 (portIn .up)) ∧
    Goes .syncLossTimeout (lateSync follower) ∧ Goes .buoyTimer (buoyDue booted) ∧ Goes .buoyTimer booted ∧
    Goes (.triggerFire none) (armedAt 0) ∧ Goes (.triggerFire none) (armedAt 1000000) := by
  refine ⟨goes ((h.1.1 0 (timeMsg 0 1) follower).1 ?_), goes ((h.1.1 0 (timeMsg 0 0) (timeOf 2 (portIn .up))).2.1 ?_ ?_),
    goes ((h.1.1 0 (timeMsg 0 0) follower).2.2.1 ?_ ?_ ?_), goes ((h.1.1 0 { timeMsg 0 0 with oneStep := true } follower).2.2.2.1 ?_ ?_),
    goes ((h.1.1 0 (timeMsg 8 0) follower).2.2.2.2.1 1000 20 560 ?_ ?_ ?_ ?_ ?_), goes ((h.1.1 0 (timeMsg 11 0) follower).2.2.2.2.2.1 ?_ ?_ ?_),
    goes ((h.1.1 0 (timeMsg 2 0) follower).2.2.2.2.2.2.1 ?_ ?_ ?_ ⟨?_, ?_, ?_, ?_⟩), goes ((h.1.1 0 (timeMsg 3 0) follower).2.2.2.2.2.2.2.1 100 ?_ ?_ ?_ ?_),
    goes ((h.1.1 0 (timeMsg 10 0) follower).2.2.2.2.2.2.2.2.1 90 ?_ ?_ ?_ ?_), goes ((h.1.1 0 (timeMsg 9 0) (timeOf 1 (uplinkPort .up))).2.2.2.2.2.2.2.2.2 100 ?_ ?_ ?_ ?_ ?_),
    goes ((h.1.2.1 0 follower ?_).1 ?_), goes ((h.1.2.1 0 (timeOf 1 (uplinkPort .up)) ?_).2 ?_ ?_ ?_), goes ((h.1.2.2 (timeOf 2 (portIn .up))).1 ?_),
    goes ((h.1.2.2 (lateSync follower)).2 ?_ ?_ ?_), goes ((h.2.1 (buoyDue booted)).1 ?_ ?_), goes ((h.2.1 booted).2 ?_),
    goes ((h.2.2 none (armedAt 0) ?_).1 ?_), goes ((h.2.2 none (armedAt 1000000) ?_).2 ?_)⟩ <;> decide +kernel

def powerMode (p1 : Nat) (f : Power → Power) : State := modPower f (objPut (devKey oPOWER 0) (700 <<< 36 + p1 <<< 26) booted)

theorem witness_PowerIsMeasuredAndDivided (h : Obligations.PowerIsMeasuredAndDivided) :
    Goes (.powerMeasure 300 []) booted ∧ Goes .divisorDecision (powerMode 0 (fun p => { p with hotDies := 1, aclk := 0 })) ∧
    Goes .divisorDecision (powerMode 2 id) ∧ Goes .divisorDecision (powerMode 0 (fun p => { p with aclk := 2 })) ∧
    Goes .divisorDecision (powerMode 0 (fun p => { p with aclk := 2, lowerCalls := 1 })) ∧ Goes .divisorApply (powerMode 0 (fun p => { p with pending := some 1 })) := by
  refine ⟨goes ((h booted ?_).1 300 [] ?_), goes ((h (powerMode 0 (fun p => { p with hotDies := 1, aclk := 0 })) ?_).2.1 ?_ ?_),
    goes ((h (powerMode 2 id) ?_).2.2.1 1 ?_ (.inr (.inl ⟨?_, ?_⟩))), goes ((h (powerMode 0 (fun p => { p with aclk := 2 })) ?_).2.2.2.1 ?_ ?_ ?_),
    goes ((h (powerMode 0 (fun p => { p with aclk := 2, lowerCalls := 1 })) ?_).2.2.2.1 ?_ ?_ ?_),
    goes ((h (powerMode 0 (fun p => { p with pending := some 1 })) ?_).2.2.2.2 1 ?_ ?_)⟩ <;> decide +kernel

/-! ### Witnesses: frames -/

theorem witness_LinksAndPowerLeaveTheRest (h : Obligations.LinksAndPowerLeaveTheRest) (t u : State)
    (ht : exec (.portLost 0) (portIn .up) = .next t) (hu : exec (.powerMeasure 300 []) booted = .next u) :
    t.objs = booted.objs ∧ u.fabric = booted.fabric ∧ (doPromote 0 (portIn .demoted)).mem = booted.mem :=
  ⟨((h _ _ _ ht).1 rfl).1 .objs (by decide), (h _ _ _ hu).2 (.inl ⟨_, _, rfl⟩) .fabric (by decide),
    (((h (.promoteTimeout 0) (portIn .demoted) _ rfl).1 rfl).2.2.2 (by decide +kernel)).1⟩
/-! ### Well-formedness: one ill-formed term for each check -/

/-- An arriving frame with a payload of `n` bytes. -/
def frameOf (n : Nat) : Arrival := arrivalOf { Packet.zero with payload := List.replicate n 0 }

theorem test_wf_refuses_long_payload : (Instr.vmtStore (frameOf 4097)).wf = false := by decide +kernel

theorem test_wf_takes_full_payload : (Instr.vmtStore (frameOf 4096)).wf = true := by decide +kernel

/-- A boot environment with a strap code and a restart count. -/
def envOf (code restarts : Nat) : BootEnv :=
  ⟨true, code, none, none, true, true, true, restarts, true, true, [], [], [], [], []⟩

theorem test_wf_refuses_wide_strap_code : (Instr.rstNRelease (envOf 4096 0)).wf = false := by decide

theorem test_wf_refuses_wide_restart_count : (Instr.refclkStable (envOf 0 16)).wf = false := by decide

theorem test_wf_refuses_long_dma : (Instr.mbDoorbell 0 ⟨0, false⟩ (List.replicate 17 ⟨[], true, none⟩)).wf = false := by decide

theorem test_wf_refuses_unaligned_register : (Instr.registerWrite (.bar0 0 false) 2 0).wf = false := by decide

theorem test_wf_refuses_register_past_bar0 : (Instr.registerWrite (.bar0 0 false) 0x10000 0).wf = false := by decide

theorem test_wf_refuses_wide_smbus_offset : (Instr.registerWrite (.smbus none) 256 0).wf = false := by decide

theorem test_wf_refuses_wide_smbus_value : (Instr.registerWrite (.smbus none) 0 256).wf = false := by decide

theorem test_wf_refuses_empty_bar2_read : (Instr.bar2Read 0 0 0 false).wf = false := by decide

theorem test_wf_refuses_long_bar2_read : (Instr.bar2Read 0 0 4097 false).wf = false := by decide

theorem test_wf_refuses_empty_bar2_write : (Instr.bar2Write 0 0 [] false).wf = false := by decide

theorem test_wf_refuses_long_bar2_write : (Instr.bar2Write 0 0 (List.replicate 513 0) false).wf = false := by decide +kernel

/-- A request of `len` bytes at `addr`. -/
def reqOf (addr len : Nat) : MemReq := ⟨none, 0, addr, len, none⟩

theorem test_wf_refuses_read_past_sector : (Instr.memoryRead (reqOf 32 64) .clean).wf = false := by decide

theorem test_wf_refuses_write_past_sector : (Instr.memoryWrite (reqOf 63 2) [0, 0] .clean).wf = false := by decide

theorem test_wf_refuses_read_of_nothing : (Instr.memoryRead (reqOf 0 0) .clean).wf = false := by decide

theorem test_wf_refuses_short_decoder_output : (Instr.memoryRead (reqOf 0 64) (.miscorrected 0 [])).wf = false := by decide

theorem test_wf_refuses_short_undetected_output : (Instr.patrolScrub 0 0 (.undetected 0 []) true).wf = false := by decide

theorem test_wf_refuses_access_past_word : (Instr.asAccess (reqOf 4 8) none .clean).wf = false := by decide

theorem test_wf_refuses_short_tile : (Instr.stashTileArrive 0 0 0 0 []).wf = false := by decide

theorem test_wf_refuses_short_credits : (Instr.creditFrame 0 []).wf = false := by decide

theorem test_wf_refuses_short_sensor_list : (Instr.powerMeasure 0 []).wf = false := by decide

/-! ### Single steps and operations against figures that the spec prints -/

/-- Values of binary32 patterns, with zeros up to a block. -/
def floats (l : List F32) : List Val := (l ++ List.replicate (32 - l.length) 0).map f32val

/-- The block of the example after R49: 5.3, -2.75, 0.6, 0.09375, 0.03125 and 0.01. -/
def sample : List Val := floats [0x40A9999A, 0xC0300000, 0x3F19999A, 0x3DC00000, 0x3D000000, 0x3C23D70A]

/-- "E is therefore 129", and the column "BS8 q" of the table after R49. -/
theorem test_to_block_bs8 :
    let b := (toBlock sample fBS8 none).1
    b.e = 129 ∧ b.q.take 7 = [85, -44, 10, 2, 0, 0, 0] := by decide +kernel

/-- "E is therefore 130", and the column "BS4 q". -/
theorem test_to_block_bs4 :
    let b := (toBlock sample fBS4 none).1
    b.e = 130 ∧ b.q.take 7 = [5, -3, 1, 0, 0, 0, 0] := by decide +kernel

/-- FIXED with `fixed_exp` 0x7F: "Two elements saturate". -/
theorem test_to_block_fixed :
    let b := toBlock sample fBS8 (some 0x7F)
    b.1.q.take 7 = [127, -128, 38, 6, 2, 1, 0] ∧ b.2.sat = 2 := by decide +kernel

/-- "These are worth 5, -3 and 1": R30 expands the BS4 block to 40, -24 and 8 at E = 130. -/
theorem test_widen_bs4 :
    let b := (convertBlock fBS4 fBS8 (toBlock sample fBS4 none).1 none).1
    b.e = 130 ∧ b.q.take 3 = [40, -24, 8] := by decide +kernel

/-- The pieces of 1.3 after R60: 83, 26 and -51 at E = 127. -/
theorem test_split_cut :
    let r := splitCut (floats [0x3FA66666]) 3
    r.1 = 127 ∧ r.2.1.map (List.take 1) = [[83], [26], [-51]] := by decide +kernel

/-- A contribution of one element, and the accumulator of the example after R64. -/
def part (e : Nat) (q : Int) : Block := ⟨e, [q]⟩

def folded (l : List Block) : AC32 := l.foldl (fun a c => (ac32Add a c).blk) ⟨130, false, [0]⟩

/-- Order A of the example after R64 ends at 1,073,741,825 at E 131, order B at 1,073,741,824. -/
theorem test_two_orders :
    folded [part 130 32767, part 114 1, part 114 1, part 130 1] = ⟨131, true, [1073741825]⟩ ∧
    folded [part 130 32767, part 130 1, part 114 1, part 114 1] = ⟨131, true, [1073741824]⟩ := by decide +kernel

/-- The converter code 2,807 is profile 8 (example after R600). -/
theorem test_strap_profile : strapProfile 2807 = some 8 := by decide

/-- The WAIT of the example after R197: the counter 0xFFFF_FFF0 has not reached 0x0000_0010, the counter 0x10 has. -/
theorem test_wait_wraps : reached 0xFFFFFFF0 0x10 = false ∧ reached 0x10 0x10 = true := by decide

/-- The state after a command, or the reset state where none follows. -/
def after (o : Host.Outcome State Fault Refusal) : State :=
  match o with
  | .next t => t
  | _ => State.reset

/-- A host that accepts 5.0 to 5.1 gets 5.1, and the command has left the queue (R556). -/
theorem test_version :
    let t := after (step { State.reset with pending := [.unlorVersion (hostCmd 0 8 (0x0500 <<< 32 + 0x0501 <<< 48))] })
    t.pending = [] ∧ t.host[(0 : Fin 65)].version = some 1 := by decide +kernel

/-- JOB_READY takes a KEYED job to READY, and leaves a CREATED one where it is (R559). -/
theorem test_job_ready :
    (after (exec (.jobReady (hostCmd 1 0 0)) (jobIn .keyed))).jobs[(0 : Fin 64)].ctl.st = .ready ∧
    (after (exec (.jobReady (hostCmd 1 0 0)) (jobIn .created))).jobs[(0 : Fin 64)].ctl.st = .created := by decide +kernel

end Sys2Proof.Tests
end

section
/-! SUPPORT. Register and doorbell writes (spec/16_host_mailbox.md R542 to R545, spec/05_tasks_stroke_riggers.md R180,
spec/19_module_electrical.md R650): what a request to BAR0, a register of BAR0 or of the SMBus port, and a doorbell of a
job's rings write. -/

namespace Sys2Proof.Machine

/-! ### Requests to BAR0 -/

@[simp] theorem slotOfFn_vfOf (slot : Fin 64) : slotOfFn (vfOf slot) = some slot := by
  simp [slotOfFn, vfOf, Fin.succ_ne_zero]

/-- A request of a virtual function whose job locks the host path is counted, and nothing else (R509). -/
theorem bar0_locked {s : State} {slot : Fin 64} {ide : Bool} (f : State → State) (ho : boxOpen s (vfOf slot) = true)
    (hl : hostLocked s slot ide = true) : bar0 (vfOf slot) ide f s = countHostError slot s := by
  simp [bar0, ho, hl]

/-- A request of a virtual function whose job does not lock it out has its effect. -/
theorem bar0_unlocked {s : State} {slot : Fin 64} {ide : Bool} (f : State → State) (ho : boxOpen s (vfOf slot) = true)
    (hl : hostLocked s slot ide = false) : bar0 (vfOf slot) ide f s = f s :=
  bar0_open f ho (fun i hi => by
    obtain rfl : slot = i := by simpa using hi
    exact hl)

@[simp] theorem countHostError_hostErrors (slot : Fin 64) (s : State) :
    (ctl (countHostError slot s) slot).hostErrors = (ctl s slot).hostErrors + 1 := by
  simp [countHostError]

/-! ### Registers of BAR0 -/

theorem writeBar0_irqMask (fn : Fin 65) (v : BitVec 32) (s : State) :
    writeBar0 fn 0x200C v s = modHost fn (fun h => { h with irqMask := v.setWidth 16 }) s := rfl

theorem writeBar0_intMask (fn : Fin 65) (v : BitVec 32) (s : State) :
    writeBar0 fn 0x2024 v s = modHost fn (fun h => { h with intMask := v }) s := rfl

theorem writeBar0_reply {o : Nat} (fn : Fin 65) (v : BitVec 32) (s : State) (lo : 0x1000 ≤ o) (hi : o < 0x2000) :
    writeBar0 fn o v s = writeReplySlot (o / 4 * 4) v s := by
  unfold writeBar0
  rw [if_neg (by omega), if_pos (by omega)]

/-- Between the doorbells of the rings and the MSI-X table every offset is reserved. -/
theorem writeBar0_reserved {o : Nat} (fn : Fin 65) (v : BitVec 32) (s : State) (lo : 0x4000 ≤ o) (hi : o < 0x8000) :
    writeBar0 fn o v s = reservedWrite fn s := by
  have lo' : 0x4000 ≤ o / 4 * 4 := by omega
  have hi' : o / 4 * 4 < 0x8000 := by omega
  unfold writeBar0
  generalize o / 4 * 4 = a at lo' hi'
  have named : ¬ a < 0x1000 ∧ ¬ a < 0x2000 ∧ a ≠ 0x2000 ∧ a ≠ 0x2004 ∧ a ≠ 0x2008 ∧ a ≠ 0x200C ∧ a ≠ 0x2010 ∧ a ≠ 0x2020 ∧
      a ≠ 0x2024 := by omega
  have tables : ¬ a < 0x3040 ∧ ¬ 0x8000 ≤ a ∧ ¬ 0x9000 ≤ a ∧ a < 0x10000 := by omega
  simp [named, tables]

theorem writeReplySlot_changes (o : Nat) (v : BitVec 32) (s : State) : Changes [.logs] s (writeReplySlot o v s) := by
  unfold writeReplySlot
  split
  · exact countRsvWrite_changes s
  · exact .refl _ _

/-- The header of a reply slot is the third word of its 256 bytes. -/
theorem writeReplySlot_rsvWrites (o : Nat) (v : BitVec 32) (s : State) :
    (writeReplySlot (o / 4 * 4) v s).logs.rsvWrites =
      s.logs.rsvWrites + (if o / 4 % 64 = 2 ∧ v &&& 0xFF00FF00#32 ≠ 0#32 then 1 else 0) := by
  have header : o / 4 * 4 % 256 = 8 ↔ o / 4 % 64 = 2 := by omega
  unfold writeReplySlot
  by_cases h : o / 4 % 64 = 2 ∧ v &&& 0xFF00FF00#32 ≠ 0#32
  · rw [if_pos h, if_pos ⟨header.mpr h.1, h.2⟩]
    rfl
  · rw [if_neg h, if_neg (fun g => h ⟨header.mp g.1, g.2⟩)]
    exact (BitVec.add_zero _).symm

/-! ### The SMBus port -/

/-- A write without a PEC, or with the right one, has its effect. -/
theorem writeSmbus_valid {s : State} {pec : Option Byte} {o : Nat} {v : Byte} (on : smbusOn s = true)
    (h : pec = none ∨ pec = some (smbPec [0xA8, BitVec.ofNat 8 o, v])) : writeSmbus pec o v s = putSmbus o v s := by
  rcases h with rfl | rfl <;> simp [writeSmbus, on]

/-- A write with a wrong PEC has none. -/
theorem writeSmbus_badPec {s : State} {x : Byte} {o : Nat} {v : Byte} (h : x ≠ smbPec [0xA8, BitVec.ofNat 8 o, v]) :
    writeSmbus (some x) o v s = s := by
  have bad : (x == smbPec [0xA8, BitVec.ofNat 8 o, v]) = false := beq_eq_false_iff_ne.mpr h
  simp only [writeSmbus, Option.all_some, bad, Bool.not_false, Bool.or_true, if_true]

theorem clearAlert_changes (bits : Byte) (s : State) : Changes [.board, .logs] s (clearAlert bits s) := by
  have board : ∀ f t, Changes [.board, .logs] t (modBoard f t) := fun f t => by
    intro p hp; cases p <;> first | exact absurd (by decide) hp | rfl
  unfold clearAlert
  split
  · exact .refl _ _
  · refine Changes.trans ?_ (board _ _)
    split
    · exact .refl _ _
    · exact (countRsvWrite_changes s).mono (by decide)

/-- An alert stays where it is not cleared, and where its condition still holds (R651). -/
theorem clearAlert_board {s : State} (bits : Byte) (on : smbusOn s = true) :
    (clearAlert bits s).board = { s.board with alert := (s.board.alert &&& ~~~bits) ||| (s.board.alert &&& standing s) } := by
  unfold clearAlert
  rw [if_neg (by simp [on])]
  split <;> rfl

theorem clearAlert_rsvWrites {s : State} (bits : Byte) (on : smbusOn s = true) :
    (clearAlert bits s).logs.rsvWrites = s.logs.rsvWrites + (if bits.toNat < 64 then 0 else 1) := by
  unfold clearAlert
  rw [if_neg (by simp [on])]
  by_cases h : bits.toNat < 64
  · rw [if_pos h, if_pos (by omega)]
    exact (BitVec.add_zero _).symm
  · rw [if_neg h, if_neg (by omega)]
    rfl

/-! ### A job on a die -/

/-- Other dies of an updated job. -/
theorem jobDie_modDie_other (slot : Fin 64) {die d : Fin 4} (f : JobDie → JobDie) (s : State) (h : d ≠ die) :
    jobDie (modDie slot die f s) slot d = jobDie s slot d := by
  have other : (vmod s.jobs[slot].tasks.dies die f)[d] = s.jobs[slot].tasks.dies[d] := vmod_other _ _ _ _ h
  simpa [jobDie, modDie, modTasks, modJob] using other

/-- Other jobs. -/
theorem modDie_other {slot j : Fin 64} (die : Fin 4) (f : JobDie → JobDie) (s : State) (h : j ≠ slot) :
    (modDie slot die f s).jobs[j] = s.jobs[j] :=
  modJob_other _ _ _ _ h

/-- An update of one die of a job leaves its other dies, the other jobs and memory. -/
theorem modDie_frame (slot : Fin 64) (die : Fin 4) (f : JobDie → JobDie) (s : State) :
    jobDie (modDie slot die f s) slot die = f (jobDie s slot die) ∧
      (∀ d, d ≠ die → jobDie (modDie slot die f s) slot d = jobDie s slot d) ∧
      (∀ j : Fin 64, j ≠ slot → (modDie slot die f s).jobs[j] = s.jobs[j]) ∧ (modDie slot die f s).mem = s.mem :=
  ⟨jobDie_modDie _ _ _ _, fun _ hd => jobDie_modDie_other _ _ _ hd, fun _ hj => modDie_other _ _ _ hj, rfl⟩

theorem jobDie_of_jobs {s t : State} (slot : Fin 64) (die : Fin 4) (h : t.jobs = s.jobs) : jobDie t slot die = jobDie s slot die := by
  rw [jobDie, jobDie, h]

/-- A job on a die is as it was, but for the reservation of its stroke core. -/
def JobDie.ResvOnly (a b : JobDie) : Prop := ∃ r, b = { a with regs := { a.regs with resv := r } }

theorem JobDie.ResvOnly.refl (a : JobDie) : a.ResvOnly a := ⟨a.regs.resv, rfl⟩

theorem JobDie.ResvOnly.trans {a b c : JobDie} (h : a.ResvOnly b) (g : b.ResvOnly c) : a.ResvOnly c := by
  obtain ⟨_, rfl⟩ := h
  obtain ⟨r, rfl⟩ := g
  exact ⟨r, rfl⟩

theorem JobDie.ResvOnly.sqTail {a b : JobDie} (h : a.ResvOnly b) : b.sqTail = a.sqTail := by
  obtain ⟨_, rfl⟩ := h
  rfl

/-- A write to a sector drops the reservations that a job's cores hold on it. -/
theorem dropLines_resvOnly (slot : Fin 64) (sector : Nat) (s : State) (die : Fin 4) :
    (jobDie s slot die).ResvOnly (jobDie (dropLines slot sector s) slot die) := by
  simp only [jobDie, dropLines, modTasks, modJob, vmod, Fin.getElem_fin, Vector.getElem_set_self, Vector.getElem_map]
  exact ⟨_, rfl⟩

theorem writePart_jobs (tag : BitVec 16) (dpa : Nat) (bs : List Byte) (s : State) : (writePart tag dpa bs s).1.jobs = s.jobs :=
  writePart_changes tag dpa bs s .jobs (by decide)

/-- A job's write to memory leaves its tasks, its rings and its cores, but for reservations. -/
theorem jobWrite_resvOnly (slot : Fin 64) (va : Nat) (bs : List Byte) (s : State) (die : Fin 4) :
    (jobDie s slot die).ResvOnly (jobDie (jobWrite slot va bs s).1 slot die) := by
  unfold jobWrite
  split
  · exact .refl _
  · refine List.foldlRecOn (motive := fun acc : State × MStat => (jobDie s slot die).ResvOnly (jobDie acc.1 slot die)) _ _ ?_ ?_
    · rw [jobDie_of_jobs slot die (countWrites_changes slot va bs.length s .jobs (by decide))]
      exact .refl _
    · intro acc h c _
      rw [← jobDie_of_jobs slot die (writePart_jobs (jobTag s slot) ((translate s slot c.1 false true).getD 0)
        ((bs.drop (c.1 - va)).take c.2) acc.1)] at h
      exact h.trans (dropLines_resvOnly _ _ _ _)

/-! ### Event records leave the submission ring -/

@[simp] theorem dropEvent_sqTail (slot : Fin 64) (die : Fin 4) (s : State) :
    (jobDie (dropEvent slot die s) slot die).sqTail = (jobDie s slot die).sqTail := by
  simp [dropEvent]

@[simp] theorem fireQueue_sqTail (slot : Fin 64) (die : Fin 4) (s : State) :
    (jobDie (fireQueue slot die s) slot die).sqTail = (jobDie s slot die).sqTail := by
  unfold fireQueue
  split
  · rw [jobDie_of_jobs slot die (fireVector_changes _ _ _ .jobs (by decide)), jobDie_modDie]
  · rfl

/-- An event record, written or dropped, moves no tail of a submission ring. -/
theorem event_sqTail (slot : Fin 64) (die : Fin 4) (r : EvRec) (s : State) :
    (jobDie (event slot die r s) slot die).sqTail = (jobDie s slot die).sqTail := by
  have written : ∀ va bs, (jobDie (jobWrite slot va bs s).1 slot die).sqTail = (jobDie s slot die).sqTail :=
    fun va bs => (jobWrite_resvOnly slot va bs s die).sqTail
  unfold event
  dsimp only
  split
  · rfl
  · split
    · exact dropEvent_sqTail _ _ _
    · split
      · rw [fireQueue_sqTail, jobDie_modDie, written]
      · rw [dropEvent_sqTail, written]

/-! ### Doorbells of the rings -/

section Doorbells
variable {slot : Fin 64} {die : Fin 4} {v : BitVec 32} {s : State}
  (taken : depsApply (jobSt s slot) = true) (on : ringOn s slot die = true)
include taken on

/-- A tail that leaves no more entries than the ring has is taken. -/
theorem doDbSq_within (h : (v - (jobDie s slot die).sqHead).toNat ≤ sqSize (ringBits s slot die)) :
    doDbSq slot die v s = modDie slot die (fun d => { d with sqTail := v }) s := by
  unfold doDbSq
  rw [if_neg (by simp [taken]), if_neg (by simp [on]), if_neg (by omega)]

/-- A tail beyond the ring is ignored, with a record. -/
theorem doDbSq_beyond (h : sqSize (ringBits s slot die) < (v - (jobDie s slot die).sqHead).toNat) :
    doDbSq slot die v s = doorbellRecord slot die v s := by
  unfold doDbSq
  rw [if_neg (by simp [taken]), if_neg (by simp [on]), if_pos h]

/-- A head up to the tail of the event queue is taken, and arms its vector. -/
theorem doDbEq_within (h : (v - (jobDie s slot die).evqHead).toNat ≤ ((jobDie s slot die).evqTail - (jobDie s slot die).evqHead).toNat) :
    doDbEq slot die v s = modDie slot die (fun d => { d with evqHead := v, evqArmed := true }) s := by
  unfold doDbEq
  dsimp only
  rw [if_neg (by simp [taken]), if_neg (by simp [on]), if_neg (by omega)]

end Doorbells

/-! ### What the commands complete with -/

section
variable {P : State → Prop} {s : State}

theorem completes_mbIrqClear {fn : Fin 65} {w : HostWord} (h : P (bar0 fn w.ide (clearIrq fn w.word) s)) :
    Completes (.mbIrqClear fn w) s P := ⟨_, rfl, h⟩

theorem completes_intCauseClear {fn : Fin 65} {w : HostWord} (h : P (bar0 fn w.ide (clearCause fn w.word) s)) :
    Completes (.intCauseClear fn w) s P := ⟨_, rfl, h⟩

theorem completes_bar0Write {fn : Fin 65} {ide : Bool} {o : Nat} {v : BitVec 32} (h : P (bar0 fn ide (writeBar0 fn o v) s)) :
    Completes (.registerWrite (.bar0 fn ide) o v) s P := ⟨_, rfl, h⟩

theorem completes_smbusWrite {pec : Option Byte} {o : Nat} {v : BitVec 32} (h : P (writeSmbus pec o (v.setWidth 8) s)) :
    Completes (.registerWrite (.smbus pec) o v) s P := ⟨_, rfl, h⟩

theorem completes_smbAlertClear {bits : Byte} (h : P (clearAlert bits s)) : Completes (.smbAlertClear bits) s P := ⟨_, rfl, h⟩

theorem completes_dbSq {slot : Fin 64} {die : Fin 4} {w : HostWord} (h : P (bar0 (vfOf slot) w.ide (doDbSq slot die w.word) s)) :
    Completes (.dbSq slot die w) s P := ⟨_, rfl, h⟩

theorem completes_dbEq {slot : Fin 64} {die : Fin 4} {w : HostWord} (h : P (bar0 (vfOf slot) w.ide (doDbEq slot die w.word) s)) :
    Completes (.dbEq slot die w) s P := ⟨_, rfl, h⟩

end

/-- Settles O31: each request reaches its register (`bar0_open`, `bar0_unlocked`) or is counted as refused (`bar0_locked`); the
register's own lemma says what it writes. That the PEC is the CRC-8 of the SMBus specification is the model's reading
(notes/assumptions/31). -/
theorem registersAndRingsTakeWrites : Obligations.RegistersAndRingsTakeWrites := by
  refine ⟨⟨fun fn ide s ho hl => ⟨fun bits => ⟨?mbIrq, ?intCause⟩, fun v => ⟨?irqMask, ?intMask, fun o lo hi => ?reply, fun o lo hi => ?reserved⟩⟩,
      fun slot o ide v s ho hl => ?locked,
      fun s => ⟨fun pec v on => ⟨fun hp => ?smbus, fun x hx bad => ?badPec⟩, fun bits on => ?alert⟩⟩,
    fun slot die v ide s ho hl taken on => ⟨fun within => ?dbSq, fun beyond => ?dbSqBeyond, fun within => ?dbEq⟩⟩
  case mbIrq => exact completes_mbIrqClear (bar0_open _ ho hl)
  case intCause => exact completes_intCauseClear (bar0_open _ ho hl)
  case irqMask => exact completes_bar0Write ((bar0_open _ ho hl).trans (writeBar0_irqMask fn v s))
  case intMask => exact completes_bar0Write ((bar0_open _ ho hl).trans (writeBar0_intMask fn v s))
  case reply =>
    apply completes_bar0Write
    rw [bar0_open _ ho hl, writeBar0_reply fn v s lo hi]
    exact ⟨writeReplySlot_rsvWrites o v s, writeReplySlot_changes _ v s⟩
  case reserved => exact completes_bar0Write ((bar0_open _ ho hl).trans (writeBar0_reserved fn v s lo hi))
  case locked =>
    apply completes_bar0Write
    rw [bar0_locked _ ho hl]
    exact ⟨countHostError_hostErrors slot s, countHostError_changes slot s⟩
  case smbus => exact completes_smbusWrite (writeSmbus_valid on hp)
  case badPec =>
    subst hx
    exact completes_smbusWrite (writeSmbus_badPec bad)
  case alert => exact completes_smbAlertClear ⟨clearAlert_board bits on, clearAlert_rsvWrites bits on, clearAlert_changes bits s⟩
  case dbSq =>
    apply completes_dbSq
    rw [bar0_unlocked _ ho hl, doDbSq_within taken on within]
    exact modDie_frame slot die _ s
  case dbSqBeyond =>
    apply completes_dbSq
    rw [bar0_unlocked _ ho hl, doDbSq_beyond taken on beyond]
    exact event_sqTail slot die _ s
  case dbEq =>
    apply completes_dbEq
    rw [bar0_unlocked _ ho hl, doDbEq_within taken on within]
    exact modDie_frame slot die _ s

end Sys2Proof.Machine
end

section
/-! SUPPORT. Engines through faults and completions (spec/03_matrix_engines.md R117 to R121, spec/05_tasks_stroke_riggers.md R186 to
R212): which operations leave the matrix engines as they are, and what the others leave of an engine's health entry. -/

namespace Sys2Proof.Machine

/-! ### Operations that leave the engines -/

section
variable (s : State)

/-- A loop over operations that leave the engines leaves them. -/
theorem forEach_engines {α : Type} (l : List α) (f : α → State → State) (h : ∀ a t, (f a t).engines = t.engines) :
    (forEach l f s).engines = s.engines :=
  forEach_keeps (P := fun t => t.engines = s.engines) l f (fun a t ht => (h a t).trans ht) s rfl

@[simp] theorem modPower_engines (f : Power → Power) : (modPower f s).engines = s.engines := rfl
@[simp] theorem modVe_engines (v : Fin 64) (f : VecEng → VecEng) : (modVe v f s).engines = s.engines := rfl
@[simp] theorem modRig_engines (r : Fin 64) (f : Rigger → Rigger) : (modRig r f s).engines = s.engines := rfl
@[simp] theorem modDie_engines (slot : Fin 64) (die : Fin 4) (f : JobDie → JobDie) : (modDie slot die f s).engines = s.engines := rfl
@[simp] theorem recordEngine_engines (e : Fin 68) (logical : Byte) (st : BitVec 4) : (recordEngine e logical st s).engines = s.engines := rfl
@[simp] theorem pmuCount_engines (die : Fin 4) (slot : Option (Fin 64)) (event bit n : Nat) :
    (pmuCount die slot event bit n s).engines = s.engines := pmuCount_changes die slot event bit n s .engines (by decide)
@[simp] theorem event_engines (slot : Fin 64) (die : Fin 4) (r : EvRec) : (event slot die r s).engines = s.engines :=
  event_changes slot die r s .engines (by decide)
@[simp] theorem trace_engines (sc : Option (Fin 64)) (die : Fin 4) (cls kind payload : Nat) :
    (trace sc die cls kind payload s).engines = s.engines := trace_changes sc die cls kind payload s .engines (by decide)
@[simp] theorem jobWrite_engines (slot : Fin 64) (va : Nat) (bs : List Byte) : (jobWrite slot va bs s).1.engines = s.engines :=
  jobWrite_changes slot va bs s .engines (by decide)
@[simp] theorem jobRead_engines (slot : Fin 64) (va len : Nat) : (jobRead s slot va len).2.engines = s.engines :=
  jobRead_changes s slot va len .engines (by decide)
@[simp] theorem addCounter_engines (slot : Fin 64) (n : Nat) : (addCounter slot n s).1.engines = s.engines :=
  addCounter_changes slot n s .engines (by decide)
@[simp] theorem noteReads_engines (slot : Fin 64) (rs : List (Nat × Nat)) : (noteReads slot rs s).engines = s.engines :=
  noteReads_changes slot rs s .engines (by decide)
@[simp] theorem logError_engines (code : Byte) (slot : Option (Fin 64)) (unit detail : Nat) :
    (logError code slot unit detail s).engines = s.engines := logError_changes code slot unit detail s .engines (by decide)
@[simp] theorem logEvent_engines (code : Byte) (slot : Option (Fin 64)) (unit detail : Nat) :
    (logEvent code slot unit detail s).engines = s.engines := logEvent_changes code slot unit detail s .engines (by decide)
@[simp] theorem raiseCause_engines (fn : Fin 65) (c : Nat) : (raiseCause fn c s).engines = s.engines :=
  raiseCause_changes fn c s .engines (by decide)
@[simp] theorem setJob_engines (slot : Fin 64) (st : JobState) : (setJob slot st s).engines = s.engines :=
  setJob_changes slot st s .engines (by decide)
@[simp] theorem finishAll_engines (f : BgCmd → Bool) (b : ReplyBody) : (finishAll f b s).engines = s.engines :=
  finishAll_changes f b s .engines (by decide)
@[simp] theorem setPower_engines (m : PowerMode) : (setPower m s).engines = s.engines := setPower_changes m s .engines (by decide)

/-! Retained entries. -/

@[simp] theorem setEntry_engines (slot : Fin 64) (addr : Nat) (e : Option REntry) : (setEntry slot addr e s).engines = s.engines := by
  simp [setEntry]

@[simp] theorem freePages_engines (slot : Fin 64) (e : REntry) : (freePages slot e s).engines = s.engines := rfl

@[simp] theorem dropEntry_engines (slot : Fin 64) (addr : Nat) (e : REntry) : (dropEntry slot addr e s).engines = s.engines := by
  unfold dropEntry
  split <;> simp [countDrop]

@[simp] theorem writerEnds_engines (t : TaskRef) : (writerEnds t s).engines = s.engines := by
  refine forEach_engines s _ _ (fun p u => ?_)
  split <;> simp

@[simp] theorem readerDone_engines (slot : Fin 64) (addr : Nat) : (readerDone slot addr s).engines = s.engines := by
  unfold readerDone
  split
  · rfl
  · split
    · split <;> simp
    · rfl

/-! Buckets and counters. -/

@[simp] theorem noteCounter_engines (slot : Fin 64) (n : Nat) (st : BitVec 8) : (noteCounter slot n st s).engines = s.engines := by
  unfold noteCounter
  split <;> simp

@[simp] theorem closeBuffer_engines (slot : Fin 64) (addr : Nat) : (closeBuffer slot addr s).engines = s.engines :=
  jobWrite_engines ..

@[simp] theorem putBucketStatus_engines (slot : Fin 64) (addr d : Nat) : (putBucketStatus slot addr d s).engines = s.engines :=
  jobWrite_engines ..

/-! Units but for the matrix engines. -/

@[simp] theorem returnStreams_engines (t : TaskRef) : (returnStreams t s).engines = s.engines := by
  refine forEach_engines s _ _ (fun k u => ?_)
  split
  · split
    · unfold endStream
      split <;> rfl
    · rfl
  · rfl

@[simp] theorem freeVe_engines (v : Fin 64) : (freeVe v s).engines = s.engines := by
  unfold freeVe
  split <;> rfl

@[simp] theorem unbindVe_engines (v : Fin 64) : (unbindVe v s).engines = s.engines := by
  unfold unbindVe
  split <;> rfl

@[simp] theorem freeRig_engines (r : Fin 64) : (freeRig r s).engines = s.engines := by
  unfold freeRig
  split <;> rfl

@[simp] theorem writeBack_engines (t : TaskRef) : (writeBack t s).engines = s.engines := by
  unfold writeBack
  split <;> rfl

@[simp] theorem splitMark_engines (die : Fin 4) : (splitMark die s).engines = s.engines :=
  forEach_engines s _ _ (fun _ t => forEach_engines t _ _ (fun _ _ => rfl))

/-! Jobs and the power manager. -/

@[simp] theorem pauseCheck_engines (slot : Fin 64) : (pauseCheck slot s).engines = s.engines := by
  unfold pauseCheck
  split <;> simp

@[simp] theorem applyPending_engines : (applyPending s).engines = s.engines := by
  unfold applyPending
  split
  · rfl
  · dsimp only
    split <;> rfl

@[simp] theorem holdCheck_engines : (holdCheck s).engines = s.engines := by
  unfold holdCheck
  split <;> simp

end

/-! ### The health entry of an engine through faults and completions -/

/-- An engine carries the same number in the same state, stands in for the same one, and waits for a fence as before. -/
def Engine.SameHealth (a b : Engine) : Prop := b.st = a.st ∧ b.logical = a.logical ∧ b.standIn = a.standIn ∧ b.fence = a.fence

/-- What an operation that does not test or return an engine leaves of its health entry: all of it, unless a fence that waited takes
effect (R118). Of an idle spare nothing is said: a fence may take it for its test. -/
def Engine.Rests (a b : Engine) : Prop :=
  a.st ≠ meSPARE → a.SameHealth b ∨ (a.fence = true ∧ b.st = meFENCED ∧ b.logical = 0xFF ∧ b.fence = false)

theorem Engine.SameHealth.refl (a : Engine) : a.SameHealth a := ⟨rfl, rfl, rfl, rfl⟩

theorem Engine.SameHealth.trans {a b c : Engine} (h : a.SameHealth b) (g : b.SameHealth c) : a.SameHealth c := by
  obtain ⟨st, logical, standIn, fence⟩ := h
  obtain ⟨st', logical', standIn', fence'⟩ := g
  exact ⟨st'.trans st, logical'.trans logical, standIn'.trans standIn, fence'.trans fence⟩

theorem Engine.Rests.refl (a : Engine) : a.Rests a := fun _ => .inl (.refl a)

theorem Engine.Rests.trans {a b c : Engine} (h : a.Rests b) (g : b.Rests c) : a.Rests c := by
  intro ha
  rcases h ha with same | ⟨fence, st, logical, fence'⟩
  · rcases g (same.1 ▸ ha) with same' | ⟨waits, fenced⟩
    · exact .inl (same.trans same')
    · exact .inr ⟨same.2.2.2 ▸ waits, fenced⟩
  · rcases g (by rw [st]; decide) with ⟨st', logical', _, fence''⟩ | ⟨waits, _⟩
    · exact .inr ⟨fence, st'.trans st, logical'.trans logical, fence''.trans fence'⟩
    · exact absurd (fence'.symm.trans waits) Bool.false_ne_true

/-- An engine that is fenced stays fenced. -/
theorem Engine.Rests.fenced {a b : Engine} (h : a.Rests b) (st : a.st = meFENCED) (logical : a.logical = 0xFF) :
    b.st = meFENCED ∧ b.logical = 0xFF := by
  rcases h (by rw [st]; decide) with ⟨st', logical', _⟩ | ⟨_, st', logical', _⟩
  · exact ⟨st'.trans st, logical'.trans logical⟩
  · exact ⟨st', logical'⟩

/-- An engine under test that no fence waits for stays under test. -/
theorem Engine.Rests.testing {a b : Engine} (h : a.Rests b) (st : a.st = meTESTING) (fence : a.fence = false) :
    b.st = meTESTING ∧ b.standIn = a.standIn := by
  rcases h (by rw [st]; decide) with ⟨st', _, standIn, _⟩ | ⟨waits, _⟩
  · exact ⟨st'.trans st, standIn⟩
  · exact absurd (fence.symm.trans waits) Bool.false_ne_true

/-- Every engine rests. -/
def EnginesRest (s t : State) : Prop := ∀ e : Fin 68, s.engines[e].Rests t.engines[e]

theorem EnginesRest.refl (s : State) : EnginesRest s s := fun _ => .refl _

theorem EnginesRest.trans {s t u : State} (h : EnginesRest s t) (g : EnginesRest t u) : EnginesRest s u := fun e => (h e).trans (g e)

theorem EnginesRest.of_eq {s t : State} (h : t.engines = s.engines) : EnginesRest s t := fun e => by rw [h]; exact .refl _

theorem EnginesRest.forEach {α : Type} (l : List α) (f : α → State → State) (h : ∀ a t, EnginesRest t (f a t)) (s : State) :
    EnginesRest s (forEach l f s) :=
  forEach_keeps (P := EnginesRest s) l f (fun a t ht => ht.trans (h a t)) s (.refl s)

/-- An element of an updated vector. -/
theorem vmod_getElem {α : Type} {n : Nat} (v : Vector α n) (i j : Fin n) (f : α → α) :
    (vmod v i f)[j] = if j = i then f v[j] else v[j] := by
  split
  case isTrue h => subst h; exact vmod_same v j f
  case isFalse h => exact vmod_other v i j f h

/-- An engine after an update of one. -/
theorem modEngine_engine (e g : Fin 68) (f : Engine → Engine) (s : State) :
    (modEngine e f s).engines[g] = if g = e then f s.engines[g] else s.engines[g] :=
  vmod_getElem s.engines e g f

theorem modEngine_rest (e : Fin 68) (f : Engine → Engine) (s : State) (h : ∀ k : Engine, k.Rests (f k)) : EnginesRest s (modEngine e f s) := by
  intro g
  rw [modEngine_engine]
  split
  · exact h _
  · exact .refl _

/-- An engine is fenced, and bound to no task (R119). -/
def Engine.fenced (k : Engine) : Engine := { k with bound := none, fence := false, logical := 0xFF, st := meFENCED }

/-- A spare is tested in the place of the engine of a number (R14, R119). -/
def Engine.tested (num : Nat) (k : Engine) : Engine := { k with standIn := some num, logical := 0xFF, st := meTESTING }

theorem setEngine_engines (e : Fin 68) (logical : Byte) (st : BitVec 4) (s : State) :
    (setEngine e logical st s).engines = vmod s.engines e (fun k => { k with logical := logical, st := st }) := by
  unfold setEngine
  dsimp only
  split
  · rw [logEvent_engines]; rfl
  · rw [recordEngine_engines, logEvent_engines]; rfl

theorem unbindEngine_engine (e g : Fin 68) (s : State) :
    (unbindEngine e s).engines[g] = if g = e then { s.engines[g] with bound := none } else s.engines[g] := by
  unfold unbindEngine
  split
  next h =>
    split
    · subst g; rw [← h]
    · rfl
  · exact modEngine_engine _ _ _ _

/-- What a fence of an engine without units leaves of every engine (R119). -/
theorem fenceIdle_engine (e g : Fin 68) (s : State) :
    (fenceIdle e s).engines[g] =
      if spareOf s (engineDie e) = some g then
        Engine.tested s.engines[e].logical.toNat (if g = e then s.engines[g].fenced else s.engines[g])
      else if g = e then s.engines[g].fenced else s.engines[g] := by
  have first : ∀ v, (raiseCause pf0 1 (logError 0x04 none e.val v
      (setEngine e 0xFF meFENCED (modEngine e (fun k => { k with fence := false }) (unbindEngine e s))))).engines[g] =
      if g = e then s.engines[g].fenced else s.engines[g] := fun v => by
    rw [raiseCause_engines, logError_engines, setEngine_engines, vmod_getElem, modEngine_engine, unbindEngine_engine]
    split <;> rfl
  unfold fenceIdle
  dsimp only
  cases hs : spareOf s (engineDie e) with
  | none => simpa using first 0xFF
  | some k =>
    dsimp only
    rw [setEngine_engines, vmod_getElem, modEngine_engine, first]
    by_cases h : g = k
    · subst h; simp [Engine.tested]
    · simp [h, Ne.symm h]

theorem spareOf_st {s : State} {die : Fin 4} {k : Fin 68} (h : spareOf s die = some k) : s.engines[k].st = meSPARE := by
  simpa using List.find?_some h

/-- A fence that waited for an engine takes effect. -/
theorem fenceIdle_rest {e : Fin 68} {s : State} (h : s.engines[e].fence = true) : EnginesRest s (fenceIdle e s) := by
  intro g hg
  have working : spareOf s (engineDie e) ≠ some g := fun hs => hg (spareOf_st hs)
  rw [fenceIdle_engine, if_neg working]
  split
  · subst g; exact .inr ⟨h, rfl, rfl, rfl⟩
  · exact .inl ⟨rfl, rfl, rfl, rfl⟩

theorem dropUnits_rest (p : MatUnit → Bool) (e : Fin 68) (s : State) : EnginesRest s (dropUnits p e s) := by
  have kept : ∀ us, EnginesRest s (modEngine e (fun k => { k with units := us }) s) :=
    fun us => modEngine_rest _ _ _ (fun _ _ => .inl ⟨rfl, rfl, rfl, rfl⟩)
  unfold dropUnits
  dsimp only
  split
  · exact .refl s
  · split
    · exact kept _
    · split
      next hf =>
        refine (kept _).trans (EnginesRest.trans (.of_eq (modPower_engines _ _)) (fenceIdle_rest ?_))
        rw [modPower_engines, modEngine_engine, if_pos rfl]
        exact hf
      · exact (kept _).trans (.of_eq (modPower_engines _ _))

theorem unbindEngine_rest (e : Fin 68) (s : State) : EnginesRest s (unbindEngine e s) := by
  intro g
  rw [unbindEngine_engine]
  split
  · exact fun _ => .inl ⟨rfl, rfl, rfl, rfl⟩
  · exact .refl _

theorem endBound_rest (t : TaskRef) (e : Fin 68) (s : State) : EnginesRest s (endBound t e s) := by
  unfold endBound
  split
  · exact .refl s
  · split
    · exact modEngine_rest _ _ _ (fun _ _ => .inl ⟨rfl, rfl, rfl, rfl⟩)
    · exact unbindEngine_rest e s

theorem freeUnits_rest (t : TaskRef) (s : State) : EnginesRest s (freeUnits t s) := by
  have begun : EnginesRest s (returnStreams t (detachRequests t { s with claims := s.claims.filter (fun c => !(c.task == t)) })) :=
    .of_eq (returnStreams_engines _ _)
  have dropped := begun.trans (.forEach (List.finRange 68) _ (dropUnits_rest (fun u => u.task == t)) _)
  have vesFreed := dropped.trans (.of_eq (forEach_engines _ (List.finRange 64)
    (fun v st => if (st.ves[v].inst.map (·.task)) = some t then freeVe v st else st) (fun v u => by split <;> simp)))
  have unbound := vesFreed.trans (.forEach (List.finRange 68) _ (endBound_rest t) _)
  have vesUnbound := unbound.trans (.of_eq (forEach_engines _ (List.finRange 64)
    (fun v st => if st.ves[v].bound = some t then unbindVe v st else st) (fun v u => by split <;> simp)))
  have rigsFreed := vesUnbound.trans (.of_eq (forEach_engines _ (List.finRange 64)
    (fun r st => if st.rigs[r].task = some t then freeRig r st else st) (fun v u => by split <;> simp)))
  exact rigsFreed.trans (.of_eq (modDie_engines ..))

/-! ### Ends of tasks -/

theorem endFaulted_rest (t : TaskRef) (cause : Nat) (status : BitVec 8) (detail : Nat) (s : State) :
    EnginesRest s (endFaulted t cause status detail s) :=
  (freeUnits_rest t s).trans (.of_eq (by simp [endFaulted, traceEnd, serveTime]))

theorem faultClosers_rest (slot : Fin 64) (s : State) : EnginesRest s (faultClosers slot s) := by
  refine EnginesRest.forEach _ _ (fun b t => ?_) s
  split
  · exact .refl t
  · exact EnginesRest.trans (.of_eq (by simp)) (endFaulted_rest _ _ _ _ _)

theorem jobFault_rest (slot : Fin 64) (s : State) : EnginesRest s (jobFault slot s) := by
  unfold jobFault drainJob
  split
  · exact (EnginesRest.trans (.of_eq (setJob_engines _ _ _)) (faultClosers_rest _ _)).trans (.of_eq (pauseCheck_engines _ _))
  · exact .of_eq (pauseCheck_engines _ _)

theorem faultCore_rest (t : TaskRef) (cause : Nat) (status : BitVec 8) (detail : Nat) (s : State) :
    EnginesRest s (faultCore t cause status detail s) :=
  (endFaulted_rest _ _ _ _ _).trans (jobFault_rest _ _)

theorem stray_rest (t : TaskRef) (gen : BitVec 6) (s : State) : EnginesRest s (stray t gen s) :=
  EnginesRest.trans (.of_eq (event_engines _ _ _ _)) (jobFault_rest _ _)

theorem decrement_rest (t : TaskRef) (gen : BitVec 6) (s : State) : EnginesRest s (decrement t gen s) := by
  unfold decrement
  split
  · exact .refl s
  · dsimp only
    split
    · split
      · exact .of_eq (by simp)
      · exact stray_rest _ _ _
    · split
      · split <;> exact .of_eq rfl
      · exact stray_rest _ _ _
    · exact stray_rest _ _ _

theorem actSucc_rest (slot : Fin 64) (k x : Nat) (s : State) : EnginesRest s (actSucc slot k x s).1 := by
  unfold actSucc
  split
  · exact .refl s
  · dsimp only
    split
    · exact .refl s
    · exact decrement_rest _ _ _
  · dsimp only
    split
    · exact .refl s
    · split
      · exact .of_eq (by simp)
      · exact .refl s

theorem actInline_rest (slot : Fin 64) (d : Nat) (ks : List Nat) (s : State) : EnginesRest s (actInline slot d ks s).1 := by
  induction ks generalizing s with
  | nil => exact .refl s
  | cons k rest ih =>
    have one := actSucc_rest slot k (dSucc d k) s
    unfold actInline
    split
    next u hu => rw [hu] at one; exact one.trans (ih u)
    next => exact one

theorem actOverflow_rest (slot : Fin 64) (d : Nat) (ks : List Nat) (s : State) : EnginesRest s (actOverflow slot d ks s).1 := by
  induction ks generalizing s with
  | nil => exact .refl s
  | cons k rest ih =>
    have read : EnginesRest s (jobRead s slot (dOvfBase d + 4 * k) 4).2 := .of_eq (jobRead_engines _ _ _ _)
    unfold actOverflow
    dsimp only
    split
    · split
      · exact read
      · have one := read.trans (actSucc_rest slot (8 + k) (leNat (jobRead s slot (dOvfBase d + 4 * k) 4).1.data) _)
        split
        next u hu => rw [hu] at one; exact one.trans (ih u)
        next => exact one
    · exact read

theorem completeCore_rest (t : TaskRef) (ran : Bool) (s : State) : EnginesRest s (completeCore t ran s) := by
  have ended : EnginesRest s (writerEnds t (freeUnits t (writeBack t s))) :=
    (EnginesRest.trans (.of_eq (writeBack_engines _ _)) (freeUnits_rest _ _)).trans (.of_eq (writerEnds_engines _ _))
  unfold completeCore
  dsimp only
  generalize hu : (if ran then forEach (entryOf s t).reads (fun a st => readerDone t.slot a st) (writerEnds t (freeUnits t (writeBack t s)))
    else writerEnds t (freeUnits t (writeBack t s))) = u
  have read : EnginesRest s u := by
    subst hu
    split
    · exact ended.trans (.of_eq (forEach_engines _ _ _ (fun _ _ => readerDone_engines _ _ _)))
    · exact ended
  have inline := read.trans (actInline_rest t.slot (entryOf s t).desc (List.range 8) u)
  have acted : ∀ v o, (match actInline t.slot (entryOf s t).desc (List.range 8) u with
      | (w, none) => actOverflow t.slot (entryOf s t).desc (List.range (dOvfCount (entryOf s t).desc)) w
      | r => r) = (v, o) → EnginesRest s v := by
    intro v o h
    split at h
    next w hw =>
      rw [hw] at inline
      have overflow := actOverflow_rest t.slot (entryOf s t).desc (List.range (dOvfCount (entryOf s t).desc)) w
      rw [h] at overflow
      exact inline.trans overflow
    next => rw [h] at inline; exact inline
  split
  next v f h => exact (acted v (some f) h).trans (faultCore_rest _ _ _ _ _)
  next v h =>
    refine (acted v none h).trans (.of_eq ?_)
    simp only [pauseCheck_engines, traceEnd, trace_engines]
    split <;> simp [serveTime, leaveTag, modTag]

theorem closeHalf_rest (slot : Fin 64) (addr : Nat) (h : Bool) (how : Nat) (s : State) : EnginesRest s (closeHalf slot addr h how s) := by
  unfold closeHalf
  split
  · exact .refl s
  · dsimp only
    split
    · exact EnginesRest.trans (.of_eq (by simp [traceBucket, modBuckets])) (completeCore_rest _ _ _)
    · exact .of_eq (by simp [traceBucket, modBuckets])

/-! ### What settles a job -/

theorem settleWaits_rest (slot : Fin 64) (fuel : Nat) (s : State) : EnginesRest s (settleWaits slot fuel s) := by
  induction fuel generalizing s with
  | zero => exact .refl s
  | succ n ih =>
    unfold settleWaits
    split
    · exact (completeCore_rest _ _ _).trans (ih _)
    · exact (EnginesRest.trans (.of_eq (noteCounter_engines ..)) (faultCore_rest _ _ _ _ _)).trans (ih _)
    · split
      · exact (closeHalf_rest _ _ _ _ _).trans (ih _)
      · exact .refl s

theorem modWatch_rest (slot : Fin 64) (f : Watch → Watch) (s : State) : EnginesRest s (modWatch slot f s) := .of_eq (by simp)

theorem settleDrops_rest (slot : Fin 64) (fuel : Nat) (s : State) : EnginesRest s (settleDrops slot fuel s) := by
  induction fuel generalizing s with
  | zero => exact .refl s
  | succ n ih =>
    have dropped : ∀ t, EnginesRest s (dropUpd t s) := fun t => (modWatch_rest _ _ _).trans (completeCore_rest t false _)
    unfold settleDrops
    dsimp only
    split
    · split
      next t _ _ => exact ((dropped t).trans (settleWaits_rest _ _ _)).trans (ih _)
      · exact .refl s
    · exact .refl s

theorem applyVerdict_rest (slot : Fin 64) (die : Fin 4) (v : BitVec 2) (s : State) : EnginesRest s (applyVerdict slot die v s) := by
  have judged : ∀ f p, EnginesRest s (trace (some slot) die 3 0x30 p (modWatch slot f s)) := fun f p => .of_eq (by simp)
  unfold applyVerdict
  dsimp only
  split
  · exact judged _ _
  · split
    · exact ((judged _ _).trans (settleDrops_rest _ _ _)).trans (jobFault_rest _ _)
    · exact (judged _ _).trans (settleDrops_rest _ _ _)

theorem watchCheck_rest (slot : Fin 64) (s : State) : EnginesRest s (watchCheck slot s) := by
  have verdict : ∀ (c : Prop) [Decidable c] f die v u, EnginesRest s u →
      EnginesRest s (if c then modWatch slot f u else applyVerdict slot die v u) := fun c _ f die v u hu => by
    split
    · exact hu.trans (modWatch_rest _ _ _)
    · exact hu.trans (applyVerdict_rest _ _ _ _)
  unfold watchCheck
  dsimp only
  split
  · refine verdict _ _ _ _ _ ?_
    split
    · exact (modWatch_rest slot _ s).trans (.of_eq (modVe_engines _ _ _))
    · exact modWatch_rest _ _ _
  · exact .refl s

theorem settle_rest (slot : Fin 64) (s : State) : EnginesRest s (settle slot s) := by
  unfold settle
  dsimp only
  refine EnginesRest.trans ?_ (.of_eq (holdCheck_engines _))
  split
  · exact ((settleWaits_rest _ _ _).trans (watchCheck_rest _ _)).trans (settleDrops_rest _ _ _)
  · exact .refl s

/-- Matrix tasks that are due to fault do so, and every engine rests. -/
theorem faultDue_rest (s : State) : EnginesRest s (faultDue s) :=
  EnginesRest.forEach _ _ (fun _ _ => (faultCore_rest _ _ _ _ _).trans (settle_rest _ _)) s

/-! ### Units leave their engines -/

/-- An engine without those of its units that `p` names. -/
def Engine.without (p : MatUnit → Bool) (k : Engine) : Engine := { k with units := k.units.filter (fun u => !p u) }

theorem Engine.without_eq_self {p : MatUnit → Bool} {k : Engine} (h : k.units.any p = false) : k.without p = k := by
  have keeps : k.units.filter (fun u => !p u) = k.units := List.filter_eq_self.mpr (by simpa using h)
  rw [Engine.without, keeps]

theorem Engine.without_without (p : MatUnit → Bool) (k : Engine) : (k.without p).without p = k.without p := by
  simp [Engine.without]

/-- An engine for which no fence waits gives up units, and stays as it is otherwise. -/
theorem dropUnits_engine {p : MatUnit → Bool} {e : Fin 68} {s : State} (calm : s.engines[e].fence = false) (g : Fin 68) :
    (dropUnits p e s).engines[g] = if g = e then s.engines[g].without p else s.engines[g] := by
  have left : (modEngine e (fun k => { k with units := s.engines[e].units.filter (fun u => !p u) }) s).engines[g] =
      if g = e then s.engines[g].without p else s.engines[g] := by
    rw [modEngine_engine]
    by_cases h : g = e
    · subst h; rfl
    · simp [h]
  unfold dropUnits
  dsimp only
  split
  next none =>
    split
    · subst g; rw [Engine.without_eq_self (by simpa using none)]
    · rfl
  · split
    · exact left
    · rw [if_neg (by simpa using calm)]
      exact left

/-- Engines give up units one after the other, where no fence waits; what is done for each of them beside that leaves the engines. -/
theorem dropAll_engine (p : MatUnit → Bool) (f : Fin 68 → State → State) (hf : ∀ e t, (f e t).engines = t.engines) (l : List (Fin 68))
    {s : State} (calm : ∀ e : Fin 68, s.engines[e].fence = false) (g : Fin 68) :
    (forEach l (fun e st => dropUnits p e (f e st)) s).engines[g] = if g ∈ l then s.engines[g].without p else s.engines[g] := by
  induction l generalizing s with
  | nil => rfl
  | cons e rest ih =>
    have one : ∀ k : Fin 68, (dropUnits p e (f e s)).engines[k] = if k = e then s.engines[k].without p else s.engines[k] := fun k => by
      rw [dropUnits_engine (by rw [hf]; exact calm e), hf]
    have rests : ∀ k : Fin 68, (dropUnits p e (f e s)).engines[k].fence = false := fun k => by
      rw [one]
      split <;> exact calm k
    refine (ih rests).trans ?_
    rw [one]
    by_cases h : g = e
    · simp [h, Engine.without_without]
    · simp [h]

/-! ### The return of a group and the fence of an engine -/

theorem dropPaired_engines (t : TaskRef) (u0 parts : Nat) (e : Fin 68) (s : State) : (dropPaired t u0 parts e s).engines = s.engines := by
  unfold dropPaired
  dsimp only
  split
  · split <;> simp
  · rfl

/-- Where no fence waits, the return of a group leaves every engine's health entry (R119 step 2). -/
theorem returnGroup_health (t : TaskRef) (u0 parts : Nat) {s : State} (calm : ∀ e : Fin 68, s.engines[e].fence = false) (g : Fin 68) :
    s.engines[g].SameHealth (returnGroup t u0 parts s).engines[g] := by
  have dropped := dropAll_engine (MatUnit.isOf t u0 parts) (dropPaired t u0 parts) (dropPaired_engines t u0 parts) (holders s t u0 parts) calm g
  have same : (returnGroup t u0 parts s).engines =
    (forEach (holders s t u0 parts) (fun e st => dropUnits (MatUnit.isOf t u0 parts) e (dropPaired t u0 parts e st)) s).engines := rfl
  rw [same, dropped]
  split <;> exact ⟨rfl, rfl, rfl, rfl⟩

theorem spareOf_congr {s t : State} (h : ∀ e : Fin 68, t.engines[e].st = s.engines[e].st) (die : Fin 4) : spareOf t die = spareOf s die := by
  simp only [spareOf, h]

/-- A fence takes an engine out of work, and the idle spare of its die is tested for its number (R119). -/
theorem fenceEngine_fences {e : Fin 68} {s : State} (works : s.engines[e].st ≠ meSPARE)
    (others : ∀ k : Fin 68, k ≠ e → s.engines[k].fence = false) :
    ((fenceEngine e s).engines[e].st = meFENCED ∧ (fenceEngine e s).engines[e].logical = 0xFF) ∧
    ∀ k : Fin 68, spareOf s (engineDie e) = some k →
      (fenceEngine e s).engines[k].st = meTESTING ∧ (fenceEngine e s).engines[k].standIn = some s.engines[e].logical.toNat := by
  let cleared := modEngine e (fun k => { k with fence := false }) s
  let returned := forEach s.engines[e].units (fun u st => returnGroup u.task (groupOf (entryOf st u.task) u.unit).1
    (groupOf (entryOf st u.task) u.unit).2 st) cleared
  have calm : ∀ k : Fin 68, cleared.engines[k].fence = false := fun k => by
    rw [modEngine_engine]
    split
    · rfl
    next h => exact others k h
  have health : ∀ k : Fin 68, cleared.engines[k].SameHealth returned.engines[k] := by
    refine forEach_keeps (P := fun t => ∀ k : Fin 68, cleared.engines[k].SameHealth t.engines[k]) _ _ (fun u t ht k => ?_) cleared
      (fun k => .refl _)
    exact (ht k).trans (returnGroup_health _ _ _ (fun g => (ht g).2.2.2.trans (calm g)) k)
  have st : ∀ k : Fin 68, returned.engines[k].st = s.engines[k].st := fun k => by
    rw [(health k).1, modEngine_engine]
    split <;> rfl
  have number : returned.engines[e].logical = s.engines[e].logical := by
    rw [(health e).2.1, modEngine_engine, if_pos rfl]
  have rest : EnginesRest (fenceIdle e returned) (fenceEngine e s) := by
    unfold fenceEngine
    dsimp only
    split
    · exact .refl _
    · exact faultDue_rest _
  constructor
  · have noSpare : spareOf returned (engineDie e) ≠ some e := fun h => works ((st e).symm.trans (spareOf_st h))
    have fenced := fenceIdle_engine e e returned
    rw [if_neg noSpare, if_pos rfl] at fenced
    exact (rest e).fenced (by rw [fenced]; rfl) (by rw [fenced]; rfl)
  · intro k hk
    have other : k ≠ e := fun h => works (h ▸ spareOf_st hk)
    have tested := fenceIdle_engine e k returned
    rw [if_pos ((spareOf_congr st _).trans hk), if_neg other, number] at tested
    have tests := (rest k).testing (by rw [tested]; rfl) (by rw [tested]; exact (health k).2.2.2.trans (calm k))
    rw [tested] at tests
    exact tests

/-! ### Residue checks -/

/-- A unit that runs again from its first K tile (R117). -/
def MatUnit.afresh (u : MatUnit) : MatUnit :=
  { u with loaded := 0, passes := 0, bufs := [], bank := [], ended := false, waitParts := false, rerun := true }

/-- What a failed residue check leaves before it fences the engine. -/
def residueNoted (eng : Fin 68) (u : MatUnit) (s : State) : State :=
  let n := BitVec.ofNat 8 (min 255 (s.engines[eng].err.toNat + 1))
  logError 0x03 none eng.val n.toNat
    (pmuCount (engineDie eng) none 0x013 0 1 (putUnit eng u.afresh (modEngine eng (fun k => { k with err := n }) s)))

/-- A residue check that fails while the last unit of an engine still computes: the unit runs again, or the engine is fenced (R117). -/
theorem doResidue_eq {eng : Fin 68} {s : State} {u : MatUnit} (last : s.engines[eng].units.getLast? = some u)
    (undrained : u.ended = true → u.waitParts = true) :
    doResidue eng s = if u.rerun = true ∨ 7 ≤ s.engines[eng].err.toNat then fenceEngine eng (residueNoted eng u s) else residueNoted eng u s := by
  have computes : (u.ended && !u.waitParts) = false := by
    cases h : u.ended <;> simp [h, undrained]
  have count : (u.rerun || decide (8 ≤ (BitVec.ofNat 8 (min 255 (s.engines[eng].err.toNat + 1))).toNat)) = true ↔
      u.rerun = true ∨ 7 ≤ s.engines[eng].err.toNat := by
    rw [Bool.or_eq_true, decide_eq_true_iff, BitVec.toNat_ofNat]
    exact or_congr_right (by omega)
  unfold doResidue
  rw [last]
  dsimp only
  rw [if_neg (by simp [computes])]
  exact if_congr count rfl rfl

theorem residueNoted_changes (eng : Fin 68) (u : MatUnit) (s : State) :
    Changes [.engines, .clock, .host, .out, .logs] s (residueNoted eng u s) := by
  have units : Changes [.engines, .clock, .host, .out, .logs] s (putUnit eng u.afresh (modEngine eng (fun k => { k with
      err := BitVec.ofNat 8 (min 255 (s.engines[eng].err.toNat + 1)) }) s)) := by
    intro p hp; cases p <;> first | exact absurd (by decide) hp | rfl
  exact (units.trans ((pmuCount_changes _ _ _ _ _ _).mono (by decide))).trans ((logError_changes _ _ _ _ _).mono (by decide))

theorem residueNoted_engines (eng : Fin 68) (u : MatUnit) (s : State) :
    (residueNoted eng u s).engines = (putUnit eng u.afresh (modEngine eng (fun k => { k with
      err := BitVec.ofNat 8 (min 255 (s.engines[eng].err.toNat + 1)) }) s)).engines := by
  rw [residueNoted, logError_engines, pmuCount_engines]

/-- Below its limit the engine's count of errors rises by 1. -/
theorem residueNoted_engines_below {eng : Fin 68} (u : MatUnit) {s : State} (below : s.engines[eng].err.toNat < 7) :
    (residueNoted eng u s).engines = (putUnit eng u.afresh (modEngine eng (fun k => { k with err := k.err + 1 }) s)).engines := by
  have count : BitVec.ofNat 8 (min 255 (s.engines[eng].err.toNat + 1)) = s.engines[eng].err + 1 := by
    apply BitVec.eq_of_toNat_eq
    rw [BitVec.toNat_ofNat, BitVec.toNat_add]
    change _ = (_ + 1) % _
    omega
  rw [residueNoted_engines, count]
  rfl

/-- A residue check leaves the health entry of every engine until it fences one. -/
theorem residueNoted_health (eng : Fin 68) (u : MatUnit) (s : State) (g : Fin 68) :
    s.engines[g].SameHealth (residueNoted eng u s).engines[g] := by
  rw [residueNoted_engines, putUnit, modEngine_engine, modEngine_engine]
  split <;> exact ⟨rfl, rfl, rfl, rfl⟩

theorem doResidue_fences {eng : Fin 68} {s : State} {u : MatUnit} (last : s.engines[eng].units.getLast? = some u)
    (undrained : u.ended = true → u.waitParts = true) (limit : u.rerun = true ∨ 7 ≤ s.engines[eng].err.toNat)
    (works : s.engines[eng].st ≠ meSPARE) (others : ∀ k : Fin 68, k ≠ eng → s.engines[k].fence = false) :
    (doResidue eng s).engines[eng].st = meFENCED ∧ (doResidue eng s).engines[eng].logical = 0xFF ∧
    ∀ k : Fin 68, spareOf s (engineDie eng) = some k →
      (doResidue eng s).engines[k].st = meTESTING ∧ (doResidue eng s).engines[k].standIn = some s.engines[eng].logical.toNat := by
  have health := residueNoted_health eng u s
  obtain ⟨⟨st, logical⟩, tests⟩ := fenceEngine_fences (e := eng) (s := residueNoted eng u s) (by rw [(health eng).1]; exact works)
    (fun k hk => (health k).2.2.2.trans (others k hk))
  rw [spareOf_congr (fun e => (health e).1), (health eng).2.1] at tests
  rw [doResidue_eq last undrained, if_pos limit]
  exact ⟨st, logical, tests⟩

/-! ### The test of a spare -/

/-- The state in which the test of a spare ends: it stands in for no engine any more. -/
def testEnded (e : Fin 68) (s : State) : State := modEngine e (fun k => { k with standIn := none }) s

section
variable {die : Fin 4} {s : State} {e : Fin 68}
  (tested : (dieEngines die).find? (fun e => s.engines[e].st == meTESTING && !s.engines[e].returned) = some e)
include tested

/-- A spare that passes takes the number that it stood in for (R14, R119). -/
theorem spareTest_pass {l : Nat} (h : s.engines[e].standIn = some l) :
    spareTest die true s = setEngine e (BitVec.ofNat 8 l) meACTIVE (testEnded e s) := by
  unfold spareTest
  rw [tested]
  dsimp only
  rw [h]
  rfl

/-- One that stood in for no number is idle again. -/
theorem spareTest_idle (h : s.engines[e].standIn = none) : spareTest die true s = setEngine e 0xFF meSPARE (testEnded e s) := by
  unfold spareTest
  rw [tested]
  dsimp only
  rw [h]
  rfl

/-- One that fails is fenced (R120). -/
theorem spareTest_fail : spareTest die false s = faultDue (splitMark die (setEngine e 0xFF meFENCED (testEnded e s))) := by
  unfold spareTest
  rw [tested]
  rfl

end

theorem setEngine_testEnded_engine (e g : Fin 68) (logical : Byte) (st : BitVec 4) (s : State) :
    (setEngine e logical st (testEnded e s)).engines[g] =
      if g = e then { s.engines[g] with standIn := none, logical := logical, st := st } else s.engines[g] := by
  rw [setEngine_engines, vmod_getElem, testEnded, modEngine_engine]
  split <;> rfl

/-- The end of a spare's test moves its engine, records it in the health table, and leaves memory, jobs and every other engine. -/
theorem setEngine_testEnded (e : Fin 68) (logical : Byte) {st : BitVec 4} (recorded : st ≠ meTESTING) (s : State) :
    let t := setEngine e logical st (testEnded e s)
    t.engines[e].st = st ∧ t.engines[e].logical = logical ∧ t.health.me = s.health.me.set e.val (logical, st) ∧
      (∀ k : Fin 68, k ≠ e → t.engines[k] = s.engines[k]) ∧ t.mem = s.mem ∧ t.jobs = s.jobs := by
  intro t
  have engine := fun g => setEngine_testEnded_engine e g logical st s
  have written : t = recordEngine e logical st (logEvent 0x05 none e.val ((testEnded e s).engines[e].st.toNat + st.toNat <<< 4)
      (modEngine e (fun k => { k with logical := logical, st := st }) (testEnded e s))) := if_neg recorded
  refine ⟨?_, ?_, ?_, fun k hk => ?_, ?_, ?_⟩
  · rw [engine, if_pos rfl]
  · rw [engine, if_pos rfl]
  · rw [written]; rfl
  · rw [engine, if_neg hk]
  · rw [written]; rfl
  · rw [written]; rfl

theorem spareTest_fail_fences {die : Fin 4} {s : State} {e : Fin 68}
    (tested : (dieEngines die).find? (fun e => s.engines[e].st == meTESTING && !s.engines[e].returned) = some e) :
    (spareTest die false s).engines[e].st = meFENCED ∧ (spareTest die false s).engines[e].logical = 0xFF := by
  have fenced := setEngine_testEnded_engine e e 0xFF meFENCED s
  rw [if_pos rfl] at fenced
  rw [spareTest_fail tested]
  refine (faultDue_rest _ e).fenced ?_ ?_
  · rw [splitMark_engines, fenced]
  · rw [splitMark_engines, fenced]

end Sys2Proof.Machine
end

section
/-! SUPPORT. What a job reads through operations that leave stored memory (spec/08_memory.md R281 to R287, R291 to R294), and the
starts and loads of work units (spec/03_matrix_engines.md R77, R82, R98, R101). -/

namespace Sys2Proof.Machine

/-! ### Reads that an operation leaves -/

/-- What the stacks and the Activation Stores hold is the same. -/
def Mem.SameStored (a b : Mem) : Prop := b.cells = a.cells ∧ b.sectors = a.sectors ∧ b.asBad = a.asBad ∧ b.memStacks = a.memStacks

theorem Mem.SameStored.refl (a : Mem) : a.SameStored a := ⟨rfl, rfl, rfl, rfl⟩

/-- Every read of every job answers the same in two states: what memory holds, the jobs' pages and tags, the keys and the map of
the bands are the same. -/
structure SameReads (s t : State) : Prop where
  ctl : ∀ i : Fin 64, ctl t i = ctl s i
  mem : s.mem.SameStored t.mem
  objs : t.objs = s.objs
  rst : t.rst = s.rst
  sec : t.sec = s.sec

theorem SameReads.refl (s : State) : SameReads s s := ⟨fun _ => rfl, .refl _, rfl, rfl, rfl⟩

theorem SameReads.trans {s t u : State} (h : SameReads s t) (g : SameReads t u) : SameReads s u := by
  obtain ⟨ctl, ⟨cells, sectors, asBad, memStacks⟩, objs, rst, sec⟩ := h
  obtain ⟨ctl', ⟨cells', sectors', asBad', memStacks'⟩, objs', rst', sec'⟩ := g
  exact ⟨fun i => (ctl' i).trans (ctl i), ⟨cells'.trans cells, sectors'.trans sectors, asBad'.trans asBad, memStacks'.trans memStacks⟩,
    objs'.trans objs, rst'.trans rst, sec'.trans sec⟩

section
variable {s t : State} (h : SameReads s t)
include h

theorem SameReads.readPart (tag : BitVec 16) (dpa n : Nat) : readPart t tag dpa n = readPart s tag dpa n := by
  obtain ⟨_, ⟨cells, sectors, asBad, memStacks⟩, objs, rst, sec⟩ := h
  have band : ∀ b, bandDie t b = bandDie s b := fun b => by simp only [bandDie, devFld, objBits, objs, rst, sec]
  have decode : ∀ d, decodeDpa t d = decodeDpa s d := fun d => by simp only [decodeDpa, band]
  have granule : ∀ k j, granuleDpa t k j = granuleDpa s k j := fun k j => by simp only [granuleDpa, band]
  have bands : bandCount t = bandCount s := by simp only [bandCount, sec]
  have base : grantableBase t = grantableBase s := by simp only [grantableBase, totalFrames, bands]
  have first : withdrawnFirst t = withdrawnFirst s := by simp only [withdrawnFirst, sec]
  have apart : ∀ d, withdrawn t d = withdrawn s d := fun d => by unfold withdrawn; rw [base, first]
  have moved : ∀ k, movedGranules t k = movedGranules s k := fun k => by
    simp only [movedGranules, bands, apart, show granuleDpa t k = granuleDpa s k from funext (granule k)]
  have dest : ∀ k, destGranules t k = destGranules s k := fun k => by
    simp only [destGranules, decode, withdrawnCount, first, base]
  have served : servedBy t dpa = servedBy s dpa := by simp only [servedBy, decode, memStacks, moved, dest, apart]
  have sector : sectorMeta t dpa = sectorMeta s dpa := by simp only [sectorMeta, sectors]
  have data : sectorData t tag dpa n = sectorData s tag dpa n := by simp only [sectorData, tagKey, sectorStored, served, sector, cells, sec]
  have words : asBadWords t dpa n = asBadWords s dpa n := by simp only [asBadWords, asBad]
  have mismatch : tagMismatch t tag dpa = tagMismatch s tag dpa := by unfold tagMismatch; rw [sector]
  unfold Machine.readPart
  rw [words, sector, mismatch, data, cells]

theorem SameReads.translate (slot : Fin 64) (va : Nat) (r w : Bool) : translate t slot va r w = translate s slot va r w := by
  simp only [Machine.translate, h.ctl]

theorem SameReads.peek (slot : Fin 64) (va len : Nat) : peek t slot va len = peek s slot va len := by
  have range : mapped t slot va len true false = mapped s slot va len true false := by simp only [mapped, h.translate]
  have tag : jobTag t slot = jobTag s slot := by simp only [jobTag, h.ctl]
  simp only [Machine.peek, range, tag, h.translate, h.readPart]

theorem SameReads.arrExp (slot : Fin 64) (a : Arr) (r c : Nat) : arrExp t slot a r c = arrExp s slot a r c := by
  simp only [Machine.arrExp, jobNat, h.peek]

/-- The K tiles that a unit loads and passes are found by reads. -/
theorem SameReads.unitTiles (slot : Fin 64) (e : Entry) (w : WorkUnit) (ents : List Nat) :
    unitTiles t slot e w ents = unitTiles s slot e w ents := by
  simp only [Machine.unitTiles, rowPairs, h.arrExp]

end

/-! ### Streams -/

/-- Two states differ in prefetchers, stream cache lines and counters at most, as after an operation of the streams. -/
structure StreamsOnly (s t : State) : Prop where
  changes : Changes [.mem, .clock] s t
  stored : s.mem.SameStored t.mem

theorem StreamsOnly.refl (s : State) : StreamsOnly s s := ⟨.refl _ _, .refl _⟩

theorem StreamsOnly.reads {s t : State} (h : StreamsOnly s t) : SameReads s t := by
  have jobs : t.jobs = s.jobs := h.changes .jobs (by decide)
  exact ⟨fun i => by rw [ctl, ctl, jobs], h.stored, h.changes .objs (by decide), h.changes .rst (by decide), h.changes .sec (by decide)⟩

theorem StreamsOnly.trans {s t u : State} (h : StreamsOnly s t) (g : StreamsOnly t u) : StreamsOnly s u :=
  ⟨h.changes.trans g.changes, (h.reads.trans g.reads).mem⟩

theorem StreamsOnly.forEach {α : Type} (l : List α) (f : α → State → State) (hf : ∀ a t, StreamsOnly t (f a t)) (s : State) :
    StreamsOnly s (forEach l f s) :=
  forEach_keeps (P := StreamsOnly s) l f (fun a t ht => ht.trans (hf a t)) s (.refl s)

theorem pmuCount_streams (die : Fin 4) (slot : Option (Fin 64)) (event bit n : Nat) (s : State) :
    StreamsOnly s (pmuCount die slot event bit n s) := by
  refine ⟨(pmuCount_changes _ _ _ _ _ _).mono (by decide), ?_⟩
  rw [pmuCount_changes die slot event bit n s .mem (by decide)]
  exact .refl _

theorem setPrefetch_streams (die : Fin 4) (k : Fin 64) (p : Option Prefetch) (s : State) : StreamsOnly s (setPrefetch die k p s) :=
  ⟨fun q hq => by cases q <;> first | exact absurd (by decide) hq | rfl, .refl _⟩

theorem freeLines_streams (slot : Fin 64) (die : Fin 4) (sectors : List Nat) (s : State) : StreamsOnly s (freeLines slot die sectors s) :=
  ⟨fun q hq => by cases q <;> first | exact absurd (by decide) hq | rfl, .refl _⟩

theorem openStream_streams (p : Prefetch) (s : State) : StreamsOnly s (openStream p s) := by
  unfold openStream
  split
  · refine StreamsOnly.trans ?_ (setPrefetch_streams _ _ _ _)
    split
    · exact freeLines_streams _ _ _ _
    · exact .refl s
  · exact pmuCount_streams _ _ _ _ _ _

theorem consume_streams (t : TaskRef) (u : StreamUser) (rs : List (Nat × Nat)) (s : State) : StreamsOnly s (consume t u rs s) := by
  refine StreamsOnly.forEach _ _ (fun k v => ?_) s
  split
  · split
    · exact ((freeLines_streams _ _ _ _).trans (pmuCount_streams _ _ _ _ _ _)).trans (setPrefetch_streams _ _ _ _)
    · exact .refl v
  · exact .refl v

theorem openStreams_streams (t : TaskRef) (e : Entry) (eng : Fin 68) (w : WorkUnit) (ents : List Nat) (ahead : Bool) (tile : Nat)
    (s : State) : StreamsOnly s (openStreams t e eng w ents ahead tile s) := by
  unfold openStreams
  dsimp only
  split
  · exact (openStream_streams _ _).trans (openStream_streams _ _)
  · exact openStream_streams _ _

/-- A detected stream of an operand of a unit goes on with the unit's `n`th tile (R291). -/
def nextStream (eng : Fin 68) (e : Entry) (w : WorkUnit) (u : MatUnit) (opA : Bool) (n : Nat) (s : State) : State :=
  match u.tiles[n]? with
  | none => s
  | some tile =>
    if (detectedOf s u.task (.operand eng opA false)).isSome then openStream (tileStream s u.task e eng w u.ents opA false tile) s else s

theorem nextStream_streams (eng : Fin 68) (e : Entry) (w : WorkUnit) (u : MatUnit) (opA : Bool) (n : Nat) (s : State) :
    StreamsOnly s (nextStream eng e w u opA n s) := by
  unfold nextStream
  split
  · exact .refl s
  · split
    · exact openStream_streams _ _
    · exact .refl s

/-- The streams of a unit after loads and passes: first that of B, then that of A. -/
theorem moveStreams_eq (eng : Fin 68) (e : Entry) (w : WorkUnit) (u v : MatUnit) (s : State) :
    moveStreams eng e w u v s =
      let lb := v.loaded / loadCount w
      let pa := v.passes / passCount w
      let s := if u.loaded / loadCount w < lb then
          nextStream eng e w u false lb (consume u.task (.operand eng false false) (tileRanges s u.task.slot w (u.tiles.getD (lb - 1) 0)) s)
        else s
      if u.passes / passCount w < pa then
        nextStream eng e w u true pa
          (consume u.task (.operand eng true false) (passRanges s u.task.slot e w u.ents (u.tiles.getD (pa - 1) 0)) s)
      else s := rfl

theorem moveStreams_streams (eng : Fin 68) (e : Entry) (w : WorkUnit) (u v : MatUnit) (s : State) :
    StreamsOnly s (moveStreams eng e w u v s) := by
  have one : ∀ (c : Prop) [Decidable c] opA n rs r,
      StreamsOnly r (if c then nextStream eng e w u opA n (consume u.task (.operand eng opA false) rs r) else r) := fun c _ opA n rs r => by
    split
    · exact (consume_streams _ _ _ _).trans (nextStream_streams _ _ _ _ _ _ _)
    · exact .refl r
  rw [moveStreams_eq]
  exact (one _ false _ _ s).trans (one _ true _ _ _)

/-! ### Starts of units (R82, R101) -/

/-- The engines of a unit's parts are as many as the parts, and no two are the same (R101). -/
theorem partEngines_spec {s : State} {t : TaskRef} {d parts : Nat} {eng : Fin 68} {engs : List (Fin 68)}
    (h : partEngines s t d parts eng = some engs) : engs.length = parts ∧ engs.Nodup := by
  unfold partEngines at h
  dsimp only at h
  split at h
  next c =>
    obtain rfl := Option.some.inj h
    simp only [Bool.and_eq_true, beq_iff_eq] at c
    refine ⟨c.1.2, List.nodup_cons.mpr ⟨fun hm => ?_, ?_⟩⟩
    · simpa using List.mem_of_mem_take hm
    · exact (((List.nodup_finRange 68).filter _).filter _).sublist (List.take_sublist _ _)
  next => exact absurd h (by simp)

theorem unitOn_spec {s : State} {t : TaskRef} {eng : Fin 68} {u : Nat} {w : WorkUnit} {engs : List (Fin 68)}
    (h : unitOn s t eng = some (u, w, engs)) : engs.length = w.parts ∧ engs.Nodup := by
  unfold unitOn at h
  dsimp only at h
  split at h
  · simp only [Option.bind_eq_some_iff, Option.map_eq_some_iff, Prod.mk.injEq] at h
    obtain ⟨_, _, _, _, _, found, rfl, rfl, rfl⟩ := h
    exact partEngines_spec found
  · exact absurd h (by simp)

/-- An entry after its update. -/
theorem entryOf_modEntry (t : TaskRef) (f : Entry → Entry) (s : State) : entryOf (modEntry t f s) t = f (entryOf s t) := by
  simp [entryOf, entryAt, modEntry, AMap.getD]

theorem entryOf_of_jobs {s t : State} (h : t.jobs = s.jobs) (k : TaskRef) : entryOf t k = entryOf s k := by
  rw [entryOf, entryOf, entryAt, entryAt, jobDie_of_jobs _ _ h]

theorem ctl_modEntry (t : TaskRef) (f : Entry → Entry) (s : State) (i : Fin 64) : ctl (modEntry t f s) i = ctl s i := by
  by_cases h : i = t.slot
  · subst h; simp [ctl, modEntry, modDie, modTasks]
  · exact congrArg Job.ctl (modJob_other t.slot i _ s h)

theorem modEntry_reads (t : TaskRef) (f : Entry → Entry) (s : State) : SameReads s (modEntry t f s) :=
  ⟨ctl_modEntry t f s, .refl _, rfl, rfl, rfl⟩

/-- An engine has taken a unit for a job: it works for the job's slot, as it did otherwise. -/
def Engine.Took (u : MatUnit) (a b : Engine) : Prop := b.slot = some u.task.slot ∧ b.st = a.st ∧ b.units = a.units ++ [u]

theorem takeUnit_engine (u : MatUnit) (e : Fin 68) (s : State) :
    s.engines[e].Took u (takeUnit u e s).engines[e] ∧ ∀ g : Fin 68, g ≠ e → (takeUnit u e s).engines[g] = s.engines[g] := by
  have taken : ∀ g : Fin 68, (takeUnit u e s).engines[g] = (modEngine e (fun k => { k with units := k.units ++ [u] }) (bindEngine u.task e s)).engines[g] :=
    fun g => by
      unfold takeUnit
      dsimp only
      split <;> rfl
  constructor
  · rw [taken, modEngine_engine, if_pos rfl, bindEngine, modEngine_engine, if_pos rfl]
    exact ⟨rfl, rfl, rfl⟩
  · intro g hg
    rw [taken, modEngine_engine, if_neg hg, bindEngine, modEngine_engine, if_neg hg]

theorem takeUnit_changes (u : MatUnit) (e : Fin 68) (s : State) : Changes [.engines, .power] s (takeUnit u e s) := by
  unfold takeUnit
  dsimp only
  split
  all_goals intro p hp; cases p <;> first | exact absurd (by decide) hp | rfl

/-- What a start of parts leaves beside the engines that take them. -/
structure StartKept (s t : State) : Prop where
  reads : SameReads s t
  jobs : t.jobs = s.jobs

theorem StartKept.refl (s : State) : StartKept s s := ⟨.refl s, rfl⟩

theorem StartKept.trans {s t u : State} (h : StartKept s t) (g : StartKept t u) : StartKept s u :=
  ⟨h.reads.trans g.reads, g.jobs.trans h.jobs⟩

theorem StreamsOnly.start {s t : State} (h : StreamsOnly s t) : StartKept s t := ⟨h.reads, h.changes .jobs (by decide)⟩

theorem StreamsOnly.engines {s t : State} (h : StreamsOnly s t) : t.engines = s.engines := h.changes .engines (by decide)

theorem takeUnit_start (u : MatUnit) (e : Fin 68) (s : State) : StartKept s (takeUnit u e s) := by
  have h := takeUnit_changes u e s
  have jobs : (takeUnit u e s).jobs = s.jobs := h .jobs (by decide)
  have mem : (takeUnit u e s).mem = s.mem := h .mem (by decide)
  exact ⟨⟨fun i => by rw [ctl, ctl, jobs], by rw [mem]; exact .refl _, h .objs (by decide), h .rst (by decide), h .sec (by decide)⟩, jobs⟩

/-- A part starts: its engine takes the unit with the K tiles that are found for it (R82, R248). -/
theorem startPart_some {t : TaskRef} {e : Entry} {u : Nat} {ents : List Nat} {eng : Fin 68} {s : State} {w : WorkUnit}
    (h : (unitsOf e)[u]? = some w) :
    let r := startPart t e u ents eng s
    StartKept s r.1 ∧ r.1.engines = (takeUnit (MatUnit.start t u (unitTiles s t.slot e w ents).1 ents) eng s).engines ∧
      r.2.1 = (unitTiles s t.slot e w ents).2 := by
  have opened : ∀ v, StreamsOnly v (match nextEntryUnit e u w with | some x => openStreams t e eng x [] true x.k0 v | none => v) := fun v => by
    split
    · exact openStreams_streams _ _ _ _ _ _ _ _
    · exact .refl v
  have streams := fun tile v => (openStreams_streams t e eng w ents false tile v).trans (opened _)
  unfold startPart
  rw [h]
  exact ⟨(takeUnit_start _ _ _).trans (streams _ _).start, (streams _ _).engines, rfl⟩

theorem startPart_none {t : TaskRef} {e : Entry} {u : Nat} {ents : List Nat} {eng : Fin 68} {s : State}
    (h : (unitsOf e)[u]? = none) : startPart t e u ents eng s = (s, .ok, []) := by
  unfold startPart
  rw [h]

/-- What one part of a group adds to a start: its engine's unit, and the failure of its scan. -/
def addPart (t : TaskRef) (e : Entry) (u : Nat) (ents : List Nat) (acc : State × MStat × List (Nat × Nat)) (p : Nat × Fin 68) :
    State × MStat × List (Nat × Nat) :=
  let x := startPart t e (u + p.1) ents p.2 acc.1
  (x.1, acc.2.1.and x.2.1, acc.2.2 ++ x.2.2)

/-- Parts have started, one on each engine of a list: nothing else has changed that a read or a task sees. -/
structure PartsStarted (t : TaskRef) (e : Entry) (u : Nat) (ents : List Nat) (l : List (Nat × Fin 68)) (s : State)
    (r : State × MStat × List (Nat × Nat)) : Prop where
  kept : StartKept s r.1
  ok : r.2.1 = .ok
  others : ∀ g : Fin 68, g ∉ l.map Prod.snd → r.1.engines[g] = s.engines[g]
  took : ∀ p ∈ l, ∀ x, (unitsOf e)[u + p.1]? = some x →
    s.engines[p.2].Took (MatUnit.start t (u + p.1) (unitTiles s t.slot e x ents).1 ents) r.1.engines[p.2]

/-- One part starts whose scan does not fail. -/
theorem addPart_started {t : TaskRef} {e : Entry} {u : Nat} {ents : List Nat} {acc : State × MStat × List (Nat × Nat)} {p : Nat × Fin 68}
    (ok : acc.2.1 = .ok) (tiles : ∀ x, (unitsOf e)[u + p.1]? = some x → (unitTiles acc.1 t.slot e x ents).2 = .ok) :
    PartsStarted t e u ents [p] acc.1 (addPart t e u ents acc p) := by
  have status : (addPart t e u ents acc p).2.1 = (startPart t e (u + p.1) ents p.2 acc.1).2.1 := by
    simp [addPart, ok, MStat.and]
  cases h : (unitsOf e)[u + p.1]? with
  | none =>
    have idle := startPart_none (t := t) (ents := ents) (eng := p.2) (s := acc.1) h
    have same : (addPart t e u ents acc p).1 = acc.1 := show (startPart t e (u + p.1) ents p.2 acc.1).1 = acc.1 by rw [idle]
    refine ⟨same ▸ .refl _, by rw [status, idle], fun g _ => by rw [same], fun q hq x hx => ?_⟩
    obtain rfl := List.mem_singleton.mp hq
    exact absurd (h.symm.trans hx) (by simp)
  | some w =>
    obtain ⟨kept, engines, scan⟩ := startPart_some (t := t) (ents := ents) (eng := p.2) (s := acc.1) h
    obtain ⟨took, others⟩ := takeUnit_engine (MatUnit.start t (u + p.1) (unitTiles acc.1 t.slot e w ents).1 ents) p.2 acc.1
    have after : ∀ g : Fin 68, (addPart t e u ents acc p).1.engines[g] =
        (takeUnit (MatUnit.start t (u + p.1) (unitTiles acc.1 t.slot e w ents).1 ents) p.2 acc.1).engines[g] := fun g =>
      congrArg (fun (v : Vector Engine 68) => v[g]) engines
    refine ⟨kept, by rw [status, scan, tiles w h], fun g hg => ?_, fun q hq x hx => ?_⟩
    · rw [after, others g (by simpa using hg)]
    · obtain rfl := List.mem_singleton.mp hq
      obtain rfl := Option.some.inj (h.symm.trans hx)
      rw [after]
      exact took

/-- Parts start one after the other on engines of their own: each finds its K tiles as if it started first. -/
theorem addParts_started {t : TaskRef} {e : Entry} {u : Nat} {ents : List Nat} (l : List (Nat × Fin 68))
    {acc : State × MStat × List (Nat × Nat)} (apart : (l.map Prod.snd).Nodup) (ok : acc.2.1 = .ok)
    (tiles : ∀ p ∈ l, ∀ x, (unitsOf e)[u + p.1]? = some x → (unitTiles acc.1 t.slot e x ents).2 = .ok) :
    PartsStarted t e u ents l acc.1 (l.foldl (addPart t e u ents) acc) := by
  induction l generalizing acc with
  | nil => exact ⟨.refl _, ok, fun _ _ => rfl, fun p hp => absurd hp (List.not_mem_nil)⟩
  | cons p rest ih =>
    have first := addPart_started (p := p) ok (tiles p List.mem_cons_self)
    have found : ∀ x, unitTiles (addPart t e u ents acc p).1 t.slot e x ents = unitTiles acc.1 t.slot e x ents :=
      fun x => first.kept.reads.unitTiles t.slot e x ents
    obtain ⟨new, apart'⟩ := List.nodup_cons.mp (by simpa only [List.map_cons] using apart)
    have later := ih apart' first.ok (fun q hq x hx => (found x).symm ▸ tiles q (List.mem_cons_of_mem _ hq) x hx)
    refine ⟨first.kept.trans later.kept, later.ok, fun g hg => ?_, fun q hq x hx => ?_⟩
    · obtain ⟨hp, hr⟩ := not_or.mp (List.mem_cons.not.mp hg)
      rw [List.foldl_cons, later.others g hr, first.others g (by simpa using hp)]
    · rcases List.mem_cons.mp hq with rfl | hr
      · rw [List.foldl_cons, later.others _ new]
        exact first.took q (List.mem_singleton_self q) x hx
      · have other : q.2 ≠ p.2 := fun h => new (h ▸ List.mem_map_of_mem hr)
        have took := later.took q hr x hx
        rw [found, first.others q.2 (by simpa using other)] at took
        exact took

/-- A group of parts whose order table entries and scans are good starts. -/
theorem startGroup_good {t : TaskRef} {e : Entry} {u : Nat} {w : WorkUnit} {engs : List (Fin 68)} {s : State}
    (good : entsFail s t.slot e w (readEnts s t.slot e w) = none)
    (ok : ((List.zip (List.range w.parts) engs).foldl (addPart t e u ((readEnts s t.slot e w).map Prod.fst))
      (modEntry t (fun x => { x with run := takeNext u w.parts x.run }) s, .ok, [])).2.1 = .ok) :
    startGroup t e u w engs s = ((List.zip (List.range w.parts) engs).foldl (addPart t e u ((readEnts s t.slot e w).map Prod.fst))
      (modEntry t (fun x => { x with run := takeNext u w.parts x.run }) s, .ok, [])).1 := by
  unfold startGroup
  dsimp only
  rw [good]
  exact if_pos ok

/-- A unit starts with its other parts (R82, R101). -/
theorem startGroup_started {t : TaskRef} {eng : Fin 68} {s : State} {e : Entry} {u : Nat} {w : WorkUnit} {engs : List (Fin 68)}
    (on : unitOn s t eng = some (u, w, engs)) (good : entsFail s t.slot e w (readEnts s t.slot e w) = none)
    (tiles : ∀ p x, p < w.parts → (unitsOf e)[u + p]? = some x →
      (unitTiles s t.slot e x ((readEnts s t.slot e w).map Prod.fst)).2 = .ok) :
    (∀ p g x, engs[p]? = some g → (unitsOf e)[u + p]? = some x →
      s.engines[g].Took (MatUnit.start t (u + p) (unitTiles s t.slot e x ((readEnts s t.slot e w).map Prod.fst)).1
        ((readEnts s t.slot e w).map Prod.fst)) (startGroup t e u w engs s).engines[g]) ∧
    (∀ g : Fin 68, g ∉ engs → (startGroup t e u w engs s).engines[g] = s.engines[g]) ∧
    (entryOf (startGroup t e u w engs s) t).run = takeNext u w.parts (entryOf s t).run ∧
    (startGroup t e u w engs s).mem.cells = s.mem.cells := by
  obtain ⟨count, apart⟩ := unitOn_spec on
  have snd : (List.zip (List.range w.parts) engs).map Prod.snd = engs := List.map_snd_zip (by simp [count])
  have taken := modEntry_reads t (fun x => { x with run := takeNext u w.parts x.run }) s
  have started := addParts_started (t := t) (e := e) (u := u) (ents := (readEnts s t.slot e w).map Prod.fst)
    (acc := (modEntry t (fun x => { x with run := takeNext u w.parts x.run }) s, .ok, []))
    (List.zip (List.range w.parts) engs) (by rw [snd]; exact apart) rfl (fun p hp x hx => by
      rw [taken.unitTiles]
      exact tiles p.1 x (List.mem_range.mp (List.of_mem_zip hp).1) hx)
  rw [startGroup_good good started.ok]
  refine ⟨fun p g x hp hx => ?_, fun g hg => ?_, ?_, ?_⟩
  · have bound : p < w.parts := count ▸ (List.getElem?_eq_some_iff.mp hp).1
    have mem : (p, g) ∈ List.zip (List.range w.parts) engs :=
      List.mem_of_getElem? (i := p) (List.getElem?_zip_eq_some.mpr ⟨by simp [bound], hp⟩)
    have took := started.took (p, g) mem x hx
    rw [taken.unitTiles] at took
    exact took
  · exact started.others g (snd.symm ▸ hg)
  · rw [entryOf_of_jobs started.kept.jobs, entryOf_modEntry]
  · exact started.kept.reads.mem.1

theorem doUnitStart_eq {t : TaskRef} {eng : Fin 68} {s : State} {u : Nat} {w : WorkUnit} {engs : List (Fin 68)}
    (on : unitOn s t eng = some (u, w, engs)) (runs : inP0P1 s = true) (first : isFirst s (· == eng) t (entryOf s t) = true) :
    doUnitStart t eng s = startGroup t (entryOf s t) u w engs s := by
  unfold doUnitStart
  dsimp only
  rw [on]
  exact if_pos (by rw [runs, first]; rfl)

/-! ### Loads (R77) -/

theorem countTask_changes (t : TaskRef) (c : Cnt) (s : State) : Changes [.jobs, .clock] s (countTask t c s) := by
  unfold countTask countConv
  split
  · exact .refl _ s
  · have counted : ∀ r, Changes [.jobs, .clock] s (modWatch t.slot (fun w => w.count r c)
        (modCtl t.slot (fun k => { k with counts := k.counts.add c }) s)) :=
      fun r => ((modCtl_changes _ _ _).mono (by decide)).trans ((modJob_changes _ _ _).mono (by decide))
    exact ((counted _).trans ((pmuCount_changes _ _ _ _ _ _).mono (by decide))).trans ((pmuCount_changes _ _ _ _ _ _).mono (by decide))

theorem countPairs_streams (s0 : State) (e : Entry) (w : WorkUnit) (u v : MatUnit) (s : State) : StreamsOnly s (countPairs s0 e w u v s) :=
  pmuCount_streams _ _ _ _ _ _

/-- The passes that must end before a load can land (R77). -/
def freeingPasses (s : State) (e : Entry) (w : WorkUnit) (u : MatUnit) : PassRes :=
  if passesToFree w u = 0 then ⟨u, .ok, [], Cnt.none⟩ else morePasses s e w (passesToFree w u) (withBank s e w u)

/-- The tile of B that a unit's next load brings. -/
def nextLoad (s : State) (w : WorkUnit) (u : MatUnit) : TileRead :=
  loadTileB s u.task.slot w (u.tiles.getD (u.loaded / loadCount w) 0)
    ((loadPieces (caseOf w.shape)).getD (u.loaded % loadCount w) 0) (u.loaded % loadCount w == 0)

/-- A unit after its next load. -/
def loadedUnit (r : PassRes) (u : MatUnit) (b : TileRead) : MatUnit :=
  { r.unit with loaded := u.loaded + 1, bufs := r.unit.bufs ++ [⟨u.loaded, b.cols⟩] }

/-- A load that is due, and whose reads do not fail, lands. -/
theorem doTileLoaded_loads {eng : Fin 68} {s : State} {u : MatUnit} {e : Entry} {w : WorkUnit} (h : passing s eng = some (u, e, w))
    (due : u.loaded < u.tiles.length * loadCount w) (tokens : 0 < passesToFree w u → hasTokens s (.matrix eng) = true)
    (passed : (freeingPasses s e w u).st = .ok) (read : (nextLoad s w u).st = .ok) :
    StreamsOnly (putUnit eng (loadedUnit (freeingPasses s e w u) u (nextLoad s w u))
      (countTask u.task ((freeingPasses s e w u).cnt.add (nextLoad s w u).cnt) s)) (doTileLoaded eng s) := by
  have runs : ¬ (decide (u.tiles.length * loadCount w ≤ u.loaded) || (decide (0 < passesToFree w u) && !hasTokens s (.matrix eng))) = true := by
    simpa [due] using tokens
  unfold doTileLoaded
  dsimp only
  rw [h]
  dsimp only
  rw [if_neg runs]
  unfold freeingPasses at passed ⊢
  unfold nextLoad at read ⊢
  rw [if_neg (not_not_intro passed), if_neg (not_not_intro read)]
  exact ((moveStreams_streams _ _ _ _ _ _).trans (countPairs_streams _ _ _ _ _ _)).trans (pmuCount_streams _ _ _ _ _ _)

end Sys2Proof.Machine
end

section
/-! SUPPORT. Writes of a unit's outputs (spec/03_matrix_engines.md R93 to R97): they leave every engine and every task's entry, and do
not read the programmable counters, so that what is counted before them does not show in what they write. -/

namespace Sys2Proof.Machine

/-! ### Programmable counters are not read -/

/-- The state with other values in its programmable counters. -/
def withPmu (p : Vector PmuCtr 32) (s : State) : State := { s with clock := { s.clock with pmu := p } }

/-- An operation neither reads nor writes the programmable counters. -/
def PmuBlind (f : State → State) : Prop := ∀ p s, f (withPmu p s) = withPmu p (f s)

theorem PmuBlind.forEach {α : Type} (l : List α) {f : α → State → State} (h : ∀ a, PmuBlind (f a)) : PmuBlind (forEach l f) := by
  intro p s
  induction l generalizing s with
  | nil => rfl
  | cons a rest ih => exact (congrArg (Machine.forEach rest f) (h a p s)).trans (ih _)

theorem sendMsix_blind (fn : Fin 65) (v : Nat) : PmuBlind (sendMsix fn v) := by
  intro p s
  unfold sendMsix
  rw [apply_ite (withPmu p)]
  exact if_congr Iff.rfl rfl rfl

theorem fireVector_blind (fn : Fin 65) (v : Fin 6) : PmuBlind (fireVector fn v) := by
  intro p s
  unfold fireVector
  rw [apply_ite (withPmu p)]
  exact if_congr Iff.rfl rfl (sendMsix_blind _ _ _ _)

theorem raiseCause_blind (fn : Fin 65) (c : Nat) : PmuBlind (raiseCause fn c) := by
  intro p s
  unfold raiseCause
  dsimp only
  rw [apply_ite (withPmu p)]
  exact if_congr Iff.rfl rfl (fireVector_blind fn 1 p (modHost fn _ s))

theorem logAsWord_blind (w : Nat) : PmuBlind (logAsWord w) := fun p s => by
  unfold logAsWord logError
  exact raiseCause_blind pf0 0 p { s with logs := s.logs.addError _ }

theorem trace_blind (sc : Option (Fin 64)) (die : Fin 4) (cls kind payload : Nat) : PmuBlind (trace sc die cls kind payload) := by
  intro p s
  have queued : queueTrace sc die kind payload (withPmu p s) = withPmu p (queueTrace sc die kind payload s) := by cases sc <;> rfl
  have cfg : traceCfg (withPmu p s) sc die = traceCfg s sc die := by cases sc <;> rfl
  unfold trace
  rw [apply_ite (withPmu p), cfg]
  exact if_congr Iff.rfl queued rfl

theorem countMismatch_blind (tag : BitVec 16) (dpa : Nat) : PmuBlind (countMismatch tag dpa) := by
  intro p s
  have served : servedBy (withPmu p s) dpa = servedBy s dpa := rfl
  unfold countMismatch traceMem
  rw [apply_ite (withPmu p), served]
  exact if_congr Iff.rfl (trace_blind none _ 6 0x48 _ p (modStack (servedBy s dpa) _ s)) rfl

theorem notePart_blind (tag : BitVec 16) (dpa n : Nat) : PmuBlind (notePart tag dpa n) := by
  intro p s
  unfold notePart
  rw [apply_ite (withPmu p)]
  exact if_congr Iff.rfl (PmuBlind.forEach _ logAsWord_blind p s) (countMismatch_blind _ _ _ _)

theorem noteReads_blind (slot : Fin 64) (rs : List (Nat × Nat)) : PmuBlind (noteReads slot rs) := by
  intro p s
  have one : ∀ c : Nat × Nat, PmuBlind (fun st => match translate s slot c.1 true false with
      | some d => notePart (jobTag s slot) d c.2 st
      | none => st) := fun c => by
    intro q u
    cases translate s slot c.1 true false with
    | none => rfl
    | some d => exact notePart_blind _ _ _ _ _
  exact PmuBlind.forEach _ one p s

theorem storePart_blind (tag : BitVec 16) (dpa : Nat) (bs : List Byte) : PmuBlind (storePart tag dpa bs) := by
  intro p s
  have key : tagKey (withPmu p s) dpa tag = tagKey s dpa tag := rfl
  unfold storePart
  dsimp only
  rw [key]
  cases tagKey s dpa tag <;> rfl

theorem writePart_blind (tag : BitVec 16) (dpa : Nat) (bs : List Byte) (p : Vector PmuCtr 32) (s : State) :
    writePart tag dpa bs (withPmu p s) = (withPmu p (writePart tag dpa bs s).1, (writePart tag dpa bs s).2) := by
  have stored : (storePart tag dpa bs (withPmu p s), MStat.ok) = (withPmu p (storePart tag dpa bs s), MStat.ok) := by rw [storePart_blind]
  change _ = Prod.map (withPmu p) id (writePart tag dpa bs s)
  unfold writePart
  dsimp only
  rw [apply_ite (Prod.map (withPmu p) id), apply_ite (Prod.map (withPmu p) id), apply_ite (Prod.map (withPmu p) id),
    apply_ite (Prod.map (withPmu p) id)]
  refine if_congr Iff.rfl (if_congr Iff.rfl rfl ?_) (if_congr Iff.rfl stored (if_congr Iff.rfl ?_ stored))
  · exact congrArg (·, MStat.integrity) (PmuBlind.forEach _ logAsWord_blind p s)
  · exact congrArg (·, MStat.integrity) (countMismatch_blind _ _ p s)

/-! ### Operations that write memory for a unit -/

/-- The task table entries of every job are the same. -/
def TasksKept (s t : State) : Prop := ∀ (slot : Fin 64) (die : Fin 4), (jobDie t slot die).entries = (jobDie s slot die).entries

theorem TasksKept.refl (s : State) : TasksKept s s := fun _ _ => rfl

theorem TasksKept.trans {s t u : State} (h : TasksKept s t) (g : TasksKept t u) : TasksKept s u := fun i d => (g i d).trans (h i d)

theorem TasksKept.of_jobs {s t : State} (h : t.jobs = s.jobs) : TasksKept s t := fun i d => by rw [jobDie_of_jobs i d h]

theorem TasksKept.entryOf {s t : State} (h : TasksKept s t) (k : TaskRef) : entryOf t k = entryOf s k := by
  rw [Machine.entryOf, Machine.entryOf, entryAt, entryAt, h]

/-- An update of a job slot that leaves its tasks leaves every entry. -/
theorem modJob_tasks (slot : Fin 64) {f : Job → Job} (hf : ∀ (j : Job) (d : Fin 4), ((f j).tasks.dies[d]).entries = j.tasks.dies[d].entries)
    (s : State) : TasksKept s (modJob slot f s) := by
  intro i d
  by_cases h : i = slot
  · subst h
    have same : (modJob i f s).jobs[i] = f s.jobs[i] := vmod_same _ _ _
    rw [jobDie, jobDie, same]
    exact hf _ d
  · rw [jobDie, jobDie, modJob_other slot i f s h]

theorem dropLines_tasks (slot : Fin 64) (sector : Nat) (s : State) : TasksKept s (dropLines slot sector s) :=
  TasksKept.trans (t := { s with mem := { s.mem with lines := s.mem.lines.filter (fun l => !(l.slot == slot && l.sector == sector)) } })
    (.of_jobs rfl) (modJob_tasks slot (fun _ _ => by simp) _)

/-- An operation that writes a unit's outputs, or counts what their conversions come to: it leaves the engines and the entries of every
task, and its outcome does not depend on the programmable counters. -/
structure WritesOnly {α : Type} (f : State → State × α) : Prop where
  engines : ∀ s, (f s).1.engines = s.engines
  tasks : ∀ s, TasksKept s (f s).1
  blind : ∀ p s, ∃ q, f (withPmu p s) = (withPmu q (f s).1, (f s).2)

section
variable {α β : Type} {f : State → State × α}

theorem WritesOnly.pure (a : α) : WritesOnly (fun s => (s, a)) := ⟨fun _ => rfl, .refl, fun p _ => ⟨p, rfl⟩⟩

/-- What one operation answers, another one takes. -/
theorem WritesOnly.bind (hf : WritesOnly f) {g : α → State → State × β} (hg : ∀ a, WritesOnly (g a)) :
    WritesOnly (fun s => g (f s).2 (f s).1) := by
  refine ⟨fun s => ((hg _).engines _).trans (hf.engines s), fun s => (hf.tasks s).trans ((hg _).tasks _), fun p s => ?_⟩
  obtain ⟨q, hq⟩ := hf.blind p s
  rw [hq]
  exact (hg (f s).2).blind q (f s).1

theorem WritesOnly.map (hf : WritesOnly f) (g : α → β) : WritesOnly (fun s => ((f s).1, g (f s).2)) :=
  hf.bind (fun a => .pure (g a))

/-- A loop whose body writes. -/
theorem WritesOnly.foldl {ι : Type} (l : List ι) {step : State × α → ι → State × α}
    (h : ∀ a i, WritesOnly (fun s => step (s, a) i)) (a : α) : WritesOnly (fun s => l.foldl step (s, a)) := by
  induction l generalizing a with
  | nil => exact .pure a
  | cons i rest ih => exact (h a i).bind ih

end

/-! ### Writes of job memory -/

/-- A count of an event changes the programmable counters alone. -/
theorem pmuCount_pmu (die : Fin 4) (slot : Option (Fin 64)) (event bit n : Nat) (s : State) :
    ∃ q, pmuCount die slot event bit n s = withPmu q s := by
  unfold pmuCount
  exact ⟨_, rfl⟩

theorem countWrites_pmu (slot : Fin 64) (va n : Nat) (s : State) : ∃ q, countWrites slot va n s = withPmu q s := by
  unfold countWrites
  dsimp only
  split
  · exact ⟨s.clock.pmu, rfl⟩
  · unfold pmuCount
    exact ⟨_, rfl⟩

/-- The part of a write that lies in one sector, under a tag and a translation. -/
def writeChunk (slot : Fin 64) (va : Nat) (bs : List Byte) (tag : BitVec 16) (tr : Nat → Option Nat) (acc : State × MStat) (c : Nat × Nat) :
    State × MStat :=
  let r := writePart tag ((tr c.1).getD 0) ((bs.drop (c.1 - va)).take c.2) acc.1
  (dropLines slot (c.1 / 64) r.1, acc.2.and r.2)

theorem jobWrite_eq (slot : Fin 64) (va : Nat) (bs : List Byte) (s : State) :
    jobWrite slot va bs s =
      if !mapped s slot va bs.length false true then (s, .bound)
      else (chunks va bs.length).foldl (writeChunk slot va bs (jobTag s slot) (fun a => translate s slot a false true))
        (countWrites slot va bs.length s, .ok) := rfl

theorem writeChunk_writes (slot : Fin 64) (va : Nat) (bs : List Byte) (tag : BitVec 16) (tr : Nat → Option Nat) (st : MStat) (c : Nat × Nat) :
    WritesOnly (fun s => writeChunk slot va bs tag tr (s, st) c) where
  engines s := writePart_changes tag _ _ s .engines (by decide)
  tasks s := (TasksKept.of_jobs (writePart_jobs tag _ _ s)).trans (dropLines_tasks slot (c.1 / 64) _)
  blind p s := ⟨p, by
    unfold writeChunk
    dsimp only
    rw [writePart_blind]
    rfl⟩

theorem jobWrite_writes (slot : Fin 64) (va : Nat) (bs : List Byte) : WritesOnly (jobWrite slot va bs) := by
  have chunk := fun tag tr => WritesOnly.foldl (chunks va bs.length) (writeChunk_writes slot va bs tag tr) .ok
  refine ⟨fun s => jobWrite_engines s slot va bs, fun s => ?_, fun p s => ?_⟩
  · rw [jobWrite_eq]
    split
    · exact .refl s
    · exact (TasksKept.of_jobs (countWrites_changes slot va bs.length s .jobs (by decide))).trans ((chunk _ _).tasks _)
  · obtain ⟨q, counted⟩ := countWrites_pmu slot va bs.length s
    obtain ⟨q', counted'⟩ := countWrites_pmu slot va bs.length (withPmu p s)
    have range : mapped (withPmu p s) slot va bs.length false true = mapped s slot va bs.length false true := rfl
    have same : countWrites slot va bs.length (withPmu p s) = withPmu q' (countWrites slot va bs.length s) := by rw [counted', counted]; rfl
    rw [jobWrite_eq, jobWrite_eq, range, same]
    split
    · exact ⟨p, rfl⟩
    · exact (chunk (jobTag s slot) (fun a => translate s slot a false true)).blind q' _

section
variable {s : State} {slot : Fin 64} {va n : Nat} (f : Nat → Nat)

theorem jobRmw_unmapped (m : mapped s slot va n true true = false) : jobRmw slot va n f s = (0, .bound, s) := by
  unfold jobRmw
  rw [m]
  rfl

theorem jobRmw_ok (m : mapped s slot va n true true = true) (ok : (peek s slot va n).st = .ok) :
    jobRmw slot va n f s = (leNat (peek s slot va n).data,
      (jobWrite slot va (leBytes n (f (leNat (peek s slot va n).data))) s).2,
      (jobWrite slot va (leBytes n (f (leNat (peek s slot va n).data))) s).1) := by
  have read : jobRead s slot va n = (peek s slot va n, s) := by simp [jobRead, ok]
  unfold jobRmw
  simp [m, read, ok]

theorem jobRmw_fails (m : mapped s slot va n true true = true) (bad : (peek s slot va n).st ≠ .ok) :
    jobRmw slot va n f s = (0, (peek s slot va n).st, (jobRead s slot va n).2) := by
  unfold jobRmw
  rw [m]
  rw [if_neg (by decide)]
  dsimp only
  rw [jobRead_peek]
  split
  next ok => exact absurd ok bad
  next => rfl

end

/-- A read-modify-write, as its state and its outcome. -/
theorem jobRmw_writes (slot : Fin 64) (va n : Nat) (f : Nat → Nat) :
    WritesOnly (fun s => ((jobRmw slot va n f s).2.2, (jobRmw slot va n f s).2.1)) := by
  refine ⟨fun s => jobRmw_changes slot va n f s .engines (by decide), fun s => ?_, fun p s => ?_⟩
  · cases m : mapped s slot va n true true with
    | false => rw [jobRmw_unmapped f m]; exact .refl s
    | true =>
      by_cases ok : (peek s slot va n).st = .ok
      · rw [jobRmw_ok f m ok]; exact (jobWrite_writes _ _ _).tasks s
      · rw [jobRmw_fails f m ok]; exact .of_jobs (jobRead_changes s slot va n .jobs (by decide))
  · have range : mapped (withPmu p s) slot va n true true = mapped s slot va n true true := rfl
    have data : peek (withPmu p s) slot va n = peek s slot va n := rfl
    cases m : mapped s slot va n true true with
    | false => exact ⟨p, by rw [jobRmw_unmapped f m, jobRmw_unmapped f (range.trans m)]⟩
    | true =>
      by_cases ok : (peek s slot va n).st = .ok
      · rw [jobRmw_ok f m ok, jobRmw_ok f (range.trans m) (data ▸ ok), data]
        obtain ⟨q, hq⟩ := (jobWrite_writes slot va (leBytes n (f (leNat (peek s slot va n).data)))).blind p s
        exact ⟨q, by rw [hq]⟩
      · have noted : (jobRead (withPmu p s) slot va n).2 = withPmu p (jobRead s slot va n).2 := by
          unfold jobRead
          dsimp only
          rw [apply_ite (withPmu p)]
          exact if_congr Iff.rfl (noteReads_blind slot _ p s) rfl
        exact ⟨p, by rw [jobRmw_fails f m ok, jobRmw_fails f (range.trans m) (data ▸ ok), data, noted]⟩

/-- The watch and the counts of a job that take what conversions came to. -/
def countedJob (t : TaskRef) (c : Cnt) (s : State) : State :=
  modWatch t.slot (fun w => w.count (entryOf s t).watchRec c) (modCtl t.slot (fun k => { k with counts := k.counts.add c }) s)

theorem countTask_pmu (t : TaskRef) (c : Cnt) (s : State) : ∃ q, countTask t c s = withPmu q (if c = Cnt.none then s else countedJob t c s) := by
  unfold countTask countConv
  split
  · exact ⟨s.clock.pmu, rfl⟩
  · unfold pmuCount
    exact ⟨_, rfl⟩

theorem modCtl_tasks (slot : Fin 64) (f : JobCtl → JobCtl) (s : State) : TasksKept s (modCtl slot f s) :=
  modJob_tasks slot (f := fun j => { j with ctl := f j.ctl }) (fun _ _ => rfl) s

theorem modWatch_tasks (slot : Fin 64) (f : Watch → Watch) (s : State) : TasksKept s (modWatch slot f s) :=
  modJob_tasks slot (f := fun j => { j with watch := f j.watch }) (fun _ _ => rfl) s

theorem countedJob_tasks (t : TaskRef) (c : Cnt) (s : State) : TasksKept s (countedJob t c s) :=
  (modCtl_tasks t.slot _ s).trans (modWatch_tasks t.slot _ _)

theorem countTask_writes (t : TaskRef) (c : Cnt) : WritesOnly (fun s => (countTask t c s, ())) := by
  refine ⟨fun s => countTask_changes t c s .engines (by decide), fun s => ?_, fun p s => ?_⟩
  · obtain ⟨q, hq⟩ := countTask_pmu t c s
    dsimp only
    rw [hq]
    split
    · exact .refl s
    · exact countedJob_tasks t c s
  · obtain ⟨q, hq⟩ := countTask_pmu t c s
    obtain ⟨q', hq'⟩ := countTask_pmu t c (withPmu p s)
    refine ⟨q', congrArg (·, ()) ?_⟩
    rw [hq', hq]
    split <;> rfl

/-! ### Writes of arrays -/

theorem putBits_writes (slot : Fin 64) (a : Arr) (piece r c v : Nat) : WritesOnly (putBits slot a piece r c v) := by
  by_cases h : fmtBits a.fmt < 8
  · have small : putBits slot a piece r c v = _ := funext (fun s => if_pos h)
    rw [small]
    exact jobRmw_writes _ _ _ _
  · have whole : putBits slot a piece r c v = _ := funext (fun s => if_neg h)
    rw [whole]
    exact jobWrite_writes _ _ _

theorem writeAll_writes {α : Type} (l : List α) {f : α → State → State × MStat} (h : ∀ x, WritesOnly (f x)) : WritesOnly (writeAll l f) := by
  unfold writeAll
  exact .foldl l (fun a x => (h x).map a.and) _

theorem putBlockIn_writes (slot : Fin 64) (a : Arr) (inside : Nat × Nat → Bool) (piece i b : Nat) (blk : Block) :
    WritesOnly (putBlockIn slot a inside piece i b blk) := by
  have elems := writeAll_writes ((List.zip (List.range 32) blk.q).filter (fun p => inside (a.cell i b p.1)))
    (fun p : Nat × Int => putBits_writes slot a piece (a.cell i b p.1).1 (a.cell i b p.1).2 (ofSigned (fmtBits a.fmt) p.2))
  unfold putBlockIn
  by_cases h : piece = 0
  · simp only [if_pos h]
    exact elems.bind (fun st => (jobWrite_writes slot (a.exp + a.blockIdx (a.cell i b 0).1 (a.cell i b 0).2) (leBytes 1 blk.e)).map st.and)
  · simp only [if_neg h]
    exact elems

theorem putValsIn_writes (slot : Fin 64) (a : Arr) (inside : Nat × Nat → Bool) (i b : Nat) (xs : List Val) :
    WritesOnly (putValsIn slot a inside i b xs) := by
  unfold putValsIn
  by_cases h : a.pieces = 1
  · simp only [if_pos h]
    exact (putBlockIn_writes _ _ _ _ _ _ _).map (fun st => (st, _))
  · simp only [if_neg h]
    exact (writeAll_writes _ (fun p : Nat × List Int => putBlockIn_writes slot a inside p.1 i b ⟨_, p.2⟩)).map (fun st => (st, _))

theorem putVal_writes (slot : Fin 64) (a : Arr) (r c : Nat) (v : Val) : WritesOnly (putVal slot a r c v) := by
  unfold putVal
  by_cases h : (a.fmt == fEA40) = true
  · simp only [if_pos h]
    exact (putBits_writes _ _ _ _ _ _).map (fun st => (st, _))
  · simp only [if_neg h]
    exact (putBits_writes _ _ _ _ _ _).map (fun st => (st, _))

/-- A write whose outcome joins what was counted so far. -/
theorem WritesOnly.join {f : State → State × MStat × Cnt} (hf : WritesOnly f) (a : MStat × Cnt) :
    WritesOnly (fun s => ((f s).1, a.1.and (f s).2.1, a.2.add (f s).2.2)) :=
  hf.map (fun x => (a.1.and x.1, a.2.add x.2))

theorem putPart_writes (slot : Fin 64) (a : Arr) (r0 rows c0 cols : Nat) (val : Nat → Nat → Val) :
    WritesOnly (putPart slot a r0 rows c0 cols val) := by
  unfold putPart
  by_cases none : rows = 0 ∨ cols = 0
  · simp only [if_pos none]
    exact .pure _
  · by_cases h : a.blocked = true
    · simp only [if_neg none, if_pos h]
      refine .foldl _ (fun x i => ?_) _
      refine .foldl _ (fun y b => ?_) _
      exact (putValsIn_writes _ _ _ _ _ _).join y
    · simp only [if_neg none, if_neg h]
      refine .foldl _ (fun x i => ?_) _
      refine .foldl _ (fun y j => ?_) _
      exact (putVal_writes _ _ _ _ _).join y

/-! ### The output writer (R93) -/

theorem writeArr_writes (slot : Fin 64) (o : Arr) (w : WorkUnit) (rows : List Nat) (contiguous : Bool) (val : Nat → Nat → Val) :
    WritesOnly (writeArr slot o w rows contiguous val) := by
  unfold writeArr
  cases contiguous with
  | true =>
    simp only [if_true]
    exact putPart_writes _ _ _ _ _ _ _
  | false =>
    simp only [Bool.false_eq_true, if_false]
    refine .foldl _ (fun x ir => ?_) _
    exact (putPart_writes _ _ _ _ _ _ _).join x

/-- One output that is an array, or none. -/
theorem writeOut_writes (t : TaskRef) (e : Entry) {kind : Nat} (arrays : kind < 2) (addr : Nat) (o : Arr) (w : WorkUnit) (rows : List Nat)
    (bank : List EA40) : WritesOnly (writeOut t e kind addr o w rows bank) := by
  obtain rfl | rfl : kind = 0 ∨ kind = 1 := by omega
  · have none : writeOut t e 0 addr o w rows bank = fun s => (s, .ok) := rfl
    rw [none]
    exact .pure _
  · have written := writeArr_writes t.slot o w rows (!ordered e) (fun i j => scaledVal (mShift e.desc) (bankAt bank w.cols i j))
    have array : writeOut t e 1 addr o w rows bank = fun s =>
      let r := writeArr t.slot o w rows (!ordered e) (fun i j => scaledVal (mShift e.desc) (bankAt bank w.cols i j)) s
      (countTask t r.2.2 r.1, r.2.1) := rfl
    rw [array]
    exact written.bind (g := fun x u => (countTask t x.2 u, x.1)) (fun x => (countTask_writes t x.2).map (fun _ => x.1))

/-- The outputs of a task whose outputs are arrays. -/
theorem writeOuts_writes (t : TaskRef) {e : Entry} (arrays : ArrayOutputs e.desc) (w : WorkUnit) (rows : List Nat) (bank : List EA40) :
    WritesOnly (writeOuts t e w rows bank) := by
  have first : kind0 e.desc < 2 := by simp [kind0, arrays.1]
  exact (writeOut_writes t e first _ _ w rows bank).bind (fun st => (writeOut_writes t e arrays.2 _ _ w rows bank).map st.and)

end Sys2Proof.Machine
end

section
/-! SUPPORT. Ends of matrix units (spec/03_matrix_engines.md R80, R81, R93, R101, R118): the passes of a unit, its parts, its outputs and
the engines that it leaves; and the obligation about matrix units and engines. -/

namespace Sys2Proof

/-- What a list holds after a value was put for a key. -/
theorem AMap.mem_put {κ α : Type} [DecidableEq κ] {m : AMap κ α} {k : κ} {v : α} {p : κ × α} (h : p ∈ AMap.put m k v) :
    p = (k, v) ∨ p ∈ m := by
  induction m with
  | nil => exact .inl (List.mem_singleton.mp h)
  | cons q rest ih =>
    unfold AMap.put at h
    split at h
    · rcases List.mem_cons.mp h with h | h
      · exact .inl h
      · exact .inr (List.mem_cons_of_mem _ h)
    · rcases List.mem_cons.mp h with h | h
      · exact .inr (h ▸ List.mem_cons_self)
      · exact (ih h).imp_right (List.mem_cons_of_mem _)

theorem AMap.mem_of_find {κ α : Type} [DecidableEq κ] {m : AMap κ α} {k : κ} {v : α} (h : AMap.find m k = some v) : (k, v) ∈ m := by
  induction m with
  | nil => exact absurd h (by simp [AMap.find])
  | cons q rest ih =>
    unfold AMap.find at h
    split at h
    next hk =>
      obtain rfl := Option.some.inj h
      exact hk ▸ List.mem_cons_self
    next => exact List.mem_cons_of_mem _ (ih h)

end Sys2Proof

namespace Sys2Proof.Machine

/-! ### Passes leave what names a unit -/

/-- A unit of the same task and number, with the order table entries that were read at its start. -/
def MatUnit.SameWork (a b : MatUnit) : Prop := b.task = a.task ∧ b.unit = a.unit ∧ b.ents = a.ents

theorem withBank_same (s : State) (e : Entry) (w : WorkUnit) (u : MatUnit) : u.SameWork (withBank s e w u).unit := by
  unfold withBank
  split <;> exact ⟨rfl, rfl, rfl⟩

theorem morePasses_same (s : State) (e : Entry) (w : WorkUnit) (n : Nat) (r : PassRes) : r.unit.SameWork (morePasses s e w n r).unit := by
  induction n generalizing r with
  | zero => exact ⟨rfl, rfl, rfl⟩
  | succ n ih =>
    unfold morePasses
    split
    · exact ih (onePass s e w r)
    · exact ⟨rfl, rfl, rfl⟩

/-- The passes that are left of a unit when every tile is loaded (R80). -/
def lastPasses (s : State) (e : Entry) (w : WorkUnit) (u : MatUnit) : PassRes :=
  morePasses s e w (u.tiles.length * passCount w - u.passes) (withBank s e w u)

theorem lastPasses_same (s : State) (e : Entry) (w : WorkUnit) (u : MatUnit) : u.SameWork (lastPasses s e w u).unit := by
  obtain ⟨task, unit, ents⟩ := withBank_same s e w u
  obtain ⟨task', unit', ents'⟩ := morePasses_same s e w (u.tiles.length * passCount w - u.passes) (withBank s e w u)
  exact ⟨task'.trans task, unit'.trans unit, ents'.trans ents⟩

/-- The unit whose passes have ended. -/
def endedUnit (s : State) (e : Entry) (w : WorkUnit) (u : MatUnit) : MatUnit := { (lastPasses s e w u).unit with ended := true, bufs := [] }

theorem endedUnit_same (s : State) (e : Entry) (w : WorkUnit) (u : MatUnit) : u.SameWork (endedUnit s e w u) := lastPasses_same s e w u

/-! ### The units that an engine or a group names -/

theorem passing_entry {s : State} {eng : Fin 68} {u : MatUnit} {e : Entry} {w : WorkUnit} (h : passing s eng = some (u, e, w)) :
    e = entryOf s u.task := by
  unfold passing at h
  split at h
  · split at h
    · exact absurd h (by simp)
    · simp only [workOf, Option.map_map, Option.map_eq_some_iff, Function.comp, Prod.mk.injEq] at h
      obtain ⟨_, _, rfl, rfl, _⟩ := h
      rfl
  · exact absurd h (by simp)

theorem readyGroup_spec {s : State} {eng : Fin 68} {u : MatUnit} {e : Entry} {w : WorkUnit} {ps : List MatUnit}
    (h : readyGroup s eng = some (u, e, w, ps)) : e = entryOf s u.task ∧ w.part = 0 := by
  obtain ⟨v, _, hv⟩ := List.exists_of_findSome?_eq_some h
  obtain ⟨⟨e', w'⟩, work, ready⟩ := Option.bind_eq_some_iff.mp hv
  dsimp only at ready
  split at ready
  next c =>
    simp only [Option.some.injEq, Prod.mk.injEq] at ready
    obtain ⟨rfl, rfl, rfl, _⟩ := ready
    simp only [workOf, Option.map_eq_some_iff, Prod.mk.injEq] at work
    obtain ⟨_, _, rfl, _⟩ := work
    exact ⟨rfl, c.1⟩
  next => exact absurd ready (by simp)

/-! ### Tasks that are due to fault -/

/-- No matrix task is due to end in fault for units that found no engine (R102). -/
def NoneDue (s : State) : Prop :=
  ∀ (slot : Fin 64) (die : Fin 4), ∀ p ∈ (jobDie s slot die).entries, ∀ n d tot back f, p.2.run ≠ .matrix n d tot back (some f)

theorem NoneDue.kept {s t : State} (h : NoneDue s) (kept : TasksKept s t) : NoneDue t := fun slot die p hp =>
  h slot die p (kept slot die ▸ hp)

theorem faultDue_of_noneDue {s : State} (h : NoneDue s) : faultDue s = s := by
  have none : dueTasks s = [] := by
    simp only [dueTasks, List.flatMap_eq_nil_iff, List.filterMap_eq_nil_iff]
    intro slot _ die _ p hp
    split
    next n d tot back f _ run => exact absurd run (h slot die p hp n d tot back f)
    next => rfl
  rw [faultDue, none]
  rfl

/-- The entry of a task is no due one either. -/
theorem NoneDue.entry {s : State} (h : NoneDue s) (t : TaskRef) (n d tot back f) : (entryOf s t).run ≠ .matrix n d tot back (some f) := by
  unfold entryOf entryAt AMap.getD
  cases found : AMap.find (jobDie s t.slot t.die).entries t.index.toNat with
  | none => simp
  | some e => exact h t.slot t.die _ (AMap.mem_of_find found) n d tot back f

/-- Units of a matrix task that have ended are counted in its run. -/
def Run.ended (n : Nat) (r : Run) : Run :=
  match r with
  | .matrix nx d tot back f => .matrix nx (d + n) tot back f
  | r => r

theorem countUnits_entry (t : TaskRef) (n : Nat) (s : State) :
    entryOf (countUnits t n s) t = { entryOf s t with run := (entryOf s t).run.ended n } :=
  entryOf_modEntry t _ s

/-- A put entry is one of its die, beside those that stood there. -/
theorem mem_entries_modEntry {t : TaskRef} {f : Entry → Entry} {s : State} {slot : Fin 64} {die : Fin 4} {p : Nat × Entry}
    (h : p ∈ (jobDie (modEntry t f s) slot die).entries) : p.2 = f (entryOf s t) ∨ p ∈ (jobDie s slot die).entries := by
  unfold modEntry at h
  by_cases hs : slot = t.slot
  · subst hs
    by_cases hd : die = t.die
    · subst hd
      rw [jobDie_modDie] at h
      exact (AMap.mem_put h).imp_left (congrArg Prod.snd)
    · rw [jobDie_modDie_other _ _ _ hd] at h
      exact .inr h
  · rw [jobDie, modDie_other _ _ _ hs] at h
    exact .inr h

theorem countUnits_noneDue (t : TaskRef) (n : Nat) {s : State} (h : NoneDue s) : NoneDue (countUnits t n s) := by
  intro slot die p hp nx d tot back f run
  rcases mem_entries_modEntry hp with counted | old
  · rw [counted] at run
    cases r : (entryOf s t).run with
    | matrix nx' d' tot' back' f' =>
      simp only [r, Run.matrix.injEq] at run
      obtain ⟨_, _, _, _, rfl⟩ := run
      exact h.entry t _ _ _ _ _ r
    | _ => simp [r] at run
  · exact h slot die p old nx d tot back f run

/-! ### Units end with all their parts (R101, R118) -/

/-- Where no fence waits, an engine that gives up units changes nothing but itself and its tokens. -/
theorem dropUnits_changes {p : MatUnit → Bool} {e : Fin 68} {s : State} (calm : s.engines[e].fence = false) :
    Changes [.engines, .power] s (dropUnits p e s) := by
  unfold dropUnits
  dsimp only
  split
  · exact .refl _ s
  · split
    · intro q hq; cases q <;> first | exact absurd (by decide) hq | rfl
    · rw [if_neg (by simpa using calm)]
      intro q hq; cases q <;> first | exact absurd (by decide) hq | rfl

theorem dropAll_changes (p : MatUnit → Bool) (l : List (Fin 68)) {s : State} (calm : ∀ e : Fin 68, s.engines[e].fence = false) :
    Changes [.engines, .power] s (forEach l (dropUnits p) s) := by
  have both : (∀ e : Fin 68, (forEach l (dropUnits p) s).engines[e].fence = false) ∧ Changes [.engines, .power] s (forEach l (dropUnits p) s) := by
    refine forEach_keeps (P := fun t => (∀ e : Fin 68, t.engines[e].fence = false) ∧ Changes [.engines, .power] s t) l _
      (fun e t ht => ⟨fun g => ?_, ht.2.trans (dropUnits_changes (ht.1 e))⟩) s ⟨calm, .refl _ s⟩
    rw [dropUnits_engine (ht.1 e)]
    split <;> exact ht.1 g
  exact both.2

/-- The end of a unit with all its parts, where no task is due to fault and no fence waits. -/
structure UnitEnded (t : TaskRef) (u0 parts : Nat) (s r : State) : Prop where
  engines : ∀ e : Fin 68, r.engines[e] = s.engines[e].without (MatUnit.isOf t u0 parts)
  mem : r.mem = s.mem
  entry : (entryOf r t).run = (entryOf s t).run.ended parts

theorem endUnit_ended (t : TaskRef) (u0 parts : Nat) {s : State} (calm : ∀ e : Fin 68, s.engines[e].fence = false) (none : NoneDue s) :
    UnitEnded t u0 parts s (endUnit t u0 parts s) := by
  have counted : (countUnits t parts s).engines = s.engines := modEntry_changes t _ s .engines (by decide)
  have calm' : ∀ e : Fin 68, (countUnits t parts s).engines[e].fence = false := fun e => by rw [counted]; exact calm e
  have dropped := dropAll_changes (MatUnit.isOf t u0 parts) (holders s t u0 parts) calm'
  have jobs : (forEach (holders s t u0 parts) (dropUnits (MatUnit.isOf t u0 parts)) (countUnits t parts s)).jobs =
    (countUnits t parts s).jobs := dropped .jobs (by decide)
  have quiet : endUnit t u0 parts s = forEach (holders s t u0 parts) (dropUnits (MatUnit.isOf t u0 parts)) (countUnits t parts s) :=
    faultDue_of_noneDue ((countUnits_noneDue t parts none).kept (.of_jobs jobs))
  rw [quiet]
  refine ⟨fun e => ?_, (dropped .mem (by decide)).trans rfl, ?_⟩
  · refine (dropAll_engine (MatUnit.isOf t u0 parts) (fun _ u => u) (fun _ _ => rfl) (holders s t u0 parts) calm' e).trans ?_
    rw [counted]
    split
    · rfl
    next out =>
      have holds : s.engines[e].units.any (MatUnit.isOf t u0 parts) = false := by simpa [holders] using out
      exact (Engine.without_eq_self holds).symm
  · rw [entryOf_of_jobs jobs, countUnits_entry]

/-! ### The output writer drains a bank (R93) -/

/-- A bank that is no slice's, whose outputs are arrays and can be written, is drained, and its unit ends. -/
theorem drainBank_arrays {eng : Fin 68} {u : MatUnit} {e : Entry} {w : WorkUnit} {bank : List EA40} {s x : State}
    (whole : w.solo = true → orCnt (u.ents.getD 0 0) = 0) (arrays : ArrayOutputs e.desc)
    (written : writeOuts u.task e w ((unitRows e w u.ents).map Prod.fst) bank s = (x, .ok)) :
    drainBank eng u e w bank s = endUnit u.task (u.unit - w.part) w.parts x := by
  have slice : ¬ (w.solo && orCnt (u.ents.getD 0 0) != 0) = true := by simpa using whole
  unfold drainBank
  dsimp only
  rw [if_neg slice]
  dsimp only
  rw [written]
  simp [arrays.1]

/-- A unit ends whose outputs were written from a state of the same engines and entries. -/
theorem endUnit_written {t : TaskRef} {u0 parts : Nat} {s b x : State} (undisturbed : Undisturbed s)
    (fences : ∀ e : Fin 68, b.engines[e].fence = s.engines[e].fence) (tasks : TasksKept s b)
    (engines : x.engines = b.engines) (tasks' : TasksKept b x) :
    (∀ e : Fin 68, (endUnit t u0 parts x).engines[e] = b.engines[e].without (MatUnit.isOf t u0 parts)) ∧
    (endUnit t u0 parts x).mem = x.mem ∧ (entryOf (endUnit t u0 parts x) t).run = (entryOf s t).run.ended parts := by
  have kept := tasks.trans tasks'
  have ended := endUnit_ended t u0 parts (s := x) (fun e => by rw [engines, fences]; exact undisturbed.2 e)
    (NoneDue.kept (s := s) undisturbed.1 kept)
  refine ⟨fun e => ?_, ended.mem, ?_⟩
  · rw [ended.engines, engines]
  · rw [ended.entry, kept.entryOf]

/-- A unit is one of its group in the place of another of the same task and number. -/
theorem isOf_same {u v : MatUnit} (h : u.SameWork v) (t : TaskRef) (u0 parts : Nat) :
    MatUnit.isOf t u0 parts v = MatUnit.isOf t u0 parts u := by
  rw [MatUnit.isOf, MatUnit.isOf, h.1, h.2.1]

theorem isOf_self (u : MatUnit) : MatUnit.isOf u.task u.unit 1 u = true := by simp [MatUnit.isOf]

/-- Without a unit, an engine is the same whether the unit was replaced before or not. -/
theorem putUnit_without {eng g : Fin 68} {u v : MatUnit} {s : State} (h : u.SameWork v) :
    ((putUnit eng v s).engines[g].without (MatUnit.isOf u.task u.unit 1)).units =
      s.engines[g].units.filter (fun x => !MatUnit.isOf u.task u.unit 1 x) := by
  have names : MatUnit.isOf v.task v.unit 1 = MatUnit.isOf u.task u.unit 1 := by rw [h.1, h.2.1]
  have own : MatUnit.isOf u.task u.unit 1 v = true := (isOf_same h _ _ _).trans (isOf_self u)
  have units : ∀ us : List MatUnit, (us.map (fun x => if MatUnit.isOf u.task u.unit 1 x then v else x)).filter
      (fun x => !MatUnit.isOf u.task u.unit 1 x) = us.filter (fun x => !MatUnit.isOf u.task u.unit 1 x) := fun us => by
    induction us with
    | nil => rfl
    | cons x rest ih => by_cases hx : MatUnit.isOf u.task u.unit 1 x = true <;> simp [hx, own, ih]
  rw [putUnit, modEngine_engine, names]
  split
  · exact units _
  · rfl

theorem putUnit_fence (eng g : Fin 68) (v : MatUnit) (s : State) : (putUnit eng v s).engines[g].fence = s.engines[g].fence := by
  rw [putUnit, modEngine_engine]
  split <;> rfl

theorem putUnit_engines (eng : Fin 68) (v : MatUnit) {s t : State} (h : t.engines = s.engines) :
    (putUnit eng v t).engines = (putUnit eng v s).engines := by
  simp only [putUnit, modEngine, h]

theorem putUnit_mem (eng : Fin 68) (v : MatUnit) (s : State) : (putUnit eng v s).mem = s.mem := rfl

theorem putUnit_tasks (eng : Fin 68) (v : MatUnit) (s : State) : TasksKept s (putUnit eng v s) := .of_jobs rfl

/-! ### Ends of passes and combines (R80, R101) -/

/-- The counts of a unit's last passes leave the engines and memory. -/
theorem passesCounted (s : State) (u : MatUnit) (e : Entry) (w : WorkUnit) :
    let t := countPairs s e w u (lastPasses s e w u).unit (countTask u.task (lastPasses s e w u).cnt s)
    t.engines = s.engines ∧ t.mem = s.mem := by
  have counted := (countTask_changes u.task (lastPasses s e w u).cnt s).trans
    ((pmuCount_changes u.task.die (some u.task.slot) 0x030 0 (ceilDiv (pairsTaken s e w u u.passes (lastPasses s e w u).unit.passes) 2)
      (countTask u.task (lastPasses s e w u).cnt s)).mono (by decide))
  exact ⟨counted .engines (by decide), counted .mem (by decide)⟩

section
variable {eng : Fin 68} {s : State} {u : MatUnit} {e : Entry} {w : WorkUnit} (h : passing s eng = some (u, e, w))
  (tokens : hasTokens s (.matrix eng) = true) (loaded : u.tiles.length * loadCount w ≤ u.loaded) (read : (lastPasses s e w u).st = .ok)
include h tokens loaded read

theorem doPassesEnd_eq : doPassesEnd eng s =
    if 1 < w.parts then putUnit eng { endedUnit s e w u with waitParts := true }
      (countPairs s e w u (lastPasses s e w u).unit (countTask u.task (lastPasses s e w u).cnt s))
    else drainBank eng (endedUnit s e w u) e w (endedUnit s e w u).bank (putUnit eng (endedUnit s e w u)
      (countPairs s e w u (lastPasses s e w u).unit (countTask u.task (lastPasses s e w u).cnt s))) := by
  have due : ¬ (!hasTokens s (.matrix eng) || decide (u.loaded < u.tiles.length * loadCount w)) = true := by simp [tokens, loaded]
  unfold doPassesEnd
  dsimp only
  rw [h]
  dsimp only
  rw [if_neg due]
  exact if_neg (not_not_intro read)

/-- A part of a split unit waits for the others when its passes have ended (R101). -/
theorem doPassesEnd_split (split : 1 < w.parts) :
    (doPassesEnd eng s).engines = (putUnit eng { endedUnit s e w u with waitParts := true } s).engines ∧ (doPassesEnd eng s).mem = s.mem := by
  obtain ⟨engines, mem⟩ := passesCounted s u e w
  rw [doPassesEnd_eq h tokens loaded read, if_pos split]
  exact ⟨putUnit_engines eng _ engines, (putUnit_mem eng _ _).trans mem⟩

/-- A unit that is not split is drained when its passes have ended, and leaves its engine (R80, R93). -/
theorem doPassesEnd_drains {x : State} (parts : w.parts = 1) (part : w.part = 0) (whole : w.solo = true → orCnt (u.ents.getD 0 0) = 0)
    (arrays : ArrayOutputs e.desc) (undisturbed : Undisturbed s)
    (written : writeOuts u.task e w ((unitRows e w u.ents).map Prod.fst) (lastPasses s e w u).unit.bank
      (putUnit eng (endedUnit s e w u) (countTask u.task (lastPasses s e w u).cnt s)) = (x, .ok)) :
    GroupLeft s (doPassesEnd eng s) u 1 ∧ (doPassesEnd eng s).mem = x.mem ∧
      (entryOf (doPassesEnd eng s) u.task).run = e.run.ended 1 := by
  have same := endedUnit_same s e w u
  have writes := writeOuts_writes u.task arrays w ((unitRows e w u.ents).map Prod.fst) (lastPasses s e w u).unit.bank
  let counted := countTask u.task (lastPasses s e w u).cnt s
  let b := putUnit eng (endedUnit s e w u) counted
  have engines : b.engines = (putUnit eng (endedUnit s e w u) s).engines :=
    putUnit_engines eng _ (countTask_changes u.task (lastPasses s e w u).cnt s .engines (by decide))
  have tasks : TasksKept s b := ((countTask_writes u.task (lastPasses s e w u).cnt).tasks s).trans (putUnit_tasks eng _ counted)
  -- the sparse pairs are counted before the outputs are written, which does not show in the outputs
  obtain ⟨p, pairs⟩ : ∃ p, countPairs s e w u (lastPasses s e w u).unit counted = withPmu p counted := pmuCount_pmu _ _ _ _ _ _
  obtain ⟨q, blind⟩ := writes.blind p b
  rw [written] at blind
  have drained : doPassesEnd eng s = endUnit u.task u.unit 1 (withPmu q x) := by
    have out : writeOuts (endedUnit s e w u).task e w ((unitRows e w (endedUnit s e w u).ents).map Prod.fst) (endedUnit s e w u).bank
        (putUnit eng (endedUnit s e w u) (withPmu p counted)) = (withPmu q x, .ok) := by rw [same.1, same.2.2]; exact blind
    rw [doPassesEnd_eq h tokens loaded read, if_neg (by omega), pairs,
      drainBank_arrays (by rw [same.2.2]; exact whole) arrays out, same.1, same.2.1, part, parts, Nat.sub_zero]
  have writtenEngines : x.engines = b.engines := by rw [← writes.engines b, written]
  have writtenTasks : TasksKept b x := by have kept := writes.tasks b; rwa [written] at kept
  obtain ⟨left, mem, run⟩ := endUnit_written (t := u.task) (u0 := u.unit) (parts := 1) (x := withPmu q x) undisturbed
    (fun g => by rw [engines]; exact putUnit_fence eng g _ s) tasks writtenEngines writtenTasks
  rw [drained]
  refine ⟨fun g => ?_, mem, ?_⟩
  · rw [left, engines]
    exact putUnit_without same
  · rw [run, passing_entry h]

end

/-- A split unit whose parts have all finished is drained as one, and leaves their engines (R101). -/
theorem doCombine_drains {eng : Fin 68} {s x : State} {u : MatUnit} {e : Entry} {w : WorkUnit} {ps : List MatUnit}
    (h : readyGroup s eng = some (u, e, w, ps)) (whole : w.solo = true → orCnt (u.ents.getD 0 0) = 0) (arrays : ArrayOutputs e.desc)
    (undisturbed : Undisturbed s)
    (written : writeOuts u.task e w ((unitRows e w u.ents).map Prod.fst) (combineAll (ps.map (·.bank))).1
      (countTask u.task ⟨(combineAll (ps.map (·.bank))).2, 0⟩ s) = (x, .ok)) :
    GroupLeft s (doCombine eng s) u w.parts ∧ (doCombine eng s).mem = x.mem ∧
      (entryOf (doCombine eng s) u.task).run = e.run.ended w.parts := by
  obtain ⟨entry, part⟩ := readyGroup_spec h
  have writes := writeOuts_writes u.task arrays w ((unitRows e w u.ents).map Prod.fst) (combineAll (ps.map (·.bank))).1
  let b := countTask u.task ⟨(combineAll (ps.map (·.bank))).2, 0⟩ s
  have engines : b.engines = s.engines := countTask_changes u.task _ s .engines (by decide)
  have writtenEngines : x.engines = b.engines := by rw [← writes.engines b, written]
  have writtenTasks : TasksKept b x := by have kept := writes.tasks b; rwa [written] at kept
  have drained : doCombine eng s = endUnit u.task u.unit w.parts x := by
    unfold doCombine
    rw [h]
    dsimp only
    rw [drainBank_arrays whole arrays written, part, Nat.sub_zero]
  obtain ⟨left, mem, run⟩ := endUnit_written (t := u.task) (u0 := u.unit) (parts := w.parts) undisturbed
    (fun g => by rw [engines]) ((countTask_writes u.task _).tasks s) writtenEngines writtenTasks
  rw [drained]
  refine ⟨fun g => ?_, mem, ?_⟩
  · rw [left, engines]
    rfl
  · rw [run, entry]

/-! ### What the commands complete with -/

section
variable {P : State → Prop} {s : State}

theorem completes_matrixUnitStart {t : TaskRef} {eng : Fin 68} (h : P (doUnitStart t eng s)) :
    Completes (.matrixUnitStart t.slot t.die t.index eng) s P := ⟨_, rfl, h⟩

theorem completes_tileLoaded {eng : Fin 68} (h : P (doTileLoaded eng s)) : Completes (.tileLoaded eng) s P := ⟨_, rfl, h⟩

theorem completes_unitPassesEnd {eng : Fin 68} (h : P (doPassesEnd eng s)) : Completes (.unitPassesEnd eng) s P := ⟨_, rfl, h⟩

theorem completes_ksplitCombine {eng : Fin 68} (h : P (doCombine eng s)) : Completes (.ksplitCombine eng) s P := ⟨_, rfl, h⟩

theorem completes_residueCheckFail {eng : Fin 68} (h : P (doResidue eng s)) : Completes (.residueCheckFail eng) s P := ⟨_, rfl, h⟩

theorem completes_spareTestDone {die : Fin 4} {pass : Bool} (h : P (spareTest die pass s)) : Completes (.spareTestDone die pass) s P :=
  ⟨_, rfl, h⟩

end

/-- Settles O43: a unit's start finds its K tiles as if it were alone (`startGroup_started`), a load moves streams alone
(`doTileLoaded_loads`), and the end of passes and the combine write the outputs and drop the group (`doPassesEnd_drains`,
`doCombine_drains`); a fence takes effect before the tasks that it makes due fault, and those leave a fenced engine and a tested spare
as they are (`doResidue_fences`, `spareTest_fail_fences`). -/
theorem matrixUnitsRunAndEnginesHeal : Obligations.MatrixUnitsRunAndEnginesHeal := by
  refine ⟨⟨fun t0 eng s e u w engs he on runs first good tiles => ?start, fun eng s u e w r b h due tokens hr passed hb read => ?load,
      fun eng s u e w r h tokens loaded hr read => ⟨fun split => ?split, fun x parts part whole arrays calm written => ?drain⟩,
      fun eng s x u e w ps h whole arrays calm written => ?combine⟩,
    fun eng s u last undrained => ⟨fun fresh below => ?again, fun limit works others => ?fence⟩,
    fun die s e tested => ⟨fun l number => ?pass, fun idle => ?idle, ?fail⟩⟩
  case start =>
    subst he
    apply completes_matrixUnitStart
    rw [doUnitStart_eq on runs first]
    exact startGroup_started on good tiles
  case load =>
    subst hr hb
    have loads := doTileLoaded_loads h due tokens passed read
    have counted := countTask_changes u.task ((freeingPasses s e w u).cnt.add (nextLoad s w u).cnt) s
    refine completes_tileLoaded ⟨?_, ?_⟩
    · exact loads.engines.trans (putUnit_engines eng _ (counted .engines (by decide)))
    · exact loads.stored.1.trans (congrArg Mem.cells (counted .mem (by decide)))
  case split =>
    subst hr
    exact completes_unitPassesEnd (doPassesEnd_split h tokens loaded read split)
  case drain =>
    subst hr
    obtain ⟨left, mem, run⟩ := doPassesEnd_drains h tokens loaded read parts part whole arrays calm written
    exact completes_unitPassesEnd ⟨left, mem, fun n d tot back hrun => by rw [run, hrun]; rfl⟩
  case combine =>
    obtain ⟨left, mem, run⟩ := doCombine_drains h whole arrays calm written
    exact completes_ksplitCombine ⟨left, mem, fun n d tot back hrun => by rw [run, hrun]; rfl⟩
  case again =>
    have changes := residueNoted_changes eng u s
    apply completes_residueCheckFail
    rw [doResidue_eq last undrained, if_neg (by simp [fresh]; omega)]
    exact ⟨residueNoted_engines_below u below, changes .mem (by decide), changes .jobs (by decide)⟩
  case fence => exact completes_residueCheckFail (doResidue_fences last undrained limit works others)
  case pass =>
    apply completes_spareTestDone
    rw [spareTest_pass tested number]
    exact setEngine_testEnded e _ (by decide) s
  case idle =>
    apply completes_spareTestDone
    rw [spareTest_idle tested idle]
    exact setEngine_testEnded e _ (by decide) s
  case fail => exact completes_spareTestDone (spareTest_fail_fences tested)

end Sys2Proof.Machine
end

section
/-! SUPPORT. Unlor commands that the Cox takes (spec/16_host_mailbox.md R546 to R553): the words of a slot, and a command that passes
every check and goes on after its ACCEPTED. -/

namespace Sys2Proof.Machine

/-! ### Fields of a number -/

/-- What stands above a field is not read with it. -/
theorem fld_add_shiftLeft {a b hi lo k : Nat} (h : hi < k) (le : lo ≤ hi) : fld (a + b <<< k) hi lo = fld a hi lo := by
  obtain ⟨d, rfl⟩ : ∃ d, k = lo + (hi + 1 - lo) + d := ⟨k - (hi + 1), by omega⟩
  have above : b <<< (lo + (hi + 1 - lo) + d) = 2 ^ lo * (2 ^ (hi + 1 - lo) * (2 ^ d * b)) := by
    rw [Nat.shiftLeft_eq, Nat.pow_add, Nat.pow_add]
    ac_rfl
  rw [fld, fld, above, Nat.shiftRight_eq_div_pow, Nat.shiftRight_eq_div_pow, Nat.add_mul_div_left _ _ (Nat.two_pow_pos _),
    Nat.add_mul_mod_self_left]

/-- A word that starts above `a` is read back. -/
theorem fld_add_word {a k w hi : Nat} (x : BitVec w) (h : a < 2 ^ k) (width : hi + 1 = k + w) : fld (a + x.toNat <<< k) hi k = x.toNat := by
  rw [fld, Nat.shiftLeft_eq, Nat.shiftRight_eq_div_pow, Nat.add_mul_div_right _ _ (Nat.two_pow_pos _), Nat.div_eq_of_lt h, Nat.zero_add,
    show hi + 1 - k = w by omega]
  exact Nat.mod_eq_of_lt x.isLt

/-- A word holds the fields below its width. -/
theorem fld_ofNat {n v hi lo : Nat} (h : hi < n) (le : lo ≤ hi) : fld (BitVec.ofNat n v).toNat hi lo = fld v hi lo := by
  rw [BitVec.toNat_ofNat, ← fld_add_shiftLeft (b := v / 2 ^ n) h le, Nat.shiftLeft_eq, Nat.mod_add_div']

/-- A field that was replaced. -/
theorem fld_setFld (v hi lo x : Nat) : fld (setFld v hi lo x) hi lo = x % 2 ^ (hi + 1 - lo) := by
  have below : 2 ^ lo * (v / 2 ^ lo % 2 ^ (hi + 1 - lo)) ≤ v :=
    (Nat.mul_le_mul_left _ (Nat.mod_le _ _)).trans (Nat.mul_div_le _ _)
  have kept : v / 2 ^ lo - v / 2 ^ lo % 2 ^ (hi + 1 - lo) = 2 ^ (hi + 1 - lo) * (v / 2 ^ lo / 2 ^ (hi + 1 - lo)) := by
    have := Nat.div_add_mod (v / 2 ^ lo) (2 ^ (hi + 1 - lo))
    omega
  rw [setFld, fld, fld, Nat.shiftLeft_eq, Nat.shiftLeft_eq, Nat.shiftRight_eq_div_pow, Nat.shiftRight_eq_div_pow,
    Nat.add_mul_div_right _ _ (Nat.two_pow_pos _), Nat.mul_comm _ (2 ^ lo), Nat.sub_mul_div_of_le _ _ _ below, kept,
    Nat.mul_add_mod, Nat.mod_mod]

/-! ### The words of a command slot (R547) -/

/-- The 32 bytes of a slot's header. -/
def slotHeader (op : BitVec 16) (c : HostCmd) : Nat :=
  op.toNat + c.seq.toNat <<< 16 + c.length.toNat <<< 32 + c.handle.toNat <<< 48 + fld c.rsv.toNat 62 31 <<< 64 +
    (if c.ind then 1 else 0) <<< 96 + fld c.rsv.toNat 30 0 <<< 97 + c.indAddr.toNat <<< 128 + c.indLen.toNat <<< 192 +
    fld c.rsv.toNat 94 63 <<< 224

/-- A field of a slot's 256 bytes. -/
theorem fld_slotImage (op : BitVec 16) (c : HostCmd) {hi lo : Nat} (h : hi < 2048) (le : lo ≤ hi) :
    fld (slotImage op c).toNat hi lo = fld (slotHeader op c + c.payload.toNat <<< 256) hi lo := fld_ofNat h le

theorem slotHeader_lt (op : BitVec 16) (c : HostCmd) : slotHeader op c < 2 ^ 256 := by
  have field : ∀ v hi lo, fld v hi lo < 2 ^ (hi + 1 - lo) := fun v hi lo => Nat.mod_lt _ (Nat.two_pow_pos _)
  have r0 := field c.rsv.toNat 62 31
  have r1 := field c.rsv.toNat 30 0
  have r2 := field c.rsv.toNat 94 63
  have ind : (if c.ind then 1 else 0) < 2 := by split <;> decide
  have op_lt := op.isLt
  have seq := c.seq.isLt
  have length := c.length.isLt
  have handle := c.handle.isLt
  have addr := c.indAddr.isLt
  have len := c.indLen.isLt
  unfold slotHeader
  simp only [Nat.shiftLeft_eq]
  omega

@[simp] theorem sent_opcode (op : BitVec 16) (c : HostCmd) : (sent op c).opcode = op := by
  have read : fld (slotImage op c).toNat 15 0 = op.toNat := by
    refine (fld_slotImage op c (by omega) (by omega)).trans ?_
    unfold slotHeader
    simp (disch := omega) only [fld_add_shiftLeft]
    exact Nat.mod_eq_of_lt op.isLt
  exact (congrArg (BitVec.ofNat 16) read).trans (BitVec.ofNat_toNat _ _)

@[simp] theorem sent_seq (op : BitVec 16) (c : HostCmd) : (sent op c).seq = c.seq := by
  have read : fld (slotImage op c).toNat 31 16 = c.seq.toNat := by
    refine (fld_slotImage op c (by omega) (by omega)).trans ?_
    unfold slotHeader
    simp (disch := omega) only [fld_add_shiftLeft]
    exact fld_add_word c.seq op.isLt rfl
  exact (congrArg (BitVec.ofNat 16) read).trans (BitVec.ofNat_toNat _ _)

@[simp] theorem sent_payload (op : BitVec 16) (c : HostCmd) : (sent op c).payload = c.payload.toNat :=
  (fld_slotImage op c (by omega) (by omega)).trans (fld_add_word c.payload (slotHeader_lt op c) rfl)

/-- Bits that a row fixes stand in the payload of its command. -/
theorem sent_fixPayload_pl (op : BitVec 16) (c : HostCmd) {hi lo v : Nat} (le : lo ≤ hi) (fits : hi < 1792)
    (small : v < 2 ^ (hi + 1 - lo)) : (sent op (fixPayload c hi lo v)).pl hi lo = v := by
  rw [Cmd.pl, sent_payload]
  exact (fld_ofNat fits le).trans ((fld_setFld _ _ _ _).trans (Nat.mod_eq_of_lt small))

/-! ### A command that is taken -/

/-- A command whose indirect buffer reads as another one. -/
def withDma (c : HostCmd) (dma : IndBuf) : HostCmd := { c with dma := dma }

theorem sent_withDma (op : BitVec 16) (c : HostCmd) (dma : IndBuf) :
    sent op (withDma c dma) = Cmd.ofImage c.fn c.mb (slotImage op c) dma none := rfl

theorem sent_withDma_payload (op : BitVec 16) (c : HostCmd) (dma : IndBuf) :
    (sent op (withDma c dma)).payload = (sent op c).payload := by
  rw [sent_payload, sent_payload, withDma]

/-- The checks before a command's own see the same in the state in which the Cox runs it; its indirect buffer is not among them. -/
theorem preCheck_atTake (op : BitVec 16) (c : HostCmd) (dma : IndBuf) (s : State) :
    preCheck (atTake op c s) (sent op (withDma c dma)) = preCheck s (sent op c) := by
  have version : (atTake op c s).host[c.fn].version = s.host[c.fn].version := by
    simp [atTake]
  unfold preCheck
  rw [show (atTake op c s).host[(sent op (withDma c dma)).fn].version = s.host[(sent op c).fn].version from version]
  rfl

/-- The state in which the host has written a command into its slot. -/
def atWrite (op : BitVec 16) (c : HostCmd) (s : State) : State :=
  modHost c.fn (fun h => { h with cmd := h.cmd.set c.mb (slotImage op c) }) s

theorem takeSlot_atWrite (op : BitVec 16) (c : HostCmd) (s : State) :
    ∃ dma, takeSlot c.fn c.mb c.dma (atWrite op c s) = runCmd (sent op (withDma c dma)) (atTake op c s) := by
  have image : (atWrite op c s).host[c.fn].cmd[c.mb] = slotImage op c := by simp [atWrite]
  refine ⟨if dmaOpen (atWrite op c s) c.fn then c.dma else IndBuf.none, ?_⟩
  rw [sent_withDma, takeSlot, image]
  rfl

/-- An accepted command is written into its slot and taken at once, and its own checks and effect follow (R546, R553). -/
theorem sendCmd_accepted {op : BitVec 16} {c : HostCmd} {s : State} (h : Accepts op c s) :
    ∃ dma, sendCmd op c s = settleCmd (sent op (withDma c dma)) (perform (sent op (withDma c dma)) (atTake op c s)) := by
  obtain ⟨⟨opened, loader, unlocked, idle, steady, runs⟩, checks, boots⟩ := h
  obtain ⟨dma, taken⟩ := takeSlot_atWrite op c s
  have free : (atWrite op c s).host[c.fn].busy.getLsbD c.mb.val = false := by simpa [atWrite] using idle
  have rung : sendCmd op c s = takeSlot c.fn c.mb c.dma (atWrite op c s) :=
    (bar0_open _ opened unlocked).trans (ring_take _ loader free steady runs)
  have allowed : ¬ (((atTake op c s).rst.phase = .loader && (sent op (withDma c dma)).opcode != 1 &&
      (sent op (withDma c dma)).opcode != 0x50) = true) := by
    intro loads
    simp only [atTake, modHost_keeps, sent_opcode, Bool.and_eq_true, decide_eq_true_eq, bne_iff_ne] at loads
    obtain ⟨⟨phase, version⟩, load⟩ := loads
    exact (boots phase).elim version load
  refine ⟨dma, ?_⟩
  rw [rung, taken, runCmd, preCheck_atTake, checks]
  exact congrArg _ (if_neg allowed)

/-- A command marked A goes on after its ACCEPTED, and its work begins in a state that differs by the replies alone (R552). -/
theorem sendCmd_starts {op : BitVec 16} {c : HostCmd} {s : State} {w : BgWork} {go : State → State} (h : Accepts op c s)
    (starts : ∀ dma, perform (sent op (withDma c dma)) (atTake op c s) = (atTake op c s, .start w go)) :
    ∃ u, sendCmd op c s = go u ∧ Started c w u ∧ Changes [.host, .cox, .out] s u := by
  obtain ⟨dma, run⟩ := sendCmd_accepted h
  rw [starts] at run
  have taken : Changes [.host, .cox, .out] s (atTake op c s) :=
    ((modHost_changes _ _ _).mono (by decide)).trans ((modHost_changes _ _ _).mono (by decide))
  have goesOn : ∀ d t, Changes [.host, .cox, .out] t (runOn d w t) := fun d t => by
    intro p hp; cases p <;> first | exact absurd (by decide) hp | rfl
  refine ⟨_, run, ⟨_, List.mem_append_right _ List.mem_cons_self, rfl, rfl, sent_seq op _, rfl⟩, ?_⟩
  exact (taken.trans ((writeReply_changes _ _ _ _ _).mono (by decide))).trans (goesOn _ _)

end Sys2Proof.Machine
end

section
/-! SUPPORT. Final replies of running commands (spec/16_host_mailbox.md R548, R552; spec/14_secrecy.md R511): one that leaves in a MGMT
frame lets packets of any job leave its port, which take their transmit counts (R340). -/

namespace Sys2Proof.Machine

/-- Every job is as it was, but for its transmit count. -/
def JobsKept (s t : State) : Prop := ∀ j : Fin 64, JobKept s.jobs[j] t.jobs[j]

theorem JobsKept.of_eq {s t : State} (h : t.jobs = s.jobs) : JobsKept s t := fun j => by rw [h]; rfl

theorem JobsKept.refl (s : State) : JobsKept s s := .of_eq rfl

theorem JobKept.trans {a b c : Job} (h : JobKept a b) (g : JobKept b c) : JobKept a c := by
  unfold JobKept at h g ⊢
  rw [g, h]

theorem JobsKept.trans {s t u : State} (h : JobsKept s t) (g : JobsKept t u) : JobsKept s u := fun j => (h j).trans (g j)

theorem JobsKept.forEach {α : Type} (l : List α) (f : α → State → State) (h : ∀ a t, JobsKept t (f a t)) (s : State) :
    JobsKept s (forEach l f s) :=
  forEach_keeps (P := JobsKept s) l f (fun a t ht => ht.trans (h a t)) s (.refl s)

/-- A packet that leaves takes the next transmit count of its job (R340). -/
theorem modVmt_jobsKept (slot : Fin 64) (n : BitVec 64) (s : State) : JobsKept s (modVmt slot (fun v => { v with txc := v.txc + n }) s) := by
  intro j
  by_cases h : j = slot
  · subst h
    simp only [modVmt, modJob, Fin.getElem_fin, vmod_get]
    rfl
  · rw [show (modVmt slot _ s).jobs[j] = s.jobs[j] from modJob_other _ _ _ _ h]
    rfl

theorem emitFrame_jobsKept (p : Fin 32) (f : QueuedFrame) (s : State) : JobsKept s (emitFrame p f s) := by
  unfold emitFrame
  dsimp only
  split
  · split
    · exact .refl s
    · exact (JobsKept.of_eq (s := s) rfl).trans ((modVmt_jobsKept _ 1 _).trans (.of_eq rfl))
  · exact .of_eq rfl
  · exact .of_eq rfl

theorem putFrame_jobsKept (p : Fin 32) (f : QueuedFrame) (s : State) : JobsKept s (putFrame p f s) := by
  have sent : ∀ t, JobsKept t (freeHeld f (emitFrame p f t)) :=
    fun t => (emitFrame_jobsKept p f t).trans (.of_eq (freeHeld_changes _ _ .jobs (by decide)))
  unfold putFrame
  dsimp only
  split
  · exact (JobsKept.of_eq (modPort_changes _ _ _ .jobs (by decide))).trans (sent _)
  · exact sent _

theorem drainN_jobsKept (p : Fin 32) (n : Nat) (s : State) : JobsKept s (drainN p n s) := by
  induction n generalizing s with
  | zero => exact .refl s
  | succ n ih =>
    unfold drainN
    split
    · exact .refl s
    · exact (JobsKept.of_eq (modPort_changes _ _ _ .jobs (by decide))).trans ((putFrame_jobsKept _ _ _).trans (ih _))

theorem sendTo_jobsKept (p : Fin 32) (k : FrameKind) (data : List Nat) (dst : BitVec 18) (path : Nat) (s : State) :
    JobsKept s (sendTo p k data dst path s) := by
  unfold sendTo
  dsimp only
  split
  · exact (JobsKept.of_eq (modPort_changes _ _ _ .jobs (by decide))).trans (drainN_jobsKept _ _ _)
  · exact emitFrame_jobsKept _ _ _

theorem sendMgmtOn_jobsKept (p : Fin 32) (k : FrameKind) (dst : BitVec 18) (path : Nat) (body : List Byte) (s : State) :
    JobsKept s (sendMgmtOn p k dst path body s) := by
  unfold sendMgmtOn
  split
  · exact .refl s
  · exact JobsKept.trans (.of_eq rfl) (sendTo_jobsKept _ _ _ _ _ _)

theorem answer_jobsKept (fn : Fin 65) (mb : Fin 16) (mgmt : Option (Fin 32 × BitVec 18)) (img : BitVec 2048) (final : Bool) (s : State) :
    JobsKept s (answer fn mb mgmt img final s) := by
  unfold answer
  split
  · exact sendMgmtOn_jobsKept _ _ _ _ _ _
  · exact .of_eq (writeReply_changes _ _ _ _ _ .jobs (by decide))

theorem finishBg_jobsKept (c : BgCmd) (b : ReplyBody) (s : State) : JobsKept s (finishBg c b s) := by
  unfold finishBg
  exact JobsKept.trans (t := { s with cox := { s.cox with running := s.cox.running.filter (fun d => !(d == c)) } }) (.of_eq rfl)
    (answer_jobsKept _ _ _ _ _ _)

/-- The final replies of running commands keep every job. -/
theorem finishAll_jobsKept (f : BgCmd → Bool) (b : ReplyBody) (s : State) : JobsKept s (finishAll f b s) :=
  JobsKept.forEach _ _ (fun c t => finishBg_jobsKept c b t) s

end Sys2Proof.Machine
end

section
/-! SUPPORT. ME_FENCE and the test of a returned engine (spec/03_matrix_engines.md R118, R119; spec/17_reset_clocks_straps.md R592;
spec/18_service_selftest_conservation.md R611): what a fence, a return and the end of a test write, and the obligation about them. -/

namespace Sys2Proof.Machine

/-! ### The health entry of an engine is written -/

theorem setEngine_engine (e g : Fin 68) (logical : Byte) (st : BitVec 4) (s : State) :
    (setEngine e logical st s).engines[g] = if g = e then { s.engines[g] with logical := logical, st := st } else s.engines[g] := by
  rw [setEngine_engines, vmod_getElem]

theorem modEngine_changes (e : Fin 68) (f : Engine → Engine) (s : State) : Changes [.engines] s (modEngine e f s) := by
  intro p hp; cases p <;> first | exact absurd (by decide) hp | rfl

theorem recordEngine_changes (e : Fin 68) (logical : Byte) (st : BitVec 4) (s : State) :
    Changes [.health, .healthFlash] s (recordEngine e logical st s) := by
  intro p hp; cases p <;> first | exact absurd (by decide) hp | rfl

/-- An engine changes its state: an event is logged, and the health record is written unless the engine is under test (R122, R633). -/
theorem setEngine_changes (e : Fin 68) (logical : Byte) (st : BitVec 4) (s : State) :
    Changes [.engines, .logs, .health, .healthFlash] s (setEngine e logical st s) := by
  have noted : ∀ n, Changes [.engines, .logs, .health, .healthFlash] s
      (logEvent 0x05 none e.val n (modEngine e (fun k => { k with logical := logical, st := st }) s)) := fun n =>
    ((modEngine_changes _ _ _).mono (by decide)).trans ((logEvent_changes _ _ _ _ _).mono (by decide))
  unfold setEngine
  dsimp only
  split
  · exact noted _
  · exact (noted _).trans ((recordEngine_changes _ _ _ _).mono (by decide))

theorem logEvent_seq (code : Byte) (slot : Option (Fin 64)) (unit detail : Nat) (s : State) :
    (logEvent code slot unit detail s).logs.seq = s.logs.seq := by
  unfold logEvent
  dsimp only
  split <;> rfl

/-- An event takes no number of the error log. -/
theorem setEngine_seq (e : Fin 68) (logical : Byte) (st : BitVec 4) (s : State) : (setEngine e logical st s).logs.seq = s.logs.seq := by
  unfold setEngine
  dsimp only
  split
  · exact logEvent_seq _ _ _ _ _
  · exact logEvent_seq _ _ _ _ _

/-- An error adds one record (R629). -/
theorem logError_seq (code : Byte) (slot : Option (Fin 64)) (unit detail : Nat) (s : State) :
    (logError code slot unit detail s).logs.seq = s.logs.seq + 1 := by
  have added : ∀ l r, (Logs.addError l r).seq = l.seq + 1 := fun l r => by
    unfold Logs.addError
    dsimp only
    split
    · rfl
    · split <;> rfl
  exact (congrArg Logs.seq (raiseCause_changes pf0 0 _ .logs (by decide))).trans (added _ _)

/-! ### A fence (R118, R119) -/

theorem unbindEngine_changes (e : Fin 68) (s : State) : Changes [.jobs, .engines] s (unbindEngine e s) := by
  unfold unbindEngine
  split
  · exact .refl _ _
  · exact ((modDie_changes _ _ _ _).mono (by decide)).trans ((modEngine_changes _ _ _).mono (by decide))

theorem unbindEngine_unbound {e : Fin 68} {s : State} (h : s.engines[e].bound = none) : unbindEngine e s = s := by
  unfold unbindEngine
  rw [h]

/-- Where a spare stands in, a fence leaves every task once the engine is unbound from its own. -/
theorem fenceIdle_changes {e k : Fin 68} {s : State} (spare : spareOf s (engineDie e) = some k) :
    Changes [.engines, .host, .out, .logs, .health, .healthFlash] (unbindEngine e s) (fenceIdle e s) := by
  unfold fenceIdle
  dsimp only
  rw [spare]
  have engine : ∀ g f t, Changes [.engines, .host, .out, .logs, .health, .healthFlash] t (modEngine g f t) :=
    fun g f t => (modEngine_changes g f t).mono (by decide)
  have set : ∀ g l st t, Changes [.engines, .host, .out, .logs, .health, .healthFlash] t (setEngine g l st t) :=
    fun g l st t => (setEngine_changes g l st t).mono (by decide)
  have fenced := (engine e (fun k => { k with fence := false }) (unbindEngine e s)).trans (set e 0xFF meFENCED _)
  have logged := fenced.trans ((logError_changes 0x04 none e.val k.val _).mono (by decide))
  have raised := logged.trans ((raiseCause_changes pf0 1 _).mono (by decide))
  exact (raised.trans (engine k _ _)).trans (set k 0xFF meTESTING _)

/-- A fence of an engine with a unit waits for the unit's end (R118). -/
theorem askFence_busy {e : Fin 68} {s : State} (h : s.engines[e].units ≠ []) :
    askFence e s = modEngine e (fun k => { k with fence := true }) s := by
  unfold askFence
  rw [if_neg (by rwa [List.isEmpty_iff])]

/-- The state in which a fence takes effect: none waits for the engine any more. -/
def fenceCleared (e : Fin 68) (s : State) : State := modEngine e (fun k => { k with fence := false }) s

theorem fenceCleared_engine (e : Fin 68) (s : State) : (fenceCleared e s).engines[e] = { s.engines[e] with fence := false } := by
  rw [fenceCleared, modEngine_engine, if_pos rfl]

theorem fenceCleared_changes (e : Fin 68) (s : State) : Changes [.engines] s (fenceCleared e s) := modEngine_changes _ _ _

theorem spareOf_fenceCleared (e : Fin 68) (s : State) (die : Fin 4) : spareOf (fenceCleared e s) die = spareOf s die := by
  refine spareOf_congr (fun g => ?_) die
  rw [fenceCleared, modEngine_engine]
  split <;> rfl

section
variable {e k : Fin 68} {s : State} (idle : s.engines[e].units = []) (spare : spareOf s (engineDie e) = some k)
include idle spare

/-- A fence of an engine without a unit takes effect at once; where a spare stands in, no task is due to fault (R102, R119). -/
theorem askFence_idle : askFence e s = fenceIdle e (fenceCleared e s) := by
  unfold askFence fenceEngine
  rw [idle, spare]
  rfl

theorem askFence_idle_changes : Changes [.jobs, .engines, .host, .out, .logs, .health, .healthFlash] s (askFence e s) := by
  rw [askFence_idle idle spare]
  exact ((fenceCleared_changes e s).mono (by decide)).trans (((unbindEngine_changes _ _).mono (by decide)).trans
    ((fenceIdle_changes ((spareOf_fenceCleared e s _).trans spare)).mono (by decide)))

/-- An engine that is bound to no task leaves every job (R191). -/
theorem askFence_idle_jobs (unbound : s.engines[e].bound = none) : (askFence e s).jobs = s.jobs := by
  have fenced := fenceIdle_changes ((spareOf_fenceCleared e s _).trans spare)
  rw [unbindEngine_unbound (by rw [fenceCleared_engine]; exact unbound)] at fenced
  rw [askFence_idle idle spare]
  exact (fenced .jobs (by decide)).trans (fenceCleared_changes e s .jobs (by decide))

/-- The engine is out of work, and the spare is tested for its number (R119). -/
theorem askFence_idle_engines (working : s.engines[e].st ≠ meSPARE) :
    ((askFence e s).engines[e].st = meFENCED ∧ (askFence e s).engines[e].logical = 0xFF) ∧
    (askFence e s).engines[k].st = meTESTING ∧ (askFence e s).engines[k].standIn = some s.engines[e].logical.toNat := by
  have other : k ≠ e := fun h => working (h ▸ spareOf_st spare)
  have fenced := fenceIdle_engine e e (fenceCleared e s)
  have tested := fenceIdle_engine e k (fenceCleared e s)
  rw [spareOf_fenceCleared, spare, if_neg (fun h => other (Option.some.inj h)), if_pos rfl] at fenced
  rw [spareOf_fenceCleared, spare, if_pos rfl, if_neg other, fenceCleared_engine] at tested
  rw [askFence_idle idle spare, fenced, tested]
  exact ⟨⟨rfl, rfl⟩, rfl, rfl⟩

end

/-! ### A return (R592) -/

theorem returnEngine_engine (e : Fin 68) (s : State) :
    (returnEngine e s).engines[e] = { s.engines[e] with
      units := [], fence := false, slot := none, standIn := none, returned := true, logical := 0xFF, st := meTESTING } := by
  rw [returnEngine, setEngine_engine, if_pos rfl, modEngine_engine, if_pos rfl]

theorem returnEngine_changes (e : Fin 68) (s : State) : Changes [.engines, .logs, .health, .healthFlash] s (returnEngine e s) :=
  ((modEngine_changes _ _ _).mono (by decide)).trans (setEngine_changes _ _ _ _)

/-! ### The end of a returned engine's test (R611) -/

/-- The state in which the test of a returned engine ends. -/
def returnEnded (e : Fin 68) (s : State) : State := modEngine e (fun k => { k with returned := false }) s

theorem returnEnded_missing (e : Fin 68) (s : State) (die : Fin 4) : missing (returnEnded e s) die = missing s die := by
  have same : ∀ g : Fin 68, (returnEnded e s).engines[g].logical = s.engines[g].logical ∧
      (returnEnded e s).engines[g].standIn = s.engines[g].standIn := fun g => by
    rw [returnEnded, modEngine_engine]
    split <;> exact ⟨rfl, rfl⟩
  unfold missing
  simp only [same]

theorem returnEnded_engine (e : Fin 68) (s : State) : (returnEnded e s).engines[e] = { s.engines[e] with returned := false } := by
  rw [returnEnded, modEngine_engine, if_pos rfl]

/-- The engine in the state that its test has brought it to. -/
theorem setEngine_returnEnded_engine (e : Fin 68) (logical : Byte) (st : BitVec 4) (s : State) :
    (setEngine e logical st (returnEnded e s)).engines[e] = { s.engines[e] with returned := false, logical := logical, st := st } := by
  rw [setEngine_engine, if_pos rfl, returnEnded_engine]

theorem setEngine_returnEnded_changes (e : Fin 68) (logical : Byte) (st : BitVec 4) (s : State) :
    Changes [.engines, .logs, .health, .healthFlash] s (setEngine e logical st (returnEnded e s)) :=
  ((modEngine_changes _ _ _).mono (by decide)).trans (setEngine_changes _ _ _ _)

section
variable {e : Fin 68} {s : State} (testing : s.engines[e].st = meTESTING) (returned : s.engines[e].returned = true)
include testing returned

/-- An engine that passes takes a missing number of its die, and is a spare where none is missing. -/
theorem engineTestEnd_pass : ∃ logical, engineTestEnd e true s = finishAll (fun b => b.work == .engineTest e) (.of stOK)
    (setEngine e logical (if missing s (engineDie e) = [] then meSPARE else meACTIVE) (returnEnded e s)) := by
  unfold engineTestEnd
  rw [if_neg (by rw [testing, returned]; decide)]
  change ∃ logical, finishAll _ _ (match missing (returnEnded e s) (engineDie e) with
    | l :: _ => setEngine e (BitVec.ofNat 8 l) meACTIVE (returnEnded e s)
    | [] => setEngine e 0xFF meSPARE (returnEnded e s)) = _
  rw [returnEnded_missing]
  cases missing s (engineDie e) with
  | nil => exact ⟨0xFF, rfl⟩
  | cons l _ => exact ⟨BitVec.ofNat 8 l, rfl⟩

/-- One that fails is fenced again, with a record whose unit class and detail are free (notes/assumptions/24). -/
theorem engineTestEnd_fail : ∃ body u, u.logs.seq = s.logs.seq + 1 ∧
    u.engines[e] = { s.engines[e] with returned := false, logical := 0xFF, st := meFENCED } ∧
    Changes [.engines, .host, .out, .logs, .health, .healthFlash, .fresh] s u ∧
    engineTestEnd e false s = finishAll (fun b => b.work == .engineTest e) body u := by
  have drawn : Changes [.fresh] (returnEnded e s) (draw (returnEnded e s)).2 := by
    intro p hp; cases p <;> first | exact absurd (by decide) hp | rfl
  have engines : (draw (returnEnded e s)).2.engines = (returnEnded e s).engines := drawn .engines (by decide)
  have ended : engineTestEnd e false s = finishAll (fun b => b.work == .engineTest e) ⟨stINTERNAL, s.logs.seq.toNat, 0, 0, 0⟩
      (logError 0x0E none ((Config.freeValue s.fresh).toNat % 65536) ((Config.freeValue s.fresh).toNat / 65536)
        (setEngine e 0xFF meFENCED (draw (returnEnded e s)).2)) := by
    unfold engineTestEnd
    rw [if_neg (by rw [testing, returned]; decide)]
    rfl
  refine ⟨_, _, ?_, ?_, ?_, ended⟩
  · rw [logError_seq, setEngine_seq]
    exact congrArg (·.seq + 1) (drawn .logs (by decide))
  · rw [logError_engines, setEngine_engine, if_pos rfl, engines, returnEnded_engine]
  · exact ((((modEngine_changes _ _ _).mono (by decide)).trans (drawn.mono (by decide))).trans
      ((setEngine_changes _ _ _ _).mono (by decide))).trans ((logError_changes _ _ _ _ _).mono (by decide))

end

/-! ### ME_FENCE -/

/-- A command that runs goes on through what leaves the Cox. -/
theorem Started.of_cox {c : HostCmd} {w : BgWork} {s t : State} (h : Started c w s) (same : t.cox = s.cox) : Started c w t := by
  unfold Started
  rwa [same]

theorem started_of_fixPayload {c : HostCmd} {hi lo v : Nat} {w : BgWork} {t : State} (h : Started (fixPayload c hi lo v) w t) :
    Started c w t := by
  obtain ⟨b, mem, fn, mb, seq, work⟩ := h
  exact ⟨b, mem, fn, mb, seq, work⟩

/-- ME_FENCE with op FENCE starts a fence of an engine that works (R118). -/
theorem cmdFence_fence {c : Cmd} {e : Fin 68} {s : State} (target : targetFault c 68 1 = none) (op : c.pl 19 16 = 0)
    (engine : Fin.ofNat 68 (c.pl 15 0) = e) (active : s.engines[e].st = meACTIVE) :
    cmdFence c s = (s, .start (.fence e) (askFence e)) := by
  subst engine
  unfold cmdFence
  rw [target]
  dsimp only
  rw [op, active]
  rfl

/-- ME_FENCE with op RETURN starts the reset and the test of an engine that is fenced (R592). -/
theorem cmdFence_return {c : Cmd} {e : Fin 68} {s : State} (target : targetFault c 68 1 = none) (op : c.pl 19 16 = 1)
    (engine : Fin.ofNat 68 (c.pl 15 0) = e) (fenced : s.engines[e].st = meFENCED) :
    cmdFence c s = (s, .start (.engineTest e) (returnEngine e)) := by
  subst engine
  unfold cmdFence
  rw [target]
  dsimp only
  rw [op, fenced]
  rfl

theorem perform_fence (c : HostCmd) (s : State) : perform (sent 0x0033 c) s = cmdFence (sent 0x0033 c) s := by
  unfold perform
  rw [sent_opcode]
  rfl

/-- The target and the operation stand in the payload. -/
theorem words_of_payload_eq {c d : Cmd} (h : c.payload = d.payload) :
    targetFault c 68 1 = targetFault d 68 1 ∧ ∀ hi lo, c.pl hi lo = d.pl hi lo := by
  have words : ∀ hi lo, c.pl hi lo = d.pl hi lo := fun hi lo => by rw [Cmd.pl, Cmd.pl, h]
  refine ⟨?_, words⟩
  unfold targetFault
  simp only [words]

section
variable {c : HostCmd} {s : State} {e : Fin 68} (accepts : Accepts 0x0033 (fixPayload c 19 16 0) s)
    (target : targetFault (sent 0x0033 (fixPayload c 19 16 0)) 68 1 = none)
    (engine : Fin.ofNat 68 ((sent 0x0033 (fixPayload c 19 16 0)).pl 15 0) = e) (active : s.engines[e].st = meACTIVE)
include accepts target engine active

theorem completes_meFenceFence {P : State → Prop}
    (h : ∀ u, Started c (.fence e) u → Changes [.host, .cox, .out] s u → P (askFence e u)) : Completes (.meFenceFence c) s P := by
  have op : (sent 0x0033 (fixPayload c 19 16 0)).pl 19 16 = 0 := sent_fixPayload_pl _ _ (by decide) (by decide) (by decide)
  obtain ⟨u, run, started, changes⟩ := sendCmd_starts (w := .fence e) (go := askFence e) accepts (fun dma => by
    obtain ⟨targets, words⟩ := words_of_payload_eq (sent_withDma_payload 0x0033 (fixPayload c 19 16 0) dma)
    exact (perform_fence _ _).trans (cmdFence_fence (targets.trans target) ((words _ _).trans op) (by rw [words, engine]) active))
  exact ⟨_, congrArg Host.Outcome.next run, h u (started_of_fixPayload started) changes⟩

/-- An engine with a unit waits for its end (R118). -/
theorem meFenceFence_waits (busy : s.engines[e].units ≠ []) :
    Completes (.meFenceFence c) s (fun t => Started c (.fence e) t ∧ t.engines[e] = { s.engines[e] with fence := true } ∧
      t.jobs = s.jobs ∧ t.mem = s.mem) := by
  refine completes_meFenceFence accepts target engine active (fun u started changes => ?_)
  have engines : u.engines = s.engines := changes .engines (by decide)
  rw [askFence_busy (by rwa [engines])]
  refine ⟨started, ?_, changes .jobs (by decide), changes .mem (by decide)⟩
  rw [modEngine_engine, if_pos rfl, engines]

/-- An engine without one is fenced, and its die's spare is tested (R119). -/
theorem meFenceFence_fences {k : Fin 68} (idle : s.engines[e].units = []) (spare : spareOf s (engineDie e) = some k) :
    Completes (.meFenceFence c) s (fun t => Started c (.fence e) t ∧ t.engines[e].st = meFENCED ∧ t.engines[e].logical = 0xFF ∧
      t.engines[k].st = meTESTING ∧ t.engines[k].standIn = some s.engines[e].logical.toNat ∧
      (s.engines[e].bound = none → t.jobs = s.jobs) ∧ t.mem = s.mem) := by
  refine completes_meFenceFence accepts target engine active (fun u started changes => ?_)
  have engines : u.engines = s.engines := changes .engines (by decide)
  rw [← engines] at active idle ⊢
  rw [← spareOf_congr (t := u) (fun g => by rw [engines])] at spare
  have kept := askFence_idle_changes idle spare
  obtain ⟨⟨st, logical⟩, tests, standIn⟩ := askFence_idle_engines idle spare (by rw [active]; decide)
  exact ⟨started.of_cox (kept .cox (by decide)), st, logical, tests, standIn,
    fun unbound => (askFence_idle_jobs idle spare unbound).trans (changes .jobs (by decide)),
    (kept .mem (by decide)).trans (changes .mem (by decide))⟩

end

section
variable {c : HostCmd} {s : State} {e : Fin 68} (accepts : Accepts 0x0033 (fixPayload c 19 16 1) s)
    (target : targetFault (sent 0x0033 (fixPayload c 19 16 1)) 68 1 = none)
    (engine : Fin.ofNat 68 ((sent 0x0033 (fixPayload c 19 16 1)).pl 15 0) = e) (fenced : s.engines[e].st = meFENCED)
include accepts target engine fenced

theorem completes_meFenceReturn {P : State → Prop}
    (h : ∀ u, Started c (.engineTest e) u → Changes [.host, .cox, .out] s u → P (returnEngine e u)) : Completes (.meFenceReturn c) s P := by
  have op : (sent 0x0033 (fixPayload c 19 16 1)).pl 19 16 = 1 := sent_fixPayload_pl _ _ (by decide) (by decide) (by decide)
  obtain ⟨u, run, started, changes⟩ := sendCmd_starts (w := .engineTest e) (go := returnEngine e) accepts (fun dma => by
    obtain ⟨targets, words⟩ := words_of_payload_eq (sent_withDma_payload 0x0033 (fixPayload c 19 16 1) dma)
    exact (perform_fence _ _).trans (cmdFence_return (targets.trans target) ((words _ _).trans op) (by rw [words, engine]) fenced))
  exact ⟨_, congrArg Host.Outcome.next run, h u (started_of_fixPayload started) changes⟩

/-- A fenced engine is reset and tested (R592, R611). -/
theorem meFenceReturn_tests :
    Completes (.meFenceReturn c) s (fun t => Started c (.engineTest e) t ∧ t.engines[e].st = meTESTING ∧ t.engines[e].returned = true ∧
      t.engines[e].units = [] ∧ t.jobs = s.jobs ∧ t.mem = s.mem) := by
  refine completes_meFenceReturn accepts target engine fenced (fun u started changes => ?_)
  have kept := returnEngine_changes e u
  rw [returnEngine_engine]
  exact ⟨started.of_cox (kept .cox (by decide)), rfl, rfl, rfl, (kept .jobs (by decide)).trans (changes .jobs (by decide)),
    (kept .mem (by decide)).trans (changes .mem (by decide))⟩

end

theorem completes_engineTestDone {e : Fin 68} {pass : Bool} {s : State} {P : State → Prop} (h : P (engineTestEnd e pass s)) :
    Completes (.engineTestDone e pass) s P :=
  ⟨_, rfl, h⟩

/-- Settles O22: ME_FENCE is accepted and starts its work in a state that differs by replies alone (`sendCmd_starts`); the fence waits
for a unit (`askFence_busy`) or takes effect at once (`askFence_idle_engines`), a return resets the engine (`returnEngine_engine`), and
the test's end writes its health entry and answers the command, which keeps every job (`finishAll_jobsKept`). -/
theorem enginesAreFencedReturnedAndTested : Obligations.EnginesAreFencedReturnedAndTested := by
  refine ⟨fun c s accepts target active => ⟨meFenceFence_waits accepts target rfl active,
      fun k => meFenceFence_fences accepts target rfl active⟩,
    fun c s accepts target => meFenceReturn_tests accepts target rfl, fun e s testing returned => ⟨?pass, ?fail⟩⟩
  case pass =>
    obtain ⟨logical, ended⟩ := engineTestEnd_pass testing returned
    have kept := setEngine_returnEnded_changes e logical (if missing s (engineDie e) = [] then meSPARE else meACTIVE) s
    apply completes_engineTestDone
    rw [ended, finishAll_engines, setEngine_returnEnded_engine]
    exact ⟨rfl, rfl, (JobsKept.of_eq (kept .jobs (by decide))).trans (finishAll_jobsKept _ _ _),
      (finishAll_changes _ _ _ .mem (by decide)).trans (kept .mem (by decide))⟩
  case fail =>
    obtain ⟨body, u, record, engine, kept, ended⟩ := engineTestEnd_fail testing returned
    apply completes_engineTestDone
    rw [ended, finishAll_engines, engine]
    exact ⟨rfl, rfl, (congrArg Logs.seq (finishAll_changes _ _ _ .logs (by decide))).trans record,
      (JobsKept.of_eq (kept .jobs (by decide))).trans (finishAll_jobsKept _ _ _),
      (finishAll_changes _ _ _ .mem (by decide)).trans (kept .mem (by decide))⟩

end Sys2Proof.Machine
end

section
/-! SUPPORT. Registers of vector engines and the execution of an instruction (spec/04_vector_engines.md R126 to R138): what a tile, a
mask or a scalar reads as after a write, and what an instruction that executes leaves; and the obligation about lanes. -/

namespace Sys2Proof.Machine

/-! ### Tiles, masks and scalars (R126 to R128) -/

@[simp] theorem getTile_setTile (r : BitVec 5) (t : Tile) (e : VecEng) : getTile (setTile r t e) r = t := by
  simp [getTile, setTile, AMap.getD]

theorem getTile_setTile_other {r q : BitVec 5} (t : Tile) (e : VecEng) (h : q ≠ r) : getTile (setTile r t e) q = getTile e q := by
  have key : q.toNat ≠ r.toNat := fun eq => h (BitVec.eq_of_toNat_eq eq)
  simp [getTile, setTile, AMap.getD, AMap.find_put_other _ _ key]

/-- A lane of a destination (R128). -/
theorem lane_lanesOf (old : Tile) (m : BitVec 2048) (mz : Bool) (g : Nat → F32) {l : Nat} (h : l < 2048) :
    lane (lanesOf old m mz g) l = if m.getLsbD l then g l else if mz then 0 else lane old l := by
  simp [lane, lanesOf, laneCount, List.getD_eq_getElem?_getD, List.getElem?_range h]

/-! ### Vector engines in the state -/

theorem modVe_ve (v g : Fin 64) (f : VecEng → VecEng) (s : State) :
    (modVe v f s).ves[g] = if g = v then f s.ves[g] else s.ves[g] :=
  vmod_getElem s.ves v g f

theorem modVe_same (v : Fin 64) (f : VecEng → VecEng) (s : State) : (modVe v f s).ves[v] = f s.ves[v] := vmod_same s.ves v f

theorem modVe_modVe (v : Fin 64) (f g : VecEng → VecEng) (s : State) : modVe v f (modVe v g s) = modVe v (fun e => f (g e)) s := by
  simp [modVe, vmod]

theorem modVe_congr {v : Fin 64} {f g : VecEng → VecEng} {s : State} (h : f s.ves[v] = g s.ves[v]) : modVe v f s = modVe v g s := by
  simp only [modVe, vmod, h]

theorem modVe_id (v : Fin 64) (s : State) : modVe v id s = s := by
  simp [modVe, vmod]

/-- A vector engine that runs `i`. -/
def VecEng.withInst (i : VecInst) (e : VecEng) : VecEng := { e with inst := some i }

@[simp] theorem getTile_withInst (i : VecInst) (e : VecEng) (r : BitVec 5) : getTile (e.withInst i) r = getTile e r := rfl
@[simp] theorem getMask_withInst (i : VecInst) (e : VecEng) (m : BitVec 3) : getMask (e.withInst i) m = getMask e m := rfl
@[simp] theorem topRow_withInst (i : VecInst) (e : VecEng) (r : Nat) : topRow (e.withInst i) r = topRow e r := rfl

/-! ### The next instruction (R138) -/

@[simp] theorem VecInst.next_count (i : VecInst) : i.next.count = i.count := by
  unfold VecInst.next
  split
  · rfl
  · split
    · split <;> rfl
    · rfl

@[simp] theorem VecInst.next_closing (i : VecInst) : i.next.closing = i.closing := by
  unfold VecInst.next
  split
  · rfl
  · split
    · split <;> rfl
    · rfl

/-- A kernel's run that has instructions left stays on its engine. -/
theorem vReap_runs {v : Fin 64} {s : State} {i : VecInst} (inst : s.ves[v].inst = some i) (left : i.closing = true ∨ i.pc < i.count) :
    vReap v s = s := by
  have stays : (!i.closing && decide (i.count ≤ i.pc)) = false := by
    rcases left with h | h
    · simp [h]
    · simp [h]
  unfold vReap
  rw [inst]
  simp only [stays]
  rfl

/-- An engine goes on to its run's next instruction. -/
theorem vNext_runs {v : Fin 64} {s : State} {i : VecInst} (inst : s.ves[v].inst = some i) (left : i.next.pc < i.count) :
    vNext v s = modVe v (VecEng.withInst i.next) s := by
  have moved : modInst v VecInst.next s = modVe v (VecEng.withInst i.next) s := modVe_congr (by rw [inst]; rfl)
  unfold vNext
  rw [moved]
  exact vReap_runs (i := i.next) (by rw [modVe_same]; rfl) (.inr (by simpa using left))

@[simp] theorem VecInst.next_setCs (c : BitVec 6) (v : BitVec 64) (i : VecInst) : (i.setCs c v).next = i.next.setCs c v := by
  unfold VecInst.next VecInst.setCs
  cases i.loop with
  | none => rfl
  | some l =>
    dsimp only
    split
    · split <;> rfl
    · rfl

/-! ### Execution (R136, R138) -/

theorem countLanes_pmu (v : Fin 64) (op : Nat) (f : VFields) (i : VecInst) (s : State) : ∃ p, countLanes v op f i s = withPmu p s := by
  unfold countLanes
  split
  · exact pmuCount_pmu _ _ _ _ _ _
  · exact ⟨s.clock.pmu, rfl⟩

/-- A run that is ready executes a well-formed instruction: only programmable counters have changed before it acts. -/
theorem vExec_ready {v : Fin 64} {op : Nat} {f : VFields} {s : State} {i : VecInst} (ready : vReady s v = some i) (ok : vFieldsOk op f = true)
    (g : VecInst → State → State) : ∃ p, vExec v op f g s = g i (withPmu p s) := by
  obtain ⟨p, counted⟩ := countLanes_pmu v op f i s
  refine ⟨p, ?_⟩
  unfold vExec
  rw [ready]
  simp only [ok, counted, if_true]

/-- An instruction without a mask counts nothing (R471). -/
theorem vExec_unmasked {v : Fin 64} {op : Nat} {f : VFields} {s : State} {i : VecInst} (ready : vReady s v = some i)
    (ok : vFieldsOk op f = true) (unmasked : (vUse op).any (·.mask) = false) (g : VecInst → State → State) : vExec v op f g s = g i s := by
  have counted : countLanes v op f i s = s := by
    unfold countLanes
    rw [unmasked]
    rfl
  unfold vExec
  rw [ready]
  simp only [ok, counted, if_true]

/-- What a run that is ready is: the engine's, not in WCLOSE, with instructions left. -/
theorem vReady_spec {v : Fin 64} {s : State} {i : VecInst} (h : vReady s v = some i) :
    s.ves[v].inst = some i ∧ i.closing = false ∧ i.pc < i.count := by
  unfold vReady at h
  split at h
  next j inst =>
    split at h
    next c =>
      obtain rfl := Option.some.inj h
      simp only [Bool.and_eq_true, Bool.not_eq_true', decide_eq_true_eq] at c
      exact ⟨inst, c.1.2, c.2⟩
    next => exact absurd h (by simp)
  next => exact absurd h (by simp)

/-! ### Instructions that write the registers of their engine -/

/-- The vector engines, the matrix engines and the bytes of memory are the same. -/
structure VesKept (s u : State) : Prop where
  ves : u.ves = s.ves
  cells : u.mem.cells = s.mem.cells
  engines : u.engines = s.engines

theorem withPmu_vesKept (p : Vector PmuCtr 32) (s : State) : VesKept s (withPmu p s) := ⟨rfl, rfl, rfl⟩

/-- A state differs from another in one vector engine, and neither in a matrix engine nor in a byte of memory. -/
structure EngineOnly (v : Fin 64) (e : VecEng) (s t : State) : Prop where
  engine : t.ves[v] = e
  others : ∀ g : Fin 64, g ≠ v → t.ves[g] = s.ves[g]
  cells : t.mem.cells = s.mem.cells
  engines : t.engines = s.engines

theorem EngineOnly.wentOn {v : Fin 64} {e : VecEng} {s t : State} {i : VecInst} (h : EngineOnly v e s t) (inst : e.inst = some i.next) :
    VectorWentOn s t v i :=
  ⟨h.engine ▸ inst, h.others, h.cells, h.engines⟩

theorem modVe_engineOnly (v : Fin 64) (w : VecEng → VecEng) {s u : State} (kept : VesKept s u) :
    EngineOnly v (w s.ves[v]) s (modVe v w u) where
  engine := by rw [modVe_same, kept.ves]
  others g h := by rw [modVe_ve, if_neg h, kept.ves]
  cells := kept.cells
  engines := kept.engines

/-- Registers are written by `w`, and the run goes on: its engine is left so, and the jobs as they were. -/
theorem vNext_writes {v : Fin 64} {s u : State} {j : VecInst} (w : VecEng → VecEng) (kept : VesKept s u)
    (inst : (w s.ves[v]).inst = some j) (left : j.next.pc < j.count) :
    EngineOnly v ((w s.ves[v]).withInst j.next) s (vNext v (modVe v w u)) ∧ (vNext v (modVe v w u)).jobs = u.jobs := by
  rw [vNext_runs (i := j) (by rw [modVe_same, kept.ves]; exact inst) left, modVe_modVe]
  exact ⟨modVe_engineOnly v (fun e => (w e).withInst j.next) kept, rfl⟩

/-- The same with one of the run's scalars. -/
theorem vNext_writesCs {v : Fin 64} {s u : State} {i : VecInst} (w : VecEng → VecEng) (c : BitVec 6) (n : VecInst → BitVec 64)
    (kept : VesKept s u) (inst : (w s.ves[v]).inst = some i) (left : i.next.pc < i.count) :
    EngineOnly v ((w s.ves[v]).withInst (i.setCs c (n i)).next) s (vNext v (modInst v (fun i => i.setCs c (n i)) (modVe v w u))) ∧
      (vNext v (modInst v (fun i => i.setCs c (n i)) (modVe v w u))).jobs = u.jobs := by
  have joined : modInst v (fun i => i.setCs c (n i)) (modVe v w u) =
      modVe v (fun e => { w e with inst := (w e).inst.map (fun i => i.setCs c (n i)) }) u := modVe_modVe v _ w u
  rw [joined]
  exact vNext_writes (fun e => { w e with inst := (w e).inst.map (fun i => i.setCs c (n i)) }) (j := i.setCs c (n i)) kept
    (congrArg (Option.map fun i => i.setCs c (n i)) inst) (by rw [VecInst.next_setCs]; exact left)

/-! ### Instructions that compute lane by lane (R128, R137) -/

/-- An instruction that computes the lanes of td writes the active ones, keeps or clears the others, and changes nothing else of its
engine. -/
theorem vLanes_spec {v : Fin 64} {op : Nat} {f : VFields} {s : State} {i : VecInst} (g : VecEng → VecInst → Nat → F32)
    (x : Executes s v op f i) :
    VectorWentOn s (vLanes v op f g s) v i ∧ (vLanes v op f g s).jobs = s.jobs ∧
    (∀ l, l < 2048 → lane (getTile (vLanes v op f g s).ves[v] f.td) l =
      if (getMask s.ves[v] f.mask).getLsbD l then g s.ves[v] i l else if f.mz then 0 else lane (getTile s.ves[v] f.td) l) ∧
    (∀ r, r ≠ f.td → getTile (vLanes v op f g s).ves[v] r = getTile s.ves[v] r) ∧
    (∀ m, getMask (vLanes v op f g s).ves[v] m = getMask s.ves[v] m) ∧ (vLanes v op f g s).ves[v].topk = s.ves[v].topk := by
  obtain ⟨ready, ok, left⟩ := x
  obtain ⟨only, jobs⟩ : EngineOnly v ((setTile f.td (lanesOf (getTile s.ves[v] f.td) (getMask s.ves[v] f.mask) f.mz (g s.ves[v] i))
      s.ves[v]).withInst i.next) s (vLanes v op f g s) ∧ (vLanes v op f g s).jobs = s.jobs := by
    obtain ⟨p, run⟩ : ∃ p, vLanes v op f g s = _ := vExec_ready ready ok _
    rw [run]
    exact vNext_writes (setTile f.td (lanesOf (getTile s.ves[v] f.td) (getMask s.ves[v] f.mask) f.mz (g s.ves[v] i)))
      (withPmu_vesKept p s) (vReady_spec ready).1 left
  refine ⟨only.wentOn rfl, jobs, ?_⟩
  rw [only.engine]
  refine ⟨fun l hl => ?_, fun r hr => getTile_setTile_other _ _ hr, fun _ => rfl, rfl⟩
  exact (congrArg (lane · l) (getTile_setTile _ _ _)).trans (lane_lanesOf _ _ _ _ hl)

/-- A function evaluation is counted before it is executed (R471). -/
theorem doFunc_counts (ve : Fin 64) (f : VFields) {op : Nat} {g : VecEng → VecInst → Nat → F32}
    (h : laneRow (.tfunc ve f) = some (ve, f, op, g)) (s : State) : ∃ p, doFunc ve f s = vLanes ve op f g (withPmu p s) := by
  obtain ⟨_, _, rfl, rfl⟩ := by simpa only [laneRow, Option.some.injEq, Prod.mk.injEq] using h
  unfold doFunc
  cases vReady s ve with
  | none => exact ⟨s.clock.pmu, rfl⟩
  | some i =>
    obtain ⟨p, counted⟩ : ∃ p, (if vFieldsOk 0x30 f = true then pmuCount (unitDie ve) (some i.task.slot) 0x022 0 1 s else s) = withPmu p s := by
      split
      · exact pmuCount_pmu _ _ _ _ _ _
      · exact ⟨s.clock.pmu, rfl⟩
    exact ⟨p, congrArg (vLanes ve 0x30 f _) counted⟩

/-- Each instruction of R137 that computes lane by lane is run as one, after counts at most. -/
theorem exec_laneRow {c : Instr} {ve : Fin 64} {f : VFields} {op : Nat} {g : VecEng → VecInst → Nat → F32}
    (h : laneRow c = some (ve, f, op, g)) (s : State) : ∃ p, exec c s = .next (vLanes ve op f g (withPmu p s)) := by
  have row := h
  unfold laneRow at row
  split at row
  case h_14 =>
    obtain ⟨rfl, rfl, _⟩ := by simpa only [Option.some.injEq, Prod.mk.injEq] using row
    obtain ⟨p, counts⟩ := doFunc_counts _ _ h s
    exact ⟨p, congrArg Host.Outcome.next counts⟩
  case h_15 => exact absurd row (by simp)
  all_goals
    obtain ⟨rfl, rfl, rfl, rfl⟩ := by simpa only [Option.some.injEq, Prod.mk.injEq] using row
    exact ⟨s.clock.pmu, rfl⟩

/-- Settles O44: an instruction of R137 that computes lane by lane is `vLanes` (`exec_laneRow`), and what that leaves of its engine is
`vLanes_spec`. -/
theorem vectorInstructionsComputeTheirLanes : Obligations.VectorInstructionsComputeTheirLanes := by
  intro c ve f op g s i row x
  obtain ⟨p, run⟩ := exec_laneRow row s
  exact ⟨_, run, vLanes_spec (s := withPmu p s) g x⟩

end Sys2Proof.Machine
end

section
/-! SUPPORT. Masks, scalars, reductions, compress, expand and the top-k state of vector engines (spec/04_vector_engines.md R127, R128,
R147 to R149, R160 to R162), and the obligation about them. -/

namespace Sys2Proof.Machine

/-! ### Masks (R127, R128) -/

/-- Every lane of m0 is active (R127). -/
theorem getMask_zero (e : VecEng) {l : Nat} (h : l < 2048) : (getMask e 0).getLsbD l = true := by
  rw [getMask, if_pos rfl, BitVec.getLsbD_allOnes]
  exact decide_eq_true h

/-- A mask after a write of one: m0 ignores it (R127). -/
theorem getMask_setMask (md n : BitVec 3) (v : BitVec 2048) (e : VecEng) :
    getMask (setMask md v e) n = if n ≠ 0 ∧ n = md then v else getMask e n := by
  by_cases zero : md = 0
  · subst zero
    rw [setMask, if_pos rfl, if_neg (fun h => h.1 h.2)]
  · rw [setMask, if_neg zero]
    by_cases same : n = md
    · subst same
      rw [getMask, if_neg zero, if_pos ⟨zero, rfl⟩, AMap.getD, AMap.find_put_same, Option.getD_some]
    · have key : n.toNat ≠ md.toNat := fun eq => same (BitVec.eq_of_toNat_eq eq)
      simp [getMask, same, AMap.getD, AMap.find_put_other _ _ key]

/-- A lane of a mask register as a destination (R128). -/
theorem getLsbD_maskLanes (old m new : BitVec 2048) (mz : Bool) {l : Nat} (h : l < 2048) :
    (maskLanes old m new mz).getLsbD l = if m.getLsbD l then new.getLsbD l else !mz && old.getLsbD l := by
  rw [maskLanes, BitVec.getLsbD_or, BitVec.getLsbD_and]
  cases active : m.getLsbD l <;> cases mz
  case false.false => rw [if_neg (by decide), if_neg (by decide), BitVec.getLsbD_and, BitVec.getLsbD_not, active]; simp [h]
  case true.false => rw [if_neg (by decide), if_pos rfl, BitVec.getLsbD_and, BitVec.getLsbD_not, active]; simp
  all_goals simp

/-- Bits of a number that a list of tests builds, from its last test to its first. -/
theorem testBit_foldr_tests (p : Nat → Bool) (n a l : Nat) :
    ((List.range' a n).foldr (fun k x => 2 * x + if p k then 1 else 0) 0).testBit l = (decide (l < n) && p (a + l)) := by
  induction n generalizing a l with
  | zero => simp
  | succ n ih =>
    rw [List.range'_succ, List.foldr_cons]
    cases l with
    | zero => cases p a <;> simp [Nat.testBit_zero, Nat.add_mod]
    | succ l =>
      have half : ∀ x : Nat, (2 * x + if p a then 1 else 0) / 2 = x := fun x => by split <;> omega
      rw [Nat.testBit_succ, half, ih]
      simp [Nat.add_assoc, Nat.add_comm 1 l]

/-- The mask of the lanes that pass a test, as TCMP builds it. -/
def laneTests (p : Nat → Bool) : BitVec 2048 := BitVec.ofNat 2048 ((List.range laneCount).foldr (fun l n => 2 * n + if p l then 1 else 0) 0)

theorem getLsbD_laneTests (p : Nat → Bool) {l : Nat} (h : l < 2048) : (laneTests p).getLsbD l = p l := by
  rw [laneTests, BitVec.getLsbD_ofNat, List.range_eq_range', testBit_foldr_tests]
  simp [h, laneCount]

@[simp] theorem setMask_inst (md : BitVec 3) (v : BitVec 2048) (e : VecEng) : (setMask md v e).inst = e.inst := by
  unfold setMask
  split <;> rfl

@[simp] theorem setMask_tiles (md : BitVec 3) (v : BitVec 2048) (e : VecEng) : (setMask md v e).tiles = e.tiles := by
  unfold setMask
  split <;> rfl

/-- What an instruction leaves that writes the active lanes of mask `md` from `new`. -/
structure MaskWritten (ve : Fin 64) (f : VFields) (i : VecInst) (md : BitVec 3) (new : Nat → Bool) (s t : State) : Prop where
  wentOn : VectorWentOn s t ve i
  tiles : ∀ r, getTile t.ves[ve] r = getTile s.ves[ve] r
  lanes : ∀ n l, l < 2048 → (getMask t.ves[ve] n).getLsbD l =
    if n ≠ 0 ∧ n = md then (if (getMask s.ves[ve] f.mask).getLsbD l then new l else !f.mz && (getMask s.ves[ve] n).getLsbD l)
    else (getMask s.ves[ve] n).getLsbD l

theorem maskWritten_of_vNext {ve : Fin 64} {f : VFields} {i : VecInst} {s : State} (md : BitVec 3) (new : BitVec 2048)
    (p : Vector PmuCtr 32) (inst : s.ves[ve].inst = some i) (left : i.next.pc < i.count) :
    MaskWritten ve f i md new.getLsbD s (vNext ve (modVe ve (setMask md (maskLanes (getMask s.ves[ve] md) (getMask s.ves[ve] f.mask) new f.mz))
      (withPmu p s))) := by
  obtain ⟨only, _⟩ := vNext_writes (setMask md (maskLanes (getMask s.ves[ve] md) (getMask s.ves[ve] f.mask) new f.mz))
    (withPmu_vesKept p s) ((setMask_inst _ _ _).trans inst) left
  refine ⟨only.wentOn rfl, fun r => ?_, fun n l hl => ?_⟩
  · rw [only.engine]
    exact congrArg (fun ts => AMap.getD ts r.toNat (List.replicate laneCount 0)) (setMask_tiles _ _ _)
  · rw [only.engine, getMask_withInst, getMask_setMask]
    by_cases h : n ≠ 0 ∧ n = md
    · obtain ⟨_, rfl⟩ := id h
      rw [if_pos h, if_pos h, getLsbD_maskLanes _ _ _ _ hl]
    · rw [if_neg h, if_neg h]

theorem doTcmp_writes {ve : Fin 64} {f : VFields} {s : State} {i : VecInst} (x : Executes s ve 0x20 f i) :
    MaskWritten ve f i (BitVec.ofNat 3 (fld f.imm.toNat 5 3)) (laneTests (fun l =>
      f32test (fld f.imm.toNat 2 0) (lane (getTile s.ves[ve] f.ta) l) (lane (getTile s.ves[ve] f.tb) l))).getLsbD s (doTcmp ve f s) := by
  obtain ⟨ready, ok, left⟩ := x
  obtain ⟨p, run⟩ : ∃ p, doTcmp ve f s = _ := vExec_ready ready ok _
  rw [run]
  exact maskWritten_of_vNext _ _ p (vReady_spec ready).1 left

theorem doMop_writes {ve : Fin 64} {f : VFields} {s : State} {i : VecInst} (x : Executes s ve 0x21 f i) :
    MaskWritten ve f i (BitVec.ofNat 3 (fld f.imm.toNat 5 3))
      (maskOp (fld f.imm.toNat 2 0) (getMask s.ves[ve] (BitVec.ofNat 3 (fld f.imm.toNat 8 6)))
        (getMask s.ves[ve] (BitVec.ofNat 3 (fld f.imm.toNat 11 9)))).getLsbD s (doMop ve f s) := by
  obtain ⟨ready, ok, left⟩ := x
  obtain ⟨p, run⟩ : ∃ p, doMop ve f s = _ := vExec_ready ready ok _
  rw [run]
  exact maskWritten_of_vNext _ _ p (vReady_spec ready).1 left

/-! ### Scalars -/

/-- An instruction that writes one of its run's scalars alone leaves it so, and goes on. -/
theorem wentOn_of_setCs {ve : Fin 64} {i : VecInst} {s : State} (c : BitVec 6) (n : VecInst → BitVec 64) (p : Vector PmuCtr 32)
    (inst : s.ves[ve].inst = some i) (left : i.next.pc < i.count) :
    VectorWentOn s (vNext ve (modInst ve (fun i => i.setCs c (n i)) (withPmu p s))) ve (i.setCs c (n i)) ∧
      (vNext ve (modInst ve (fun i => i.setCs c (n i)) (withPmu p s))).jobs = s.jobs := by
  obtain ⟨only, jobs⟩ := vNext_writesCs id c n (withPmu_vesKept p s) inst left
  rw [modVe_id] at only jobs
  exact ⟨only.wentOn rfl, jobs⟩

theorem doMpop_writes {ve : Fin 64} {f : VFields} {s : State} {i : VecInst} (x : Executes s ve 0x22 f i) :
    VectorWentOn s (doMpop ve f s) ve (i.setCs f.cs (BitVec.ofNat 64 (activeLanes (getMask s.ves[ve] f.mask)).length)) ∧
      (doMpop ve f s).jobs = s.jobs := by
  obtain ⟨ready, ok, left⟩ := x
  obtain ⟨p, run⟩ : ∃ p, doMpop ve f s = _ := vExec_ready ready ok _
  rw [run]
  exact wentOn_of_setCs f.cs (fun _ => BitVec.ofNat 64 (activeLanes (getMask s.ves[ve] f.mask)).length) p (vReady_spec ready).1 left

theorem doSadd_writes {ve : Fin 64} {f : VFields} {s : State} {i : VecInst} (x : Executes s ve 0x7D f i) :
    VectorWentOn s (doSadd ve f s) ve (i.setCs f.cs (i.getCs f.cs + f.imm.signExtend 64)) ∧ (doSadd ve f s).jobs = s.jobs := by
  obtain ⟨ready, ok, left⟩ := x
  obtain ⟨p, run⟩ : ∃ p, doSadd ve f s = _ := vExec_ready ready ok _
  rw [run]
  exact wentOn_of_setCs f.cs (fun i => i.getCs f.cs + f.imm.signExtend 64) p (vReady_spec ready).1 left

/-! ### Reductions (R147) -/

/-- Lane `l` of td of a reduction of rows: its row's result in the row's first lane. -/
def rowReduction (f : VFields) (comb : F32 → F32 → F32) (unit : F32) (e : VecEng) (_ : VecInst) (l : Nat) : F32 :=
  if l % 64 = 0 then ((List.range 32).map (fun i => tree comb 6 ((List.range 64).map (fun j =>
    redLane (getTile e f.ta) (getMask e f.mask) unit (64 * i + j))))).getD (l / 64) 0 else 0

/-- Lane `l` of td of a reduction of columns: its column's result in the column's first lane. -/
def colReduction (f : VFields) (comb : F32 → F32 → F32) (unit : F32) (e : VecEng) (_ : VecInst) (l : Nat) : F32 :=
  if l < 64 then ((List.range 64).map (fun j => tree comb 5 ((List.range 32).map (fun i =>
    redLane (getTile e f.ta) (getMask e f.mask) unit (64 * i + j))))).getD l 0 else 0

theorem doReduceRows_eq (v : Fin 64) (op : Nat) (f : VFields) (comb : F32 → F32 → F32) (unit : F32) :
    doReduceRows v op f comb unit = vLanes v op f (rowReduction f comb unit) := rfl

theorem doReduceCols_eq (v : Fin 64) (op : Nat) (f : VFields) (comb : F32 → F32 → F32) (unit : F32) :
    doReduceCols v op f comb unit = vLanes v op f (colReduction f comb unit) := rfl

theorem rowReduction_lane (f : VFields) (comb : F32 → F32 → F32) (unit : F32) (e : VecEng) (i : VecInst) {r k : Nat} (hr : r < 32)
    (hk : k < 64) : rowReduction f comb unit e i (64 * r + k) =
      if k = 0 then tree comb 6 ((List.range 64).map (fun j => redLane (getTile e f.ta) (getMask e f.mask) unit (64 * r + j))) else 0 := by
  have row : (64 * r + k) / 64 = r := by omega
  have col : (64 * r + k) % 64 = k := by omega
  simp [rowReduction, row, col, List.getD_eq_getElem?_getD, List.getElem?_range hr]

theorem colReduction_lane (f : VFields) (comb : F32 → F32 → F32) (unit : F32) (e : VecEng) (i : VecInst) {r k : Nat} (hk : k < 64) :
    colReduction f comb unit e i (64 * r + k) =
      if r = 0 then tree comb 5 ((List.range 32).map (fun j => redLane (getTile e f.ta) (getMask e f.mask) unit (64 * j + k))) else 0 := by
  by_cases first : r = 0
  · subst first
    simp [colReduction, hk, List.getD_eq_getElem?_getD]
  · rw [colReduction, if_neg (by omega), if_neg first]

section
variable {ve : Fin 64} {op : Nat} {f : VFields} {s : State} {i : VecInst}

theorem doReduceRows_spec (comb : F32 → F32 → F32) (unit : F32) (x : Executes s ve op f i) :
    VectorWentOn s (doReduceRows ve op f comb unit s) ve i ∧
    (∀ r, r ≠ f.td → getTile (doReduceRows ve op f comb unit s).ves[ve] r = getTile s.ves[ve] r) ∧
    ∀ r k, r < 32 → k < 64 → lane (getTile (doReduceRows ve op f comb unit s).ves[ve] f.td) (64 * r + k) =
      if (getMask s.ves[ve] f.mask).getLsbD (64 * r + k) then
        (if k = 0 then tree comb 6 ((List.range 64).map (fun j =>
          redLane (getTile s.ves[ve] f.ta) (getMask s.ves[ve] f.mask) unit (64 * r + j))) else 0)
      else if f.mz then 0 else lane (getTile s.ves[ve] f.td) (64 * r + k) := by
  obtain ⟨wentOn, _, lanes, others, _⟩ := vLanes_spec (rowReduction f comb unit) x
  refine ⟨wentOn, others, fun r k hr hk => ?_⟩
  rw [← rowReduction_lane f comb unit s.ves[ve] i hr hk]
  exact lanes (64 * r + k) (by omega)

theorem doReduceCols_spec (comb : F32 → F32 → F32) (unit : F32) (x : Executes s ve op f i) :
    VectorWentOn s (doReduceCols ve op f comb unit s) ve i ∧
    (∀ r, r ≠ f.td → getTile (doReduceCols ve op f comb unit s).ves[ve] r = getTile s.ves[ve] r) ∧
    ∀ r k, r < 32 → k < 64 → lane (getTile (doReduceCols ve op f comb unit s).ves[ve] f.td) (64 * r + k) =
      if (getMask s.ves[ve] f.mask).getLsbD (64 * r + k) then
        (if r = 0 then tree comb 5 ((List.range 32).map (fun j =>
          redLane (getTile s.ves[ve] f.ta) (getMask s.ves[ve] f.mask) unit (64 * j + k))) else 0)
      else if f.mz then 0 else lane (getTile s.ves[ve] f.td) (64 * r + k) := by
  obtain ⟨wentOn, _, lanes, others, _⟩ := vLanes_spec (colReduction f comb unit) x
  refine ⟨wentOn, others, fun r k hr hk => ?_⟩
  rw [← colReduction_lane f comb unit s.ves[ve] i hk]
  exact lanes (64 * r + k) (by omega)

end

/-! ### Active lanes in order -/

theorem activeLanes_sorted (m : BitVec 2048) : (activeLanes m).Pairwise (· < ·) := List.pairwise_lt_range.filter _

theorem mem_activeLanes {m : BitVec 2048} {l : Nat} : l ∈ activeLanes m ↔ l < 2048 ∧ m.getLsbD l = true := by
  simp [activeLanes, laneCount]

/-- In a rising list, as many elements lie below one as stand before it. -/
theorem length_filter_lt_of_sorted {ls : List Nat} (sorted : ls.Pairwise (· < ·)) {k l : Nat} (h : ls[k]? = some l) :
    (ls.filter (fun q => decide (q < l))).length = k := by
  induction ls generalizing k with
  | nil => exact absurd h (by simp)
  | cons a rest ih =>
    obtain ⟨above, sorted'⟩ := List.pairwise_cons.mp sorted
    cases k with
    | zero =>
      obtain rfl : a = l := by simpa using h
      have none : rest.filter (fun q => decide (q < a)) = [] :=
        List.filter_eq_nil_iff.mpr (fun q hq => by simpa using Nat.le_of_lt (above q hq))
      simp [none]
    | succ k =>
      have h' : rest[k]? = some l := by simpa using h
      have below : a < l := above l (List.mem_of_getElem? h')
      simp [below, ih sorted' h']

/-! ### Compress and expand (R148, R149) -/

/-- A lane of a tile after a write of one. -/
theorem lane_setLane (t : Tile) (x : F32) {l : Nat} (h : l < 2048) (q : Nat) :
    lane (setLane t l x) q = if q = l then x else lane t q := by
  have long : l < (t ++ List.replicate (laneCount - t.length) 0).length := by simp [laneCount]; omega
  rw [lane, setLane, List.getD_eq_getElem?_getD, List.getElem?_set]
  by_cases same : q = l
  · rw [if_pos same.symm, if_pos long, if_pos same]
    rfl
  · rw [if_neg (Ne.symm same), if_neg same, lane, List.getD_eq_getElem?_getD]
    by_cases inside : q < t.length
    · rw [List.getElem?_append_left inside]
    · rw [List.getElem?_append_right (by omega), List.getElem?_replicate, List.getElem?_eq_none (by omega)]
      split <;> rfl

/-- What stands at a position that counts lanes from the first lane of tile `r` on. -/
def laneAt (e : VecEng) (r p : Nat) : F32 := lane (getTile e (BitVec.ofNat 5 (r + p / 2048))) (p % 2048)

@[simp] theorem laneAt_withInst (i : VecInst) (e : VecEng) (r p : Nat) : laneAt (e.withInst i) r p = laneAt e r p := rfl

/-- A lane is packed at a position. -/
def packLane (t : Tile) (r p0 : Nat) (e : VecEng) (kl : Nat × Nat) : VecEng :=
  setTile (BitVec.ofNat 5 (r + (p0 + kl.1) / 2048))
    (setLane (getTile e (BitVec.ofNat 5 (r + (p0 + kl.1) / 2048))) ((p0 + kl.1) % 2048) (lane t kl.2)) e

theorem laneAt_packLane (t : Tile) {r p0 : Nat} (e : VecEng) {kl : Nat × Nat} {k : Nat} (fits : r + (p0 + kl.1) / 2048 < 32)
    (fits' : r + (p0 + k) / 2048 < 32) :
    laneAt (packLane t r p0 e kl) r (p0 + k) = if k = kl.1 then lane t kl.2 else laneAt e r (p0 + k) := by
  have inside : (p0 + kl.1) % 2048 < 2048 := Nat.mod_lt _ (by decide)
  unfold laneAt packLane
  by_cases tile : (p0 + k) / 2048 = (p0 + kl.1) / 2048
  · rw [tile, getTile_setTile, lane_setLane _ _ inside]
    have same : (p0 + k) % 2048 = (p0 + kl.1) % 2048 ↔ k = kl.1 := by
      omega
    exact if_congr same rfl rfl
  · have other : BitVec.ofNat 5 (r + (p0 + k) / 2048) ≠ BitVec.ofNat 5 (r + (p0 + kl.1) / 2048) := fun eq => by
      have nat := congrArg BitVec.toNat eq
      rw [BitVec.toNat_ofNat, BitVec.toNat_ofNat, Nat.mod_eq_of_lt (show _ < 2 ^ 5 from fits'), Nat.mod_eq_of_lt (show _ < 2 ^ 5 from fits)] at nat
      exact tile (Nat.add_left_cancel nat)
    rw [getTile_setTile_other _ _ other, if_neg (fun h => tile (by rw [h]))]

/-- Lanes that are packed one after the other at positions of their own. -/
theorem laneAt_packed (t : Tile) {r p0 : Nat} (l : List (Nat × Nat)) (apart : (l.map Prod.fst).Nodup)
    (fits : ∀ p ∈ l, r + (p0 + p.1) / 2048 < 32) (e : VecEng) {k : Nat} (fits' : r + (p0 + k) / 2048 < 32) :
    (k ∉ l.map Prod.fst → laneAt (l.foldl (packLane t r p0) e) r (p0 + k) = laneAt e r (p0 + k)) ∧
    ∀ x, (k, x) ∈ l → laneAt (l.foldl (packLane t r p0) e) r (p0 + k) = lane t x := by
  induction l generalizing e with
  | nil => exact ⟨fun _ => rfl, fun _ h => absurd h (List.not_mem_nil)⟩
  | cons p rest ih =>
    obtain ⟨new, apart'⟩ := List.nodup_cons.mp (by simpa only [List.map_cons] using apart)
    obtain ⟨others, written⟩ := ih apart' (fun q hq => fits q (List.mem_cons_of_mem _ hq)) (packLane t r p0 e p)
    have first := laneAt_packLane t e (fits p List.mem_cons_self) fits'
    refine ⟨fun h => ?_, fun x h => ?_⟩
    · obtain ⟨hp, hr⟩ := not_or.mp (List.mem_cons.not.mp h)
      rw [List.foldl_cons, others hr, first, if_neg hp]
    · rcases List.mem_cons.mp h with rfl | h
      · rw [List.foldl_cons, others new, first, if_pos rfl]
      · exact written x h

/-- The last position of a run bounds every position of it. -/
theorem run_fits {r p0 n k : Nat} (fits : r + (p0 + n - 1) / 2048 < 32) (hk : k < n) : r + (p0 + k) / 2048 < 32 :=
  Nat.lt_of_le_of_lt (Nat.add_le_add_left (Nat.div_le_div_right (by omega)) r) fits

/-- Where the run fits in the tile registers, TCOMP and TEXPD find no bound passed. -/
theorem bound_passed_false {ls : List Nat} {r p0 : Nat} (fits : ls = [] ∨ r + (p0 + ls.length - 1) / 2048 < 32) :
    (!ls.isEmpty && decide (32 ≤ r + (p0 + ls.length - 1) / 2048)) = false := by
  rcases fits with rfl | h
  · rfl
  · rw [Bool.and_eq_false_iff]
    exact .inr (decide_eq_false (Nat.not_le.mpr h))

/-- The active lanes of ta packed from a position on (R148). -/
def packLanes (f : VFields) (p0 : Nat) (e : VecEng) : VecEng :=
  (List.zip (List.range (activeLanes (getMask e f.mask)).length) (activeLanes (getMask e f.mask))).foldl
    (packLane (getTile e f.ta) f.td.toNat p0) e

theorem packLanes_inst (f : VFields) (p0 : Nat) (e : VecEng) : (packLanes f p0 e).inst = e.inst :=
  List.foldlRecOn (motive := fun x : VecEng => x.inst = e.inst) _ _ rfl (fun _ h _ _ => h)

/-- Where each active lane is packed. -/
theorem laneAt_packLanes {f : VFields} {p0 : Nat} {e : VecEng} {k l : Nat} (h : (activeLanes (getMask e f.mask))[k]? = some l)
    (fits : f.td.toNat + (p0 + (activeLanes (getMask e f.mask)).length - 1) / 2048 < 32) :
    laneAt (packLanes f p0 e) f.td.toNat (p0 + k) = lane (getTile e f.ta) l := by
  have bound := (List.getElem?_eq_some_iff.mp h).1
  have fst : (List.zip (List.range (activeLanes (getMask e f.mask)).length) (activeLanes (getMask e f.mask))).map Prod.fst =
    List.range (activeLanes (getMask e f.mask)).length := List.map_fst_zip (by simp)
  exact (laneAt_packed (getTile e f.ta) _ (by rw [fst]; exact List.nodup_range)
    (fun p hp => run_fits fits (List.mem_range.mp (List.of_mem_zip hp).1)) e (run_fits fits bound)).2 l
    (List.mem_of_getElem? (i := k) (List.getElem?_zip_eq_some.mpr ⟨by simp [bound], h⟩))

section
variable {ve : Fin 64} {f : VFields} {s : State} {i : VecInst}

theorem doComp_writes (x : Executes s ve 0x50 f i) (fits : activeLanes (getMask s.ves[ve] f.mask) = [] ∨
      f.td.toNat + ((i.getCs f.cs).toNat + (activeLanes (getMask s.ves[ve] f.mask)).length - 1) / 2048 < 32) :
    EngineOnly ve ((packLanes f (i.getCs f.cs).toNat s.ves[ve]).withInst
      (i.setCs f.cs (BitVec.ofNat 64 ((i.getCs f.cs).toNat + (activeLanes (getMask s.ves[ve] f.mask)).length))).next) s (doComp ve f s) := by
  obtain ⟨ready, ok, left⟩ := x
  obtain ⟨p, run⟩ : ∃ p, doComp ve f s = _ := vExec_ready ready ok _
  rw [run.trans (if_neg (ne_true_of_eq_false (bound_passed_false fits)))]
  have only := (vNext_writesCs (v := ve) (i := i) (fun _ => packLanes f (i.getCs f.cs).toNat s.ves[ve]) f.cs
    (fun _ => BitVec.ofNat 64 ((i.getCs f.cs).toNat + (activeLanes (getMask s.ves[ve] f.mask)).length)) (withPmu_vesKept p s)
    ((packLanes_inst _ _ _).trans (vReady_spec ready).1) left).1
  exact only

theorem doComp_spec (x : Executes s ve 0x50 f i) (fits : activeLanes (getMask s.ves[ve] f.mask) = [] ∨
      f.td.toNat + ((i.getCs f.cs).toNat + (activeLanes (getMask s.ves[ve] f.mask)).length - 1) / 2048 < 32) {k l : Nat}
    (h : (activeLanes (getMask s.ves[ve] f.mask))[k]? = some l) :
    laneAt (doComp ve f s).ves[ve] f.td.toNat ((i.getCs f.cs).toNat + k) = lane (getTile s.ves[ve] f.ta) l := by
  have bound := (List.getElem?_eq_some_iff.mp h).1
  rw [(doComp_writes x fits).engine, laneAt_withInst,
    laneAt_packLanes h (fits.resolve_left (List.ne_nil_of_length_pos (by omega)))]

/-- What TEXPD gives an active lane (R149): as many lanes lie before it in its source as active lanes lie below it. -/
def expandLane (f : VFields) (p0 : Nat) (e : VecEng) (l : Nat) : F32 :=
  laneAt e f.ta.toNat (p0 + ((activeLanes (getMask e f.mask)).filter (fun q => decide (q < l))).length)

/-- The lanes of td after TEXPD. -/
def expandLanes (f : VFields) (p0 : Nat) (e : VecEng) : Tile := lanesOf (getTile e f.td) (getMask e f.mask) f.mz (expandLane f p0 e)

theorem doExpd_writes (x : Executes s ve 0x51 f i) (fits : activeLanes (getMask s.ves[ve] f.mask) = [] ∨
      f.ta.toNat + ((i.getCs f.cs).toNat + (activeLanes (getMask s.ves[ve] f.mask)).length - 1) / 2048 < 32) :
    EngineOnly ve ((setTile f.td (expandLanes f (i.getCs f.cs).toNat s.ves[ve]) s.ves[ve]).withInst
      (i.setCs f.cs (BitVec.ofNat 64 ((i.getCs f.cs).toNat + (activeLanes (getMask s.ves[ve] f.mask)).length))).next) s (doExpd ve f s) := by
  obtain ⟨ready, ok, left⟩ := x
  obtain ⟨p, run⟩ : ∃ p, doExpd ve f s = _ := vExec_ready ready ok _
  rw [run.trans (if_neg (ne_true_of_eq_false (bound_passed_false fits)))]
  exact (vNext_writesCs (setTile f.td (expandLanes f (i.getCs f.cs).toNat s.ves[ve])) f.cs
    (fun _ => BitVec.ofNat 64 ((i.getCs f.cs).toNat + (activeLanes (getMask s.ves[ve] f.mask)).length)) (withPmu_vesKept p s)
    (vReady_spec ready).1 left).1

theorem doExpd_spec (x : Executes s ve 0x51 f i) (fits : activeLanes (getMask s.ves[ve] f.mask) = [] ∨
      f.ta.toNat + ((i.getCs f.cs).toNat + (activeLanes (getMask s.ves[ve] f.mask)).length - 1) / 2048 < 32) :
    (∀ k l, (activeLanes (getMask s.ves[ve] f.mask))[k]? = some l →
      lane (getTile (doExpd ve f s).ves[ve] f.td) l = laneAt s.ves[ve] f.ta.toNat ((i.getCs f.cs).toNat + k)) ∧
    (∀ l, l < 2048 → (getMask s.ves[ve] f.mask).getLsbD l = false →
      lane (getTile (doExpd ve f s).ves[ve] f.td) l = if f.mz then 0 else lane (getTile s.ves[ve] f.td) l) ∧
    ∀ r, r ≠ f.td → getTile (doExpd ve f s).ves[ve] r = getTile s.ves[ve] r := by
  rw [(doExpd_writes x fits).engine]
  refine ⟨fun k l h => ?_, fun l hl inactive => ?_, fun r hr => ?_⟩
  · obtain ⟨hl, active⟩ := mem_activeLanes.mp (List.mem_of_getElem? h)
    rw [getTile_withInst, getTile_setTile, expandLanes, lane_lanesOf _ _ _ _ hl, if_pos active, expandLane,
      length_filter_lt_of_sorted (activeLanes_sorted _) h]
  · rw [getTile_withInst, getTile_setTile, expandLanes, lane_lanesOf _ _ _ _ hl, if_neg (by rw [inactive]; decide)]
  · rw [getTile_withInst, getTile_setTile_other _ _ hr]

end

/-! ### Top-k state (R160 to R162) -/

/-- A row of the top-k state after the active lanes of the row of a tile that are no NaN have entered it (R161). -/
def rankRow (m : BitVec 2048) (t : Tile) (idx : Nat → BitVec 32) (r : Nat) (row : List (F32 × BitVec 32)) : List (F32 × BitVec 32) :=
  (List.range 64).foldl (fun row k => if m.getLsbD (64 * r + k) && !f32isNaN (lane t (64 * r + k)) then
    (rankIn (lane t (64 * r + k), idx (64 * r + k)) row).take 16 else row) row

/-- The top-k state after a tile has entered it. -/
def rankRows (f : VFields) (idx : Nat → BitVec 32) (e : VecEng) : VecEng :=
  { e with topk := (List.range 32).map (fun r => rankRow (getMask e f.mask) (getTile e f.ta) idx r (topRow e r)) }

theorem topRow_rankRows (f : VFields) (idx : Nat → BitVec 32) (e : VecEng) {r : Nat} (h : r < 32) :
    topRow (rankRows f idx e) r = rankRow (getMask e f.mask) (getTile e f.ta) idx r (topRow e r) := by
  simp [rankRows, topRow, List.getD_eq_getElem?_getD, List.getElem?_range h]

theorem countTask_vesKept (t : TaskRef) (c : Cnt) (s : State) : VesKept s (countTask t c s) := by
  have changes := countTask_changes t c s
  exact ⟨changes .ves (by decide), congrArg Mem.cells (changes .mem (by decide)), changes .engines (by decide)⟩

section
variable {ve : Fin 64} {f : VFields} {s : State} {i : VecInst}

theorem doTopk_writes {op : Nat} (idx : VecEng → VecInst → Nat → BitVec 32) (x : Executes s ve op f i) :
    EngineOnly ve ((rankRows f (idx s.ves[ve] i) s.ves[ve]).withInst i.next) s (doTopk ve op f idx s) := by
  obtain ⟨ready, ok, left⟩ := x
  obtain ⟨p, run⟩ : ∃ p, doTopk ve op f idx s = _ := vExec_ready ready ok _
  obtain ⟨u, kept, run'⟩ : ∃ u, VesKept s u ∧
      doTopk ve op f idx s = vNext ve (modVe ve (fun e => { e with topk := (rankRows f (idx s.ves[ve] i) s.ves[ve]).topk }) u) := by
    by_cases nan : (List.range laneCount).any (fun l => (getMask s.ves[ve] f.mask).getLsbD l && f32isNaN (lane (getTile s.ves[ve] f.ta) l)) = true
    · obtain ⟨ves, cells, engines⟩ := countTask_vesKept i.task ⟨0, 1⟩ (withPmu p s)
      exact ⟨_, ⟨ves, cells, engines⟩, run.trans (congrArg (fun u => vNext ve (modVe ve _ u)) (if_pos nan))⟩
    · exact ⟨_, withPmu_vesKept p s, run.trans (congrArg (fun u => vNext ve (modVe ve _ u)) (if_neg nan))⟩
  rw [run']
  exact (vNext_writes (fun e => { e with topk := (rankRows f (idx s.ves[ve] i) s.ves[ve]).topk }) kept (vReady_spec ready).1 left).1

theorem doTopk_spec {op : Nat} {idx : Nat → BitVec 32} (pick : VecEng → VecInst → Nat → BitVec 32) (picked : pick s.ves[ve] i = idx)
    (x : Executes s ve op f i) :
    VectorWentOn s (doTopk ve op f pick s) ve i ∧ (doTopk ve op f pick s).ves[ve].tiles = s.ves[ve].tiles ∧
    (doTopk ve op f pick s).ves[ve].masks = s.ves[ve].masks ∧
    ∀ r, r < 32 → topRow (doTopk ve op f pick s).ves[ve] r =
      rankRow (getMask s.ves[ve] f.mask) (getTile s.ves[ve] f.ta) idx r (topRow s.ves[ve] r) := by
  subst picked
  have only := doTopk_writes pick x
  refine ⟨only.wentOn rfl, ?_⟩
  rw [only.engine]
  refine ⟨rfl, rfl, fun r hr => ?_⟩
  rw [topRow_withInst, topRow_rankRows _ _ _ hr]

/-- The index that TOPK enters with lane `l`: its column, counted from the scalar `cs` (R161). -/
def columnIndex (f : VFields) (_ : VecEng) (i : VecInst) (l : Nat) : BitVec 32 :=
  BitVec.ofNat 32 ((i.getCs f.cs).toNat % 2 ^ 20 + l % 64)

theorem columnIndex_field (f : VFields) (e : VecEng) (i : VecInst) :
    columnIndex f e i = fun l => BitVec.ofNat 32 (fld (i.getCs f.cs).toNat 19 0 + l % 64) := by
  funext l
  simp [columnIndex, fld]

/-- Entry of the top-k state that TOPKRD gives lane `l` when `k` entries of a row are read (R162). -/
def topLane (e : VecEng) (k l : Nat) : F32 × BitVec 32 :=
  if l % 64 < k then (topRow e (l / 64)).getD (l % 64) (f32ninf, 0xFFFFFFFF#32) else (0, 0)

/-- A tile in which TOPKRD has written a part of the entries of an engine's top-k state. -/
def topTile (f : VFields) (e : VecEng) (part : F32 × BitVec 32 → F32) (old : Tile) : Tile :=
  lanesOf old (getMask e f.mask) f.mz (fun l => part (topLane e (fld f.imm.toNat 4 0) l))

/-- The two tiles that TOPKRD writes, from the masks and the top-k state of an engine. -/
def topTiles (f : VFields) (from_ e : VecEng) : VecEng :=
  setTile (f.td + 1) (topTile f from_ Prod.fst (getTile e (f.td + 1))) (setTile f.td (topTile f from_ Prod.snd (getTile e f.td)) e)

theorem doTopkrd_writes (x : Executes s ve 0x62 f i) (first : 0 < fld f.imm.toNat 4 0) (most : fld f.imm.toNat 4 0 ≤ 16) (last : f.td ≠ 31) :
    EngineOnly ve ((topTiles f s.ves[ve] s.ves[ve]).withInst i.next) s (doTopkrd ve f s) ∧ (doTopkrd ve f s).jobs = s.jobs := by
  obtain ⟨ready, ok, left⟩ := x
  obtain ⟨p, run⟩ : ∃ p, doTopkrd ve f s = _ := vExec_ready ready ok _
  have good : ¬ (fld f.imm.toNat 4 0 = 0 ∨ 16 < fld f.imm.toNat 4 0 ∨ f.td = 31) := by
    rintro (none | more | end_)
    · omega
    · omega
    · exact last end_
  rw [run.trans (if_neg good)]
  exact vNext_writes (topTiles f s.ves[ve]) (withPmu_vesKept p s) (vReady_spec ready).1 left

/-- What TOPKRD puts in an active lane of td and of the tile after it. -/
theorem lane_topTile (f : VFields) (e : VecEng) (part : F32 × BitVec 32 → F32) (old : Tile) {l : Nat} (hl : l < 2048)
    (active : (getMask e f.mask).getLsbD l = true) :
    lane (topTile f e part old) l = if l % 64 < fld f.imm.toNat 4 0 then part ((topRow e (l / 64)).getD (l % 64) (f32ninf, 0xFFFFFFFF#32))
      else part (0, 0) := by
  rw [topTile, lane_lanesOf _ _ _ _ hl, if_pos active, topLane, apply_ite part]

theorem doTopkrd_spec (x : Executes s ve 0x62 f i) (first : 0 < fld f.imm.toNat 4 0) (most : fld f.imm.toNat 4 0 ≤ 16) (last : f.td ≠ 31) :
    VectorWentOn s (doTopkrd ve f s) ve i ∧ (doTopkrd ve f s).jobs = s.jobs ∧ (doTopkrd ve f s).ves[ve].topk = s.ves[ve].topk ∧
    (∀ r, r ≠ f.td → r ≠ f.td + 1 → getTile (doTopkrd ve f s).ves[ve] r = getTile s.ves[ve] r) ∧
    getTile (doTopkrd ve f s).ves[ve] f.td = topTile f s.ves[ve] Prod.snd (getTile s.ves[ve] f.td) ∧
    getTile (doTopkrd ve f s).ves[ve] (f.td + 1) = topTile f s.ves[ve] Prod.fst (getTile s.ves[ve] (f.td + 1)) := by
  obtain ⟨only, jobs⟩ := doTopkrd_writes x first most last
  have apart : f.td ≠ f.td + 1 := fun eq => by
    have nat := congrArg BitVec.toNat eq
    rw [BitVec.toNat_add] at nat
    have small := f.td.isLt
    change _ = (_ + 1) % _ at nat
    omega
  refine ⟨only.wentOn rfl, jobs, ?_⟩
  rw [only.engine]
  refine ⟨rfl, fun r td td1 => ?_, ?_, ?_⟩
  · rw [getTile_withInst, topTiles, getTile_setTile_other _ _ td1, getTile_setTile_other _ _ td]
  · rw [getTile_withInst, topTiles, getTile_setTile_other _ _ apart, getTile_setTile]
  · rw [getTile_withInst, topTiles, getTile_setTile]

end

/-- Settles O45: what each instruction writes in its engine (`doTcmp_writes`, `doMop_writes`, `doMpop_writes`, `doSadd_writes`,
`doReduceRows_spec`, `doReduceCols_spec`, `doComp_writes`, `doExpd_writes`, `doTopk_writes`, `doTopkrd_writes`), read back by the laws of
masks, lanes and rows. That R128's merge and zeroing hold of a reduction's td is the model's reading (notes/assumptions/46). -/
theorem vectorMasksReductionsAndRanks : Obligations.VectorMasksReductionsAndRanks := by
  rintro ve f s i e m rfl rfl
  refine ⟨fun l hl => getMask_zero _ hl, fun x => ?tcmp, fun x => ?mop, fun x => ⟨_, rfl, doMpop_writes x⟩,
    fun x => ⟨_, rfl, doSadd_writes x⟩, fun c comb unit row x => ?rows, fun c comb unit row x => ?cols, fun p hp fits x => ?comp,
    fun p hp fits x => ?expd, fun c op idx row x => ?topk, fun k hk first most last x => ?topkrd⟩
  case tcmp =>
    have written := doTcmp_writes x
    refine ⟨_, rfl, written.wentOn, written.tiles, fun n l hl => ?_⟩
    rw [← getLsbD_laneTests (fun l => f32test (fld f.imm.toNat 2 0) (lane (getTile s.ves[ve] f.ta) l) (lane (getTile s.ves[ve] f.tb) l)) hl]
    exact written.lanes n l hl
  case mop =>
    have written := doMop_writes x
    exact ⟨_, rfl, written.wentOn, written.tiles, written.lanes⟩
  case rows =>
    rcases List.mem_pair.mp row with sum | max
    · obtain ⟨rfl, rfl, rfl⟩ := by simpa only [Prod.mk.injEq] using sum
      rw [if_pos rfl] at x
      exact ⟨_, rfl, doReduceRows_spec f32add 0 x⟩
    · obtain ⟨rfl, rfl, rfl⟩ := by simpa only [Prod.mk.injEq] using max
      rw [if_neg (by simp)] at x
      exact ⟨_, rfl, doReduceRows_spec (f32pick true) f32ninf x⟩
  case cols =>
    rcases List.mem_pair.mp row with sum | max
    · obtain ⟨rfl, rfl, rfl⟩ := by simpa only [Prod.mk.injEq] using sum
      rw [if_pos rfl] at x
      exact ⟨_, rfl, doReduceCols_spec f32add 0 x⟩
    · obtain ⟨rfl, rfl, rfl⟩ := by simpa only [Prod.mk.injEq] using max
      rw [if_neg (by simp)] at x
      exact ⟨_, rfl, doReduceCols_spec (f32pick true) f32ninf x⟩
  case comp =>
    subst hp
    exact ⟨_, rfl, (doComp_writes x fits).wentOn rfl, fun k l h => doComp_spec x fits h⟩
  case expd =>
    subst hp
    exact ⟨_, rfl, (doExpd_writes x fits).wentOn rfl, doExpd_spec x fits⟩
  case topk =>
    rcases row with ⟨rfl, rfl, rfl⟩ | ⟨rfl, rfl, rfl⟩
    · exact ⟨_, rfl, doTopk_spec (columnIndex f) (columnIndex_field f _ i) x⟩
    · exact ⟨_, rfl, doTopk_spec (fun e _ l => lane (getTile e f.tb) l) rfl x⟩
  case topkrd =>
    subst hk
    obtain ⟨wentOn, jobs, topk, others, td, td1⟩ := doTopkrd_spec x first most last
    refine ⟨_, rfl, wentOn, jobs, topk, others, fun l hl active => ?_⟩
    rw [td, td1]
    exact ⟨lane_topTile f _ Prod.snd _ hl active, lane_topTile f _ Prod.fst _ hl active⟩

end Sys2Proof.Machine
end

section
/-! SUPPORT. A CLOSE of one job that a task of another job waits on (spec/12_collectives_and_mapping.md R423, R424), and the obligation
about control and the watch (spec/04_vector_engines.md R136, R138, R166, R168) that it refutes. -/

namespace Sys2Proof.Machine

/-- A vector task of job 1. -/
def closerTask : TaskRef := ⟨1, 0, 7⟩

/-- A matrix task of which no unit is left and whose fault is due (R102). -/
def dueEntry : Entry :=
  { next := 0, st := .running, desc := 0, run := .matrix 1 0 1 [] (some (0, 0)), watchRec := none, caps := [], reads := [] }

/-- The RUNNING entry of a vector task that starts one run of its kernel. -/
def closerEntry : Entry :=
  { next := 0, st := .running, desc := 0, run := .vector 1 0 1 [] [], watchRec := none, caps := [], reads := [] }

/-- A RUNNING job with one page at address 0 and one task on die 0. -/
def runningJob (frame task : Nat) (e : Entry) (slot : Fin 64) (s : State) : State :=
  modDie slot 0 (fun k => { k with entries := [(task, e)] })
    (modCtl slot (fun c => { c with st := .running, grants := [(frame, 1)], pages := [⟨0, false, frame, true, true⟩] }) s)

/-- Job 0 has a task whose fault is due and a bucket half at address 0 that is CLOSING with its count reached, with the vector task of
job 1 as its CLOSE. That task runs on vector engine 0. -/
def crossedClose : State :=
  let s := runningJob 6 7 closerEntry 1 (runningJob 5 7 dueEntry 0 State.reset)
  let s := modJob 0 (fun j => { j with buckets := [((0, true), ⟨4096, 0, some closerTask, none⟩)] }) s
  let s := (jobWrite 0 0 [2] s).1
  let s := modVe 0 (fun k => { k with inst := some (VecInst.start closerTask 0 4096 8 (Vector.replicate 64 0)), slot := some 1 }) s
  modPower (fun p => { p with holders := [(.vector 0, 100)] }) s

/-- The fault of the vector task settles job 0, whose bucket half closes and completes the faulted task. -/
theorem crossedClose_frees : (entryOf (doUndefined 0 0 crossedClose) closerTask).st = .free 0 := by
  decide +kernel

/-- A task waits on an arrival counter. -/
def isWait : Run → Bool
  | .wait _ _ _ => true
  | _ => false

/-- Job 1 has no WAIT, no bucket and no verdict in work. -/
theorem crossedClose_calm : Calm crossedClose 1 := by
  have entries : ∀ die : Fin 4, (jobDie crossedClose 1 die).entries.all (fun p => !isWait p.2.run) = true := by
    decide +kernel
  refine ⟨fun die p hp n th d wait => ?_, by decide +kernel, by decide +kernel, by decide +kernel⟩
  have noWait := List.all_eq_true.mp (entries die) p hp
  rw [wait] at noWait
  exact Bool.false_ne_true noWait

/-- Refutes O47: in `crossedClose` the premises of the clause on words that are no instruction hold and the faulted task is not left
FAULTED. `Calm` speaks of the buckets and waits of the faulting task's own job, where a fault settles every job that has a fault due (R102),
and in a state of which nothing else is assumed a half of such a job's bucket may name the faulting task as its CLOSE. -/
theorem not_vectorControlAndTheWatch : ¬ Obligations.VectorControlAndTheWatch := by
  unfold Obligations.VectorControlAndTheWatch
  intro h
  have ready : vReady crossedClose 0 = some (VecInst.start closerTask 0 4096 8 (Vector.replicate 64 0)) := by
    decide +kernel
  obtain ⟨t, run, faulted, _⟩ := h.2.2.1 0 0 crossedClose _ ready (by decide) crossedClose_calm
  obtain rfl : doUndefined 0 0 crossedClose = t := Host.Outcome.next.inj run
  exact absurd (crossedClose_frees.symm.trans faulted) (by decide)

end Sys2Proof.Machine
end

section
/-! SUPPORT. Starts of instances, landing groups, and the instructions that wait for a group, release one and load a function table
(spec/04_vector_engines.md R130, R133, R134, R150 to R153, R157, R158). -/

namespace Sys2Proof.Machine

/-! ### Private scalars and cleared registers -/

/-- Private scalars from a list of values: a scalar beyond the list is 0. -/
theorem csOf_get (l : List (BitVec 64)) (c : BitVec 6) : (csOf l)[c.toFin] = l.getD c.toNat 0 := by
  simp [csOf]

/-- The scalars that instances of a vector task start with: R133's two over the task's own. -/
theorem startCs_get (cs : List (BitVec 64)) (tot n : BitVec 64) (c : BitVec 6) :
    (((csOf cs).set 62 tot).set 63 n)[c.toFin] = if c = 63 then n else if c = 62 then tot else cs.getD c.toNat 0 := by
  have same : ∀ k : Nat, k < 64 → (k = c.toNat ↔ c = BitVec.ofNat 6 k) := fun k hk => by bv_omega
  rw [← csOf_get]
  simp [Vector.getElem_set, same]

theorem lane_clearVe (now : Nat) (i : VecInst) (e : VecEng) (r : BitVec 5) (l : Nat) : lane (getTile (clearVe now i e) r) l = 0 := by
  have cleared : getTile (clearVe now i e) r = List.replicate laneCount 0 := rfl
  rw [cleared, lane, List.getD_eq_getElem?_getD, List.getElem?_replicate]
  split <;> rfl

theorem topRow_clearVe (now : Nat) (i : VecInst) (e : VecEng) (r : Nat) : topRow (clearVe now i e) r = [] := rfl

/-- An update of what an engine runs. -/
theorem modInst_of_inst {v : Fin 64} {s : State} {i : VecInst} (inst : s.ves[v].inst = some i) (g : VecInst → VecInst) :
    modInst v g s = modVe v (VecEng.withInst (g i)) s :=
  modVe_congr (by rw [inst]; rfl)

/-! ### Starts (R133, R151) -/

@[simp] theorem entryOf_modVe (v : Fin 64) (f : VecEng → VecEng) (s : State) (t : TaskRef) : entryOf (modVe v f s) t = entryOf s t := rfl
@[simp] theorem entryOf_modPower (f : Power → Power) (s : State) (t : TaskRef) : entryOf (modPower f s) t = entryOf s t := rfl

section
variable {t : TaskRef} {ve : Fin 64} {s : State} {n d tot : Nat} {cs : List (BitVec 64)} {back : List (Nat × BitVec 64)}

/-- What VECTOR_INSTANCE_START starts. -/
def vectorInstance (t : TaskRef) (n tot : Nat) (cs : List (BitVec 64)) (desc : Nat) : VecInst :=
  VecInst.start t n (vBase desc) (vInstr desc) (((csOf cs).set 62 (BitVec.ofNat 64 tot)).set 63 (BitVec.ofNat 64 n))

section
variable (st : (entryOf s t).st = .running) (run : (entryOf s t).run = .vector n d tot cs back) (more : n < tot)
  (die : unitDie ve = t.die) (idle : s.ves[ve].inst = none) (mine : veFor s t.slot ve = true) (unpaired : awaitsPair s ve = false)
  (on : inP0P1 s = true)
include st run more die idle mine unpaired on

theorem doInstance_starts :
    doInstance t ve s = modPower (Power.ask (.vector ve)) (modVe ve (clearVe s.clock.now (vectorInstance t n tot cs (entryOf s t).desc))
      (modEntry t (fun e => { e with run := .vector (n + 1) d tot cs back }) s)) := by
  unfold doInstance
  have empty : s.ves[ve].inst.isSome = false := by rw [idle]; rfl
  simp only [st, run, decide_eq_false (Nat.not_le.mpr more), die, empty, mine, unpaired, on]
  simp only [bne_self_eq_false]
  rfl

theorem doInstance_spec :
    (doInstance t ve s).ves[ve] = clearVe s.clock.now (vectorInstance t n tot cs (entryOf s t).desc) s.ves[ve] ∧
    (entryOf (doInstance t ve s) t).run = .vector (n + 1) d tot cs back ∧ (doInstance t ve s).mem = s.mem ∧
    (doInstance t ve s).engines = s.engines := by
  rw [doInstance_starts st run more die idle mine unpaired on]
  refine ⟨?_, ?_, rfl, rfl⟩
  · exact modVe_same ve (clearVe s.clock.now (vectorInstance t n tot cs (entryOf s t).desc))
      (modEntry t (fun e => { e with run := .vector (n + 1) d tot cs back }) s)
  · rw [entryOf_modPower, entryOf_modVe, entryOf_modEntry]

end
end

/-- The scalars by which paired instances name their unit follow the 58 of the job context (R151). -/
theorem pairScalars_get (e : Entry) (w : WorkUnit) (unit : Nat) :
    (pairScalars e w unit).getD 63 0 = BitVec.ofNat 64 unit ∧ (pairScalars e w unit).getD 62 0 = BitVec.ofNat 64 w.first ∧
    (pairScalars e w unit).getD 61 0 = BitVec.ofNat 64 w.n0 ∧ (pairScalars e w unit).getD 60 0 = BitVec.ofNat 64 w.count ∧
    (pairScalars e w unit).getD 59 0 = BitVec.ofNat 64 w.shape.tag ∧ (pairScalars e w unit).getD 58 0 = BitVec.ofNat 64 (ceilDiv w.count 32) ∧
    ∀ k, k < 58 → (pairScalars e w unit).getD k 0 = BitVec.ofNat 64 (capOf e (scalarKey k)) := by
  refine ⟨rfl, rfl, rfl, rfl, rfl, rfl, fun k hk => ?_⟩
  simp [pairScalars, List.getD_eq_getElem?_getD, List.getElem?_append_left, hk]

/-- What PAIRED_INSTANCE_START starts. -/
def pairedInstance (u : MatUnit) (e : Entry) (w : WorkUnit) : VecInst :=
  { VecInst.start u.task 0 (vBase (capOf e (mOut0 e.desc))) (vInstr (capOf e (mOut0 e.desc))) (csOf (pairScalars e w u.unit)) with
    paired := true, unit := u.unit, landBase := vLandBase (capOf e (mOut0 e.desc)), landCnt := vLandTiles (capOf e (mOut0 e.desc))
    groups := ceilDiv w.count 32 }

theorem pairedInstance_get (u : MatUnit) (e : Entry) (w : WorkUnit) (c : BitVec 6) :
    (pairedInstance u e w).getCs c = (pairScalars e w u.unit).getD c.toNat 0 := csOf_get _ c

section
variable {ve : Fin 64} {s : State} {eng : Fin 68} {u : MatUnit} {e : Entry} {w : WorkUnit}
  (waits : awaited s ve = some (eng, u, e, w)) (idle : s.ves[ve].inst = none) (mine : veFor s u.task.slot ve = true)
  (on : inP0P1 s = true) (working : u.ended = false) (instrs : 0 < vInstr (capOf e (mOut0 e.desc)))
include waits idle mine on working instrs

theorem doPaired_starts :
    doPaired ve s = putUnit eng { u with pair := 1 } (modPower (Power.ask (.vector ve))
      (modVe ve (clearVe s.clock.now (pairedInstance u e w)) s)) := by
  have empty : s.ves[ve].inst.isSome = false := by rw [idle]; rfl
  unfold doPaired
  rw [waits]
  simp only [empty, mine, on, working]
  exact vReap_runs (i := pairedInstance u e w) (congrArg VecEng.inst (modVe_same ve (clearVe s.clock.now (pairedInstance u e w)) s)) (.inr instrs)

theorem doPaired_spec :
    (doPaired ve s).ves[ve] = clearVe s.clock.now (pairedInstance u e w) s.ves[ve] ∧
    (doPaired ve s).engines = (putUnit eng { u with pair := 1 } s).engines ∧ (doPaired ve s).mem = s.mem := by
  rw [doPaired_starts waits idle mine on working instrs]
  exact ⟨modVe_same ve (clearVe s.clock.now (pairedInstance u e w)) s, rfl, rfl⟩

end

/-! ### Landing (R152, R153) -/

/-- A loop that sets tiles of one engine. -/
theorem forEach_modVe {α : Type} (v : Fin 64) (f : α → VecEng → VecEng) (l : List α) (s : State) :
    forEach l (fun a st => modVe v (f a) st) s = modVe v (fun e => l.foldl (fun e a => f a e) e) s := by
  induction l generalizing s with
  | nil => exact (modVe_id v s).symm
  | cons a rest ih => exact (ih (modVe v (f a) s)).trans (modVe_modVe v _ _ s)

/-- Tiles of a landing group in the tile registers from `first` on. -/
def landedTiles (rows : List (List F32)) (g first : Nat) (e : VecEng) : VecEng :=
  (List.zip (List.range 4) (landTiles rows g)).foldl (fun e p => setTile (BitVec.ofNat 5 (first + p.1)) p.2 e) e

/-- The `j`th tile of a landing group. -/
def landTile (rows : List (List F32)) (g j : Nat) : Tile :=
  (List.range laneCount).map (fun l => (rows.getD (32 * g + l / 64) []).getD (64 * j + l % 64) 0)

theorem lane_landTile (rows : List (List F32)) (g j : Nat) {r c : Nat} (hr : r < 32) (hc : c < 64) :
    lane (landTile rows g j) (64 * r + c) = (rows.getD (32 * g + r) []).getD (64 * j + c) 0 := by
  have row : (64 * r + c) / 64 = r := by omega
  have col : (64 * r + c) % 64 = c := by omega
  have inside : 64 * r + c < laneCount := by unfold laneCount; omega
  rw [lane, landTile, List.getD_eq_getElem?_getD, List.getElem?_map, List.getElem?_range inside]
  simp only [Option.map_some, Option.getD_some, row, col]

/-- Four tile registers in a row are apart. -/
theorem ofNat5_apart (first : Nat) {j k : Nat} (hj : j < 4) (hk : k < 4) (h : j ≠ k) :
    BitVec.ofNat 5 (first + j) ≠ BitVec.ofNat 5 (first + k) := fun eq => by
  have nat := congrArg BitVec.toNat eq
  simp only [BitVec.toNat_ofNat] at nat
  omega

theorem getTile_landedTiles (rows : List (List F32)) (g first : Nat) (e : VecEng) {j : Nat} (hj : j < 4) :
    getTile (landedTiles rows g first e) (BitVec.ofNat 5 (first + j)) = landTile rows g j := by
  have tiles : landTiles rows g = (List.range 4).map (landTile rows g) := rfl
  have four : List.range 4 = [0, 1, 2, 3] := by decide
  have apart := fun {j k : Nat} => ofNat5_apart first (j := j) (k := k)
  rw [landedTiles, tiles, four]
  simp only [List.map_cons, List.map_nil, List.zip_cons_cons, List.zip_nil_left, List.foldl_cons, List.foldl_nil]
  interval_cases j
  · rw [getTile_setTile_other _ _ (apart (by decide) (by decide) (by decide)), getTile_setTile_other _ _ (apart (by decide) (by decide) (by decide)),
      getTile_setTile_other _ _ (apart (by decide) (by decide) (by decide)), getTile_setTile]
  · rw [getTile_setTile_other _ _ (apart (by decide) (by decide) (by decide)), getTile_setTile_other _ _ (apart (by decide) (by decide) (by decide)),
      getTile_setTile]
  · rw [getTile_setTile_other _ _ (apart (by decide) (by decide) (by decide)), getTile_setTile]
  · rw [getTile_setTile]

theorem landedTiles_inst (rows : List (List F32)) (g first : Nat) (e : VecEng) : (landedTiles rows g first e).inst = e.inst :=
  List.foldlRecOn (motive := fun x : VecEng => x.inst = e.inst) _ _ rfl (fun _ h _ _ => h)

section
variable {ve : Fin 64} {s : State} {i : VecInst} (inst : s.ves[ve].inst = some i) (paired : i.paired = true) (drained : i.drained = true)
  (more : i.landed < i.groups) (room : i.landCnt / 4 ≤ i.landed → bitAt i.released (i.landed - i.landCnt / 4) = true)
include inst paired drained more room

/-- A landing group lands: its tiles are in the landing area, and one more group has landed. -/
theorem doLand_lands :
    doLand ve s = modVe ve (fun e => (landedTiles i.outRows i.landed (i.landBase + 4 * (i.landed % (i.landCnt / 4))) e).withInst
      { i with landed := i.landed + 1 }) s := by
  have free : (decide (i.landCnt / 4 ≤ i.landed) && !bitAt i.released (i.landed - i.landCnt / 4)) = false := by
    by_cases h : i.landCnt / 4 ≤ i.landed
    · rw [room h]; simp
    · rw [decide_eq_false h]; rfl
  have land : ¬ ((!i.paired || !i.drained || decide (i.groups ≤ i.landed) ||
      (decide (i.landCnt / 4 ≤ i.landed) && !bitAt i.released (i.landed - i.landCnt / 4))) = true) := by
    rw [paired, drained, decide_eq_false (Nat.not_le.mpr more), free]
    decide
  unfold doLand
  rw [inst]
  dsimp only
  rw [if_neg land, forEach_modVe]
  rw [modInst_of_inst (i := i) (by rw [modVe_same]; exact (landedTiles_inst _ _ _ _).trans inst), modVe_modVe]
  rfl

theorem doLand_spec :
    (doLand ve s).ves[ve].inst = some { i with landed := i.landed + 1 } ∧
    (∀ j r c, j < 4 → r < 32 → c < 64 →
      lane (getTile (doLand ve s).ves[ve] (BitVec.ofNat 5 (i.landBase + 4 * (i.landed % (i.landCnt / 4)) + j))) (64 * r + c) =
        (i.outRows.getD (32 * i.landed + r) []).getD (64 * j + c) 0) ∧
    (∀ v : Fin 64, v ≠ ve → (doLand ve s).ves[v] = s.ves[v]) ∧ (doLand ve s).mem = s.mem ∧ (doLand ve s).jobs = s.jobs := by
  rw [doLand_lands inst paired drained more room]
  refine ⟨?_, fun j r c hj hr hc => ?_, fun v hv => ?_, rfl, rfl⟩
  · rw [modVe_same]; rfl
  · rw [modVe_same, getTile_withInst, getTile_landedTiles _ _ _ _ hj, lane_landTile _ _ _ hr hc]
  · rw [modVe_ve, if_neg hv]

end

/-! ### Instances and reads that an instruction leaves -/

@[simp] theorem VecInst.next_released_pc (i : VecInst) (r : Nat) : ({ i with released := r } : VecInst).next.pc = i.next.pc := by
  unfold VecInst.next
  cases i.loop with
  | none => rfl
  | some l =>
    dsimp only
    split
    · split <;> rfl
    · rfl

@[simp] theorem VecInst.next_descs_pc (i : VecInst) (m : AMap Nat Nat) : ({ i with descs := m } : VecInst).next.pc = i.next.pc := by
  unfold VecInst.next
  cases i.loop with
  | none => rfl
  | some l =>
    dsimp only
    split
    · split <;> rfl
    · rfl

/-- A read without a failure changes nothing. -/
theorem jobRead_ok {s u : State} {slot : Fin 64} {va len : Nat} {r : Rd} (read : jobRead s slot va len = (r, u)) (ok : r.st = .ok) :
    peek s slot va len = r ∧ u = s := by
  obtain ⟨rfl, rfl⟩ := Prod.mk.inj read
  exact ⟨rfl, by rw [if_neg (by rw [ok]; decide)]⟩

/-! ### Landing groups and function tables (R153, R157, R158) -/

section
variable {ve : Fin 64} {f : VFields} {s : State} {i : VecInst}

theorem doLwait_goesOn (x : Executes s ve 0x70 f i) (landed : (i.getCs f.cs).toNat < i.landed) (groups : i.landed ≤ i.groups) :
    VectorWentOn s (doLwait ve f s) ve i ∧ (doLwait ve f s).jobs = s.jobs := by
  obtain ⟨ready, ok, left⟩ := x
  have run : doLwait ve f s = _ := vExec_unmasked ready ok rfl _
  rw [run.trans (if_neg (by omega)), if_pos landed]
  obtain ⟨only, jobs⟩ := vNext_writes (v := ve) (u := s) id ⟨rfl, rfl, rfl⟩ (vReady_spec ready).1 left
  rw [modVe_id] at only jobs
  exact ⟨only.wentOn rfl, jobs⟩

theorem doLwait_waits (x : Executes s ve 0x70 f i) (ahead : i.landed ≤ (i.getCs f.cs).toNat) (group : (i.getCs f.cs).toNat < i.groups) :
    doLwait ve f s = s := by
  obtain ⟨ready, ok, _⟩ := x
  have run : doLwait ve f s = _ := vExec_unmasked ready ok rfl _
  rw [run.trans (if_neg (by omega)), if_neg (by omega)]

theorem doLrel_releases (x : Executes s ve 0x71 f i) (group : (i.getCs f.cs).toNat < i.groups) :
    VectorWentOn s (doLrel ve f s) ve { i with released := i.released ||| 2 ^ (i.getCs f.cs).toNat } ∧ (doLrel ve f s).jobs = s.jobs := by
  obtain ⟨ready, ok, left⟩ := x
  have inst := (vReady_spec ready).1
  have run : doLrel ve f s = _ := vExec_unmasked ready ok rfl _
  dsimp only at run
  rw [run, if_pos group, modInst_of_inst inst]
  obtain ⟨only, jobs⟩ := vNext_writes (v := ve) (u := s) (VecEng.withInst { i with released := i.released ||| 2 ^ (i.getCs f.cs).toNat })
    ⟨rfl, rfl, rfl⟩ rfl (by rw [VecInst.next_released_pc]; exact left)
  exact ⟨only.wentOn rfl, jobs⟩

/-- The function table that 4,128 bytes hold (R157). -/
def tableOf (b : List Byte) : FuncTable := ⟨(List.range 1032).map (fun k => BitVec.ofNat 32 (leNat ((b.drop (4 * k)).take 4)))⟩

/-- An engine with a function table in the slot that TLDFT names (R158). -/
def putTable (f : VFields) (t : FuncTable) (e : VecEng) : VecEng :=
  { e with tables := e.tables.put (2 * fld f.imm.toNat 3 0 + if bitAt f.imm.toNat 4 then 1 else 0) t }

theorem doLdft_loads {b : List Byte} {u : State} (x : Executes s ve 0x31 f i) (aligned : (i.getCs f.cs).toNat % 64 = 0)
    (read : jobRead s i.task.slot (i.getCs f.cs).toNat 4128 = (⟨b, .ok⟩, u)) (good : (tableOf b).ok = true) :
    VectorWentOn s (doLdft ve f s) ve i ∧ (doLdft ve f s).ves[ve].tiles = s.ves[ve].tiles ∧
    (doLdft ve f s).ves[ve].tables.find (2 * fld f.imm.toNat 3 0 + if bitAt f.imm.toNat 4 then 1 else 0) = some (tableOf b) := by
  obtain ⟨ready, ok, left⟩ := x
  obtain ⟨_, rfl⟩ := jobRead_ok read rfl
  have run : doLdft ve f u = _ := vExec_unmasked ready ok rfl _
  dsimp only at run
  rw [read, if_neg (not_not_intro aligned), if_neg (not_not_intro rfl)] at run
  have pass : ¬ (!(tableOf b).ok) = true := by rw [good]; decide
  have only : EngineOnly ve ((putTable f (tableOf b) u.ves[ve]).withInst i.next) u (doLdft ve f u) := by
    rw [run.trans (if_neg pass)]
    exact (vNext_writes (putTable f (tableOf b)) ⟨rfl, rfl, rfl⟩ (vReady_spec ready).1 left).1
  refine ⟨only.wentOn rfl, ?_⟩
  rw [only.engine]
  exact ⟨rfl, AMap.find_put_same _ _ _⟩

end

end Sys2Proof.Machine
end

section
/-! SUPPORT. Loads of tiles from arrays and retained entries (spec/04_vector_engines.md R129, R141 to R143, spec/08_memory.md R291 to
R294, R302). -/

namespace Sys2Proof.Machine

/-! ### Reads on demand leave engines and memory -/

theorem endStream_streams (die : Fin 4) (k : Fin 64) (s : State) : StreamsOnly s (endStream die k s) := by
  unfold endStream
  split
  · exact (freeLines_streams _ _ _ _).trans (setPrefetch_streams _ _ _ _)
  · exact .refl s

theorem meetStream_streams (t : TaskRef) (u : StreamUser) (x : Nat) (s : State) : StreamsOnly s (meetStream t u x s) := by
  unfold meetStream
  split
  · exact .refl s
  · split
    · exact (freeLines_streams _ _ _ _).trans (setPrefetch_streams _ _ _ _)
    · split
      · exact endStream_streams _ _ _
      · exact setPrefetch_streams _ _ _ _

theorem putMiss_streams (u : StreamUser) (m : MissRun) (s : State) :
    StreamsOnly s { s with mem := { s.mem with misses := s.mem.misses.put u m } } := by
  refine ⟨fun q hq => ?_, .refl _⟩
  cases q
  case mem => exact absurd List.mem_cons_self hq
  all_goals rfl

theorem openIf_streams (c : Prop) [Decidable c] (p : Prefetch) (s : State) : StreamsOnly s (if c then openStream p s else s) := by
  split
  · exact openStream_streams _ _
  · exact .refl s

theorem noteMiss_streams (t : TaskRef) (u : StreamUser) (x : Nat) (s : State) : StreamsOnly s (noteMiss t u x s) :=
  (putMiss_streams _ _ _).trans (openIf_streams _ _ _)

theorem demandRead_streams (t : TaskRef) (u : StreamUser) (rs : List (Nat × Nat)) (s : State) : StreamsOnly s (demandRead t u rs s) := by
  refine StreamsOnly.trans (((pmuCount_streams _ _ _ _ _ _).trans (pmuCount_streams _ _ _ _ _ _)).trans (pmuCount_streams _ _ _ _ _ _))
    (StreamsOnly.forEach _ _ (fun x st => ?_) _)
  dsimp only
  split
  · exact meetStream_streams _ _ _ _
  · exact (meetStream_streams _ _ _ _).trans (noteMiss_streams _ _ _ _)

theorem StreamsOnly.vesKept {s u : State} (h : StreamsOnly s u) : VesKept s u :=
  ⟨h.changes .ves (by decide), h.stored.1, h.engines⟩

theorem VesKept.trans {s t u : State} (h : VesKept s t) (g : VesKept t u) : VesKept s u :=
  ⟨g.ves.trans h.ves, g.cells.trans h.cells, g.engines.trans h.engines⟩

/-- What differs from a state in which one engine was updated, in that engine alone, differs so from the state before. -/
theorem EngineOnly.of_modVe {v : Fin 64} {e : VecEng} {w : VecEng → VecEng} {s t : State} (h : EngineOnly v e (modVe v w s) t) :
    EngineOnly v e s t where
  engine := h.engine
  others g hg := (h.others g hg).trans (by rw [modVe_ve, if_neg hg])
  cells := h.cells
  engines := h.engines

theorem EngineOnly.of_vesKept {v : Fin 64} {e : VecEng} {s u t : State} (h : EngineOnly v e u t) (kept : VesKept s u) : EngineOnly v e s t where
  engine := h.engine
  others g hg := (h.others g hg).trans (by rw [kept.ves])
  cells := h.cells.trans kept.cells
  engines := h.engines.trans kept.engines

/-! ### Descriptors of arrays and entries -/

/-- The descriptor of an array as it is read at its first use in a run. -/
def tileDesc (i : VecInst) (a : Nat) (s : State) : (Nat × MStat) × State :=
  match i.descs.find a with
  | some d => ((d, .ok), s)
  | none => ((leNat (jobRead s i.task.slot a 32).1.data, (jobRead s i.task.slot a 32).1.st), (jobRead s i.task.slot a 32).2)

/-- A descriptor that was read without a failure has changed nothing, and programmable counters play no part. -/
theorem tileDesc_ok {i : VecInst} {a : Nat} {s : State} (ok : (tileDesc i a s).1.2 = .ok) (p : Vector PmuCtr 32) :
    (tileDesc i a s).2 = s ∧ tileDesc i a (withPmu p s) = ((tileDesc i a s).1, withPmu p s) := by
  unfold tileDesc at ok ⊢
  cases known : i.descs.find a with
  | some d => exact ⟨rfl, rfl⟩
  | none =>
    rw [known] at ok
    have sound : (peek s i.task.slot a 32).st = .ok := ok
    have keeps : ∀ t : State, peek t i.task.slot a 32 = peek s i.task.slot a 32 → (jobRead t i.task.slot a 32).2 = t := fun t same =>
      if_neg (by rw [same, sound]; decide)
    exact ⟨keeps s rfl, Prod.ext rfl (keeps (withPmu p s) rfl)⟩

/-- The checks of a descriptor that was read (R44, R141, R142). -/
def tileChecked (a : Nat) (written : Bool) (r : (Nat × MStat) × State) : Except (BitVec 8) Nat × State :=
  if a % 32 ≠ 0 then (.error stBAD_FIELD, r.2)
  else if r.1.2 ≠ .ok then (.error r.1.2.code, r.2)
  else if !arrRsvOk r.1.1 || !convOk (arrOf r.1.1).conv written || (arrOf r.1.1).trans || (arrOf r.1.1).fmt == fAC32 ||
      (arrOf r.1.1).fmt == fEA40 || (arrOf r.1.1).fmt == fVOTE2 || (arrOf r.1.1).elem % 64 != 0 ||
      ((arrOf r.1.1).blocked && (arrOf r.1.1).exp % 64 != 0) then (.error stBAD_FIELD, r.2)
  else (.ok r.1.1, r.2)

theorem tileArr_eq (i : VecInst) (a : Nat) (written : Bool) (s : State) : tileArr i a written s = tileChecked a written (tileDesc i a s) := rfl

theorem tileChecked_ok {a d : Nat} {written : Bool} {x : Nat × MStat} {s u : State} (h : tileChecked a written (x, s) = (.ok d, u)) :
    x.2 = .ok ∧ u = s ∧ ∀ t, tileChecked a written (x, t) = (.ok d, t) := by
  unfold tileChecked at h ⊢
  split at h
  · cases h
  next aligned =>
    split at h
    · cases h
    next ok =>
      split at h
      · cases h
      next good =>
        obtain ⟨rfl, rfl⟩ := by simpa only [Prod.mk.injEq, Except.ok.injEq] using h
        exact ⟨not_not.mp ok, rfl, fun t => by rw [if_neg aligned, if_neg ok, if_neg good]⟩

/-- An array whose descriptor passes has changed nothing, and programmable counters play no part. -/
theorem tileArr_ok {i : VecInst} {a d : Nat} {written : Bool} {s u : State} (h : tileArr i a written s = (.ok d, u)) (p : Vector PmuCtr 32) :
    u = s ∧ tileArr i a written (withPmu p s) = (.ok d, withPmu p s) := by
  obtain ⟨ok, unchanged, checked⟩ := tileChecked_ok (x := (tileDesc i a s).1) (s := (tileDesc i a s).2) h
  obtain ⟨kept, same⟩ := tileDesc_ok ok p
  exact ⟨unchanged.trans kept, by rw [tileArr_eq, same, checked]⟩

/-- The checks of an entry's descriptor that was read, and of the task as its reader (R302). -/
def entryChecked (i : VecInst) (a d : Nat) (s : State) : Except (BitVec 8) Nat × State :=
  if !entryDescOk a d then (.error stBAD_FIELD, s)
  else if (entryOf s i.task).reads.contains a then (.ok d, s)
  else
    match (readerCheck i.task.slot a s).2 with
    | .ok => (.ok d, modEntry i.task (fun e => { e with reads := e.reads ++ [a] }) (readerCheck i.task.slot a s).1)
    | .refused => (.error stSTATE, (readerCheck i.task.slot a s).1)
    | .absent => (.error stNO_RESOURCE, (readerCheck i.task.slot a s).1)

theorem readerCheck_ok {slot : Fin 64} {a : Nat} {s : State} (h : (readerCheck slot a s).2 = .ok) (p : Vector PmuCtr 32) :
    (readerCheck slot a s).1 = s ∧ readerCheck slot a (withPmu p s) = (withPmu p s, .ok) := by
  have blind : (withPmu p s).jobs = s.jobs := rfl
  unfold readerCheck at h ⊢
  rw [blind]
  cases found : s.jobs[slot].stash.entries.find a with
  | none => rw [found] at h; cases h
  | some e =>
    rw [found] at h
    dsimp only at h ⊢
    cases st : e.st <;> rw [st] at h
    case writing => cases h
    case absent => cases h
    all_goals exact ⟨rfl, rfl⟩

theorem entryChecked_ok {i : VecInst} {a d d' : Nat} {s u : State} (h : entryChecked i a d' s = (.ok d, u)) (p : Vector PmuCtr 32) :
    VesKept s u ∧ entryChecked i a d' (withPmu p s) = (.ok d, withPmu p u) := by
  have reader : entryOf (withPmu p s) i.task = entryOf s i.task := rfl
  unfold entryChecked at h ⊢
  rw [reader]
  split at h
  · cases h
  next good =>
    rw [if_neg good]
    split at h
    next known =>
      obtain ⟨rfl, rfl⟩ := by simpa only [Prod.mk.injEq, Except.ok.injEq] using h
      exact ⟨⟨rfl, rfl, rfl⟩, if_pos known⟩
    next new =>
      rw [if_neg new]
      cases check : (readerCheck i.task.slot a s).2 with
      | ok =>
        obtain ⟨kept, same⟩ := readerCheck_ok check p
        rw [check, kept] at h
        obtain ⟨rfl, rfl⟩ := by simpa only [Prod.mk.injEq, Except.ok.injEq] using h
        rw [same]
        exact ⟨⟨rfl, rfl, rfl⟩, rfl⟩
      | refused => rw [check] at h; cases h
      | absent => rw [check] at h; cases h

theorem tileEntry_of_read {i : VecInst} {a : Nat} {s : State} (ok : (peek s i.task.slot a 64).st = .ok) :
    tileEntry i a s = entryChecked i a (leNat (peek s i.task.slot a 64).data) s := by
  have read : jobRead s i.task.slot a 64 = (peek s i.task.slot a 64, s) := Prod.ext rfl (if_neg (by rw [ok]; decide))
  unfold tileEntry
  rw [read]
  exact if_neg (not_not_intro ok)

/-- An entry whose descriptor passes leaves engines and memory, and programmable counters play no part. -/
theorem tileEntry_ok {i : VecInst} {a d : Nat} {s u : State} (h : tileEntry i a s = (.ok d, u)) (p : Vector PmuCtr 32) :
    VesKept s u ∧ tileEntry i a (withPmu p s) = (.ok d, withPmu p u) := by
  have ok : (peek s i.task.slot a 64).st = .ok := by
    by_contra bad
    have failed : tileEntry i a s = (.error _, _) := if_pos bad
    rw [failed] at h
    cases h
  have same : peek (withPmu p s) i.task.slot a 64 = peek s i.task.slot a 64 := rfl
  rw [tileEntry_of_read ok] at h
  rw [tileEntry_of_read (same ▸ ok), same]
  exact entryChecked_ok h p

/-! ### Reads that programmable counters leave -/

theorem withPmu_ves (p : Vector PmuCtr 32) (s : State) : (withPmu p s).ves = s.ves := rfl

theorem withPmu_jobNat (p : Vector PmuCtr 32) (s : State) : jobNat (withPmu p s) = jobNat s := by
  funext slot va len
  rfl

theorem withPmu_arrBits (p : Vector PmuCtr 32) (s : State) : arrBits (withPmu p s) = arrBits s := by
  funext slot a piece r c
  simp only [arrBits, withPmu_jobNat]

theorem withPmu_arrExp (p : Vector PmuCtr 32) (s : State) : arrExp (withPmu p s) = arrExp s := by
  funext slot a r c
  simp only [arrExp, withPmu_jobNat]

theorem withPmu_arrVal (p : Vector PmuCtr 32) (s : State) : arrVal (withPmu p s) = arrVal s := by
  funext slot a r c
  simp only [arrVal, withPmu_arrBits, withPmu_arrExp]

theorem withPmu_readTile (p : Vector PmuCtr 32) (s : State) : readTile (withPmu p s) = readTile s := by
  funext slot d q k
  simp only [readTile, arrBlock, withPmu_arrBits, withPmu_arrExp, withPmu_jobNat]

theorem withPmu_entryVal (p : Vector PmuCtr 32) (s : State) : entryVal (withPmu p s) = entryVal s := by
  have jobs : (withPmu p s).jobs = s.jobs := rfl
  have peeks : peek (withPmu p s) = peek s := rfl
  funext slot addr d r c
  simp only [entryVal, entryBlock, entryElemRanges, tileElemRanges, arrBlock, withPmu_readTile, withPmu_arrBits, withPmu_arrExp,
    withPmu_jobNat, jobs, peeks]

/-! ### The tile that a load delivers -/

theorem MStat.foldl_and_ok {α : Type} (l : List (α × MStat)) (h : ∀ x ∈ l, x.2 = .ok) : l.foldl (fun st x => st.and x.2) MStat.ok = .ok := by
  induction l with
  | nil => rfl
  | cons x rest ih =>
    rw [List.foldl_cons, h x List.mem_cons_self]
    exact ih (fun y hy => h y (List.mem_cons_of_mem _ hy))

section
variable {rows cols ti tj : Nat} {m : BitVec 2048} {val : Nat → Nat → Val × MStat}

/-- A load whose lanes all read without a failure has none. -/
theorem loadTile_ok (ok : ∀ rc ∈ loadLanes rows cols ti tj m, (val rc.1 rc.2).2 = .ok) : (loadTile rows cols ti tj m val).2 = .ok := by
  unfold loadTile
  dsimp only
  refine MStat.foldl_and_ok _ (fun x hx => ?_)
  obtain ⟨l, hl, rfl⟩ := List.mem_map.mp hx
  split
  next active => exact ok (32 * ti + l / 64, 64 * tj + l % 64) (List.mem_map.mpr ⟨l, List.mem_filter.mpr ⟨hl, active⟩, rfl⟩)
  next => rfl

/-- What an active lane of a load takes: the element under it, and +0 outside the array. -/
theorem lane_loadTile {r c : Nat} (hr : r < 32) (hc : c < 64) (active : m.getLsbD (64 * r + c) = true) :
    lane (loadTile rows cols ti tj m val).1 (64 * r + c) =
      if 32 * ti + r < rows ∧ 64 * tj + c < cols then loadF32 (val (32 * ti + r) (64 * tj + c)).1 else 0 := by
  have row : (64 * r + c) / 64 = r := by omega
  have col : (64 * r + c) % 64 = c := by omega
  have inside : 64 * r + c < laneCount := by unfold laneCount; omega
  rw [lane, loadTile, List.map_map, List.getD_eq_getElem?_getD, List.getElem?_map, List.getElem?_range inside]
  simp only [Option.map_some, Option.getD_some, Function.comp_apply, row, col, active, Bool.true_and, decide_eq_true_eq]
  exact apply_ite Prod.fst _ _ _

end

/-! ### Loads (R141 to R143) -/

section
variable {ve : Fin 64} {f : VFields} {s u : State} {i : VecInst} {d : Nat}

/-- What TLD leaves of its engine: td with the lanes of a tile that was read. -/
def loadTd (f : VFields) (tile : Tile) (e : VecEng) : VecEng :=
  setTile f.td (lanesOf (getTile e f.td) (getMask e f.mask) f.mz (lane tile)) e

theorem lane_loadTd (f : VFields) (tile : Tile) (e : VecEng) {l : Nat} (hl : l < 2048) (active : (getMask e f.mask).getLsbD l = true) :
    lane (getTile (loadTd f tile e) f.td) l = lane tile l := by
  rw [loadTd, getTile_setTile, lane_lanesOf _ _ _ _ hl, if_pos active]

/-- A tile whose lanes were read reaches td. -/
theorem loaded_writes {j : VecInst} {x : Tile × MStat} {rs : List (Nat × Nat)} (ok : x.2 = .ok) (kept : VesKept s u)
    (inst : s.ves[ve].inst = some j) (left : j.next.pc < j.count) :
    EngineOnly ve ((loadTd f x.1 s.ves[ve]).withInst j.next) s (loaded ve i f (getMask s.ves[ve] f.mask) x rs u) := by
  unfold loaded
  rw [if_neg (not_not_intro ok)]
  have only := (vNext_writes (v := ve) (fun e => setTile f.td (lanesOf (getTile e f.td) (getMask s.ves[ve] f.mask) f.mz (lane x.1)) e)
    (kept.trans (demandRead_streams i.task (.vector ve) rs u).vesKept) (j := j) inst left).1
  exact only

/-- The same in an engine that `w` updated before. -/
theorem loaded_modVe_writes {j : VecInst} {x : Tile × MStat} {rs : List (Nat × Nat)} (w : VecEng → VecEng) (ok : x.2 = .ok) (kept : VesKept s u)
    (inst : (w s.ves[ve]).inst = some j) (left : j.next.pc < j.count) :
    EngineOnly ve ((loadTd f x.1 (w s.ves[ve])).withInst j.next) s
      (loaded ve i f (getMask (w s.ves[ve]) f.mask) x rs (modVe ve w u)) := by
  have engine := modVe_same ve w s
  have kept' : VesKept (modVe ve w s) (modVe ve w u) := ⟨congrArg (vmod · ve w) kept.ves, kept.cells, kept.engines⟩
  have only := loaded_writes (f := f) (i := i) (rs := rs) ok kept' (by rw [engine]; exact inst) left
  rw [engine] at only
  exact only.of_modVe

theorem doTld_array_writes (x : Executes s ve 0x01 f i) (even : (i.getCs f.cs).toNat % 2 = 0)
    (found : tileArr i (i.getCs f.cs).toNat false s = (.ok d, u))
    (read : ∀ rc ∈ loadLanes (arrOf d).rows (arrOf d).cols (tileAt i f).1 (tileAt i f).2 (getMask s.ves[ve] f.mask),
      (arrVal s i.task.slot (arrOf d) rc.1 rc.2).2 = .ok) :
    EngineOnly ve ((loadTd f (loadTile (arrOf d).rows (arrOf d).cols (tileAt i f).1 (tileAt i f).2 (getMask s.ves[ve] f.mask)
      (arrVal s i.task.slot (arrOf d))).1 s.ves[ve]).withInst { i with descs := i.descs.put (i.getCs f.cs).toNat d }.next) s (doTld ve f s) := by
  obtain ⟨ready, ok, left⟩ := x
  obtain ⟨p, run⟩ : ∃ p, doTld ve f s = _ := vExec_ready ready ok _
  obtain ⟨_, found'⟩ := tileArr_ok found p
  dsimp only at run
  rw [if_neg (by omega), found'] at run
  dsimp only at run
  have inst : (withPmu p s).ves[ve].inst = some i := (vReady_spec ready).1
  rw [run, modInst_of_inst inst, withPmu_arrVal, withPmu_ves]
  exact loaded_modVe_writes (VecEng.withInst { i with descs := i.descs.put (i.getCs f.cs).toNat d }) (loadTile_ok read) (withPmu_vesKept p s) rfl
    (by rw [VecInst.next_descs_pc]; exact left)

theorem doTld_array (x : Executes s ve 0x01 f i) (even : (i.getCs f.cs).toNat % 2 = 0)
    (found : tileArr i (i.getCs f.cs).toNat false s = (.ok d, u))
    (read : ∀ rc ∈ loadLanes (arrOf d).rows (arrOf d).cols (tileAt i f).1 (tileAt i f).2 (getMask s.ves[ve] f.mask),
      (arrVal u i.task.slot (arrOf d) rc.1 rc.2).2 = .ok) :
    VectorWentOn s (doTld ve f s) ve { i with descs := i.descs.put (i.getCs f.cs).toNat d } ∧
    ∀ r c, r < 32 → c < 64 → (getMask s.ves[ve] f.mask).getLsbD (64 * r + c) = true →
      lane (getTile (doTld ve f s).ves[ve] f.td) (64 * r + c) =
        if 32 * (tileAt i f).1 + r < (arrOf d).rows ∧ 64 * (tileAt i f).2 + c < (arrOf d).cols then
          loadF32 (arrVal u i.task.slot (arrOf d) (32 * (tileAt i f).1 + r) (64 * (tileAt i f).2 + c)).1 else 0 := by
  obtain ⟨rfl, _⟩ := tileArr_ok found u.clock.pmu
  have only := doTld_array_writes x even found read
  refine ⟨only.wentOn rfl, fun r c hr hc active => ?_⟩
  rw [only.engine, getTile_withInst, lane_loadTd f _ _ (by omega) active, lane_loadTile hr hc active]

theorem doTld_entry_writes {a : Nat} (x : Executes s ve 0x01 f i) (odd : (i.getCs f.cs).toNat = a + 1) (even : a % 2 = 0)
    (found : tileEntry i a s = (.ok d, u))
    (read : ∀ rc ∈ loadLanes (eRows d) (eCols d) (tileAt i f).1 (tileAt i f).2 (getMask s.ves[ve] f.mask),
      (entryVal u i.task.slot a d rc.1 rc.2).2 = .ok) :
    EngineOnly ve ((loadTd f (loadTile (eRows d) (eCols d) (tileAt i f).1 (tileAt i f).2 (getMask s.ves[ve] f.mask)
      (entryVal u i.task.slot a d)).1 u.ves[ve]).withInst i.next) u (doTld ve f s) := by
  obtain ⟨ready, ok, left⟩ := x
  obtain ⟨p, run⟩ : ∃ p, doTld ve f s = _ := vExec_ready ready ok _
  obtain ⟨kept, found'⟩ := tileEntry_ok found p
  dsimp only at run
  rw [odd, if_pos (by omega), Nat.add_sub_cancel, found'] at run
  dsimp only at run
  rw [run, withPmu_entryVal, withPmu_ves, ← kept.ves]
  rw [← kept.ves] at read
  exact loaded_writes (loadTile_ok read) (withPmu_vesKept p u)
    ((congrArg (fun v : Vector VecEng 64 => v[ve].inst) kept.ves).trans (vReady_spec ready).1) left

theorem doTld_entry {a : Nat} (x : Executes s ve 0x01 f i) (odd : (i.getCs f.cs).toNat = a + 1) (even : a % 2 = 0)
    (found : tileEntry i a s = (.ok d, u))
    (read : ∀ rc ∈ loadLanes (eRows d) (eCols d) (tileAt i f).1 (tileAt i f).2 (getMask s.ves[ve] f.mask),
      (entryVal u i.task.slot a d rc.1 rc.2).2 = .ok) :
    VectorWentOn u (doTld ve f s) ve i ∧
    ∀ r c, r < 32 → c < 64 → (getMask s.ves[ve] f.mask).getLsbD (64 * r + c) = true →
      lane (getTile (doTld ve f s).ves[ve] f.td) (64 * r + c) =
        if 32 * (tileAt i f).1 + r < eRows d ∧ 64 * (tileAt i f).2 + c < eCols d then
          loadF32 (entryVal u i.task.slot a d (32 * (tileAt i f).1 + r) (64 * (tileAt i f).2 + c)).1 else 0 := by
  have only := doTld_entry_writes x odd even found read
  refine ⟨only.wentOn rfl, fun r c hr hc active => ?_⟩
  have ves := (tileEntry_ok found u.clock.pmu).1.ves
  rw [only.engine, getTile_withInst, lane_loadTd f _ _ (by omega) (by rw [ves]; exact active), lane_loadTile hr hc active]

end

end Sys2Proof.Machine
end

section
/-! SUPPORT. Stores of tiles into arrays and retained entries (spec/04_vector_engines.md R142 to R146, spec/08_memory.md R299, R302). -/

namespace Sys2Proof.Machine

/-! ### Operations that store and leave the vector engines -/

/-- An operation that writes what a task stores, and leaves the vector engines too. -/
structure StoresOnly {α : Type} (f : State → State × α) : Prop extends WritesOnly f where
  ves : ∀ s, (f s).1.ves = s.ves

section
variable {α β : Type} {f : State → State × α}

theorem StoresOnly.pure (a : α) : StoresOnly (fun s => (s, a)) := ⟨.pure a, fun _ => rfl⟩

theorem StoresOnly.bind (hf : StoresOnly f) {g : α → State → State × β} (hg : ∀ a, StoresOnly (g a)) :
    StoresOnly (fun s => g (f s).2 (f s).1) :=
  ⟨hf.toWritesOnly.bind (fun a => (hg a).toWritesOnly), fun s => ((hg _).ves _).trans (hf.ves s)⟩

theorem StoresOnly.map (hf : StoresOnly f) (g : α → β) : StoresOnly (fun s => ((f s).1, g (f s).2)) :=
  hf.bind (fun a => .pure (g a))

theorem StoresOnly.foldl {ι : Type} (l : List ι) {step : State × α → ι → State × α}
    (h : ∀ a i, StoresOnly (fun s => step (s, a) i)) (a : α) : StoresOnly (fun s => l.foldl step (s, a)) := by
  induction l generalizing a with
  | nil => exact .pure a
  | cons i rest ih => exact (h a i).bind ih

/-- An operation that looks at the state first, at a part of it that programmable counters leave. -/
theorem StoresOnly.look {g : β → State → State × α} (h : ∀ b, StoresOnly (g b)) (r : State → β) (blind : ∀ p s, r (withPmu p s) = r s) :
    StoresOnly (fun s => g (r s) s) := by
  refine ⟨⟨fun s => (h _).engines s, fun s => (h _).tasks s, fun p s => ?_⟩, fun s => (h _).ves s⟩
  rw [blind]
  exact (h (r s)).blind p s

end

theorem StoresOnly.join {f : State → State × MStat × Cnt} (hf : StoresOnly f) (a : MStat × Cnt) :
    StoresOnly (fun s => ((f s).1, a.1.and (f s).2.1, a.2.add (f s).2.2)) :=
  hf.map (fun x => (a.1.and x.1, a.2.add x.2))

/-! ### Arrays -/

theorem jobWrite_stores (slot : Fin 64) (va : Nat) (bs : List Byte) : StoresOnly (jobWrite slot va bs) :=
  ⟨jobWrite_writes slot va bs, fun s => jobWrite_changes slot va bs s .ves (by decide)⟩

theorem jobRmw_stores (slot : Fin 64) (va n : Nat) (f : Nat → Nat) :
    StoresOnly (fun s => ((jobRmw slot va n f s).2.2, (jobRmw slot va n f s).2.1)) :=
  ⟨jobRmw_writes slot va n f, fun s => jobRmw_changes slot va n f s .ves (by decide)⟩

theorem putBits_stores (slot : Fin 64) (a : Arr) (piece r c v : Nat) : StoresOnly (putBits slot a piece r c v) := by
  refine ⟨putBits_writes slot a piece r c v, fun s => ?_⟩
  unfold putBits
  dsimp only
  split
  · exact (jobRmw_stores _ _ _ _).ves s
  · exact (jobWrite_stores _ _ _).ves s

theorem writeAll_stores {α : Type} (l : List α) {f : α → State → State × MStat} (h : ∀ x, StoresOnly (f x)) : StoresOnly (writeAll l f) := by
  unfold writeAll
  exact .foldl l (fun a x => (h x).map a.and) _

theorem putBlockIn_stores (slot : Fin 64) (a : Arr) (inside : Nat × Nat → Bool) (piece i b : Nat) (blk : Block) :
    StoresOnly (putBlockIn slot a inside piece i b blk) := by
  have elems := writeAll_stores ((List.zip (List.range 32) blk.q).filter (fun p => inside (a.cell i b p.1)))
    (fun p : Nat × Int => putBits_stores slot a piece (a.cell i b p.1).1 (a.cell i b p.1).2 (ofSigned (fmtBits a.fmt) p.2))
  refine ⟨putBlockIn_writes slot a inside piece i b blk, fun s => ?_⟩
  unfold putBlockIn
  dsimp only
  split
  · exact ((jobWrite_stores _ _ _).ves _).trans (elems.ves s)
  · exact elems.ves s

theorem putValsIn_stores (slot : Fin 64) (a : Arr) (inside : Nat × Nat → Bool) (i b : Nat) (xs : List Val) :
    StoresOnly (putValsIn slot a inside i b xs) := by
  refine ⟨putValsIn_writes slot a inside i b xs, fun s => ?_⟩
  unfold putValsIn
  split
  · exact (putBlockIn_stores _ _ _ _ _ _ _).ves s
  · exact (writeAll_stores _ (fun p : Nat × List Int => putBlockIn_stores slot a inside p.1 i b ⟨_, p.2⟩)).ves s

theorem putVal_stores (slot : Fin 64) (a : Arr) (r c : Nat) (v : Val) : StoresOnly (putVal slot a r c v) := by
  refine ⟨putVal_writes slot a r c v, fun s => ?_⟩
  unfold putVal
  split <;> exact (putBits_stores _ _ _ _ _ _).ves s

theorem storeTile_stores (slot : Fin 64) (x : Arr) (ti tj : Nat) (m : BitVec 2048) (t : Tile) : StoresOnly (storeTile slot x ti tj m t) := by
  unfold storeTile
  by_cases blocked : x.blocked = true
  · simp only [if_pos blocked]
    refine .foldl _ (fun acc ib => ?_) _
    dsimp only
    split
    · exact (putValsIn_stores _ _ _ _ _ _).join acc
    · exact .pure acc
  · simp only [if_neg blocked]
    generalize List.filter _ _ = cells
    exact (StoresOnly.foldl cells (fun acc rc => (putVal_stores _ _ _ _ _).join acc) _).map (fun a : MStat × Cnt => (a.1, a.2.add _))

/-! ### Retained entries (R299, R302) -/

theorem modStash_stores (slot : Fin 64) (f : Stash → Stash) : StoresOnly (fun s => (modStash slot f s, ())) where
  engines _ := rfl
  tasks s := modJob_tasks slot (f := fun j => { j with stash := f j.stash }) (fun _ _ => rfl) s
  blind p _ := ⟨p, rfl⟩
  ves _ := rfl

theorem setEntry_stores (slot : Fin 64) (addr : Nat) (e : Option REntry) : StoresOnly (fun s => (setEntry slot addr e s, ())) :=
  (modStash_stores slot _).bind (fun _ => StoresOnly.look (g := fun now s => ((jobWrite slot addr (leBytes 32 (entryMirror e now)) s).1, ()))
    (fun _ => (jobWrite_stores slot addr _).map (fun _ => ())) (fun s => s.clock.now) (fun _ _ => rfl))

theorem dropEntry_stores (slot : Fin 64) (addr : Nat) (e : REntry) : StoresOnly (fun s => (dropEntry slot addr e s, ())) := by
  have freed : StoresOnly (fun s => (freePages slot e s, ())) := modStash_stores slot _
  have counted : StoresOnly (fun s => (if e.gather then s else countDrop slot (entryTiles e.desc) s, ())) := by
    split
    · exact .pure ()
    · exact modStash_stores slot _
  exact (freed.bind (fun _ => counted)).bind (fun _ => StoresOnly.look (g := fun now s => (setEntry slot addr (some (e.gone now)) s, ()))
    (fun now => setEntry_stores slot addr (some (e.gone now))) (fun s => s.clock.now) (fun _ _ => rfl))

theorem putBlock_stores (slot : Fin 64) (a : Arr) (piece i b : Nat) (blk : Block) : StoresOnly (putBlock slot a piece i b blk) :=
  putBlockIn_stores slot a (fun _ => true) piece i b blk

theorem spillTile_stores (slot : Fin 64) (e : REntry) (ti tj : Nat) (blocks : List Block) : StoresOnly (spillTile slot e ti tj blocks) := by
  unfold spillTile
  refine writeAll_stores _ (fun p => ?_)
  by_cases inside : inFallback (fallbackArr e) (convAxis (eConv e.desc)) (tileBlockPos (convAxis (eConv e.desc)) ti tj p.1) = true
  · simp only [if_pos inside]
    exact putBlock_stores _ _ _ _ _ _
  · simp only [if_neg inside]
    exact .pure _

theorem writeTile_stores (slot : Fin 64) (d : Nat) (p : TilePlace) (blocks : List Block) : StoresOnly (writeTile slot d p blocks) := by
  unfold writeTile
  by_cases raw : p.raw = true
  · simp only [if_pos raw]
    exact writeAll_stores _ (fun b => putBlock_stores slot (rawTile d p.addr) 0 _ _ b.2)
  · simp only [if_neg raw]
    generalize blocks.filter (fun b => b.e != 0) = live
    have packed : StoresOnly (writeAll (List.zip (List.range live.length) live) (fun b => putBlock slot (packedTile d p.addr live.length) 0 b.1 0 b.2)) :=
      writeAll_stores _ (fun b => putBlock_stores slot (packedTile d p.addr live.length) 0 b.1 0 b.2)
    exact (jobWrite_stores slot p.addr (leBytes 8 (tileMask blocks))).bind (fun st => packed.map st.and)

theorem writeIndex_stores (slot : Fin 64) (e : REntry) (ti tj : Nat) (p : TilePlace) : StoresOnly (writeIndex slot e ti tj p) :=
  StoresOnly.look (g := fun va => jobWrite slot va (leBytes 8 (tileIndexBits p))) (fun _ => jobWrite_stores _ _ _)
    (fun s => poolAddr s slot e.gather (e.pages.getD (tileNumber e.desc ti tj / 8192) 0) (8 * (tileNumber e.desc ti tj % 8192)))
    (fun _ _ => rfl)

theorem storeTileAt_stores (slot : Fin 64) (e : REntry) (ti tj : Nat) (p : TilePlace) (blocks : List Block) :
    StoresOnly (storeTileAt slot e ti tj p blocks) := by
  unfold storeTileAt
  by_cases spill : e.spill = true
  · simp only [if_pos spill]
    exact spillTile_stores _ _ _ _ _
  · simp only [if_neg spill]
    exact (writeTile_stores _ _ _ _).bind (fun st => (writeIndex_stores _ _ _ _ _).map st.and)

/-- The entry after a tile of it has arrived at time `now`. -/
def arrivedEntry (ti tj : Nat) (e e' : REntry) (p : TilePlace) (now : Nat) : REntry :=
  let tiles := e'.tiles.put (ti, tj) p
  let full := tiles.length = entryTiles e.desc
  { e' with
    tiles := tiles
    st := if full then (if e.spill then .spilled else .held) else .writing
    time := if full && e.st = .writing then now else e.time }

/-- A tile of an entry is put in its place (R302). -/
def putTile (slot : Fin 64) (addr ti tj : Nat) (blocks : List Block) (e e' : REntry) (p : TilePlace) (now : Nat) (s : State) : State × MStat :=
  let w := storeTileAt slot e' ti tj p blocks s
  (setEntry slot addr (some (arrivedEntry ti tj e e' p now)) (countTile slot p.raw w.1), w.2)

theorem putTile_stores (slot : Fin 64) (addr ti tj : Nat) (blocks : List Block) (e e' : REntry) (p : TilePlace) (now : Nat) :
    StoresOnly (putTile slot addr ti tj blocks e e' p now) :=
  (storeTileAt_stores slot e' ti tj p blocks).bind (fun st => ((modStash_stores slot _).bind (fun _ => setEntry_stores slot addr _)).map (fun _ => st))

/-- A tile of an entry that its writer has not lost, by where it is to lie. -/
def arriveIn (slot : Fin 64) (addr ti tj : Nat) (blocks : List Block) (e : REntry) (size : Nat × Bool) (place : Option (REntry × Nat)) (s : State) :
    State × MStat :=
  match place with
  | none => (dropEntry slot addr e s, .ok)
  | some (e', a) =>
    let s := if e.gather then s else takeStash slot (e'.pages.length - e.pages.length) s
    putTile slot addr ti tj blocks e e' ⟨a, size.1, size.2⟩ s.clock.now s

theorem arriveIn_stores (slot : Fin 64) (addr ti tj : Nat) (blocks : List Block) (e : REntry) (size : Nat × Bool) (place : Option (REntry × Nat)) :
    StoresOnly (arriveIn slot addr ti tj blocks e size place) := by
  cases place with
  | none => exact (dropEntry_stores slot addr e).map (fun _ => MStat.ok)
  | some x =>
    have taken : StoresOnly (fun s => (if e.gather then s else takeStash slot (x.1.pages.length - e.pages.length) s, ())) := by
      split
      · exact .pure ()
      · exact modStash_stores slot _
    exact taken.bind (fun _ => StoresOnly.look (fun now => putTile_stores slot addr ti tj blocks e x.1 ⟨x.2, size.1, size.2⟩ now)
      (fun s => s.clock.now) (fun _ _ => rfl))

/-- Bytes of a tile of an entry as it is stored, and whether it is raw. -/
def arrivedSize (e : REntry) (blocks : List Block) : Nat × Bool := if e.spill then (entryRaw e.desc, true) else tileBytes e.desc blocks

/-- A tile arrives, by the entry that was found at its address. -/
def arriveAt (t : TaskRef) (addr ti tj : Nat) (blocks : List Block) (found : Option REntry) (s : State) : State × MStat :=
  match found with
  | none => (s, .ok)
  | some e =>
    if e.st = .absent || e.writer ≠ some t then (s, .ok)
    else arriveIn t.slot addr ti tj blocks e (arrivedSize e blocks) (placeTile s t.slot e ti tj (arrivedSize e blocks).1) s

theorem tileArrive_eq (t : TaskRef) (addr ti tj : Nat) (blocks : List Block) (s : State) :
    tileArrive t addr ti tj blocks s = arriveAt t addr ti tj blocks (s.jobs[t.slot].stash.entries.find addr) s := by
  rfl

theorem tileArrive_stores (t : TaskRef) (addr ti tj : Nat) (blocks : List Block) : StoresOnly (tileArrive t addr ti tj blocks) := by
  rw [show tileArrive t addr ti tj blocks = _ from funext (tileArrive_eq t addr ti tj blocks)]
  refine StoresOnly.look (fun found => ?_) (fun s => s.jobs[t.slot].stash.entries.find addr) (fun _ _ => rfl)
  unfold arriveAt
  cases found with
  | none => exact .pure _
  | some e =>
    dsimp only
    split
    · exact .pure _
    · exact StoresOnly.look (g := arriveIn t.slot addr ti tj blocks e (arrivedSize e blocks)) (arriveIn_stores t.slot addr ti tj blocks e _)
        (fun s => placeTile s t.slot e ti tj (arrivedSize e blocks).1) (fun _ _ => rfl)

/-! ### TST and TSTS (R142 to R146) -/

theorem vNext_goesOn {v : Fin 64} {s : State} {j : VecInst} (inst : s.ves[v].inst = some j) (left : j.next.pc < j.count) :
    (vNext v s).ves[v] = s.ves[v].withInst j.next ∧ (vNext v s).mem = s.mem ∧ (vNext v s).jobs = s.jobs ∧ (vNext v s).engines = s.engines := by
  rw [vNext_runs inst left]
  exact ⟨modVe_same v (VecEng.withInst j.next) s, rfl, rfl, rfl⟩

/-- An update of a job that leaves its retained entries leaves those of every job. -/
theorem modJob_stash (slot : Fin 64) {f : Job → Job} (hf : ∀ j : Job, (f j).stash = j.stash) (s : State) (k : Fin 64) :
    (modJob slot f s).jobs[k].stash = s.jobs[k].stash := by
  rw [modJob, vmod_getElem]
  split
  · exact hf _
  · rfl

theorem countTask_stash (t : TaskRef) (c : Cnt) (s : State) (k : Fin 64) : (countTask t c s).jobs[k].stash = s.jobs[k].stash := by
  obtain ⟨q, counted⟩ := countTask_pmu t c s
  rw [counted]
  split
  · rfl
  · exact (modJob_stash t.slot (f := fun j => { j with watch := j.watch.count (entryOf s t).watchRec c }) (fun _ => rfl) _ k).trans
      (modJob_stash t.slot (f := fun j => { j with ctl := { j.ctl with counts := j.ctl.counts.add c } }) (fun _ => rfl) s k)

theorem leNat_leBytes (n v : Nat) : leNat (leBytes n v) = v % 256 ^ n := by
  induction n generalizing v with
  | zero => simp [leBytes, leNat, Nat.mod_one]
  | succ n ih =>
    have top : 256 ^ (n + 1) = 256 * 256 ^ n := Nat.pow_succ'
    rw [leBytes, leNat, ih, BitVec.toNat_ofNat, top, Nat.mod_mul]

section
variable {ve : Fin 64} {f : VFields} {s u x : State} {i : VecInst} {d : Nat} {cnt : Cnt}

theorem doTst_stores (run : Executes s ve 0x02 f i) (found : tileArr i (i.getCs f.cs).toNat true s = (.ok d, u))
    (stored : storeTile i.task.slot (arrOf d) (tileAt i f).1 (tileAt i f).2 (getMask s.ves[ve] f.mask) (getTile s.ves[ve] f.ta)
      (modInst ve (fun i => { i with descs := i.descs.put (i.getCs f.cs).toNat d }) u) = (x, .ok, cnt)) :
    (doTst ve f s).mem = x.mem ∧
    (doTst ve f s).ves[ve] = s.ves[ve].withInst { i with descs := i.descs.put (i.getCs f.cs).toNat d }.next := by
  obtain ⟨ready, ok, left⟩ := run
  obtain ⟨p, run⟩ : ∃ p, doTst ve f s = _ := vExec_ready ready ok _
  obtain ⟨rfl, found'⟩ := tileArr_ok found p
  have stores := storeTile_stores i.task.slot (arrOf d) (tileAt i f).1 (tileAt i f).2 (getMask u.ves[ve] f.mask) (getTile u.ves[ve] f.ta)
  rw [modInst_of_inst (vReady_spec ready).1] at stored
  obtain ⟨q, blind⟩ := stores.blind p (modVe ve (VecEng.withInst { i with descs := i.descs.put (i.getCs f.cs).toNat d }) u)
  rw [stored] at blind
  have ves := stores.ves (modVe ve (VecEng.withInst { i with descs := i.descs.put (i.getCs f.cs).toNat d }) u)
  rw [stored] at ves
  have inst : (withPmu p u).ves[ve].inst = some i := (vReady_spec ready).1
  have ran : doTst ve f u = vNext ve (countTask i.task cnt (withPmu q x)) := by
    dsimp only at run
    rw [found'] at run
    dsimp only at run
    rw [modInst_of_inst inst, withPmu_ves] at run
    rw [run, show storeTile i.task.slot (arrOf d) (tileAt i f).1 (tileAt i f).2 (getMask u.ves[ve] f.mask) (getTile u.ves[ve] f.ta)
      (modVe ve (VecEng.withInst { i with descs := i.descs.put (i.getCs f.cs).toNat d }) (withPmu p u)) = _ from blind]
    exact if_neg (not_not_intro rfl)
  have counted := countTask_changes i.task cnt (withPmu q x)
  have engine : (countTask i.task cnt (withPmu q x)).ves[ve] = u.ves[ve].withInst { i with descs := i.descs.put (i.getCs f.cs).toNat d } := by
    rw [counted .ves (by decide), withPmu_ves]
    exact (congrArg (fun v : Vector VecEng 64 => v[ve]) ves).trans (modVe_same ve _ u)
  obtain ⟨after, mem, _, _⟩ := vNext_goesOn (v := ve) (s := countTask i.task cnt (withPmu q x)) (by rw [engine]; rfl)
    (by rw [VecInst.next_descs_pc]; exact left)
  rw [ran]
  exact ⟨mem.trans (counted .mem (by decide)), after.trans (by rw [engine]; rfl)⟩

/-- The values that TSTS hands to a tile of an entry: those of the active lanes inside the entry, and 0 elsewhere. -/
def handedVals (f : VFields) (e : VecEng) (at_ : Nat × Nat) (d r c : Nat) : Val :=
  if (getMask e f.mask).getLsbD (64 * r + c) && decide (32 * at_.1 + r < eRows d ∧ 64 * at_.2 + c < eCols d) then
    f32val (lane (getTile e f.ta) (64 * r + c)) else .zero false

theorem handedVals_eq (f : VFields) (e : VecEng) (at_ : Nat × Nat) (d : Nat) :
    handedVals f e at_ d = fun r c =>
      if (getMask e f.mask).getLsbD (64 * r + c) = true ∧ 32 * at_.1 + r < eRows d ∧ 64 * at_.2 + c < eCols d then
        f32val (lane (getTile e f.ta) (64 * r + c)) else .zero false := by
  funext r c
  simp only [handedVals, Bool.and_eq_true, decide_eq_true_eq]

/-- A task that is the writer of an entry hands a tile to it. -/
def handTile (v : Fin 64) (f : VFields) (i : VecInst) (d : Nat) (s : State) : State :=
  let s := modEntry i.task (fun e => { e with caps := e.caps.put (i.getCs f.cs).toNat d }) s
  let b := tileBlocks d (handedVals f s.ves[v] (tileAt i f) d)
  let w := tileArrive i.task (i.getCs f.cs).toNat (tileAt i f).1 (tileAt i f).2 b.1 s
  let s := countTask i.task b.2 w.1
  if w.2 ≠ .ok then vFault v w.2.code s else vNext v s

theorem doTsts_hands {w : REntry} (x : Executes s ve 0x03 f i)
    (read : jobRead s i.task.slot (i.getCs f.cs).toNat 64 = (⟨leBytes 64 d, .ok⟩, u)) (small : d < 2 ^ 512)
    (good : entryDescOk (i.getCs f.cs).toNat d = true) (fallback : fallbackOk u i.task.slot d = true)
    (row : (tileAt i f).1 < ceilDiv (eRows d) 32) (col : (tileAt i f).2 < ceilDiv (eCols d) 64)
    (held : s.jobs[i.task.slot].stash.entries.find (i.getCs f.cs).toNat = some w) (writer : w.writer = some i.task) :
    ∃ p, doTsts ve f s = handTile ve f i d (withPmu p s) := by
  obtain ⟨ready, ok, _⟩ := x
  obtain ⟨p, run⟩ : ∃ p, doTsts ve f s = _ := vExec_ready ready ok _
  obtain ⟨data, rfl⟩ := jobRead_ok read rfl
  have bytes : 256 ^ 64 = 2 ^ (8 * 64) := by rw [Nat.pow_mul]
  have desc : leNat (leBytes 64 d) = d := by rw [leNat_leBytes, bytes, Nat.mod_eq_of_lt small]
  have data' : peek (withPmu p u) i.task.slot (i.getCs f.cs).toNat 64 = ⟨leBytes 64 d, .ok⟩ := data
  have read' : jobRead (withPmu p u) i.task.slot (i.getCs f.cs).toNat 64 = (⟨leBytes 64 d, .ok⟩, withPmu p u) :=
    Prod.ext data' (if_neg (by rw [data']; exact fun h => by cases h))
  have fallback' : fallbackOk (withPmu p u) i.task.slot d = true := fallback
  have held' : (withPmu p u).jobs[i.task.slot].stash.entries.find (i.getCs f.cs).toNat = some w := held
  have known : ((w.writer == some i.task) || (entryOf (withPmu p u) i.task).caps.find (i.getCs f.cs).toNat == some d) = true := by
    rw [writer, beq_self_eq_true, Bool.true_or]
  refine ⟨p, ?_⟩
  dsimp only at run
  rw [read'] at run
  dsimp only at run
  rw [desc, if_neg (not_not_intro rfl), good, fallback', if_neg (by decide), held'] at run
  dsimp only at run
  rw [if_pos known] at run
  dsimp only at run
  rw [if_neg (by omega)] at run
  exact run

theorem handTile_hands {p : Vector PmuCtr 32} {y : State} (inst : s.ves[ve].inst = some i) (left : i.next.pc < i.count)
    (arrived : tileArrive i.task (i.getCs f.cs).toNat (tileAt i f).1 (tileAt i f).2 (tileBlocks d (handedVals f s.ves[ve] (tileAt i f) d)).1
      (modEntry i.task (fun e => { e with caps := e.caps.put (i.getCs f.cs).toNat d }) s) = (y, .ok)) :
    (handTile ve f i d (withPmu p s)).ves[ve] = s.ves[ve].withInst i.next ∧ (handTile ve f i d (withPmu p s)).engines = s.engines ∧
    (handTile ve f i d (withPmu p s)).mem = y.mem ∧
    (handTile ve f i d (withPmu p s)).jobs[i.task.slot].stash = y.jobs[i.task.slot].stash := by
  have stores := tileArrive_stores i.task (i.getCs f.cs).toNat (tileAt i f).1 (tileAt i f).2 (tileBlocks d (handedVals f s.ves[ve] (tileAt i f) d)).1
  have ves := stores.ves (modEntry i.task (fun e => { e with caps := e.caps.put (i.getCs f.cs).toNat d }) s)
  have engines := stores.engines (modEntry i.task (fun e => { e with caps := e.caps.put (i.getCs f.cs).toNat d }) s)
  obtain ⟨q, blind⟩ := stores.blind p (modEntry i.task (fun e => { e with caps := e.caps.put (i.getCs f.cs).toNat d }) s)
  rw [arrived] at ves engines blind
  obtain ⟨cnt, ran⟩ : ∃ cnt, handTile ve f i d (withPmu p s) = vNext ve (countTask i.task cnt (withPmu q y)) := by
    refine ⟨(tileBlocks d (handedVals f s.ves[ve] (tileAt i f) d)).2, ?_⟩
    have arrived' : tileArrive i.task (i.getCs f.cs).toNat (tileAt i f).1 (tileAt i f).2 (tileBlocks d (handedVals f s.ves[ve] (tileAt i f) d)).1
      (modEntry i.task (fun e => { e with caps := e.caps.put (i.getCs f.cs).toNat d }) (withPmu p s)) = (withPmu q y, .ok) := blind
    have engine : (modEntry i.task (fun e => { e with caps := e.caps.put (i.getCs f.cs).toNat d }) (withPmu p s)).ves = s.ves := rfl
    unfold handTile
    dsimp only
    rw [engine, arrived']
    exact if_neg (not_not_intro rfl)
  have counted := countTask_changes i.task cnt (withPmu q y)
  have engine : (countTask i.task cnt (withPmu q y)).ves[ve] = s.ves[ve] := by
    rw [counted .ves (by decide), withPmu_ves]
    exact congrArg (fun v : Vector VecEng 64 => v[ve]) ves
  obtain ⟨after, mem, jobs, same⟩ := vNext_goesOn (v := ve) (s := countTask i.task cnt (withPmu q y)) (by rw [engine]; exact inst) left
  rw [ran]
  refine ⟨after.trans (by rw [engine]), same.trans ((counted .engines (by decide)).trans engines), mem.trans (counted .mem (by decide)), ?_⟩
  rw [jobs]
  exact countTask_stash _ _ _ _

end

end Sys2Proof.Machine
end

section
/-! SUPPORT. The obligation about instances, loads and stores of vector engines (spec/04_vector_engines.md R133, R141 to R146, R150 to
R153, R158). -/

namespace Sys2Proof.Machine

/-- Settles O46: what each of its commands leaves is `doInstance_spec`, `doPaired_spec`, `doLand_spec`, `doTld_array`, `doTld_entry`,
`doTst_stores`, `doTsts_hands` with `handTile_hands`, `doLdft_loads`, `doLwait_goesOn`, `doLwait_waits` and `doLrel_releases`. -/
theorem vectorInstancesStartLoadAndStore : Obligations.VectorInstancesStartLoadAndStore := by
  refine ⟨?start, ?paired, fun ve s i inst paired drained more room => ⟨_, rfl, doLand_spec inst paired drained more room⟩,
    fun ve f s i d u => ⟨fun x even found read => ⟨_, rfl, doTld_array x even found read⟩,
      fun a x odd even found read => ⟨_, rfl, doTld_entry x odd even found read⟩, fun x cnt run found stored => ?tst,
      fun x y run read small good fallback row col held writer arrived => ?tsts,
      fun b x aligned read good => ⟨_, rfl, doLdft_loads x aligned read good⟩,
      fun x landed groups => ⟨_, rfl, doLwait_goesOn x landed groups⟩, fun x ahead group => ⟨_, rfl, doLwait_waits x ahead group⟩,
      fun x group => ⟨_, rfl, doLrel_releases x group⟩⟩⟩
  case start =>
    intro slot die k ve s n d tot cs back st run more onDie idle mine unpaired on
    obtain ⟨engine, entry, mem, engines⟩ := doInstance_spec st run more onDie idle mine unpaired on
    refine ⟨_, rfl, ?_, fun r l => ?_, fun r => ?_, entry, mem, engines⟩
    · have get := startCs_get cs (BitVec.ofNat 64 tot) (BitVec.ofNat 64 n)
      exact ⟨vectorInstance ⟨slot, die, k⟩ n tot cs (entryOf s ⟨slot, die, k⟩).desc, congrArg VecEng.inst engine, rfl, rfl, rfl, rfl, rfl, rfl,
        get 62, get 63, fun c low => (get c).trans ((if_neg (fun eq => absurd (eq ▸ low) (by decide))).trans
          (if_neg (fun eq => absurd (eq ▸ low) (by decide))))⟩
    · rw [engine]; exact lane_clearVe _ _ _ r l
    · rw [engine]; rfl
  case paired =>
    intro ve s eng u e w waits idle mine on working instrs
    obtain ⟨engine, engines, mem⟩ := doPaired_spec waits idle mine on working instrs
    obtain ⟨unit, first, n0, count, tag, groups, context⟩ := pairScalars_get e w u.unit
    refine ⟨_, rfl, ⟨pairedInstance u e w, congrArg VecEng.inst engine, rfl, rfl, rfl, rfl, rfl, rfl, ?_⟩, fun r l => ?_, engines, mem⟩
    · simp only [pairedInstance_get]
      exact ⟨unit, first, n0, count, tag, groups, fun c low => context c.toNat low⟩
    · rw [engine]; exact lane_clearVe _ _ _ r l
  case tst =>
    obtain ⟨mem, engine⟩ := doTst_stores run found stored
    refine ⟨_, rfl, mem, ?_⟩
    rw [engine]
    exact ⟨rfl, rfl, rfl⟩
  case tsts =>
    obtain ⟨p, ran⟩ := doTsts_hands run read small good fallback row col held writer
    rw [← handedVals_eq] at arrived
    obtain ⟨ready, _, left⟩ := run
    obtain ⟨engine, engines, mem, stash⟩ := handTile_hands (p := p) (vReady_spec ready).1 left arrived
    refine ⟨_, congrArg Host.Outcome.next ran, ?_, ?_, engines, mem, stash⟩
    · rw [engine]; rfl
    · rw [engine]; rfl

end Sys2Proof.Machine
end

section
/-! SUPPORT. A WAIT task that ends in fault while another job's CLOSE names it (spec/05_tasks_stroke_riggers.md R197, R209,
spec/12_collectives_and_mapping.md R423, R424), and the obligation about tasks that it refutes. -/

namespace Sys2Proof.Machine

/-- `crossedClose`, but that the task of job 1 which the CLOSE of job 0 names waits on counter 0 for 5 arrivals, with a deadline. -/
def crossedWait : State := modEntry closerTask (fun e => { e with run := .wait 0 5 (some 100) }) crossedClose

/-- The time-out of the WAIT task settles job 0, whose bucket half closes and completes the faulted task. -/
theorem crossedWait_frees : (entryOf (doWaitTimeout closerTask crossedWait) closerTask).st = .free 0 := by
  decide +kernel

/-- The WAIT task is the one task of its job that waits. -/
theorem crossedWait_alone (d : Fin 4) (p : Nat × Entry) (hp : p ∈ (jobDie crossedWait 1 d).entries) :
    (d = 0 ∧ p.1 = (7#16).toNat) ∨ ∀ a b c, p.2.run ≠ .wait a b c := by
  have alone : ∀ d : Fin 4, ∀ p ∈ (jobDie crossedWait 1 d).entries, d = 0 ∧ p.1 = (7#16).toNat := by
    decide +kernel
  exact .inl (alone d p hp)

/-- Refutes O40: in `crossedWait` the premises of the clause on WAIT_TIMEOUT hold and the task is not left FAULTED. They speak of the
buckets and waits of the task's own job, where a fault settles every job that has a fault due (R102), and in a state of which nothing
else is assumed a half of such a job's bucket may name the faulting task as its CLOSE. -/
theorem not_tasksRunFromAdmissionToTheirEnd : ¬ Obligations.TasksRunFromAdmissionToTheirEnd := by
  unfold Obligations.TasksRunFromAdmissionToTheirEnd
  intro h
  obtain ⟨_, _, _, timesOut⟩ := h
  obtain ⟨t, run, faulted, _⟩ := timesOut 1 0 7 crossedWait 0 100 5 (by decide +kernel) (by decide +kernel) (by decide +kernel)
    (by decide +kernel) (by decide +kernel) crossedWait_alone (by decide +kernel) (by decide +kernel) (by decide +kernel)
  obtain rfl : doWaitTimeout closerTask crossedWait = t := Host.Outcome.next.inj run
  exact absurd (crossedWait_frees.symm.trans faulted) (by decide)

end Sys2Proof.Machine
end

section
/-! SUPPORT. A page that does not start at a sector (spec/08_memory.md R271, R274, R281), and the obligation about cores and riggers
that it refutes. -/

namespace Sys2Proof.Machine

/-- Job 0 has a memory key and one page, whose address 1 MAP would refuse (R275, R569): the job's sector at 64 begins at the last byte
of a sector of its frame. Its task runs on rigger core 0, with 64 in x1, and offset 0 and a length of 64 in x2. -/
def skewedPage : State :=
  let s := modCtl 0 (fun c => { c with st := .running, incarnation := 1, grants := [(5, 1)], pages := [⟨1, false, 5, true, true⟩] }) State.reset
  let s := modSec (fun c => { c with memTables := Vector.replicate 20 (Vector.replicate 64 (some 0)) }) s
  let s := { s with mem := { s.mem with sectors := [(5 * frameBytes / 64, { tag := jobTag s 0, zero := false, poison := false })] } }
  modRig 0 (fun k => { k with task := some ⟨0, 0, 7⟩, regs := { k.regs with x := (k.regs.x.set 1 64).set 2 (64 <<< 32) } }) s

/-- The read of those 64 bytes is cut at the end of the sector of the frame. -/
theorem skewedPage_short : (peek skewedPage 0 64 64).st = .ok ∧ (peek skewedPage 0 64 64).data.length = 1 := by
  decide +kernel

theorem scrGet_length (s : State) (r : Fin 64) (off n : Nat) : (scrGet s r off n).length = n := by
  simp [scrGet]

/-- Refutes O42: in `skewedPage` the premises of the clause on SLD hold, and the 64 bytes of scratch are not the one byte that job memory
reads. The statement does not ask that pages start at multiples of their size, as MAP leaves them (R275). -/
theorem not_coresAndRiggersExecute : ¬ Obligations.CoresAndRiggersExecute := by
  unfold Obligations.CoresAndRiggersExecute
  intro h
  obtain ⟨_, instructions⟩ := h
  obtain ⟨loads, _⟩ := instructions 0 ⟨0, 0, 7⟩ 0 1 2 skewedPage 64 (64 <<< 32) (by decide +kernel) (by decide +kernel)
    (by decide +kernel) (by decide +kernel)
  have length : fld (64 <<< 32) 49 32 = 64 := by decide
  rw [length] at loads
  obtain ⟨ok, short⟩ := skewedPage_short
  obtain ⟨t, _, moved, _⟩ := loads (by decide) ok
  have lengths := congrArg List.length moved
  rw [scrGet_length, short] at lengths
  exact absurd lengths (by decide)

end Sys2Proof.Machine
end

section
/-! SUPPORT. What the ends of tasks and programs leave (spec/05_tasks_stroke_riggers.md R186 to R212): a fault, a completion and what
settles with them start no program, bring no job back from TORN, open no flow and leave the keys. -/

namespace Sys2Proof.Machine

/-! ### Jobs and states that wind down -/

/-- A job goes on without a new routine or flow and under the same identity; it stays TORN, with the cause of its teardown. -/
structure Job.WindsDown (a b : Job) : Prop where
  routine : ∀ d : Fin 4, a.tasks.dies[d].routine = none → b.tasks.dies[d].routine = none
  torn : a.ctl.st = .torn → b.ctl.st = .torn
  cause : b.ctl.tearCause = a.ctl.tearCause
  jobId : b.vmt.jobId = a.vmt.jobId
  flows : a.vmt.flows = [] → b.vmt.flows = []

theorem Job.WindsDown.refl (a : Job) : a.WindsDown a := ⟨fun _ h => h, id, rfl, rfl, id⟩

theorem Job.WindsDown.trans {a b c : Job} (h : a.WindsDown b) (g : b.WindsDown c) : a.WindsDown c :=
  ⟨fun d hd => g.routine d (h.routine d hd), fun ht => g.torn (h.torn ht), g.cause.trans h.cause, g.jobId.trans h.jobId,
    fun hf => g.flows (h.flows hf)⟩

/-- The keys of jobs, their copies in the engines' tables and the ephemeral keys are the same. -/
def Security.SameKeys (a b : Security) : Prop :=
  b.jobKeys = a.jobKeys ∧ b.memTables = a.memTables ∧ b.pktTables = a.pktTables ∧ b.eph = a.eph

theorem Security.SameKeys.refl (a : Security) : a.SameKeys a := ⟨rfl, rfl, rfl, rfl⟩

theorem Security.SameKeys.trans {a b c : Security} (h : a.SameKeys b) (g : b.SameKeys c) : a.SameKeys c := by
  obtain ⟨jobKeys, memTables, pktTables, eph⟩ := h
  obtain ⟨jobKeys', memTables', pktTables', eph'⟩ := g
  exact ⟨jobKeys'.trans jobKeys, memTables'.trans memTables, pktTables'.trans pktTables, eph'.trans eph⟩

/-- Every job winds down, no rigger core takes a program, and the keys stay. -/
structure WindsDown (s t : State) : Prop where
  job : ∀ i : Fin 64, s.jobs[i].WindsDown t.jobs[i]
  rig : ∀ r : Fin 64, s.rigs[r].task = none → t.rigs[r].task = none
  keys : s.sec.SameKeys t.sec

theorem WindsDown.of_eq {s t : State} (jobs : t.jobs = s.jobs) (rigs : t.rigs = s.rigs) (sec : t.sec = s.sec) : WindsDown s t :=
  ⟨fun i => by rw [jobs]; exact .refl _, fun r h => by rw [rigs]; exact h, by rw [sec]; exact .refl _⟩

theorem WindsDown.refl (s : State) : WindsDown s s := .of_eq rfl rfl rfl

theorem WindsDown.trans {s t u : State} (h : WindsDown s t) (g : WindsDown t u) : WindsDown s u :=
  ⟨fun i => (h.job i).trans (g.job i), fun r hr => g.rig r (h.rig r hr), h.keys.trans g.keys⟩

/-- What leaves jobs, rigger cores and keys winds down. -/
theorem WindsDown.of_changes {l : List Part} {s t : State} (h : Changes l s t)
    (kept : Part.jobs ∉ l ∧ Part.rigs ∉ l ∧ Part.sec ∉ l) : WindsDown s t :=
  .of_eq (h .jobs kept.1) (h .rigs kept.2.1) (h .sec kept.2.2)

theorem WindsDown.ite {c : Prop} [Decidable c] {s t u : State} (yes : WindsDown s t) (no : WindsDown s u) : WindsDown s (if c then t else u) := by
  split
  · exact yes
  · exact no

theorem WindsDown.forEach {α : Type} (l : List α) (f : α → State → State) (h : ∀ a t, WindsDown t (f a t)) (s : State) :
    WindsDown s (forEach l f s) :=
  forEach_keeps (P := WindsDown s) l f (fun a t ht => ht.trans (h a t)) s (.refl s)

/-! ### Updates -/

section
variable (slot : Fin 64) (die : Fin 4) (s : State)

theorem modJob_windsDown (f : Job → Job) (h : (s.jobs[slot]).WindsDown (f s.jobs[slot])) : WindsDown s (modJob slot f s) := by
  refine ⟨fun i => ?_, fun _ hr => hr, .refl _⟩
  rw [modJob, vmod_getElem]
  split
  next same => subst same; exact h
  next => exact .refl _

/-- An update of what a job keeps beside its identity, its routines and its flows. -/
theorem modJob_windsDown_of_same (f : Job → Job) (same : ∀ j, (f j).ctl = j.ctl ∧ (f j).tasks = j.tasks ∧ (f j).vmt = j.vmt) :
    WindsDown s (modJob slot f s) := by
  obtain ⟨ctl, tasks, vmt⟩ := same s.jobs[slot]
  exact modJob_windsDown slot s f ⟨fun d h => by rw [tasks]; exact h, fun h => by rw [ctl]; exact h, by rw [ctl], by rw [vmt],
    fun h => by rw [vmt]; exact h⟩

theorem modDie_windsDown (f : JobDie → JobDie) (h : ∀ d : JobDie, d.routine = none → (f d).routine = none) :
    WindsDown s (modDie slot die f s) := by
  refine modJob_windsDown slot s _ ⟨fun d none => ?_, id, rfl, rfl, id⟩
  dsimp only
  rw [vmod_getElem]
  split
  · exact h _ none
  · exact none

theorem modCtl_windsDown (f : JobCtl → JobCtl) (torn : (ctl s slot).st = .torn → (f (ctl s slot)).st = .torn)
    (cause : ∀ c : JobCtl, (f c).tearCause = c.tearCause) : WindsDown s (modCtl slot f s) :=
  modJob_windsDown slot s _ ⟨fun _ h => h, torn, cause _, rfl, id⟩

theorem modVmt_windsDown (f : JobVmt → JobVmt) (jobId : ∀ v : JobVmt, (f v).jobId = v.jobId)
    (flows : ∀ v : JobVmt, v.flows = [] → (f v).flows = []) : WindsDown s (modVmt slot f s) :=
  modJob_windsDown slot s _ ⟨fun _ h => h, id, rfl, jobId _, flows _⟩

theorem modTotals_windsDown (f : Totals → Totals) : WindsDown s (modTotals slot f s) :=
  modJob_windsDown_of_same slot s (fun j => { j with totals := f j.totals }) (fun _ => ⟨rfl, rfl, rfl⟩)

theorem modWatch_windsDown (f : Watch → Watch) : WindsDown s (modWatch slot f s) :=
  modJob_windsDown_of_same slot s (fun j => { j with watch := f j.watch }) (fun _ => ⟨rfl, rfl, rfl⟩)

theorem modStash_windsDown (f : Stash → Stash) : WindsDown s (modStash slot f s) :=
  modJob_windsDown_of_same slot s (fun j => { j with stash := f j.stash }) (fun _ => ⟨rfl, rfl, rfl⟩)

theorem modBuckets_windsDown (f : AMap (Nat × Bool) BucketHalf → AMap (Nat × Bool) BucketHalf) : WindsDown s (modBuckets slot f s) :=
  modJob_windsDown_of_same slot s (fun j => { j with buckets := f j.buckets }) (fun _ => ⟨rfl, rfl, rfl⟩)

theorem modTag_windsDown (tag : Fin 64) (f : Tag → Tag) : WindsDown s (modTag slot tag f s) :=
  modJob_windsDown slot s _ ⟨fun _ h => h, id, rfl, rfl, id⟩

theorem modEntry_windsDown (t : TaskRef) (f : Entry → Entry) : WindsDown s (modEntry t f s) :=
  modDie_windsDown _ _ _ _ (by exact fun _ none => none)

theorem makeReady_eq (t : TaskRef) :
    makeReady t s = modEntry t (fun e => { e with st := .ready s.stamps }) { s with stamps := s.stamps + 1 } := rfl

theorem makeReady_windsDown (t : TaskRef) : WindsDown s (makeReady t s) := by
  rw [makeReady_eq]
  refine WindsDown.trans ?_ (modEntry_windsDown _ _ _)
  exact .of_eq rfl rfl rfl

theorem modVe_windsDown (v : Fin 64) (f : VecEng → VecEng) : WindsDown s (modVe v f s) := .of_eq rfl rfl rfl

theorem modRig_windsDown (r : Fin 64) (f : Rigger → Rigger) (h : ∀ k : Rigger, k.task = none → (f k).task = none) :
    WindsDown s (modRig r f s) := by
  refine ⟨fun _ => .refl _, fun q hq => ?_, .refl _⟩
  rw [modRig, vmod_getElem]
  split
  · exact h _ hq
  · exact hq

/-- What follows the move of a job to a state: its record in the log, and its interrupts. -/
theorem setJob_after (st : JobState) :
    Changes [.logs, .host, .out] (modCtl slot (fun c => { c with st := st, since := s.clock.now }) s) (setJob slot st s) := by
  have logged := (logEvent_changes 0x0B (some slot) st.code (ctl (modCtl slot (fun c => { c with st := st, since := s.clock.now }) s) slot).tearCause.toNat
    (modCtl slot (fun c => { c with st := st, since := s.clock.now }) s)).mono (l' := [.logs, .host, .out]) (by decide)
  have raised : ∀ fn c t, Changes [.logs, .host, .out] t (raiseCause fn c t) := fun fn c t => (raiseCause_changes fn c t).mono (by decide)
  unfold setJob
  cases st with
  | paused =>
    dsimp only
    split
    · exact (logged.trans (raised _ _ _)).trans (raised _ _ _)
    · exact logged.trans (raised _ _ _)
  | torn => exact (logged.trans (raised _ _ _)).trans (raised _ _ _)
  | _ => exact logged

/-- A job that does not leave TORN may change its state. -/
theorem setJob_windsDown (st : JobState) (h : jobSt s slot = .torn → st = .torn) : WindsDown s (setJob slot st s) :=
  (modCtl_windsDown slot s (fun c => { c with st := st, since := s.clock.now }) h (fun _ => rfl)).trans (.of_changes (setJob_after slot s st) (by decide))

/-! ### Final replies -/

/-- The Umpire's state is as it was, but for the count of MGMT frames that were sent. -/
def SecKept (s t : State) : Prop := t.sec = { s.sec with mgmtSent := t.sec.mgmtSent }

theorem SecKept.of_eq {s t : State} (h : t.sec = s.sec) : SecKept s t := by rw [SecKept, h]

theorem SecKept.trans {s t u : State} (h : SecKept s t) (g : SecKept t u) : SecKept s u := by
  unfold SecKept at h g ⊢
  rw [g, h]

theorem answer_secKept (fn : Fin 65) (mb : Fin 16) (mgmt : Option (Fin 32 × BitVec 18)) (img : BitVec 2048) (final : Bool) :
    SecKept s (answer fn mb mgmt img final s) := by
  unfold answer mgmtReply sendMgmtOn
  split
  · split
    · exact .of_eq rfl
    · exact SecKept.trans (t := { s with sec := { s.sec with mgmtSent := s.sec.mgmtSent + 1 } }) rfl (.of_eq (sendTo_changes _ _ _ _ _ _ .sec (by decide)))
  · exact .of_eq (writeReply_changes _ _ _ _ _ .sec (by decide))

theorem finishBg_secKept (c : BgCmd) (b : ReplyBody) : SecKept s (finishBg c b s) :=
  SecKept.trans (s := s) (t := { s with cox := { s.cox with running := s.cox.running.filter (fun d => !(d == c)) } }) (.of_eq rfl) (answer_secKept _ _ _ _ _ _)

theorem finishAll_secKept (f : BgCmd → Bool) (b : ReplyBody) : SecKept s (finishAll f b s) :=
  forEach_keeps (P := SecKept s) _ _ (fun c t ht => ht.trans (finishBg_secKept t c b)) s (.of_eq rfl)

theorem JobKept.windsDown {a b : Job} (h : JobKept a b) : a.WindsDown b := by
  unfold JobKept at h
  rw [h]
  exact ⟨fun _ h => h, id, rfl, rfl, id⟩

theorem SecKept.sameKeys {s t : State} (h : SecKept s t) : s.sec.SameKeys t.sec := by
  unfold SecKept at h
  rw [h]
  exact ⟨rfl, rfl, rfl, rfl⟩

theorem finishAll_windsDown (f : BgCmd → Bool) (b : ReplyBody) : WindsDown s (finishAll f b s) where
  job i := (finishAll_jobsKept f b s i).windsDown
  rig r h := by rw [finishAll_changes f b s .rigs (by decide)]; exact h
  keys := (finishAll_secKept s f b).sameKeys

/-! ### Memory and records -/

theorem setStream_windsDown (sc : Option (Fin 64)) (f : Stream → Stream) : WindsDown s (setStream sc die f s) := by
  unfold setStream
  split
  · exact modCtl_windsDown _ _ _ id (by exact fun _ => rfl)
  · exact .of_eq rfl rfl rfl

theorem trace_windsDown (sc : Option (Fin 64)) (cls kind payload : Nat) : WindsDown s (trace sc die cls kind payload s) := by
  unfold trace
  split
  · exact setStream_windsDown _ _ _ _
  · exact .refl s

theorem dropLines_windsDown (sector : Nat) : WindsDown s (dropLines slot sector s) :=
  WindsDown.trans (t := { s with mem := { s.mem with lines := s.mem.lines.filter (fun l => !(l.slot == slot && l.sector == sector)) } })
    (.of_eq rfl rfl rfl) (modJob_windsDown slot _ _ ⟨fun _ h => by simpa using h, id, rfl, rfl, id⟩)

theorem jobWrite_windsDown (va : Nat) (bs : List Byte) : WindsDown s (jobWrite slot va bs s).1 := by
  rw [jobWrite_eq]
  split
  · exact .refl s
  · refine List.foldlRecOn (motive := fun acc : State × MStat => WindsDown s acc.1) _ _ ?_ ?_
    · exact .of_changes (countWrites_changes slot va bs.length s) (by decide)
    intro acc h c _
    exact (h.trans (.of_changes (writePart_changes _ _ _ _) (by decide))).trans (dropLines_windsDown _ _ _)

theorem jobRead_windsDown (va len : Nat) : WindsDown s (jobRead s slot va len).2 := .of_changes (jobRead_changes _ _ _ _) (by decide)

theorem jobRmw_windsDown (va n : Nat) (f : Nat → Nat) : WindsDown s (jobRmw slot va n f s).2.2 := by
  cases m : mapped s slot va n true true with
  | false => rw [jobRmw_unmapped f m]; exact .refl s
  | true =>
    by_cases ok : (peek s slot va n).st = .ok
    · rw [jobRmw_ok f m ok]; exact jobWrite_windsDown _ _ _ _
    · rw [jobRmw_fails f m ok]; exact jobRead_windsDown _ _ _ _

theorem addCounter_windsDown (n : Nat) : WindsDown s (addCounter slot n s).1 := jobRmw_windsDown _ _ _ _ _

theorem dropEvent_windsDown : WindsDown s (dropEvent slot die s) := modDie_windsDown _ _ _ _ (by exact fun _ none => none)

theorem fireQueue_windsDown : WindsDown s (fireQueue slot die s) := by
  unfold fireQueue
  split
  · exact (modDie_windsDown _ _ _ _ (by exact fun _ none => none)).trans (.of_changes (fireVector_changes _ _ _) (by decide))
  · exact .refl s

theorem event_windsDown (r : EvRec) : WindsDown s (event slot die r s) := by
  unfold event
  dsimp only
  split
  · exact .refl s
  · split
    · exact dropEvent_windsDown _ _ _
    · split
      · exact ((jobWrite_windsDown _ _ _ _).trans (modDie_windsDown _ _ _ _ (by exact fun _ none => none))).trans (fireQueue_windsDown _ _ _)
      · exact (jobWrite_windsDown _ _ _ _).trans (dropEvent_windsDown _ _ _)

theorem pmuCount_windsDown (sl : Option (Fin 64)) (ev bit n : Nat) : WindsDown s (pmuCount die sl ev bit n s) :=
  .of_changes (pmuCount_changes _ _ _ _ _ _) (by decide)

/-! ### Retained entries -/

theorem setEntry_windsDown (addr : Nat) (e : Option REntry) : WindsDown s (setEntry slot addr e s) :=
  (modStash_windsDown _ _ _).trans (jobWrite_windsDown _ _ _ _)

theorem dropEntry_windsDown (addr : Nat) (e : REntry) : WindsDown s (dropEntry slot addr e s) := by
  unfold dropEntry
  dsimp only
  split
  · exact (modStash_windsDown _ _ _).trans (setEntry_windsDown _ _ _ _)
  · exact ((modStash_windsDown _ _ _).trans (modStash_windsDown _ _ _)).trans (setEntry_windsDown _ _ _ _)

theorem writerEnds_windsDown (t : TaskRef) : WindsDown s (writerEnds t s) := by
  refine WindsDown.forEach _ _ (fun p u => ?_) s
  split
  · exact dropEntry_windsDown _ _ _ _
  · exact modStash_windsDown _ _ _

theorem readerDone_windsDown (addr : Nat) : WindsDown s (readerDone slot addr s) := by
  unfold readerDone
  split
  · exact .refl s
  · split
    · split
      · exact (modStash_windsDown _ _ _).trans (setEntry_windsDown _ _ _ _)
      · exact setEntry_windsDown _ _ _ _
    · exact .refl s

/-! ### Units -/

theorem addUse_windsDown (since : Nat) : WindsDown s (addUse slot die since s) := modDie_windsDown _ _ _ _ (by exact fun _ none => none)

theorem unbindEngine_windsDown (e : Fin 68) : WindsDown s (unbindEngine e s) := by
  unfold unbindEngine
  split
  · exact .refl s
  · exact (addUse_windsDown _ _ _ _).trans (.of_eq rfl rfl rfl)

theorem setEngine_windsDown (e : Fin 68) (logical : Byte) (st : BitVec 4) : WindsDown s (setEngine e logical st s) := by
  have logged : WindsDown s (logEvent 0x05 none e.val (s.engines[e].st.toNat + st.toNat <<< 4)
      (modEngine e (fun k => { k with logical := logical, st := st }) s)) :=
    (WindsDown.of_changes (modEngine_changes e _ s) (by decide)).trans (.of_changes (logEvent_changes _ _ _ _ _) (by decide))
  unfold setEngine
  dsimp only
  split
  · exact logged
  · exact logged.trans (.of_changes (recordEngine_changes _ _ _ _) (by decide))

theorem splitMark_windsDown : WindsDown s (splitMark die s) :=
  WindsDown.forEach _ _ (fun _ t => WindsDown.forEach _ _ (fun _ _ => modEntry_windsDown _ _ _) t) s

theorem fenceIdle_windsDown (e : Fin 68) : WindsDown s (fenceIdle e s) := by
  have fenced := (((unbindEngine_windsDown s e).trans (.of_changes (modEngine_changes e (fun k => { k with fence := false }) _) (by decide))).trans
    (setEngine_windsDown _ e 0xFF meFENCED))
  have noted : ∀ v, WindsDown s (raiseCause pf0 1 (logError 0x04 none e.val v (setEngine e 0xFF meFENCED
      (modEngine e (fun k => { k with fence := false }) (unbindEngine e s))))) :=
    fun v => (fenced.trans (.of_changes (logError_changes _ _ _ _ _) (by decide))).trans (.of_changes (raiseCause_changes _ _ _) (by decide))
  unfold fenceIdle
  dsimp only
  cases spareOf s (engineDie e) with
  | none => exact (noted _).trans (splitMark_windsDown _ _)
  | some k => exact ((noted _).trans (.of_changes (modEngine_changes k _ _) (by decide))).trans (setEngine_windsDown _ _ _ _)

theorem dropUnits_windsDown (p : MatUnit → Bool) (e : Fin 68) : WindsDown s (dropUnits p e s) := by
  have returned : ∀ us, WindsDown s (modPower (Power.giveBack (.matrix e)) (modEngine e (fun k => { k with units := us }) s)) := fun _ => .of_eq rfl rfl rfl
  unfold dropUnits
  dsimp only
  split
  · exact .refl s
  · split
    · exact .of_eq rfl rfl rfl
    · split
      · exact (returned _).trans (fenceIdle_windsDown _ _)
      · exact returned _

theorem endBound_windsDown (t : TaskRef) (e : Fin 68) : WindsDown s (endBound t e s) := by
  unfold endBound
  split
  · exact .refl s
  · split
    · exact .of_eq rfl rfl rfl
    · exact unbindEngine_windsDown _ _

theorem freeVe_windsDown (v : Fin 64) : WindsDown s (freeVe v s) := by
  unfold freeVe
  split <;> exact .of_eq rfl rfl rfl

theorem unbindVe_windsDown (v : Fin 64) : WindsDown s (unbindVe v s) := by
  unfold unbindVe
  split
  · exact .refl s
  · exact (addUse_windsDown _ _ _ _).trans (.of_eq rfl rfl rfl)

theorem freeRig_windsDown (r : Fin 64) : WindsDown s (freeRig r s) := by
  unfold freeRig
  split
  · exact .refl s
  · exact (addUse_windsDown _ _ _ _).trans (modRig_windsDown _ _ _ (fun _ _ => rfl))

theorem detachRequests_windsDown (t : TaskRef) : WindsDown s (detachRequests t s) :=
  modVmt_windsDown _ _ _ (fun _ => rfl) (fun _ none => by simp [none])

theorem returnStreams_windsDown (t : TaskRef) : WindsDown s (returnStreams t s) := by
  refine WindsDown.forEach _ _ (fun k u => ?_) s
  split
  · split
    · exact .of_changes (endStream_streams _ _ _).changes (by decide)
    · exact .refl u
  · exact .refl u

theorem freeUnits_windsDown (t : TaskRef) : WindsDown s (freeUnits t s) := by
  have begun : WindsDown s (returnStreams t (detachRequests t { s with claims := s.claims.filter (fun c => !(c.task == t)) })) :=
    (WindsDown.of_eq (s := s) (t := { s with claims := s.claims.filter (fun c => !(c.task == t)) }) rfl rfl rfl).trans
      ((detachRequests_windsDown _ _).trans (returnStreams_windsDown _ _))
  have dropped := begun.trans (.forEach (List.finRange 68) _ (fun e u => dropUnits_windsDown u (fun k => k.task == t) e) _)
  have vesFreed := dropped.trans (.forEach (List.finRange 64)
    (fun v st => if (st.ves[v].inst.map (·.task)) = some t then freeVe v st else st)
    (fun v u => .ite (freeVe_windsDown u v) (.refl u)) _)
  have unbound := vesFreed.trans (.forEach (List.finRange 68) _ (fun e u => endBound_windsDown u t e) _)
  have vesUnbound := unbound.trans (.forEach (List.finRange 64) (fun v st => if st.ves[v].bound = some t then unbindVe v st else st)
    (fun v u => .ite (unbindVe_windsDown u v) (.refl u)) _)
  have rigsFreed := vesUnbound.trans (.forEach (List.finRange 64) (fun r st => if st.rigs[r].task = some t then freeRig r st else st)
    (fun r u => .ite (freeRig_windsDown u r) (.refl u)) _)
  refine rigsFreed.trans (modDie_windsDown _ _ _ _ (fun d none => ?_))
  dsimp only
  split
  · rfl
  · exact none

theorem serveTime_windsDown : WindsDown s (serveTime slot die s) := modDie_windsDown _ _ _ _ (by exact fun _ none => none)

end


/-! ### Ends of tasks -/

section
variable (slot : Fin 64) (die : Fin 4) (s : State)

theorem traceEnd_windsDown (t : TaskRef) (d cause : Nat) (status : BitVec 8) : WindsDown s (traceEnd t d cause status s) :=
  trace_windsDown _ _ _ _ _ _

theorem endFaulted_windsDown (t : TaskRef) (cause : Nat) (status : BitVec 8) (detail : Nat) : WindsDown s (endFaulted t cause status detail s) := by
  have freed : WindsDown s (writerEnds t (freeUnits t s)) := (freeUnits_windsDown s t).trans (writerEnds_windsDown _ t)
  unfold endFaulted
  exact ((((freed.trans (modEntry_windsDown _ _ _)).trans (serveTime_windsDown _ _ _)).trans (event_windsDown _ _ _ _)).trans
    (traceEnd_windsDown _ _ _ _ _)).trans (pmuCount_windsDown _ _ _ _ _ _)

theorem faultClosers_windsDown : WindsDown s (faultClosers slot s) := by
  refine WindsDown.forEach _ _ (fun b u => ?_) s
  split
  · exact .refl u
  · refine WindsDown.trans ?_ (endFaulted_windsDown _ _ _ _ _)
    exact modJob_windsDown_of_same slot u (fun j => { j with buckets := j.buckets.put b.1 { b.2 with closer := none } })
      (fun _ => ⟨rfl, rfl, rfl⟩)

theorem pauseCheck_windsDown : WindsDown s (pauseCheck slot s) := by
  unfold pauseCheck
  split
  next drained =>
    have left : jobSt s slot = .torn → JobState.paused = .torn := fun torn => by simp [torn] at drained
    exact (setJob_windsDown slot s _ left).trans (finishAll_windsDown _ _ _)
  next => exact .refl s

theorem jobFault_windsDown : WindsDown s (jobFault slot s) := by
  unfold jobFault drainJob
  split
  next running =>
    have left : jobSt s slot = .torn → JobState.draining = .torn := by rw [running]; exact fun torn => nomatch torn
    exact ((setJob_windsDown slot s _ left).trans (faultClosers_windsDown _ _)).trans (pauseCheck_windsDown _ _)
  next => exact pauseCheck_windsDown _ _

theorem faultCore_windsDown (t : TaskRef) (cause : Nat) (status : BitVec 8) (detail : Nat) : WindsDown s (faultCore t cause status detail s) :=
  (endFaulted_windsDown _ _ _ _ _).trans (jobFault_windsDown _ _)

theorem stray_windsDown (t : TaskRef) (gen : BitVec 6) : WindsDown s (stray t gen s) :=
  (event_windsDown _ _ _ _).trans (jobFault_windsDown _ _)

theorem decrement_windsDown (t : TaskRef) (gen : BitVec 6) : WindsDown s (decrement t gen s) := by
  have counted : WindsDown s (addDepOut t.slot t.die 1 s) := modTotals_windsDown _ _ _
  unfold decrement
  split
  · exact .refl s
  · dsimp only
    split
    · split
      · exact modEntry_windsDown _ _ _
      · exact stray_windsDown _ _ _
    · split
      · split
        · exact counted.trans (makeReady_windsDown _ _)
        · exact counted.trans (modEntry_windsDown _ _ _)
      · exact stray_windsDown _ _ _
    · exact stray_windsDown _ _ _

theorem actSucc_windsDown (k x : Nat) : WindsDown s (actSucc slot k x s).1 := by
  unfold actSucc
  split
  · exact .refl s
  · dsimp only
    split
    · exact .refl s
    · exact decrement_windsDown _ _ _
  · dsimp only
    split
    · exact .refl s
    · split
      · dsimp only
        exact (addCounter_windsDown _ _ _).trans (modTotals_windsDown _ _ _)
      · exact .refl s

theorem actInline_windsDown (d : Nat) (ks : List Nat) : WindsDown s (actInline slot d ks s).1 := by
  induction ks generalizing s with
  | nil => exact .refl s
  | cons k rest ih =>
    have one := actSucc_windsDown slot s k (dSucc d k)
    unfold actInline
    split
    next u hu => rw [hu] at one; exact one.trans (ih u)
    next => exact one

theorem actOverflow_windsDown (d : Nat) (ks : List Nat) : WindsDown s (actOverflow slot d ks s).1 := by
  induction ks generalizing s with
  | nil => exact .refl s
  | cons k rest ih =>
    have read := jobRead_windsDown slot s (dOvfBase d + 4 * k) 4
    unfold actOverflow
    dsimp only
    split
    · split
      · exact read
      · have one := read.trans (actSucc_windsDown slot _ (8 + k) (leNat (jobRead s slot (dOvfBase d + 4 * k) 4).1.data))
        split
        next u hu => rw [hu] at one; exact one.trans (ih u)
        next => exact one
    · exact read

theorem writeBack_windsDown (t : TaskRef) : WindsDown s (writeBack t s) := by
  unfold writeBack
  split
  · exact modDie_windsDown _ _ _ _ (by exact fun _ none => none)
  · exact .refl s

/-- What a completion does with all successors of a task: the inline ones, then the overflow list. -/
def actAll (slot : Fin 64) (d : Nat) (s : State) : SuccRes :=
  match actInline slot d (List.range 8) s with
  | (s, none) => actOverflow slot d (List.range (dOvfCount d)) s
  | r => r

theorem actAll_windsDown (d : Nat) : WindsDown s (actAll slot d s).1 := by
  have inline := actInline_windsDown slot s d (List.range 8)
  unfold actAll
  split
  next u hu => rw [hu] at inline; exact inline.trans (actOverflow_windsDown _ _ _ _)
  next => exact inline

/-- What a completion ends before it acts on successors: the units of the task, the entries that it writes and those that it read. -/
def endTaskWork (t : TaskRef) (ran : Bool) (s : State) : State :=
  let u := writerEnds t (freeUnits t (writeBack t s))
  if ran then forEach (entryOf s t).reads (fun a st => readerDone t.slot a st) u else u

/-- What a completion does once its successors were acted on. -/
def endEntry (t : TaskRef) (d : Nat) (s : State) : State :=
  let s := modEntry t (fun e => { e with st := .free 0, run := .idle, desc := 0, watchRec := none, caps := [], reads := [] }) s
  let s := serveTime t.slot t.die (leaveTag t.slot d s)
  let s := if dNotify d then event t.slot t.die (taskRec t d 0x01 stOK 0) s else s
  pauseCheck t.slot (traceEnd t d 0x01 stOK s)

theorem completeCore_eq (t : TaskRef) (ran : Bool) :
    completeCore t ran s = match actAll t.slot (entryOf s t).desc (endTaskWork t ran s) with
      | (s', some f) => faultCore t 0x09 f.2 f.1 s'
      | (s', none) => endEntry t (entryOf s t).desc s' := rfl

theorem endTaskWork_windsDown (t : TaskRef) (ran : Bool) : WindsDown s (endTaskWork t ran s) := by
  have ended : WindsDown s (writerEnds t (freeUnits t (writeBack t s))) :=
    ((writeBack_windsDown s t).trans (freeUnits_windsDown _ t)).trans (writerEnds_windsDown _ t)
  unfold endTaskWork
  dsimp only
  split
  · exact ended.trans (.forEach _ _ (fun a u => readerDone_windsDown t.slot u a) _)
  · exact ended

theorem endEntry_windsDown (t : TaskRef) (d : Nat) : WindsDown s (endEntry t d s) := by
  have freed : ∀ f, WindsDown s (serveTime t.slot t.die (leaveTag t.slot d (modEntry t f s))) := fun f =>
    ((modEntry_windsDown s t f).trans (modTag_windsDown _ _ _ _)).trans (serveTime_windsDown _ _ _)
  unfold endEntry
  dsimp only
  split
  · exact (((freed _).trans (event_windsDown _ _ _ _)).trans (traceEnd_windsDown _ _ _ _ _)).trans (pauseCheck_windsDown _ _)
  · exact ((freed _).trans (traceEnd_windsDown _ _ _ _ _)).trans (pauseCheck_windsDown _ _)

theorem completeCore_windsDown (t : TaskRef) (ran : Bool) : WindsDown s (completeCore t ran s) := by
  have acted := (endTaskWork_windsDown s t ran).trans (actAll_windsDown t.slot _ (entryOf s t).desc)
  rw [completeCore_eq]
  split
  next u f hu => rw [hu] at acted; exact acted.trans (faultCore_windsDown _ _ _ _ _)
  next u hu => rw [hu] at acted; exact acted.trans (endEntry_windsDown _ _ _)

theorem closeHalf_windsDown (addr : Nat) (h : Bool) (how : Nat) : WindsDown s (closeHalf slot addr h how s) := by
  have closed : ∀ a d d' f d'' g u,
      WindsDown u (traceBucket slot g a d h (modBuckets slot f (putBucketStatus slot a d' (closeBuffer slot d'' u)))) :=
    fun a d d' f d'' g u => (((jobWrite_windsDown _ _ _ _).trans (jobWrite_windsDown _ _ _ _)).trans (modBuckets_windsDown _ _ _)).trans
      (trace_windsDown _ _ _ _ _ _)
  unfold closeHalf
  split
  · exact .refl s
  · dsimp only
    split
    · exact (closed _ _ _ _ _ _ _).trans (completeCore_windsDown _ _ _)
    · exact closed _ _ _ _ _ _ _

/-! ### What settles a job -/

theorem noteCounter_windsDown (n : Nat) (st : BitVec 8) : WindsDown s (noteCounter slot n st s) := by
  unfold noteCounter
  split
  · exact .of_changes (noteReads_changes _ _ _) (by decide)
  · exact .refl s

theorem settleWaits_windsDown (fuel : Nat) : WindsDown s (settleWaits slot fuel s) := by
  induction fuel generalizing s with
  | zero => exact .refl s
  | succ n ih =>
    unfold settleWaits
    split
    · exact (completeCore_windsDown _ _ _).trans (ih _)
    · exact ((noteCounter_windsDown _ _ _ _).trans (faultCore_windsDown _ _ _ _ _)).trans (ih _)
    · split
      · exact (closeHalf_windsDown _ _ _ _ _).trans (ih _)
      · exact .refl s

theorem settleDrops_windsDown (fuel : Nat) : WindsDown s (settleDrops slot fuel s) := by
  induction fuel generalizing s with
  | zero => exact .refl s
  | succ n ih =>
    unfold settleDrops
    dsimp only
    split
    · split
      · exact (((modWatch_windsDown _ _ _).trans (completeCore_windsDown _ _ _)).trans (settleWaits_windsDown _ _ _)).trans (ih _)
      · exact .refl s
    · exact .refl s

theorem applyVerdict_windsDown (v : BitVec 2) : WindsDown s (applyVerdict slot die v s) := by
  have judged : ∀ f p, WindsDown s (trace (some slot) die 3 0x30 p (modWatch slot f s)) :=
    fun f p => (modWatch_windsDown slot s f).trans (trace_windsDown _ _ _ _ _ _)
  unfold applyVerdict
  dsimp only
  split
  · exact judged _ _
  · split
    · exact ((judged _ _).trans (settleDrops_windsDown _ _ _)).trans (jobFault_windsDown _ _)
    · exact (judged _ _).trans (settleDrops_windsDown _ _ _)

theorem watchCheck_windsDown : WindsDown s (watchCheck slot s) := by
  have verdict : ∀ (c : Prop) [Decidable c] f die v u, WindsDown s u →
      WindsDown s (if c then modWatch slot f u else applyVerdict slot die v u) := fun c _ f die v u hu => by
    split
    · exact hu.trans (modWatch_windsDown _ _ _)
    · exact hu.trans (applyVerdict_windsDown _ _ _ _)
  unfold watchCheck
  dsimp only
  split
  · refine verdict _ _ _ _ _ ?_
    split
    · exact (modWatch_windsDown slot s _).trans (modVe_windsDown _ _ _)
    · exact modWatch_windsDown _ _ _
  · exact .refl s

theorem applyPending_changes : Changes [.power, .board, .logs] s (applyPending s) := by
  have taken : ∀ d, Changes [.power, .board, .logs] s (takeDivisor d s) := fun d => (modPower_changes _ s).mono (by decide)
  unfold applyPending
  split
  · exact .refl _ s
  · dsimp only
    split
    · exact (taken _).trans ((powerEvent_changes _).mono (by decide))
    · exact (taken _).trans ((powerChange_changes _).mono (by decide))

/-- What the entry into P2 does before it answers the PWR_SET that asked. -/
theorem hold_changes : Changes [.power, .board, .logs] s (setPower .hold (applyPending (modPower (fun p => { p with stopping := false }) s))) :=
  (((modPower_changes _ s).mono (by decide)).trans (applyPending_changes _)).trans (setPower_changes _ _)

theorem holdCheck_windsDown : WindsDown s (holdCheck s) := by
  unfold holdCheck
  split
  · exact (WindsDown.of_changes (hold_changes s) (by decide)).trans (finishAll_windsDown _ _ _)
  · exact .refl s

theorem settle_windsDown : WindsDown s (settle slot s) := by
  unfold settle
  dsimp only
  refine WindsDown.trans ?_ (holdCheck_windsDown _)
  split
  · exact ((settleWaits_windsDown _ _ _).trans (watchCheck_windsDown _ _)).trans (settleDrops_windsDown _ _ _)
  · exact .refl s

theorem faultDue_windsDown : WindsDown s (faultDue s) :=
  WindsDown.forEach _ _ (fun _ _ => (faultCore_windsDown _ _ _ _ _).trans (settle_windsDown _ _)) s

theorem taskFault_windsDown (t : TaskRef) (cause : Nat) (status : BitVec 8) (detail : Nat) : WindsDown s (taskFault t cause status detail s) :=
  ((faultCore_windsDown _ _ _ _ _).trans (settle_windsDown _ _)).trans (faultDue_windsDown _)

theorem taskDone_windsDown (t : TaskRef) : WindsDown s (taskDone t s) := (completeCore_windsDown _ _ _).trans (settle_windsDown _ _)

end

end Sys2Proof.Machine
end

section
/-! SUPPORT. Programs of stroke and rigger cores (spec/05_tasks_stroke_riggers.md R198 to R207): what registers and entries hold after
an update, starts and ends of programs, and the instructions of a routine that act on tasks. -/

namespace Sys2Proof.Machine

/-! ### Fields beside a replaced one -/

/-- A replaced field stands between what was below it and what was above it. -/
theorem setFld_eq (v x : Nat) {hi lo : Nat} (le : lo ≤ hi) :
    setFld v hi lo x = v % 2 ^ lo + (x % 2 ^ (hi + 1 - lo) + v / 2 ^ (hi + 1) * 2 ^ (hi + 1 - lo)) <<< lo := by
  have width : 2 ^ (hi + 1) = 2 ^ lo * 2 ^ (hi + 1 - lo) := by rw [← Nat.pow_add]; congr 1; omega
  have low := Nat.div_add_mod v (2 ^ lo)
  have high := Nat.div_add_mod (v / 2 ^ lo) (2 ^ (hi + 1 - lo))
  rw [setFld, fld, Nat.shiftRight_eq_div_pow, Nat.shiftLeft_eq, Nat.shiftLeft_eq, Nat.shiftLeft_eq, width, ← Nat.div_div_eq_div_mul]
  generalize v / 2 ^ lo / 2 ^ (hi + 1 - lo) = q at *
  generalize v / 2 ^ lo % 2 ^ (hi + 1 - lo) = m at *
  generalize v % 2 ^ lo = r at *
  rw [← low, ← high, Nat.mul_add, Nat.add_mul, Nat.mul_comm _ m, Nat.mul_comm q, Nat.mul_comm (2 ^ lo) (_ * q)]
  omega

theorem fld_setFld_other (v x : Nat) {hi lo h l : Nat} (le : lo ≤ hi) (le' : l ≤ h) (apart : h < lo ∨ hi < l) :
    fld (setFld v hi lo x) h l = fld v h l := by
  obtain below | above := apart
  · rw [setFld_eq v x le, fld_add_shiftLeft below le', ← fld_add_shiftLeft (b := v / 2 ^ lo) below le', Nat.shiftLeft_eq, Nat.mod_add_div']
  · have same : setFld v hi lo x / 2 ^ (hi + 1) = v / 2 ^ (hi + 1) := by
      have low : (v % 2 ^ lo + (x % 2 ^ (hi + 1 - lo)) * 2 ^ lo) < 2 ^ (hi + 1) := by
        have width : 2 ^ (hi + 1) = 2 ^ (hi + 1 - lo) * 2 ^ lo := by rw [← Nat.pow_add]; congr 1; omega
        have mid : x % 2 ^ (hi + 1 - lo) + 1 ≤ 2 ^ (hi + 1 - lo) := Nat.mod_lt _ (Nat.two_pow_pos _)
        have := Nat.mul_le_mul_right (2 ^ lo) mid
        have := Nat.mod_lt v (Nat.two_pow_pos lo)
        rw [Nat.add_mul] at *
        omega
      have apart : setFld v hi lo x = (v % 2 ^ lo + (x % 2 ^ (hi + 1 - lo)) * 2 ^ lo) + 2 ^ (hi + 1) * (v / 2 ^ (hi + 1)) := by
        rw [setFld_eq v x le, Nat.shiftLeft_eq, Nat.add_mul, Nat.mul_assoc, ← Nat.pow_add, show hi + 1 - lo + lo = hi + 1 by omega,
          Nat.mul_comm (v / _), Nat.add_assoc]
      rw [apart, Nat.add_mul_div_left _ _ (Nat.two_pow_pos _), Nat.div_eq_of_lt low, Nat.zero_add]
    obtain ⟨d, rfl⟩ : ∃ d, l = hi + 1 + d := ⟨l - (hi + 1), by omega⟩
    rw [fld, fld, Nat.shiftRight_add _ (hi + 1), Nat.shiftRight_add v (hi + 1), Nat.shiftRight_eq_div_pow _ (hi + 1), Nat.shiftRight_eq_div_pow v, same]

/-- A patched word of a descriptor. -/
theorem dWord_setFld (d w x : Nat) (h : x < 2 ^ 64) : dWord (setFld d (64 * w + 63) (64 * w) x) w = x := by
  rw [dWord, fld_setFld, show 64 * w + 63 + 1 - 64 * w = 64 by omega, Nat.mod_eq_of_lt h]

/-- Every other word. -/
theorem dWord_setFld_other (d x : Nat) {w k : Nat} (h : k ≠ w) : dWord (setFld d (64 * w + 63) (64 * w) x) k = dWord d k := by
  exact fld_setFld_other _ _ (by omega) (by omega) (by omega)

theorem dSkip_setFld (d : Nat) : dSkip (setFld d 116 116 1) = true := by
  have one := fld_setFld d 116 116 1
  simpa [dSkip, bitAt, Nat.testBit, fld, Nat.and_comm, Nat.and_one_is_mod] using one


/-! ### Registers and entries of a core's job -/

theorem coreRegs_modCore (c : CoreId) (f : CoreRegs → CoreRegs) (s : State) : coreRegs (modCore c f s) c = f (coreRegs s c) := by
  cases c with
  | stroke die slot => exact congrArg JobDie.regs (jobDie_modDie slot die _ s)
  | rigger r => exact congrArg Rigger.regs (vmod_same s.rigs r _)

theorem modCore_mem (c : CoreId) (f : CoreRegs → CoreRegs) (s : State) : (modCore c f s).mem = s.mem := by
  cases c <;> rfl

theorem setX_mem (c : CoreId) (r : BitVec 5) (v : BitVec 64) (s : State) : (setX c r v s).mem = s.mem := by
  unfold setX
  split
  · rfl
  · exact modCore_mem _ _ _

/-- A core that goes on after an instruction which left its registers. -/
theorem wentOn_nextPc_setX {s u : State} {c : CoreId} (rd : BitVec 5) (v : BitVec 64) (kept : coreRegs u c = coreRegs s c) :
    WentOn s (nextPc c 4 (setX c rd v u)) c rd v := by
  have regs : coreRegs (nextPc c 4 (setX c rd v u)) c =
      { coreRegs s c with
        pc := (coreRegs s c).pc + 4, x := if rd = 0 then (coreRegs s c).x else (coreRegs s c).x.set rd.toFin v } := by
    rw [nextPc, coreRegs_modCore, setX]
    split
    · rw [kept]; rfl
    · rw [coreRegs_modCore, kept]; rfl
  refine ⟨by rw [regs], ?_, fun r other => ?_⟩
  · rw [getX, regs]
    split
    · rfl
    · simp
  · rw [getX, getX, regs]
    have apart : rd.toNat ≠ r.toNat := fun same => other (BitVec.eq_of_toNat_eq same.symm)
    split
    · rfl
    · split
      · rfl
      · simp [apart]

/-- An update of a job that leaves its dies. -/
theorem jobDie_modJob_of_dies (slot i : Fin 64) (d : Fin 4) (f : Job → Job) (s : State) (dies : ∀ j, (f j).tasks.dies = j.tasks.dies) :
    jobDie (modJob slot f s) i d = jobDie s i d := by
  rw [jobDie, jobDie, modJob, vmod_getElem]
  split
  next same => subst same; exact congrArg (fun v : Vector JobDie 4 => v[d]) (dies _)
  next => rfl

/-- An update of a die of a job that leaves its entries. -/
theorem entryOf_modDie_of_entries (slot : Fin 64) (die : Fin 4) (f : JobDie → JobDie) (s : State) (t : TaskRef)
    (entries : ∀ d, (f d).entries = d.entries) : entryOf (modDie slot die f s) t = entryOf s t := by
  have die_eq : (jobDie (modDie slot die f s) t.slot t.die).entries = (jobDie s t.slot t.die).entries := by
    by_cases sameSlot : t.slot = slot
    · by_cases sameDie : t.die = die
      · rw [sameSlot, sameDie, jobDie_modDie, entries]
      · rw [sameSlot, jobDie_modDie_other _ _ _ sameDie]
    · rw [jobDie, modDie_other die f s sameSlot, jobDie]
  rw [entryOf, entryOf, entryAt, entryAt, die_eq]

theorem entryOf_modJob_of_dies (slot : Fin 64) (f : Job → Job) (s : State) (t : TaskRef) (dies : ∀ j, (f j).tasks.dies = j.tasks.dies) :
    entryOf (modJob slot f s) t = entryOf s t := by
  rw [entryOf, entryOf, entryAt, entryAt, jobDie_modJob_of_dies _ _ _ _ _ dies]

theorem entryOf_addDepIn (slot : Fin 64) (die : Fin 4) (n : Nat) (s : State) (t : TaskRef) : entryOf (addDepIn slot die n s) t = entryOf s t :=
  entryOf_modJob_of_dies slot _ s t (fun _ => rfl)

theorem entryOf_addDepOut (slot : Fin 64) (die : Fin 4) (n : Nat) (s : State) (t : TaskRef) : entryOf (addDepOut slot die n s) t = entryOf s t :=
  entryOf_modJob_of_dies slot _ s t (fun _ => rfl)

theorem entryOf_nextPc_stroke (die : Fin 4) (slot : Fin 64) (n : Nat) (s : State) (t : TaskRef) :
    entryOf (nextPc (.stroke die slot) n s) t = entryOf s t :=
  entryOf_modDie_of_entries slot die _ s t (fun _ => rfl)

theorem entryOf_setX_stroke (die : Fin 4) (slot : Fin 64) (r : BitVec 5) (v : BitVec 64) (s : State) (t : TaskRef) :
    entryOf (setX (.stroke die slot) r v s) t = entryOf s t := by
  unfold setX
  split
  · rfl
  · exact entryOf_modDie_of_entries slot die _ s t (fun _ => rfl)

/-- An update of an entry leaves the registers of stroke core contexts. -/
theorem coreRegs_modEntry_stroke (t : TaskRef) (f : Entry → Entry) (s : State) (die : Fin 4) (slot : Fin 64) :
    coreRegs (modEntry t f s) (.stroke die slot) = coreRegs s (.stroke die slot) := by
  show (jobDie (modDie _ _ _ s) slot die).regs = (jobDie s slot die).regs
  by_cases sameSlot : slot = t.slot
  · by_cases sameDie : die = t.die
    · rw [sameSlot, sameDie, jobDie_modDie]
    · rw [sameSlot, jobDie_modDie_other _ _ _ sameDie]
  · rw [jobDie, modDie_other _ _ s sameSlot, jobDie]

theorem coreRegs_modJob_stroke (i : Fin 64) (f : Job → Job) (s : State) (die : Fin 4) (slot : Fin 64)
    (dies : ∀ j, (f j).tasks.dies = j.tasks.dies) : coreRegs (modJob i f s) (.stroke die slot) = coreRegs s (.stroke die slot) :=
  congrArg JobDie.regs (jobDie_modJob_of_dies i slot die f s dies)

theorem coreRegs_makeReady_stroke (t : TaskRef) (s : State) (die : Fin 4) (slot : Fin 64) :
    coreRegs (makeReady t s) (.stroke die slot) = coreRegs s (.stroke die slot) := by
  rw [makeReady_eq, coreRegs_modEntry_stroke]
  rfl

/-- A routine's instruction that updates an entry of its job and goes on. -/
theorem nextPc_modEntry_stroke (die : Fin 4) (slot : Fin 64) (t : TaskRef) (f : Entry → Entry) (s : State) :
    entryOf (nextPc (.stroke die slot) 4 (modEntry t f s)) t = f (entryOf s t) ∧
      (coreRegs (nextPc (.stroke die slot) 4 (modEntry t f s)) (.stroke die slot)).pc = (coreRegs s (.stroke die slot)).pc + 4 ∧
      (nextPc (.stroke die slot) 4 (modEntry t f s)).mem = s.mem := by
  refine ⟨by rw [entryOf_nextPc_stroke, entryOf_modEntry], ?_, modCore_mem _ _ _⟩
  rw [nextPc, coreRegs_modCore, coreRegs_modEntry_stroke]
  rfl

/-! ### Cores without a program -/

/-- A core on which no program stands runs none. -/
theorem coreSlot_of_stopped {s : State} {c : CoreId} (stopped : coreTask s c = none) : coreSlot s c = none := by
  unfold coreSlot
  split
  · rfl
  · cases c with
    | stroke die slot =>
      have none : (jobDie s slot die).routine = none := Option.map_eq_none_iff.mp stopped
      simp [none]
    | rigger r =>
      have none : s.rigs[r].task = none := stopped
      exact Option.map_eq_none_iff.mpr none

theorem coreTask_stopCore (c : CoreId) (s : State) : coreTask (stopCore c s) c = none := by
  cases c with
  | stroke die slot =>
    show ((jobDie (modDie slot die _ s) slot die).routine).map _ = none
    rw [jobDie_modDie]
    rfl
  | rigger r =>
    show (freeRig r s).rigs[r].task = none
    unfold freeRig
    split
    next none => exact none
    next =>
      rw [modRig, vmod_same]

/-- A core that has no program gets none where jobs wind down. -/
theorem WindsDown.coreTask {s t : State} (h : WindsDown s t) {c : CoreId} (stopped : coreTask s c = none) : coreTask t c = none := by
  cases c with
  | stroke die slot => exact Option.map_eq_none_iff.mpr ((h.job slot).routine die (Option.map_eq_none_iff.mp stopped))
  | rigger r => exact h.rig r stopped

/-- What ends a core's program and then winds down leaves the core without one. -/
theorem coreSlot_of_windsDown {c : CoreId} {s t : State} (h : WindsDown (stopCore c s) t) : coreSlot t c = none :=
  coreSlot_of_stopped (h.coreTask (coreTask_stopCore c s))

theorem coreSlot_coreFault {c : CoreId} (cause : Nat) (status : BitVec 8) (detail : Nat) (s : State) :
    coreSlot (coreFault c cause status detail s) c = none := by
  unfold coreFault
  split
  next stopped => exact coreSlot_of_stopped stopped
  next => exact coreSlot_of_windsDown (taskFault_windsDown _ _ _ _ _)

theorem coreSlot_coreDone (c : CoreId) (v : BitVec 64) (s : State) : coreSlot (coreDone c v s) c = none := by
  unfold coreDone
  split
  · exact coreSlot_coreFault _ _ _ _
  · cases c with
    | stroke die slot =>
      dsimp only
      split
      · exact coreSlot_of_windsDown ((decrement_windsDown _ _ _).trans (settle_windsDown _ _))
      · exact coreSlot_of_windsDown (taskDone_windsDown _ _)
      next stopped => exact coreSlot_of_stopped (Option.map_eq_none_iff.mpr stopped)
    | rigger r =>
      dsimp only
      split
      · exact coreSlot_of_windsDown (taskDone_windsDown _ _)
      next stopped => exact coreSlot_of_stopped stopped

/-! ### Admission -/

/-- The registers of a stroke core context and memory are the same. -/
structure SameContext (die : Fin 4) (slot : Fin 64) (s t : State) : Prop where
  regs : coreRegs t (.stroke die slot) = coreRegs s (.stroke die slot)
  mem : t.mem = s.mem

theorem SameContext.trans {die : Fin 4} {slot : Fin 64} {s t u : State} (h : SameContext die slot s t) (g : SameContext die slot t u) :
    SameContext die slot s u := ⟨g.regs.trans h.regs, g.mem.trans h.mem⟩

section
variable (die : Fin 4) (slot : Fin 64) (s : State)

theorem modEntry_sameContext (t : TaskRef) (f : Entry → Entry) : SameContext die slot s (modEntry t f s) :=
  ⟨coreRegs_modEntry_stroke t f s die slot, rfl⟩

theorem modJob_sameContext (i : Fin 64) (f : Job → Job) (dies : ∀ j, (f j).tasks.dies = j.tasks.dies) : SameContext die slot s (modJob i f s) :=
  ⟨coreRegs_modJob_stroke i f s die slot dies, rfl⟩

theorem modTag_sameContext (i tag : Fin 64) (f : Tag → Tag) : SameContext die slot s (modTag i tag f s) :=
  modJob_sameContext die slot s i _ (fun _ => rfl)

theorem modTotals_sameContext (i : Fin 64) (f : Totals → Totals) : SameContext die slot s (modTotals i f s) :=
  modJob_sameContext die slot s i _ (fun _ => rfl)

theorem pmuCount_sameContext (d : Fin 4) (sl : Option (Fin 64)) (ev bit n : Nat) : SameContext die slot s (pmuCount d sl ev bit n s) :=
  have changes := pmuCount_changes d sl ev bit n s
  ⟨congrArg JobDie.regs (jobDie_of_jobs slot die (changes .jobs (by decide))), changes .mem (by decide)⟩

theorem makeReady_sameContext (t : TaskRef) : SameContext die slot s (makeReady t s) :=
  ⟨coreRegs_makeReady_stroke t s die slot, rfl⟩

theorem admitTask_sameContext (i : Fin 64) (k : Fin 4) (d : Nat) : SameContext die slot s (admitTask i k d s) := by
  have put : ∀ u t f n m, SameContext die slot u (pmuCount k (some i) 0x050 0 1 (addDepOut i k n (addDepIn i k m (modEntry t f u)))) :=
    fun u t f n m => (((modEntry_sameContext die slot u t f).trans (modTotals_sameContext ..)).trans (modTotals_sameContext ..)).trans
      (pmuCount_sameContext ..)
  have admitted : ∀ u t f n m, SameContext die slot s u → SameContext die slot s (if dDepCount d = n then
      makeReady t (pmuCount k (some i) 0x050 0 1 (addDepOut i k n (addDepIn i k m (modEntry t f u)))) else
      pmuCount k (some i) 0x050 0 1 (addDepOut i k n (addDepIn i k m (modEntry t f u)))) := fun u t f n m hu => by
    split
    · exact (hu.trans (put u t f n m)).trans (makeReady_sameContext ..)
    · exact hu.trans (put u t f n m)
  unfold admitTask
  dsimp only
  apply admitted
  split
  · exact modTag_sameContext ..
  · split
    · exact modTag_sameContext ..
    · exact ⟨rfl, rfl⟩

end

theorem desc_makeReady (t : TaskRef) (s : State) : (entryOf (makeReady t s) t).desc = (entryOf s t).desc := by
  rw [makeReady_eq, entryOf_modEntry]
  rfl

/-- The entry of an admitted task holds its descriptor. -/
theorem desc_admitTask (slot : Fin 64) (die : Fin 4) (d : Nat) (s : State) :
    (entryOf (admitTask slot die d s) ⟨slot, die, BitVec.ofNat 16 (dIndex d)⟩).desc = d := by
  have put : ∀ t : TaskRef, ∀ f u n m, (f (entryOf u t)).desc = d →
      (entryOf (pmuCount die (some slot) 0x050 0 1 (addDepOut slot die n (addDepIn slot die m (modEntry t f u)))) t).desc = d :=
    fun t f u n m hf => by
      rw [entryOf_of_jobs (pmuCount_changes _ _ _ _ _ _ .jobs (by decide)), entryOf_addDepOut, entryOf_addDepIn, entryOf_modEntry, hf]
  have made : ∀ t : TaskRef, ∀ f u n m, (f (entryOf u t)).desc = d → (entryOf (if dDepCount d = n then
      makeReady t (pmuCount die (some slot) 0x050 0 1 (addDepOut slot die n (addDepIn slot die m (modEntry t f u)))) else
      pmuCount die (some slot) 0x050 0 1 (addDepOut slot die n (addDepIn slot die m (modEntry t f u)))) t).desc = d := fun t f u n m hf => by
    split
    · rw [desc_makeReady]; exact put t f u n m hf
    · exact put t f u n m hf
  unfold admitTask
  dsimp only
  apply made
  rfl

section
variable {slot : Fin 64} {die : Fin 4} {addr d : Nat} {s : State} (read : peek s slot addr 128 = ⟨leBytes 128 d, .ok⟩) (fits : d < 2 ^ 1024)
include read fits

/-- A descriptor that is read for its admission: its number, in the state as it was. -/
theorem jobRead_descriptor : (jobRead s slot addr 128).1.st = .ok ∧ leNat (jobRead s slot addr 128).1.data = d ∧ (jobRead s slot addr 128).2 = s := by
  have back : leNat (leBytes 128 d) = d := by rw [leNat_leBytes, show 256 = 2 ^ 8 from rfl, ← Nat.pow_mul, Nat.mod_eq_of_lt fits]
  rw [jobRead, read]
  exact ⟨rfl, back, rfl⟩

/-- A descriptor that the checks of R182 refuse changes nothing. -/
theorem admitAt_refused {c : BitVec 8} (check : admitCheck s slot die d = some c) : admitAt slot die addr s = (s, c, some d) := by
  obtain ⟨ok, data, kept⟩ := jobRead_descriptor read fits
  unfold admitAt
  dsimp only
  rw [ok]
  dsimp only
  rw [data, kept, check]

/-- A descriptor that they pass goes into its entry. -/
theorem admitAt_admits (check : admitCheck s slot die d = none) : admitAt slot die addr s = (admitTask slot die d s, stOK, some d) := by
  obtain ⟨ok, data, kept⟩ := jobRead_descriptor read fits
  unfold admitAt
  dsimp only
  rw [ok]
  dsimp only
  rw [data, kept, check]

end


/-! ### Starts -/

/-- The first argument of an operand area stands in x10 at the start of its program (R198). -/
theorem startRegs_arg0 (g : CoreRegs) (entry d : Nat) (vals : List (Nat × Nat)) (h : ∀ p ∈ vals, p.1 = 16 ∨ p.1 = 17) :
    (startRegs g entry (argVals d ++ vals)).x[10] = BitVec.ofNat 64 (fld d 639 576) := by
  have later : ∀ (x : Vector (BitVec 64) 32), (vals.foldl (fun x p => if h : p.1 < 32 then x.set p.1 (BitVec.ofNat 64 p.2) else x) x)[10] = x[10] := by
    induction vals with
    | nil => exact fun _ => rfl
    | cons p rest ih =>
      intro x
      have apart : p.1 ≠ 10 := by have := h p (by simp); omega
      rw [List.foldl_cons, ih (fun q hq => h q (by simp [hq]))]
      split
      · exact Vector.getElem_set_ne _ _ apart
      · rfl
  show (List.foldl _ g.x (argVals d ++ vals))[10] = _
  rw [List.foldl_append, later]
  simp [argVals, List.range_succ]

/-- The next routine of a context (R198). -/
theorem startRoutine_task (slot : Fin 64) (die : Fin 4) (s : State) (i : Nat) (rest : List RoutineJob)
    (free : (jobDie s slot die).routine = none) (queued : (jobDie s slot die).queue = .task i :: rest) :
    startRoutine slot die s = modDie slot die (fun j => { j with
      queue := rest
      routine := some (.task i)
      budget := budgetOf s slot (entryOf s ⟨slot, die, BitVec.ofNat 16 i⟩).desc
      regs := startRegs j.regs (dEntry (entryOf s ⟨slot, die, BitVec.ofNat 16 i⟩).desc)
        (argVals (entryOf s ⟨slot, die, BitVec.ofNat 16 i⟩).desc ++ [(16, taskName ⟨slot, die, BitVec.ofNat 16 i⟩),
          (17, (dGen (entryOf s ⟨slot, die, BitVec.ofNat 16 i⟩).desc).toNat)]) }) s := by
  unfold startRoutine
  dsimp only
  rw [free, queued]
  rfl

theorem routineStart_starts (slot : Fin 64) (die : Fin 4) (s : State) (i : Nat) (rest : List RoutineJob) (run : coresRun s = true)
    (live : jobSt s slot ≠ .torn) (kept : jobSt s slot ≠ .scrubbing) (free : (jobDie s slot die).routine = none)
    (queued : (jobDie s slot die).queue = .task i :: rest) :
    Completes (.routineStart slot die) s (fun t => (jobDie t slot die).routine = some (.task i) ∧ (jobDie t slot die).queue = rest ∧
      (jobDie t slot die).regs.pc = BitVec.ofNat 64 (dEntry (entryOf s ⟨slot, die, BitVec.ofNat 16 i⟩).desc) ∧
      (jobDie t slot die).budget = budgetOf s slot (entryOf s ⟨slot, die, BitVec.ofNat 16 i⟩).desc ∧
      getX t (.stroke die slot) 10 = BitVec.ofNat 64 (fld (entryOf s ⟨slot, die, BitVec.ofNat 16 i⟩).desc 639 576) ∧ t.mem = s.mem) := by
  refine ⟨_, rfl, ?_⟩
  have taken : doRoutineStart slot die s = startRoutine slot die s := by simp [doRoutineStart, run, live, kept]
  rw [taken, startRoutine_task slot die s i rest free queued]
  refine ⟨by rw [jobDie_modDie], by rw [jobDie_modDie], by rw [jobDie_modDie]; rfl, by rw [jobDie_modDie], ?_, rfl⟩
  have regs := startRegs_arg0 (jobDie s slot die).regs (dEntry (entryOf s ⟨slot, die, BitVec.ofNat 16 i⟩).desc)
    (entryOf s ⟨slot, die, BitVec.ofNat 16 i⟩).desc [(16, taskName ⟨slot, die, BitVec.ofNat 16 i⟩),
      (17, (dGen (entryOf s ⟨slot, die, BitVec.ofNat 16 i⟩).desc).toNat)] (by simp)
  rw [getX, if_neg (by decide), coreRegs, jobDie_modDie]
  exact regs

theorem riggerProgramStart_starts (slot : Fin 64) (die : Fin 4) (k : BitVec 16) (rig : Fin 64) (s : State)
    (running : (entryOf s ⟨slot, die, k⟩).st = .running) (waits : (entryOf s ⟨slot, die, k⟩).run = .rigger none) (here : unitDie rig = die)
    (free : s.rigs[rig].task = none) (clocked : inP0P1 s = true)
    (room : riggerMax s slot = 0 ∨ riggersHeld s slot die < riggerMax s slot) :
    Completes (.riggerProgramStart slot die k rig) s (fun t => t.rigs[rig].task = some ⟨slot, die, k⟩ ∧ t.rigs[rig].slot = some slot ∧
      t.rigs[rig].regs.pc = BitVec.ofNat 64 (dEntry (entryOf s ⟨slot, die, k⟩).desc) ∧
      (entryOf t ⟨slot, die, k⟩).run = .rigger (some rig) ∧ (∀ r : Fin 64, r ≠ rig → t.rigs[r] = s.rigs[r]) ∧
      (s.rigs[rig].slot ≠ some slot → t.rigs[rig].scratch = []) ∧ t.mem = s.mem) := by
  refine ⟨_, rfl, ?_⟩
  have taken : doRiggerStart slot die k rig s = startRigger ⟨slot, die, k⟩ rig s := by
    have fits : (riggerMax s slot == 0 || decide (riggersHeld s slot die < riggerMax s slot)) = true := by simpa using room
    unfold doRiggerStart
    rw [if_pos]
    simp only [running, waits, here, free, clocked, fits]
    simp
  rw [taken]
  unfold startRigger
  dsimp only
  refine ⟨?_, ?_, ?_, by rw [entryOf_modEntry], fun r other => ?_, fun foreign => ?_, rfl⟩
  · show (s.rigs.set rig _)[rig].task = _
    simp
  · show (s.rigs.set rig _)[rig].slot = _
    simp
  · show (s.rigs.set rig _)[rig].regs.pc = _
    simp [startRegs]
  · show (s.rigs.set rig _)[r] = _
    exact Vector.getElem_set_ne _ _ (fun same => other (Fin.ext same.symm))
  · show (s.rigs.set rig _)[rig].scratch = _
    have foreign' : s.rigs[(rig : Nat)].slot ≠ some slot := foreign
    simp [foreign', Rigger.cleared, Rigger.reset]

/-! ### Ends -/

theorem budgetExpiry_stops (c : CoreId) (s : State) (slot : Fin 64) (runs : coreSlot s c = some slot) :
    Completes (.budgetExpiry c) s (fun t => coreSlot t c = none) := by
  refine ⟨_, rfl, ?_⟩
  rw [doBudget, runs]
  exact coreSlot_coreFault _ _ _ _

theorem tdone_stops (c : CoreId) (rs1 : BitVec 5) (s : State) (slot : Fin 64) (runs : coreSlot s c = some slot) :
    Completes (.tdone c rs1) s (fun t => coreSlot t c = none) := by
  refine ⟨_, rfl, ?_⟩
  rw [doTdone, runs]
  exact coreSlot_coreDone _ _ _

/-! ### TSUBMIT, TPATCH, TSKIP and TREARM -/

theorem tsubmit_admits (die : Fin 4) (slot : Fin 64) (rd rs1 : BitVec 5) (s : State) (d : Nat)
    (runs : coreSlot s (.stroke die slot) = some slot) (aligned : (getX s (.stroke die slot) rs1).toNat % 128 = 0)
    (read : peek s slot (getX s (.stroke die slot) rs1).toNat 128 = ⟨leBytes 128 d, .ok⟩) (fits : d < 2 ^ 1024) :
    Completes (.tsubmit die slot rd rs1) s (fun t =>
      WentOn s t (.stroke die slot) rd ((match admitCheck s slot die d with | some c => c | none => stOK).setWidth 64) ∧
      (admitCheck s slot die d = none → (entryOf t ⟨slot, die, BitVec.ofNat 16 (dIndex d)⟩).desc = d) ∧ t.mem.cells = s.mem.cells) := by
  refine ⟨_, rfl, ?_⟩
  unfold doTsubmit
  dsimp only
  rw [runs, if_neg (by simp), if_neg (by simp [aligned])]
  cases check : admitCheck s slot die d with
  | some code =>
    rw [admitAt_refused read fits check]
    exact ⟨wentOn_nextPc_setX rd _ rfl, fun admitted => absurd admitted (by simp), by rw [nextPc, modCore_mem, setX_mem]⟩
  | none =>
    rw [admitAt_admits read fits check]
    have same := admitTask_sameContext die slot s slot die d
    refine ⟨wentOn_nextPc_setX rd _ same.regs, fun _ => ?_, by rw [nextPc, modCore_mem, setX_mem, same.mem]⟩
    rw [entryOf_nextPc_stroke, entryOf_setX_stroke, desc_admitTask]

theorem tsubmit_misaligned (die : Fin 4) (slot : Fin 64) (rd rs1 : BitVec 5) (s : State) (runs : coreSlot s (.stroke die slot) = some slot)
    (askew : (getX s (.stroke die slot) rs1).toNat % 128 ≠ 0) :
    Completes (.tsubmit die slot rd rs1) s (fun t => WentOn s t (.stroke die slot) rd (stBAD_FIELD.setWidth 64) ∧
      (∀ k, entryOf t ⟨slot, die, k⟩ = entryOf s ⟨slot, die, k⟩) ∧ t.mem = s.mem) := by
  refine ⟨_, rfl, ?_⟩
  unfold doTsubmit
  dsimp only
  rw [runs, if_neg (by simp), if_pos askew]
  exact ⟨wentOn_nextPc_setX rd _ rfl, fun k => by rw [entryOf_nextPc_stroke, entryOf_setX_stroke], by rw [nextPc, modCore_mem, setX_mem]⟩

section
variable (die : Fin 4) (slot : Fin 64) (rs1 rs2 : BitVec 5) (s : State) (r : TaskRef) (n : Nat)
  (runs : coreSlot s (.stroke die slot) = some slot) (named : r = refOf slot (fld (getX s (.stroke die slot) rs1).toNat 17 0))
  (here : r.die = die) (waits : (entryOf s r).st = .waiting n)
include runs named here waits

theorem tpatch_patches (fillable : dFillable (entryOf s r).desc = true) (word : 8 ≤ fld (getX s (.stroke die slot) rs1).toNat 23 20) :
    Completes (.tpatch die slot rs1 rs2) s (fun t =>
      dWord (entryOf t r).desc (fld (getX s (.stroke die slot) rs1).toNat 23 20) = (getX s (.stroke die slot) rs2).toNat ∧
      (∀ w, w ≠ fld (getX s (.stroke die slot) rs1).toNat 23 20 → dWord (entryOf t r).desc w = dWord (entryOf s r).desc w) ∧
      (entryOf t r).st = .waiting n ∧ (coreRegs t (.stroke die slot)).pc = (coreRegs s (.stroke die slot)).pc + 4 ∧ t.mem = s.mem) := by
  refine ⟨_, rfl, ?_⟩
  unfold doTpatch
  dsimp only
  rw [← named, runs, waits, if_neg (by simp)]
  dsimp only
  rw [if_neg (by simp [here, fillable]), if_neg (by omega)]
  obtain ⟨entry, pc, mem⟩ := nextPc_modEntry_stroke die slot r
    (fun e => { e with desc := (setFld e.desc (64 * fld (getX s (.stroke die slot) rs1).toNat 23 20 + 63)
      (64 * fld (getX s (.stroke die slot) rs1).toNat 23 20) (getX s (.stroke die slot) rs2).toNat) }) s
  rw [entry]
  exact ⟨dWord_setFld _ _ _ (BitVec.isLt _), fun w other => dWord_setFld_other _ _ other, waits, pc, mem⟩

theorem tskip_skips (fillable : dFillable (entryOf s r).desc = true) :
    Completes (.tskip die slot rs1) s (fun t => dSkip (entryOf t r).desc = true ∧ (entryOf t r).st = .waiting n ∧
      (coreRegs t (.stroke die slot)).pc = (coreRegs s (.stroke die slot)).pc + 4 ∧ t.mem = s.mem) := by
  refine ⟨_, rfl, ?_⟩
  unfold doTskip
  dsimp only
  rw [← named, runs, waits, if_neg (by simp)]
  dsimp only
  rw [if_neg (by simp [here, fillable])]
  obtain ⟨entry, pc, mem⟩ := nextPc_modEntry_stroke die slot r (fun e => { e with desc := setFld e.desc 116 116 1 }) s
  rw [entry]
  exact ⟨dSkip_setFld _, waits, pc, mem⟩

theorem trearm_rearms (room : n + fld (getX s (.stroke die slot) rs2).toNat 15 0 ≤ 65535) :
    Completes (.trearm die slot rs1 rs2) s (fun t => (entryOf t r).st = .waiting (n + fld (getX s (.stroke die slot) rs2).toNat 15 0) ∧
      (coreRegs t (.stroke die slot)).pc = (coreRegs s (.stroke die slot)).pc + 4 ∧ t.mem = s.mem) := by
  refine ⟨_, rfl, ?_⟩
  unfold doTrearm
  dsimp only
  rw [← named, runs, if_neg (by simp), if_neg (by simp [here]), waits]
  dsimp only
  rw [if_neg (by omega)]
  have same := (modEntry_sameContext die slot s r (fun e => { e with st := .waiting (n + fld (getX s (.stroke die slot) rs2).toNat 15 0) })).trans
    (modTotals_sameContext die slot _ slot (fun t => { t with depIn := vmod t.depIn die (· + fld (getX s (.stroke die slot) rs2).toNat 15 0) }))
  refine ⟨by rw [entryOf_nextPc_stroke, entryOf_addDepIn, entryOf_modEntry], ?_, by rw [nextPc, modCore_mem]; exact same.mem⟩
  rw [nextPc, coreRegs_modCore, ← same.regs]
  rfl

end

/-- Settles O41: starts by the registers that they set, ends by `WindsDown`, and the instructions of a routine by the entry that they
update. -/
theorem programsRunOnTheCores : Obligations.ProgramsRunOnTheCores := by
  unfold Obligations.ProgramsRunOnTheCores
  refine ⟨⟨routineStart_starts, riggerProgramStart_starts, budgetExpiry_stops⟩, tsubmit_admits, tsubmit_misaligned, ?_, tdone_stops⟩
  intro die slot rs1 rs2 s r n runs named here waits
  exact ⟨tpatch_patches die slot rs1 rs2 s r n runs named here waits, tskip_skips die slot rs1 s r n runs named here waits,
    trearm_rearms die slot rs1 rs2 s r n runs named here waits⟩

end Sys2Proof.Machine
end

section
/-! SUPPORT. Unlor commands that are answered at once (spec/16_host_mailbox.md R548): the fields of a reply, and the final reply of a
command that has no background work. -/

namespace Sys2Proof.Machine

/-- A function's mailbox registers with a final reply in a slot. -/
def HostFn.replied (mb : Fin 16) (img : BitVec 2048) (h : HostFn) : HostFn :=
  { h with reply := h.reply.set mb img, irq := h.irq ||| (1#16 <<< mb.val), busy := h.busy &&& ~~~(1#16 <<< mb.val) }

theorem writeReply_final_eq (fn : Fin 65) (mb : Fin 16) (img : BitVec 2048) (s : State) :
    writeReply fn mb img true s =
      if (modHost fn (HostFn.replied mb img) s).host[fn].irqMask.getLsbD mb.val then modHost fn (HostFn.replied mb img) s
      else fireVector fn 0 (modHost fn (HostFn.replied mb img) s) := rfl

theorem fireVector_reply (fn : Fin 65) (v : Fin 6) (s : State) :
    (fireVector fn v s).host[fn].reply = s.host[fn].reply ∧ (fireVector fn v s).host[fn].busy = s.host[fn].busy := by
  unfold fireVector
  split
  · have same := modHost_same fn (fun h => { h with msixPending := h.msixPending ||| (1#6 <<< v.val) }) s
    exact ⟨(congrArg HostFn.reply same :), (congrArg HostFn.busy same :)⟩
  · unfold sendMsix
    split <;> exact ⟨rfl, rfl⟩

/-- A final reply stands in its slot, and the slot is not busy (R548). -/
theorem writeReply_final (fn : Fin 65) (mb : Fin 16) (img : BitVec 2048) (s : State) :
    (writeReply fn mb img true s).host[fn].reply[mb] = img ∧ (writeReply fn mb img true s).host[fn].busy.getLsbD mb.val = false := by
  have same : (modHost fn (HostFn.replied mb img) s).host[fn] = s.host[fn].replied mb img := modHost_same fn _ s
  have written : (writeReply fn mb img true s).host[fn].reply = (s.host[fn].replied mb img).reply ∧
      (writeReply fn mb img true s).host[fn].busy = (s.host[fn].replied mb img).busy := by
    rw [writeReply_final_eq, ← same]
    split
    · exact ⟨rfl, rfl⟩
    · exact fireVector_reply fn 0 _
  obtain ⟨reply, busy⟩ := written
  rw [reply, busy]
  simp [HostFn.replied]

/-- The fields of a reply without a payload (R548). -/
theorem replyImage_of (s : State) (opcode seq handle : BitVec 16) (st : BitVec 8) :
    fld (replyImage s opcode seq handle (.of st)).toNat 31 16 = seq.toNat ∧ fld (replyImage s opcode seq handle (.of st)).toNat 71 64 = st.toNat := by
  have low : opcode.toNat + seq.toNat <<< 16 + (0 : Nat) <<< 32 + handle.toNat <<< 48 < 2 ^ 64 := by
    have op := opcode.isLt
    have seq := seq.isLt
    have handle := handle.isLt
    simp only [Nat.shiftLeft_eq]
    omega
  unfold replyImage
  rw [fld_ofNat (by omega) (by omega), fld_ofNat (by omega) (by omega)]
  dsimp only [ReplyBody.of]
  constructor <;> simp (disch := omega) only [fld_add_shiftLeft]
  · exact fld_add_word seq opcode.isLt rfl
  · exact fld_add_word st low rfl

/-- A command whose effect ends at once is answered with its status, and its reply changes nothing else. -/
theorem settleCmd_done (op : BitVec 16) (c : HostCmd) (dma : IndBuf) (st : BitVec 8) (u : State) :
    Answered c st (settleCmd (sent op (withDma c dma)) (u, .done (.of st))) ∧
      Changes [.host, .out] u (settleCmd (sent op (withDma c dma)) (u, .done (.of st))) := by
  have reply : settleCmd (sent op (withDma c dma)) (u, .done (.of st)) =
      writeReply c.fn c.mb (replyImage u (sent op (withDma c dma)).opcode c.seq (sent op (withDma c dma)).handle (.of st)) true u := by
    rw [← sent_seq op c]
    rfl
  rw [reply]
  obtain ⟨image, busy⟩ := writeReply_final c.fn c.mb
    (replyImage u (sent op (withDma c dma)).opcode c.seq (sent op (withDma c dma)).handle (.of st)) u
  obtain ⟨seq, status⟩ := replyImage_of u (sent op (withDma c dma)).opcode c.seq (sent op (withDma c dma)).handle st
  exact ⟨⟨by rw [replyFld, image, seq], by rw [replyFld, image, status], busy⟩, writeReply_changes _ _ _ _ _⟩

theorem atTake_changes (op : BitVec 16) (c : HostCmd) (s : State) : Changes [.host] s (atTake op c s) :=
  (modHost_changes _ _ _).trans (modHost_changes _ _ _)

/-- An accepted command with an effect of its own ends in what the effect leaves, with its final reply. -/
theorem sendCmd_answers {op : BitVec 16} {c : HostCmd} {s : State} {go : State → State} (h : Accepts op c s)
    (effect : ∀ dma, perform (sent op (withDma c dma)) (atTake op c s) = (go (atTake op c s), resOk)) :
    Answered c stOK (sendCmd op c s) ∧ Changes [.host, .out] (go (atTake op c s)) (sendCmd op c s) := by
  obtain ⟨dma, run⟩ := sendCmd_accepted h
  rw [run, effect]
  exact settleCmd_done op c dma stOK _

end Sys2Proof.Machine
end

section
/-! SUPPORT. JOB_READY, JOB_START, JOB_PAUSE and JOB_RESUME (spec/05_tasks_stroke_riggers.md R209, R210; spec/16_host_mailbox.md R559):
what a job's waits see of a state, that a job whose waits have not ended settles without a change, and the moves of the four commands. -/

namespace Sys2Proof.Machine

/-! ### What waits see -/

/-- The parts of a job that its waits, its buckets and its watch look at are the same. -/
structure Job.SameWaits (a b : Job) : Prop where
  incarnation : b.ctl.incarnation = a.ctl.incarnation
  pages : b.ctl.pages = a.ctl.pages
  asAct : b.ctl.asAct = a.ctl.asAct
  tasks : b.tasks = a.tasks
  buckets : b.buckets = a.buckets
  watch : b.watch = a.watch

theorem Job.SameWaits.refl (a : Job) : a.SameWaits a := ⟨rfl, rfl, rfl, rfl, rfl, rfl⟩

theorem JobKept.sameWaits {a b : Job} (h : JobKept a b) : a.SameWaits b := by
  unfold JobKept at h
  rw [h]
  exact ⟨rfl, rfl, rfl, rfl, rfl, rfl⟩

/-- Waits, buckets and watches see the same in two states: memory and the objects are the same, and the Umpire's state but for a
count of frames. -/
structure SameWaits (s t : State) : Prop where
  job : ∀ i : Fin 64, s.jobs[i].SameWaits t.jobs[i]
  mem : t.mem = s.mem
  objs : t.objs = s.objs
  rst : t.rst = s.rst
  sec : SecKept s t

theorem SameWaits.trans {s t u : State} (h : SameWaits s t) (g : SameWaits t u) : SameWaits s u where
  job i := by
    obtain ⟨incarnation, pages, asAct, tasks, buckets, watch⟩ := h.job i
    obtain ⟨incarnation', pages', asAct', tasks', buckets', watch'⟩ := g.job i
    exact ⟨incarnation'.trans incarnation, pages'.trans pages, asAct'.trans asAct, tasks'.trans tasks, buckets'.trans buckets, watch'.trans watch⟩
  mem := g.mem.trans h.mem
  objs := g.objs.trans h.objs
  rst := g.rst.trans h.rst
  sec := h.sec.trans g.sec

/-- What leaves jobs, memory, objects and keys. -/
theorem SameWaits.of_changes {l : List Part} {s t : State} (h : Changes l s t)
    (kept : Part.jobs ∉ l ∧ Part.mem ∉ l ∧ Part.objs ∉ l ∧ Part.rst ∉ l ∧ Part.sec ∉ l) : SameWaits s t := by
  obtain ⟨jobs, mem, objs, rst, sec⟩ := kept
  exact ⟨fun i => by rw [show t.jobs = s.jobs from h .jobs jobs]; exact .refl _, h .mem mem, h .objs objs, h .rst rst, .of_eq (h .sec sec)⟩

section
variable {s t : State} (h : SameWaits s t)
include h

/-- A read finds the same bytes: it does not look at the count in which the keys' part may differ. -/
theorem SameWaits.readPart (tag : BitVec 16) (dpa n : Nat) : readPart t tag dpa n = readPart s tag dpa n := by
  have asRead : SameReads s { t with jobs := s.jobs, sec := s.sec } :=
    ⟨fun _ => rfl, by rw [show ({ t with jobs := s.jobs, sec := s.sec } : State).mem = s.mem from h.mem]; exact .refl _, h.objs, h.rst, rfl⟩
  have counted : t = { t with sec := { s.sec with mgmtSent := t.sec.mgmtSent } } := by rw [← h.sec]
  rw [← asRead.readPart tag dpa n, counted]
  rfl

theorem SameWaits.translate (slot : Fin 64) (va : Nat) (r w : Bool) : translate t slot va r w = translate s slot va r w := by
  have pages : (ctl t slot).pages = (ctl s slot).pages := (h.job slot).pages
  have asAct : (ctl t slot).asAct = (ctl s slot).asAct := (h.job slot).asAct
  simp only [Machine.translate, pages, asAct]

theorem SameWaits.peek (slot : Fin 64) (va len : Nat) : peek t slot va len = peek s slot va len := by
  have range : mapped t slot va len true false = mapped s slot va len true false := by simp only [mapped, h.translate]
  have incarnation : (ctl t slot).incarnation = (ctl s slot).incarnation := (h.job slot).incarnation
  have tag : jobTag t slot = jobTag s slot := by simp only [jobTag, incarnation]
  simp only [Machine.peek, range, tag, h.translate, h.readPart]

theorem SameWaits.counterVal (slot : Fin 64) (n : Nat) : counterVal t slot n = counterVal s slot n := by
  have base : ctrBase t slot = ctrBase s slot := by simp only [ctrBase, jobFld, objBits, h.objs, h.rst]; rw [h.sec]
  simp only [Machine.counterVal, jobNat, base, h.peek]

theorem SameWaits.jobDie (slot : Fin 64) (die : Fin 4) : jobDie t slot die = jobDie s slot die :=
  congrArg (fun k : JobTasks => k.dies[die]) (h.job slot).tasks

theorem SameWaits.readyWait (slot : Fin 64) : readyWait t slot = readyWait s slot := by
  have waitEnd : ∀ r, waitEnd t slot r = waitEnd s slot r := fun r => by unfold Machine.waitEnd; simp only [h.counterVal]
  simp only [Machine.readyWait, h.jobDie, waitEnd]

theorem SameWaits.fullHalf (slot : Fin 64) : fullHalf t slot = fullHalf s slot := by
  simp only [Machine.fullHalf, halfFull, bucketAt, jobNat, h.peek, h.counterVal, (h.job slot).buckets]

theorem SameWaits.jobRuns (slot : Fin 64) : jobRuns t slot = jobRuns s slot := by
  simp only [Machine.jobRuns, h.jobDie]

end

/-! ### Moves of a job -/

/-- A move of a job to a state leaves the others. -/
theorem setJob_other {slot j : Fin 64} (st : JobState) (s : State) (h : j ≠ slot) : (setJob slot st s).jobs[j] = s.jobs[j] := by
  rw [setJob_after slot s st .jobs (by decide)]
  exact modJob_other slot j _ s h

theorem setJob_mem (slot : Fin 64) (st : JobState) (s : State) : (setJob slot st s).mem = s.mem :=
  setJob_changes slot st s .mem (by decide)

theorem setJob_sameWaits (slot : Fin 64) (st : JobState) (s : State) : SameWaits s (setJob slot st s) := by
  refine SameWaits.trans (t := modCtl slot (fun c => { c with st := st, since := s.clock.now }) s) ⟨fun i => ?_, rfl, rfl, rfl, .of_eq rfl⟩
    (.of_changes (setJob_after slot s st) (by decide))
  rw [modCtl, modJob, vmod_getElem]
  split
  next same => subst same; exact ⟨rfl, rfl, rfl, rfl, rfl, rfl⟩
  next => exact .refl _

theorem finishAll_sameWaits (f : BgCmd → Bool) (b : ReplyBody) (s : State) : SameWaits s (finishAll f b s) :=
  have changes := finishAll_changes f b s
  ⟨fun i => (finishAll_jobsKept f b s i).sameWaits, changes .mem (by decide), changes .objs (by decide), changes .rst (by decide),
    finishAll_secKept s f b⟩

/-- A job's state after what keeps jobs but for their transmit counts. -/
theorem JobsKept.jobSt {s t : State} (h : JobsKept s t) (i : Fin 64) : jobSt t i = jobSt s i := by
  have kept := h i
  unfold JobKept at kept
  show t.jobs[i].ctl.st = s.jobs[i].ctl.st
  rw [kept]

theorem holdCheck_jobsKept (s : State) : JobsKept s (holdCheck s) := by
  unfold holdCheck
  split
  · exact (JobsKept.of_eq (hold_changes s .jobs (by decide))).trans (finishAll_jobsKept _ _ _)
  · exact .refl s

theorem holdCheck_mem (s : State) : (holdCheck s).mem = s.mem := by
  unfold holdCheck
  split
  · exact (finishAll_changes _ _ _ .mem (by decide)).trans (hold_changes s .mem (by decide))
  · rfl

/-! ### Jobs that settle without a change -/

/-- No WAIT task has ended, no bucket has its count, no watch record is closing and no verdict drops. -/
structure Settled (s : State) (slot : Fin 64) : Prop where
  waits : readyWait s slot = none
  halves : fullHalf s slot = none
  closing : s.jobs[slot].watch.st ≠ .closing
  dropping : s.jobs[slot].watch.dropping = false

theorem Settled.of_sameWaits {s t : State} {slot : Fin 64} (h : Settled s slot) (same : SameWaits s t) : Settled t slot :=
  ⟨(same.readyWait slot).trans h.waits, (same.fullHalf slot).trans h.halves, by rw [(same.job slot).watch]; exact h.closing,
    by rw [(same.job slot).watch]; exact h.dropping⟩

theorem Settled.settle_eq {s : State} {slot : Fin 64} (h : Settled s slot) : settle slot s = holdCheck s := by
  obtain ⟨waits, halves, closing, dropping⟩ := h
  have waited : ∀ n, settleWaits slot n s = s := fun n => by
    cases n with
    | zero => rfl
    | succ n =>
      unfold settleWaits
      rw [waits]
      dsimp only
      rw [halves]
  have judged : watchCheck slot s = s := by
    unfold watchCheck
    exact if_neg (fun closes => closing (eq_of_beq (Bool.and_eq_true_iff.mp closes).1))
  have dropped : ∀ n, settleDrops slot n s = s := fun n => by
    cases n with
    | zero => rfl
    | succ n =>
      unfold settleDrops
      exact if_neg (fun drops => Bool.false_ne_true (dropping.symm.trans drops.2))
  unfold settle
  dsimp only
  rw [waited, judged, dropped, ite_self]

/-- A settled job keeps its state as it settles, memory stays, and every job but for its transmit count. -/
theorem Settled.settle {s : State} {slot : Fin 64} (h : Settled s slot) :
    jobSt (settle slot s) slot = jobSt s slot ∧ (settle slot s).mem = s.mem ∧ JobsKept s (settle slot s) := by
  rw [h.settle_eq]
  exact ⟨(holdCheck_jobsKept s).jobSt slot, holdCheck_mem s, holdCheck_jobsKept s⟩


/-! ### The four commands -/

section
variable (c : HostCmd) (s : State)

theorem perform_ready : perform (sent 0x0013 c) s = cmdReady (sent 0x0013 c) s := by
  unfold perform
  rw [sent_opcode]
  rfl

theorem perform_start : perform (sent 0x0014 c) s = cmdStart (sent 0x0014 c) s := by
  unfold perform
  rw [sent_opcode]
  rfl

theorem perform_pause : perform (sent 0x0015 c) s = cmdPause (sent 0x0015 c) s := by
  unfold perform
  rw [sent_opcode]
  rfl

theorem perform_resume : perform (sent 0x0016 c) s = cmdResume (sent 0x0016 c) s := by
  unfold perform
  rw [sent_opcode]
  rfl

theorem jobReady_readies (h : Accepts 0x0013 c s) (keyed : jobSt s (sent 0x0013 c).slot = .keyed) :
    Completes (.jobReady c) s (fun t => Answered c stOK t ∧ jobSt t (sent 0x0013 c).slot = .ready ∧ t.mem = s.mem ∧
      (∀ j : Fin 64, j ≠ (sent 0x0013 c).slot → t.jobs[j] = s.jobs[j])) := by
  obtain ⟨answered, rest⟩ := sendCmd_answers (go := setJob (sent 0x0013 c).slot .ready) h
    (fun dma => (perform_ready _ _).trans (if_pos keyed))
  have jobs : (sendCmd 0x0013 c s).jobs = _ := rest .jobs (by decide)
  have mem : (sendCmd 0x0013 c s).mem = _ := rest .mem (by decide)
  refine ⟨_, rfl, answered, ?_, mem.trans (setJob_mem _ _ _), fun j other => ?_⟩
  · exact ((JobsKept.of_eq jobs).jobSt _).trans (setJob_st _ _ _)
  · rw [show (sendCmd 0x0013 c s).jobs = _ from jobs]
    exact setJob_other _ _ other

/-- JOB_START and JOB_RESUME take a settled job to RUNNING and settle it. -/
theorem sendCmd_runs {op : BitVec 16} {slot : Fin 64} (h : Accepts op c s) (settled : Settled s slot)
    (effect : ∀ dma, perform (sent op (withDma c dma)) (atTake op c s) = (settle slot (setJob slot .running (atTake op c s)), resOk)) :
    Answered c stOK (sendCmd op c s) ∧ jobSt (sendCmd op c s) slot = .running ∧ (sendCmd op c s).mem = s.mem ∧
      ∀ j : Fin 64, j ≠ slot → JobKept s.jobs[j] (sendCmd op c s).jobs[j] := by
  obtain ⟨answered, rest⟩ := sendCmd_answers (go := fun u => settle slot (setJob slot .running u)) h effect
  have still : Settled (setJob slot .running (atTake op c s)) slot :=
    settled.of_sameWaits ((SameWaits.of_changes (atTake_changes op c s) (by decide)).trans (setJob_sameWaits _ _ _))
  obtain ⟨st, mem, kept⟩ := still.settle
  have after : JobsKept (setJob slot .running (atTake op c s)) (sendCmd op c s) := kept.trans (.of_eq (rest .jobs (by decide)))
  refine ⟨answered, (after.jobSt slot).trans (setJob_st _ _ _), ?_, fun j other => ?_⟩
  · exact ((show (sendCmd op c s).mem = _ from rest .mem (by decide)).trans mem).trans (setJob_mem _ _ _)
  · have kept := after j
    rw [setJob_other _ _ other] at kept
    exact kept

/-- A RUNNING job without buckets that is to pause: it becomes DRAINING, and PAUSED at once where none of its tasks runs. -/
theorem drainJob_settles {slot : Fin 64} (settled : Settled s slot) (buckets : s.jobs[slot].buckets = []) :
    jobSt (settle slot (drainJob slot s)) slot = (if jobRuns s slot then .draining else .paused) ∧
      (settle slot (drainJob slot s)).mem = s.mem ∧ ∀ j : Fin 64, j ≠ slot → JobKept s.jobs[j] (settle slot (drainJob slot s)).jobs[j] := by
  have drained := setJob_sameWaits slot .draining s
  have noClosers : drainJob slot s = pauseCheck slot (setJob slot .draining s) := by
    have none : (setJob slot .draining s).jobs[slot].buckets = [] := (drained.job slot).buckets.trans buckets
    rw [drainJob, faultClosers, none]
    rfl
  have check : pauseCheck slot (setJob slot .draining s) = if jobRuns s slot then setJob slot .draining s else
      finishAll (fun c => c.work == .pause slot) (.of stOK) (setJob slot .paused (setJob slot .draining s)) := by
    unfold pauseCheck
    rw [setJob_st, drained.jobRuns]
    cases jobRuns s slot <;> rfl
  rw [noClosers, check]
  split
  · obtain ⟨st, mem, kept⟩ := (settled.of_sameWaits drained).settle
    refine ⟨st.trans (setJob_st _ _ _), mem.trans drained.mem, fun j other => ?_⟩
    have kept := kept j
    rw [setJob_other _ _ other] at kept
    exact kept
  · have finished := finishAll_jobsKept (fun c => c.work == .pause slot) (.of stOK) (setJob slot .paused (setJob slot .draining s))
    have paused := (drained.trans (setJob_sameWaits slot .paused _)).trans (finishAll_sameWaits (fun c => c.work == .pause slot) (.of stOK) _)
    obtain ⟨st, mem, kept⟩ := (settled.of_sameWaits paused).settle
    refine ⟨(st.trans (finished.jobSt slot)).trans (setJob_st _ _ _), mem.trans paused.mem, fun j other => ?_⟩
    have kept := (finished.trans kept) j
    rw [setJob_other _ _ other, setJob_other _ _ other] at kept
    exact kept

theorem jobPause_drains (h : Accepts 0x0015 c s) (running : jobSt s (sent 0x0015 c).slot = .running)
    (buckets : s.jobs[(sent 0x0015 c).slot].buckets = []) (settled : Settled s (sent 0x0015 c).slot) :
    Completes (.jobPause c) s (fun t =>
      jobSt t (sent 0x0015 c).slot = (if jobRuns s (sent 0x0015 c).slot then .draining else .paused) ∧ t.mem = s.mem ∧
      (∀ j : Fin 64, j ≠ (sent 0x0015 c).slot → JobKept s.jobs[j] t.jobs[j])) := by
  have paused : ∀ (d : Cmd) (u : State), jobSt u d.slot = .running →
      cmdPause d u = (u, .start (.pause d.slot) (fun s => settle d.slot (drainJob d.slot s))) := fun d u hu => by
    rw [cmdPause, hu]
  obtain ⟨u, run, _, rest⟩ := sendCmd_starts (w := .pause (sent 0x0015 c).slot)
    (go := fun s => settle (sent 0x0015 c).slot (drainJob (sent 0x0015 c).slot s)) h
    (fun dma => (perform_pause _ _).trans (paused (sent 0x0015 (withDma c dma)) (atTake 0x0015 c s) running))
  have same : SameWaits s u := .of_changes rest (by decide)
  have jobs : u.jobs = s.jobs := rest .jobs (by decide)
  obtain ⟨st, mem, kept⟩ := drainJob_settles u (settled.of_sameWaits same) (by rw [show u.jobs = s.jobs from jobs]; exact buckets)
  rw [same.jobRuns] at st
  rw [show u.jobs = s.jobs from jobs] at kept
  exact ⟨_, rfl, by rw [run]; exact ⟨st, mem.trans same.mem, kept⟩⟩

theorem jobPause_paused (h : Accepts 0x0015 c s) (paused : jobSt s (sent 0x0015 c).slot = .paused) :
    Completes (.jobPause c) s (fun t => Started c .made t ∧ t.jobs = s.jobs ∧ t.mem = s.mem) := by
  have made : ∀ (d : Cmd) (u : State), jobSt u d.slot = .paused → cmdPause d u = (u, .start .made id) := fun d u hu => by rw [cmdPause, hu]
  obtain ⟨u, run, started, rest⟩ := sendCmd_starts h (fun dma => (perform_pause _ _).trans (made _ _ paused))
  exact ⟨_, rfl, by rw [run]; exact ⟨started, rest .jobs (by decide), rest .mem (by decide)⟩⟩

end

/-- Settles O15: each command's own checks pass, its job takes the state, and a settled job does not change as it settles
(`Settled.settle`). -/
theorem readyStartPauseResumeMoveTheJob : Obligations.ReadyStartPauseResumeMoveTheJob := by
  unfold Obligations.ReadyStartPauseResumeMoveTheJob
  refine ⟨⟨jobReady_readies, ?_, ?_⟩, ?_, jobPause_paused⟩
  · intro c s h ready waits halves closing dropping
    exact ⟨_, rfl, sendCmd_runs c s h ⟨waits, halves, closing, dropping⟩ (fun dma => (perform_start _ _).trans (if_pos ready))⟩
  · intro c s h paused waits halves closing dropping
    exact ⟨_, rfl, sendCmd_runs c s h ⟨waits, halves, closing, dropping⟩ (fun dma => (perform_resume _ _).trans (if_pos paused))⟩
  · intro c s h running buckets waits closing dropping
    have halves : fullHalf s (sent 0x0015 c).slot = none := by rw [fullHalf, buckets]; rfl
    exact jobPause_drains c s h running buckets ⟨waits, halves, closing, dropping⟩

end Sys2Proof.Machine
end

section
/-! SUPPORT. TASK_RESET, JOB_SEAL and JOB_TEAR (spec/05_tasks_stroke_riggers.md R211; spec/09_update_in_stack.md R333;
spec/10_fabric_transport.md R371; spec/14_secrecy.md R501, R502): which entries a reset frees, and what a teardown leaves of a job. -/

namespace Sys2Proof.Machine

/-! ### Entries that a reset frees (R211) -/

/-- The entry of another task. -/
theorem entryOf_modEntry_other {t k : TaskRef} (f : Entry → Entry) (s : State) (h : k ≠ t) : entryOf (modEntry t f s) k = entryOf s k := by
  by_cases sameSlot : k.slot = t.slot
  · by_cases sameDie : k.die = t.die
    · have apart : k.index.toNat ≠ t.index.toNat := fun sameIndex => h (by
        obtain ⟨_, _, _⟩ := k
        obtain ⟨_, _, _⟩ := t
        simp only [TaskRef.mk.injEq]
        exact ⟨sameSlot, sameDie, BitVec.eq_of_toNat_eq sameIndex⟩)
      rw [entryOf, entryOf, entryAt, entryAt, sameSlot, sameDie, modEntry, jobDie_modDie, AMap.getD, AMap.getD, AMap.find_put_other _ _ apart]
    · rw [entryOf, entryOf, entryAt, entryAt, sameSlot, modEntry, jobDie_modDie_other _ _ _ sameDie]
  · rw [entryOf, entryOf, entryAt, entryAt, jobDie, modEntry, modDie_other _ _ _ sameSlot, jobDie]

/-- What a reset frees: the task's own entry is FREE without a count, every other entry and memory are as they were. -/
theorem resetEntry_frees (t : TaskRef) (s : State) :
    (entryOf (resetEntry t s) t).st = .free 0 ∧ (∀ k, k ≠ t → entryOf (resetEntry t s) k = entryOf s k) ∧ (resetEntry t s).mem = s.mem := by
  have freed : ∀ f u, (∀ e, (f e).st = .free 0) → (∀ k, entryOf u k = entryOf s k) → u.mem = s.mem →
      (entryOf (modEntry t f u) t).st = .free 0 ∧ (∀ k, k ≠ t → entryOf (modEntry t f u) k = entryOf s k) ∧ (modEntry t f u).mem = s.mem :=
    fun f u hf entries mem => ⟨by rw [entryOf_modEntry, hf], fun k other => by rw [entryOf_modEntry_other f u other, entries], mem⟩
  have tagged : ∀ u f k, entryOf (modTag t.slot (dTag (entryOf s t).desc) f u) k = entryOf u k :=
    fun u f k => entryOf_modJob_of_dies t.slot _ u k (fun _ => rfl)
  unfold resetEntry
  dsimp only
  split
  · exact freed _ s (fun _ => rfl) (fun _ => rfl) rfl
  · split
    · exact freed _ _ (fun _ => rfl) (fun k => by rw [tagged, entryOf_addDepOut]) rfl
    · exact freed _ _ (fun _ => rfl) (fun k => tagged s _ k) rfl

/-- A FREE entry without a count stays so. -/
theorem resetEntry_keepsFree (t k : TaskRef) (s : State) (h : (entryOf s k).st = .free 0) : (entryOf (resetEntry t s) k).st = .free 0 := by
  obtain ⟨freed, others, _⟩ := resetEntry_frees t s
  by_cases same : k = t
  · rw [same]; exact freed
  · rw [others k same]; exact h

/-- One entry of the table at a reset that leaves RUNNING tasks. -/
def resetOne (slot : Fin 64) (die : Fin 4) (e : Nat × Entry) (s : State) : State :=
  if e.2.st == .running then s else resetEntry ⟨slot, die, BitVec.ofNat 16 e.1⟩ s

theorem resetTable_eq (slot : Fin 64) (die : Fin 4) (s : State) :
    resetTable slot die false s =
      forEach (jobDie s slot die).entries (resetOne slot die) (modDie slot die (fun d => { d with routine := none, queue := [] }) s) := by
  unfold resetTable
  dsimp only
  rw [jobDie_modDie]
  rfl

theorem entryOf_dropRoutines (slot : Fin 64) (die : Fin 4) (s : State) (k : TaskRef) :
    entryOf (modDie slot die (fun d => { d with routine := none, queue := [] }) s) k = entryOf s k :=
  entryOf_modDie_of_entries slot die _ s k (fun _ => rfl)

theorem resetOne_keepsFree (slot : Fin 64) (die : Fin 4) (e : Nat × Entry) (k : TaskRef) (s : State) (h : (entryOf s k).st = .free 0) :
    (entryOf (resetOne slot die e s) k).st = .free 0 := by
  unfold resetOne
  split
  · exact h
  · exact resetEntry_keepsFree _ k s h

/-- A reset of a table frees every listed entry that does not run. -/
theorem forEach_resetOne_frees (slot : Fin 64) (die : Fin 4) (k : BitVec 16) (l : List (Nat × Entry)) (s : State) (e : Entry)
    (listed : (k.toNat, e) ∈ l) (stands : e.st ≠ .running) : (entryOf (forEach l (resetOne slot die) s) ⟨slot, die, k⟩).st = .free 0 := by
  induction l generalizing s with
  | nil => exact absurd listed (by simp)
  | cons p rest ih =>
    show (entryOf (forEach rest (resetOne slot die) (resetOne slot die p s)) _).st = _
    obtain same | later := List.mem_cons.mp listed
    · subst same
      refine forEach_keeps (P := fun u => (entryOf u ⟨slot, die, k⟩).st = .free 0) rest _ (fun q u hu => resetOne_keepsFree slot die q _ u hu) _ ?_
      rw [resetOne, if_neg (by simpa using stands), BitVec.ofNat_toNat, BitVec.setWidth_eq]
      exact (resetEntry_frees _ _).1
    · exact ih _ later

theorem resetOne_mem (slot : Fin 64) (die : Fin 4) (e : Nat × Entry) (s : State) : (resetOne slot die e s).mem = s.mem := by
  unfold resetOne
  split
  · rfl
  · exact (resetEntry_frees _ _).2.2

theorem resetTable_mem (slot : Fin 64) (die : Fin 4) (s : State) : (resetTable slot die false s).mem = s.mem := by
  rw [resetTable_eq]
  exact forEach_keeps (P := fun u => u.mem = s.mem) _ _ (fun e u hu => (resetOne_mem slot die e u).trans hu) _ rfl

/-- A reset of a table leaves the entries of other dies. -/
theorem resetTable_otherDie (slot : Fin 64) {die : Fin 4} {k : TaskRef} (s : State) (h : k.die ≠ die) :
    entryOf (resetTable slot die false s) k = entryOf s k := by
  rw [resetTable_eq]
  refine forEach_keeps (P := fun u => entryOf u k = entryOf s k) _ _ (fun e u hu => ?_) _ (entryOf_dropRoutines _ _ _ _)
  unfold resetOne
  split
  · exact hu
  · exact ((resetEntry_frees _ u).2.1 k (fun same => h (by rw [same]))).trans hu

theorem resetTable_frees (slot : Fin 64) (die : Fin 4) (k : BitVec 16) (s : State) (stands : (entryOf s ⟨slot, die, k⟩).st ≠ .running) :
    (entryOf (resetTable slot die false s) ⟨slot, die, k⟩).st = .free 0 := by
  rw [resetTable_eq]
  cases found : AMap.find (jobDie s slot die).entries k.toNat with
  | some e =>
    refine forEach_resetOne_frees slot die k _ _ e (AMap.mem_of_find found) ?_
    rwa [entryOf, entryAt, AMap.getD, found] at stands
  | none =>
    refine forEach_keeps (P := fun u => (entryOf u ⟨slot, die, k⟩).st = .free 0) _ _ (fun q u hu => resetOne_keepsFree slot die q _ u hu) _ ?_
    rw [entryOf_dropRoutines, entryOf, entryAt, AMap.getD, found]
    rfl

theorem resetTable_keepsFree (slot : Fin 64) (die : Fin 4) (k : TaskRef) (s : State) (h : (entryOf s k).st = .free 0) :
    (entryOf (resetTable slot die false s) k).st = .free 0 := by
  rw [resetTable_eq]
  refine forEach_keeps (P := fun u => (entryOf u k).st = .free 0) _ _ (fun q u hu => resetOne_keepsFree slot die q k u hu) _ ?_
  rw [entryOf_dropRoutines, h]

/-- The resets of several dies free the entries of each of them that do not run. -/
theorem resetTables_free (slot : Fin 64) (dies : List (Fin 4)) (die : Fin 4) (k : BitVec 16) (s : State) (listed : die ∈ dies)
    (stands : (entryOf s ⟨slot, die, k⟩).st ≠ .running) :
    (entryOf (forEach dies (fun d st => resetTable slot d false st) s) ⟨slot, die, k⟩).st = .free 0 := by
  induction dies generalizing s with
  | nil => exact absurd listed (by simp)
  | cons d rest ih =>
    show (entryOf (forEach rest (fun d st => resetTable slot d false st) (resetTable slot d false s)) _).st = _
    by_cases same : die = d
    · rw [same] at stands ⊢
      exact forEach_keeps (P := fun u => (entryOf u ⟨slot, d, k⟩).st = .free 0) rest _
        (fun d' u hu => resetTable_keepsFree slot d' _ u hu) _ (resetTable_frees slot d k s stands)
    · refine ih _ ((List.mem_cons.mp listed).resolve_left same) ?_
      rw [resetTable_otherDie (k := ⟨slot, die, k⟩) slot s same]
      exact stands

theorem taskReset_frees (c : HostCmd) (s : State) (h : Accepts 0x0017 c s) (rsv : (sent 0x0017 c).pl 63 4 = 0)
    (some_ : (sent 0x0017 c).pl 3 0 ≠ 0) (paused : jobSt s (sent 0x0017 c).slot = .paused) :
    Completes (.taskReset c) s (fun t => Answered c stOK t ∧ t.mem = s.mem ∧
      (∀ (die : Fin 4) (k : BitVec 16), bitAt ((sent 0x0017 c).pl 3 0) die.val = true →
        (entryOf s ⟨(sent 0x0017 c).slot, die, k⟩).st ≠ .running → (entryOf t ⟨(sent 0x0017 c).slot, die, k⟩).st = .free 0)) := by
  have effect : ∀ (d : Cmd) (u : State), d.pl 63 4 = 0 → d.pl 3 0 ≠ 0 → jobSt u d.slot = .paused → cmdTaskReset d u =
      (forEach (allDies.filter (fun k => bitAt (d.pl 3 0) k.val)) (fun k st => resetTable d.slot k false st) u, resOk) :=
    fun d u rsv some_ paused => by
      unfold cmdTaskReset
      dsimp only
      rw [if_neg (by simp [rsv, some_]), if_neg (not_not.mpr paused)]
  have dispatched : ∀ d u, perform (sent 0x0017 d) u = cmdTaskReset (sent 0x0017 d) u := fun d u => by
    unfold perform
    rw [sent_opcode]
    rfl
  have words : ∀ dma hi lo, (sent 0x0017 (withDma c dma)).pl hi lo = (sent 0x0017 c).pl hi lo := fun dma hi lo => by
    rw [Cmd.pl, Cmd.pl, sent_withDma_payload]
  obtain ⟨answered, rest⟩ := sendCmd_answers (go := forEach (allDies.filter (fun k => bitAt ((sent 0x0017 c).pl 3 0) k.val))
    (fun k st => resetTable (sent 0x0017 c).slot k false st)) h (fun dma => by
      rw [dispatched, effect (sent 0x0017 (withDma c dma)) (atTake 0x0017 c s) ((words dma _ _).trans rsv) (by rw [words]; exact some_) paused, words]
      rfl)
  have jobs : (sendCmd 0x0017 c s).jobs = _ := rest .jobs (by decide)
  refine ⟨_, rfl, answered, ?_, fun die k chosen stands => ?_⟩
  · refine (show (sendCmd 0x0017 c s).mem = _ from rest .mem (by decide)).trans ?_
    exact forEach_keeps (P := fun u => u.mem = s.mem) _ _ (fun d u hu => (resetTable_mem _ d u).trans hu) _ rfl
  · rw [entryOf_of_jobs jobs]
    exact resetTables_free _ _ die k _ (List.mem_filter.mpr ⟨List.mem_finRange die, chosen⟩) stands

/-! ### JOB_SEAL (R333) -/

theorem jobSeal_raises (c : HostCmd) (s : State) (h : Accepts 0x0018 c s)
    (st : jobSt s (sent 0x0018 c).slot = .ready ∨ jobSt s (sent 0x0018 c).slot = .running ∨ jobSt s (sent 0x0018 c).slot = .draining ∨
      jobSt s (sent 0x0018 c).slot = .paused) :
    Completes (.jobSeal c) s (fun t => Answered c stOK t ∧ t.jobs[(sent 0x0018 c).slot].upd.sealedValid = true ∧
      t.jobs[(sent 0x0018 c).slot].upd.sealedStep.toNat =
        max s.jobs[(sent 0x0018 c).slot].upd.sealedStep.toNat ((sent 0x0018 c).pl 63 0) ∧ t.mem = s.mem ∧
      (∀ j : Fin 64, j ≠ (sent 0x0018 c).slot → t.jobs[j] = s.jobs[j])) := by
  have dispatched : ∀ d u, perform (sent 0x0018 d) u = cmdSeal (sent 0x0018 d) u := fun d u => by
    unfold perform
    rw [sent_opcode]
    rfl
  have words : ∀ dma, (sent 0x0018 (withDma c dma)).pl 63 0 = (sent 0x0018 c).pl 63 0 := fun dma => by
    rw [Cmd.pl, Cmd.pl, sent_withDma_payload]
  have effect : ∀ (d : Cmd) (u : State), (jobSt u d.slot = .ready ∨ jobSt u d.slot = .running ∨ jobSt u d.slot = .draining ∨
      jobSt u d.slot = .paused) → cmdSeal d u = (modJob d.slot (fun j => { j with upd := { j.upd with
        sealedStep := BitVec.ofNat 64 (max j.upd.sealedStep.toNat (d.pl 63 0)), sealedValid := true } }) u, resOk) := fun d u st => by
    unfold cmdSeal
    refine if_pos ?_
    rcases st with st | st | st | st <;> rw [st] <;> rfl
  obtain ⟨answered, rest⟩ := sendCmd_answers (go := modJob (sent 0x0018 c).slot (fun j => { j with upd := { j.upd with
      sealedStep := BitVec.ofNat 64 (max j.upd.sealedStep.toNat ((sent 0x0018 c).pl 63 0)), sealedValid := true } })) h (fun dma => by
    rw [dispatched, effect (sent 0x0018 (withDma c dma)) (atTake 0x0018 c s) st, words]
    rfl)
  have jobs : (sendCmd 0x0018 c s).jobs = _ := rest .jobs (by decide)
  refine ⟨_, rfl, answered, ?_, ?_, (show (sendCmd 0x0018 c s).mem = _ from rest .mem (by decide)), fun j other => ?_⟩
  · show (sendCmd 0x0018 c s).jobs[(sent 0x0018 c).slot].upd.sealedValid = true
    rw [show (sendCmd 0x0018 c s).jobs = _ from jobs, modJob, vmod_same]
  · show (sendCmd 0x0018 c s).jobs[(sent 0x0018 c).slot].upd.sealedStep.toNat = _
    have fits : (sent 0x0018 c).pl 63 0 < 2 ^ 64 := Nat.mod_lt _ (Nat.two_pow_pos _)
    rw [show (sendCmd 0x0018 c s).jobs = _ from jobs, modJob, vmod_same]
    exact (BitVec.toNat_ofNat _ _).trans (Nat.mod_eq_of_lt (max_lt (BitVec.isLt _) fits))
  · rw [show (sendCmd 0x0018 c s).jobs = _ from jobs]
    exact modJob_other _ _ _ _ other


/-! ### The steps of a teardown (R371) -/

section
variable (slot : Fin 64) (s : State)

theorem stopTasks_windsDown : WindsDown s (stopTasks slot s) := by
  refine WindsDown.forEach _ _ (fun die u => ?_) s
  have stopped := WindsDown.forEach ((jobDie u slot die).entries.filter (fun e => e.2.st == .running)) (fun e v =>
      modEntry ⟨slot, die, BitVec.ofNat 16 e.1⟩ (fun x => { x with st := .faulted, run := .idle, caps := [], reads := [] })
        (freeUnits ⟨slot, die, BitVec.ofNat 16 e.1⟩ v)) (fun e v => (freeUnits_windsDown v _).trans (modEntry_windsDown _ _ _)) u
  exact (stopped.trans (modDie_windsDown slot die _ (fun d => { d with routine := none, queue := [], msgs := [] }) (fun _ _ => rfl))).trans
    (serveTime_windsDown slot die _)

theorem tornRecords_windsDown : WindsDown s (tornRecords slot s) :=
  WindsDown.forEach _ _ (fun _ u => (WindsDown.of_eq (s := u) (t := (draw (draw u).2).2) rfl rfl rfl).trans (event_windsDown _ _ _ _)) s

theorem resumeCores_windsDown (i : Option (Fin 64)) : WindsDown s (resumeCores i s) := by
  have resumed := WindsDown.forEach (allSlots.filter (fun j => i.all (· == j))) (fun j st =>
      forEach allDies (fun d st => modDie j d (fun k => { k with regs := { k.regs with halted := false } }) st) st)
    (fun j u => .forEach _ _ (fun d v => modDie_windsDown j d v _ (by exact fun _ none => none)) u) s
  refine resumed.trans ?_
  refine ⟨fun _ => .refl _, fun r free => ?_, .refl _⟩
  show (Vector.map _ _ : Vector Rigger 64)[r].task = none
  simp only [Fin.getElem_fin, Vector.getElem_map] at free ⊢
  split <;> exact free

/-- The Umpire's operations that leave the keys of jobs. -/
theorem modSec_windsDown (f : Security → Security) (h : s.sec.SameKeys (f s.sec)) : WindsDown s (modSec f s) :=
  ⟨fun _ => .refl _, fun _ none => none, h⟩

theorem extendDebug_windsDown (level : Nat) (token : List Byte) : WindsDown s (extendDebug level token s) := by
  unfold extendDebug extend
  exact modSec_windsDown s _ ⟨rfl, rfl, rfl, rfl⟩

theorem closeD2_windsDown : WindsDown s (closeD2 slot s) := by
  unfold closeD2
  split
  · exact .refl s
  · have closed := modSec_windsDown s (fun c => { c with d2 := c.d2.set slot none }) ⟨rfl, rfl, rfl, rfl⟩
    have resumed := closed.trans (resumeCores_windsDown _ (some slot))
    exact (resumed.trans (extendDebug_windsDown _ 0 [])).trans (.of_changes (logEvent_changes _ _ _ _ _) (by decide))

theorem dropTransport_flows : (dropTransport slot s).jobs[slot].vmt.flows = [] := by
  have cut : ∀ f u, (modTotals slot f (modVmt slot (fun v => { v with flows := [] }) u)).jobs[slot].vmt.flows = [] := fun f u => by
    rw [modTotals, modJob, vmod_same, modVmt, modJob, vmod_same]
  exact cut _ _

/-- Every stream cache line of a job is dropped. -/
def dropJobLines : State := { s with mem := { s.mem with lines := s.mem.lines.filter (fun l => !(l.slot == slot)) } }

theorem dropJobLines_windsDown : WindsDown s (dropJobLines slot s) := .of_eq rfl rfl rfl

/-- What a teardown does once the transport ended and before the job is TORN: tasks stop, the watch record, buckets and lines go. -/
def stopWork : State :=
  let s := modWatch slot (fun w => { w with st := .idle, cur := WatchRec.reset, last := WatchRec.reset }) (stopTasks slot s)
  tornRecords slot (dropJobLines slot (modJob slot (fun j => { j with buckets := [], landed := [] }) s))

theorem stopWork_windsDown : WindsDown s (stopWork slot s) := by
  have emptied := modJob_windsDown_of_same slot (modWatch slot (fun w => { w with st := .idle, cur := WatchRec.reset, last := WatchRec.reset })
    (stopTasks slot s)) (fun j => { j with buckets := [], landed := [] }) (fun _ => ⟨rfl, rfl, rfl⟩)
  have stopped := ((stopTasks_windsDown slot s).trans (modWatch_windsDown slot _ _)).trans emptied
  exact (stopped.trans (dropJobLines_windsDown slot _)).trans (tornRecords_windsDown slot _)

/-- The job becomes TORN, and commands that ran for it end. -/
def becomeTorn (cause : BitVec 4) : State :=
  finishAll (fun c => c.slot == some slot) (.of stTORN) (setJob slot .torn (modCtl slot (fun c => { c with tearCause := cause }) s))

theorem tearJob_eq (cause : BitVec 4) (empty : jobSt s slot ≠ .empty) (torn : jobSt s slot ≠ .torn) (scrubbing : jobSt s slot ≠ .scrubbing) :
    tearJob slot cause s = faultDue (holdCheck (closeD2 slot (destroyKeys slot (becomeTorn slot (stopWork slot (dropTransport slot s)) cause)))) := by
  unfold tearJob
  cases st : jobSt s slot with
  | empty => exact absurd st empty
  | torn => exact absurd st torn
  | scrubbing => exact absurd st scrubbing
  | _ => rfl

theorem stopWork_flows : (stopWork slot (dropTransport slot s)).jobs[slot].vmt.flows = [] :=
  ((stopWork_windsDown slot _).job slot).flows (dropTransport_flows slot s)

/-- A job that became TORN has its cause, and no flow that it had not. -/
theorem becomeTorn_torn (cause : BitVec 4) : jobSt (becomeTorn slot s cause) slot = .torn ∧ (ctl (becomeTorn slot s cause) slot).tearCause = cause ∧
    (s.jobs[slot].vmt.flows = [] → (becomeTorn slot s cause).jobs[slot].vmt.flows = []) := by
  have caused : (ctl (modCtl slot (fun c => { c with tearCause := cause }) s) slot).tearCause = cause := by rw [ctl_modCtl]
  have flows : (modCtl slot (fun c => { c with tearCause := cause }) s).jobs[slot].vmt = s.jobs[slot].vmt := by rw [modCtl, modJob, vmod_same]
  have set := setJob_windsDown slot (modCtl slot (fun c => { c with tearCause := cause }) s) .torn (fun _ => rfl)
  have finished := finishAll_windsDown (setJob slot .torn (modCtl slot (fun c => { c with tearCause := cause }) s)) (fun c => c.slot == some slot) (.of stTORN)
  refine ⟨(finished.job slot).torn (setJob_st _ _ _), ((finished.job slot).cause.trans (set.job slot).cause).trans caused, fun none => ?_⟩
  exact ((set.trans finished).job slot).flows ((congrArg JobVmt.flows flows).trans none)

/-- No key of a slot, no copy of one and no identity is left. -/
structure Keyless (i : Fin 64) (t : State) : Prop where
  jobKeys : t.sec.jobKeys[i] = none
  memTables : ∀ k : Fin 20, t.sec.memTables[k][i] = none
  pktTables : ∀ x : Fin 2, t.sec.pktTables[x][i] = none
  eph : t.sec.eph[i] = none
  jobId : t.jobs[i].vmt.jobId = none

theorem Keyless.of_windsDown {i : Fin 64} {t u : State} (h : Keyless i t) (g : WindsDown t u) : Keyless i u := by
  obtain ⟨jobKeys, memTables, pktTables, eph⟩ := g.keys
  exact ⟨by rw [jobKeys]; exact h.jobKeys, fun k => by rw [memTables]; exact h.memTables k, fun x => by rw [pktTables]; exact h.pktTables x,
    by rw [eph]; exact h.eph, (g.job i).jobId.trans h.jobId⟩

theorem destroyKeys_keyless : Keyless slot (destroyKeys slot s) where
  jobKeys := by show (Vector.set _ _ _)[slot] = none; simp
  memTables k := by show (Vector.map _ _)[k][slot] = none; simp
  pktTables x := by show (Vector.map _ _)[x][slot] = none; simp
  eph := by show (Vector.set _ _ _)[slot] = none; simp
  jobId := by
    show (modVmt slot _ _).jobs[slot].vmt.jobId = none
    rw [modVmt, modJob, vmod_same]

theorem destroyKeys_job : ctl (destroyKeys slot s) slot = ctl s slot ∧ (destroyKeys slot s).jobs[slot].vmt.flows = s.jobs[slot].vmt.flows := by
  constructor
  · show (modVmt slot _ _).jobs[slot].ctl = _
    rw [modVmt, modJob, vmod_same]
    rfl
  · show (modVmt slot _ _).jobs[slot].vmt.flows = _
    rw [modVmt, modJob, vmod_same]
    rfl

/-- What a teardown leaves of a job. -/
theorem tearJob_tears (cause : BitVec 4) (empty : jobSt s slot ≠ .empty) (torn : jobSt s slot ≠ .torn) (scrubbing : jobSt s slot ≠ .scrubbing) :
    jobSt (tearJob slot cause s) slot = .torn ∧ (ctl (tearJob slot cause s) slot).tearCause = cause ∧ Keyless slot (tearJob slot cause s) ∧
      (tearJob slot cause s).jobs[slot].vmt.flows = [] := by
  obtain ⟨st, caused, flows⟩ := becomeTorn_torn slot (stopWork slot (dropTransport slot s)) cause
  obtain ⟨ctl_eq, flows_eq⟩ := destroyKeys_job slot (becomeTorn slot (stopWork slot (dropTransport slot s)) cause)
  have after : WindsDown (destroyKeys slot (becomeTorn slot (stopWork slot (dropTransport slot s)) cause)) (tearJob slot cause s) := by
    rw [tearJob_eq slot s cause empty torn scrubbing]
    exact ((closeD2_windsDown _ _).trans (holdCheck_windsDown _)).trans (faultDue_windsDown _)
  have job := after.job slot
  refine ⟨job.torn ((congrArg JobCtl.st ctl_eq).trans st), job.cause.trans ((congrArg JobCtl.tearCause ctl_eq).trans caused),
    (destroyKeys_keyless slot _).of_windsDown after, job.flows (flows_eq.trans (flows (stopWork_flows slot s)))⟩

end

theorem jobTear_tears (c : HostCmd) (s : State) (h : Accepts 0x0019 c s) (empty : jobSt s (sent 0x0019 c).slot ≠ .empty)
    (torn : jobSt s (sent 0x0019 c).slot ≠ .torn) (scrubbing : jobSt s (sent 0x0019 c).slot ≠ .scrubbing) :
    Answered c stOK (sendCmd 0x0019 c s) ∧ jobSt (sendCmd 0x0019 c s) (sent 0x0019 c).slot = .torn ∧
      (ctl (sendCmd 0x0019 c s) (sent 0x0019 c).slot).tearCause = 1 ∧ Keyless (sent 0x0019 c).slot (sendCmd 0x0019 c s) ∧
      (sendCmd 0x0019 c s).jobs[(sent 0x0019 c).slot].vmt.flows = [] := by
  have dispatched : ∀ d u, perform (sent 0x0019 d) u = cmdTear (sent 0x0019 d) u := fun d u => by
    unfold perform
    rw [sent_opcode]
    rfl
  have effect : ∀ (d : Cmd) (u : State), jobSt u d.slot ≠ .empty → jobSt u d.slot ≠ .scrubbing → cmdTear d u = (tearJob d.slot 1 u, resOk) :=
    fun d u empty scrubbing => by
      unfold cmdTear
      cases st : jobSt u d.slot with
      | empty => exact absurd st empty
      | scrubbing => exact absurd st scrubbing
      | _ => rfl
  obtain ⟨answered, rest⟩ := sendCmd_answers (go := tearJob (sent 0x0019 c).slot 1) h
    (fun dma => (dispatched _ _).trans (effect (sent 0x0019 (withDma c dma)) (atTake 0x0019 c s) empty scrubbing))
  obtain ⟨st, cause, keyless, flows⟩ := tearJob_tears (sent 0x0019 c).slot (atTake 0x0019 c s) 1 empty torn scrubbing
  have replied : WindsDown _ (sendCmd 0x0019 c s) := .of_changes rest (by decide)
  have job := replied.job (sent 0x0019 c).slot
  exact ⟨answered, job.torn st, job.cause.trans cause, keyless.of_windsDown replied, job.flows flows⟩

/-- Settles O16: a reset goes through the listed entries, a seal is one update, and a teardown leaves no key and no flow, which what
follows it keeps so (`WindsDown`). -/
theorem resetSealAndTearActOnTheJob : Obligations.ResetSealAndTearActOnTheJob := by
  unfold Obligations.ResetSealAndTearActOnTheJob
  refine ⟨⟨taskReset_frees, jobSeal_raises⟩, ?_⟩
  intro c s h i empty torn scrubbing
  obtain ⟨answered, st, cause, keyless, flows⟩ := jobTear_tears c s h empty torn scrubbing
  exact ⟨_, rfl, answered, st, cause, keyless.jobKeys, keyless.memTables, keyless.pktTables, keyless.eph, keyless.jobId, flows⟩

end Sys2Proof.Machine
end

section
/-! SUPPORT. A running exchange whose deadline passes while another job's CLOSE names it (spec/06_experts_and_token_exchange.md R244,
spec/12_collectives_and_mapping.md R423, R424), and the obligation about exchanges that it refutes. -/

namespace Sys2Proof.Machine

/-- A DISPATCH with a deadline that has started and waits for count messages. -/
def startedDispatch : Entry :=
  { next := 0, st := .running, desc := 8 <<< 896 + 2048 <<< 816 + 5 <<< 128, run := .exch Track.new (ExchSt.start 0),
    watchRec := none, caps := [(2048, 100 <<< 960)], reads := [] }

/-- Job 0 has a task whose fault is due and a bucket half at address 0 that is CLOSING with its count reached, with the DISPATCH of
job 1 as its CLOSE. -/
def crossedDispatch : State :=
  let s := runningJob 6 7 startedDispatch 1 (runningJob 5 7 dueEntry 0 State.reset)
  let s := modJob 0 (fun j => { j with buckets := [((0, true), ⟨4096, 0, some closerTask, none⟩)] }) s
  (jobWrite 0 0 [2] s).1

/-- The deadline settles job 0, whose bucket half closes and completes the faulted DISPATCH. -/
theorem crossedDispatch_frees : (entryOf (doExchDeadline closerTask crossedDispatch) closerTask).st = .free 0 := by
  decide +kernel

theorem calm_of_noWait {s : State} {slot : Fin 64}
    (entries : ∀ die : Fin 4, ∀ p ∈ (jobDie s slot die).entries, isWait p.2.run = false) (buckets : s.jobs[slot].buckets = [])
    (closing : s.jobs[slot].watch.st ≠ .closing) (dropping : s.jobs[slot].watch.dropping = false) : Calm s slot := by
  refine ⟨fun die p hp n th d wait => ?_, buckets, closing, dropping⟩
  have noWait := entries die p hp
  rw [wait] at noWait
  exact Bool.noConfusion noWait

/-- Job 1 has no WAIT, no bucket and no verdict in work. -/
theorem crossedDispatch_calm : Calm crossedDispatch 1 :=
  calm_of_noWait (by decide +kernel) (by decide +kernel) (by decide +kernel) (by decide +kernel)

/-- Refutes O51: in `crossedDispatch` the premises of the clause on EXCH_DEADLINE hold and the exchange is not left FAULTED. `Calm` speaks
of the buckets and waits of the exchange's own job, where a fault settles every job that has a fault due (R102), and in a state of which
nothing else is assumed a half of such a job's bucket may name the exchange as its CLOSE. -/
theorem not_exchangesOfferSendAndTimeOut : ¬ Obligations.ExchangesOfferSendAndTimeOut := by
  unfold Obligations.ExchangesOfferSendAndTimeOut
  intro h
  obtain ⟨_, _, timesOut⟩ := h
  have runs : (entryOf crossedDispatch closerTask).isExch = true := by decide +kernel
  have hasDeadline : xDeadline (xDesc (entryOf crossedDispatch closerTask)) ≠ 0 := by decide +kernel
  have unfinished : exchFinished crossedDispatch closerTask = false := by decide +kernel
  obtain ⟨t, run, faulted⟩ := timesOut closerTask crossedDispatch runs hasDeadline unfinished crossedDispatch_calm
  obtain rfl : doExchDeadline closerTask crossedDispatch = t := Host.Outcome.next.inj run
  exact absurd (crossedDispatch_frees.symm.trans faulted) (by decide)

end Sys2Proof.Machine
end

section
/-! SUPPORT. What a sector holds after a write (spec/08_memory.md R271, R281 to R286): bytes and little-endian numbers, the map of the
stacks, a sector's bytes as its job reads them, and the obligation about bytes that are read back. -/

namespace Sys2Proof.Machine

/-! ### Bytes -/

@[simp] theorem length_leBytes (n v : Nat) : (leBytes n v).length = n := by
  induction n generalizing v with
  | zero => rfl
  | succ n ih => rw [leBytes, List.length_cons, ih]

theorem leNat_lt (bs : List Byte) : leNat bs < 256 ^ bs.length := by
  induction bs with
  | nil => exact Nat.one_pos
  | cons b rest ih =>
    have low := b.isLt
    rw [leNat, List.length_cons, Nat.pow_succ']
    omega

/-- The bytes of the number that bytes stand for. -/
theorem leBytes_leNat (bs : List Byte) : leBytes bs.length (leNat bs) = bs := by
  induction bs with
  | nil => rfl
  | cons b rest ih =>
    have low : (b.toNat + 256 * leNat rest) % 2 ^ 8 = b.toNat := by
      have := b.isLt
      omega
    have high : (b.toNat + 256 * leNat rest) / 256 = leNat rest := by
      have := b.isLt
      omega
    rw [List.length_cons, leBytes, leNat, high, ih]
    exact congrArg (· :: rest) (BitVec.eq_of_toNat_eq ((BitVec.toNat_ofNat _ _).trans low))

theorem pow_bytes (n : Nat) : 256 ^ n = 2 ^ (8 * n) := by
  rw [Nat.pow_mul]

/-- Bytes pass through a word of their width. -/
theorem leBytes_toNat_ofNat {n : Nat} {bs : List Byte} (h : bs.length = n) : leBytes n (BitVec.ofNat (8 * n) (leNat bs)).toNat = bs := by
  have bound := leNat_lt bs
  rw [pow_bytes] at bound
  subst h
  rw [BitVec.toNat_ofNat, Nat.mod_eq_of_lt bound, leBytes_leNat]

/-- A word passes through its bytes. -/
theorem ofNat_leNat_leBytes {n : Nat} (v : BitVec (8 * n)) : BitVec.ofNat (8 * n) (leNat (leBytes n v.toNat)) = v := by
  rw [leNat_leBytes, pow_bytes, Nat.mod_eq_of_lt v.isLt, BitVec.ofNat_toNat, BitVec.setWidth_eq]

/-- The data of a sector pass through the block that is encrypted. -/
theorem sectorBlock_bytes {bs : List Byte} (h : bs.length = 64) : leBytes 64 (BitVec.ofNat 512 (leNat bs)).toNat = bs := leBytes_toNat_ofNat h

theorem sectorBlock_word (v : BitVec 512) : BitVec.ofNat 512 (leNat (leBytes 64 v.toNat)) = v := ofNat_leNat_leBytes (n := 64) v

/-! ### Cells -/

@[simp] theorem length_cellGets (m : List Host.Cell) (a n : Nat) : (cellGets m a n).length = n := by
  induction n generalizing a with
  | zero => rfl
  | succ n ih => rw [cellGets, List.length_cons, ih]

theorem getElem_cellGets (m : List Host.Cell) (a n i : Nat) (h : i < (cellGets m a n).length) : (cellGets m a n)[i] = cellGet m (a + i) := by
  induction n generalizing a i with
  | zero => exact absurd h (Nat.not_lt_zero _)
  | succ n ih =>
    cases i with
    | zero => rfl
    | succ i =>
      have step := ih (a + 1) i (by simpa using h)
      rw [show a + 1 + i = a + (i + 1) by omega] at step
      exact step

/-- What is read after bytes are written from an address on. -/
theorem cellGet_puts {m : List Host.Cell} (bs : List Byte) (a : Nat) (h : cellsOkFrom 0 m = true) (x : Nat) :
    cellGet (cellPuts m a bs) x = if a ≤ x ∧ x < a + bs.length then bs.getD (x - a) 0 else cellGet m x := by
  induction bs generalizing m a with
  | nil => exact (if_neg (by simp)).symm
  | cons b rest ih =>
    rw [cellPuts, ih (a + 1) (cellPut_ok b h (Nat.zero_le _)), cellGet_put a b h, List.length_cons]
    by_cases first : x = a
    · subst first
      rw [if_neg (by omega), if_pos rfl, if_pos (by omega), Nat.sub_self]
      rfl
    · rw [if_neg first]
      by_cases later : a + 1 ≤ x ∧ x < a + 1 + rest.length
      · rw [if_pos later, if_pos (by omega), show x - a = (x - (a + 1)) + 1 by omega]
        rfl
      · rw [if_neg later, if_neg (by omega)]

/-- A range that takes in the bytes that were written is read with them in their place. -/
theorem cellGets_puts {m : List Host.Cell} {bs : List Byte} {a b n : Nat} (h : cellsOkFrom 0 m = true) (lo : b ≤ a) (hi : a + bs.length ≤ b + n) :
    cellGets (cellPuts m a bs) b n =
      (cellGets m b n).take (a - b) ++ bs ++ (cellGets m b n).drop (a - b + bs.length) := by
  refine List.ext_getElem (by simp; omega) (fun i hi _ => ?_)
  have bound : i < n := by simpa using hi
  rw [getElem_cellGets, cellGet_puts bs a h]
  by_cases before : i < a - b
  · rw [if_neg (by omega), List.getElem_append_left (by simp; omega), List.getElem_append_left (by simp; omega), List.getElem_take, getElem_cellGets]
  · by_cases inside : i < a - b + bs.length
    · rw [if_pos (by omega), List.getElem_append_left (by simp; omega), List.getElem_append_right (by simp; omega),
        List.getD_eq_getElem _ _ (by omega)]
      congr 1
      simp
      omega
    · rw [if_neg (by omega), List.getElem_append_right (by simp; omega), List.getElem_drop, getElem_cellGets]
      congr 1
      simp
      omega

theorem cellGets_puts_same {m : List Host.Cell} (bs : List Byte) (a : Nat) (h : cellsOkFrom 0 m = true) :
    cellGets (cellPuts m a bs) a bs.length = bs := by
  rw [cellGets_puts h (Nat.le_refl a) (Nat.le_refl _), Nat.sub_self]
  simp

/-- A part of a range that is read. -/
theorem cellGets_part (m : List Host.Cell) {a b k n : Nat} (lo : b ≤ a) (hi : a + n ≤ b + k) :
    cellGets m a n = ((cellGets m b k).drop (a - b)).take n := by
  refine List.ext_getElem (by simp; omega) (fun i hi _ => ?_)
  rw [getElem_cellGets, List.getElem_take, List.getElem_drop, getElem_cellGets]
  congr 1
  omega

/-! ### The map of the stacks (R271, R614 to R616) -/

/-- Addresses of one sector lie on one stack. -/
theorem servedBy_sector (s : State) {a b : Nat} (h : a / 64 = b / 64) : servedBy s a = servedBy s b := by
  have band : a / (20 * 2 ^ 30) = b / (20 * 2 ^ 30) := by omega
  have granule : a % (20 * 2 ^ 30) / 4096 = b % (20 * 2 ^ 30) / 4096 := by omega
  have part : a % (20 * 2 ^ 30) / (5 * 2 ^ 30) = b % (20 * 2 ^ 30) / (5 * 2 ^ 30) := by omega
  have row : a % (20 * 2 ^ 30) % (5 * 2 ^ 30) / 4096 = b % (20 * 2 ^ 30) % (5 * 2 ^ 30) / 4096 := by omega
  have stack : (decodeDpa s a).1 = (decodeDpa s b).1 := by
    unfold decodeDpa bandBytes
    dsimp only
    rw [band, apply_ite Prod.fst, apply_ite Prod.fst, part, row, granule]
  have apart : withdrawn s a = withdrawn s b := by
    unfold withdrawn frameBytes
    exact decide_eq_decide.mpr (by omega)
  have place : a / 4096 = b / 4096 := by omega
  simp only [servedBy, stack, apart, place]

/-! ### Sectors (R281 to R286) -/

theorem sectorMeta_sector (s : State) {a b : Nat} (h : a / 64 = b / 64) : sectorMeta s a = sectorMeta s b := by
  unfold sectorMeta
  rw [h]

theorem tagKey_sector (s : State) (tag : BitVec 16) {a b : Nat} (h : a / 64 = b / 64) : tagKey s a tag = tagKey s b tag := by
  simp only [tagKey, servedBy_sector s h]

/-- The 64 bytes of a sector as the controller decrypts them for a tag. -/
def wholeSector (s : State) (tag : BitVec 16) (dpa : Nat) : List Byte := sectorData s tag (dpa / 64 * 64) 64

theorem wholeSector_sector (s : State) (tag : BitVec 16) {a b : Nat} (h : a / 64 = b / 64) : wholeSector s tag a = wholeSector s tag b := by
  unfold wholeSector
  rw [h]

/-- A read within a sector is a part of the sector. -/
theorem sectorData_part (s : State) (tag : BitVec 16) {dpa n : Nat} (inside : dpa % 64 + n ≤ 64) :
    sectorData s tag dpa n = ((wholeSector s tag dpa).drop (dpa % 64)).take n := by
  have start : dpa / 64 * 64 / 64 = dpa / 64 := by omega
  have offset : dpa - dpa / 64 * 64 = dpa % 64 := by omega
  unfold wholeSector sectorData
  rw [tagKey_sector s tag start, sectorMeta_sector s start]
  cases tagKey s dpa tag with
  | none =>
    dsimp only
    rw [cellGets_part s.mem.cells (b := dpa / 64 * 64) (k := 64) (by omega) (by omega), offset]
  | some k =>
    dsimp only
    split
    · rw [List.drop_replicate, List.take_replicate, Nat.min_eq_left (by omega)]
    · rw [show dpa / 64 * 64 % 64 = 0 by omega, List.drop_zero, List.take_of_length_le (l := leBytes _ _) (by simp)]
      unfold sectorTweak sectorStored
      rw [start]

@[simp] theorem length_wholeSector (s : State) (tag : BitVec 16) (dpa : Nat) : (wholeSector s tag dpa).length = 64 := by
  unfold wholeSector sectorData
  split
  · simp
  · split
    · simp
    · simp

/-- The bytes of a sector with new ones in their place. -/
def mergedSector (s : State) (tag : BitVec 16) (dpa : Nat) (bs : List Byte) : List Byte :=
  (wholeSector s tag dpa).take (dpa % 64) ++ bs ++ (wholeSector s tag dpa).drop (dpa % 64 + bs.length)

theorem length_mergedSector (s : State) (tag : BitVec 16) {dpa : Nat} {bs : List Byte} (inside : dpa % 64 + bs.length ≤ 64) :
    (mergedSector s tag dpa bs).length = 64 := by
  simp [mergedSector]
  omega

/-- A sector in the clear takes the bytes as they are. -/
theorem storePart_clear {s : State} {tag : BitVec 16} {dpa : Nat} (bs : List Byte) (h : tagKey s dpa tag = none) :
    storePart tag dpa bs s = putSector dpa bs { tag := tag, zero := false, poison := false } s := by
  unfold storePart
  rw [h]

/-- A sector under a key takes the bytes merged into what its job reads there, encrypted. -/
theorem storePart_sealed {s : State} {tag : BitVec 16} {dpa : Nat} {k : BitVec 512} (bs : List Byte) (h : tagKey s dpa tag = some k) :
    storePart tag dpa bs s = putSector (dpa / 64 * 64)
      (leBytes 64 (Config.xts k (sectorTweak dpa) (BitVec.ofNat 512 (leNat (mergedSector s tag dpa bs)))).toNat)
      { tag := tag, zero := false, poison := false } s := by
  unfold storePart
  rw [h]
  rfl

theorem sectorMeta_putSector (s : State) (dpa a : Nat) (bs : List Byte) (m : SectorMeta) :
    sectorMeta (putSector dpa bs m s) a = if a / 64 = dpa / 64 then m else sectorMeta s a := by
  unfold sectorMeta putSector AMap.getD
  dsimp only
  split
  next same => rw [same, AMap.find_put_same]; rfl
  next other => rw [AMap.find_put_other _ _ other]

theorem sectorMeta_storePart (s : State) (tag : BitVec 16) (dpa a : Nat) (bs : List Byte) :
    sectorMeta (storePart tag dpa bs s) a =
      if a / 64 = dpa / 64 then { tag := tag, zero := false, poison := false } else sectorMeta s a := by
  cases h : tagKey s dpa tag with
  | none => rw [storePart_clear bs h, sectorMeta_putSector]
  | some k => rw [storePart_sealed bs h, sectorMeta_putSector, show dpa / 64 * 64 / 64 = dpa / 64 by omega]

theorem cells_putSector (s : State) (dpa : Nat) (bs : List Byte) (m : SectorMeta) :
    (putSector dpa bs m s).mem.cells = cellPuts s.mem.cells dpa bs := rfl

theorem tagKey_putSector (s : State) (tag : BitVec 16) (dpa a : Nat) (bs : List Byte) (m : SectorMeta) :
    tagKey (putSector dpa bs m s) a tag = tagKey s a tag := rfl

theorem tagKey_storePart (s : State) (tag : BitVec 16) (dpa a : Nat) (bs : List Byte) :
    tagKey (storePart tag dpa bs s) a tag = tagKey s a tag := by
  cases h : tagKey s dpa tag with
  | none => rw [storePart_clear bs h, tagKey_putSector]
  | some k => rw [storePart_sealed bs h, tagKey_putSector]

/-- The sector of a write as its job reads it then. -/
theorem wholeSector_storePart {s : State} (tag : BitVec 16) {dpa : Nat} {bs : List Byte} (wf : s.mem.wf = true)
    (inside : dpa % 64 + bs.length ≤ 64) : wholeSector (storePart tag dpa bs s) tag dpa = mergedSector s tag dpa bs := by
  have start : dpa / 64 * 64 / 64 = dpa / 64 := by omega
  have offset : dpa - dpa / 64 * 64 = dpa % 64 := by omega
  unfold wholeSector sectorData
  rw [tagKey_storePart, tagKey_sector s tag start]
  cases key : tagKey s dpa tag with
  | none =>
    have clear : wholeSector s tag dpa = cellGets s.mem.cells (dpa / 64 * 64) 64 := by
      unfold wholeSector sectorData
      rw [tagKey_sector s tag start, key]
    rw [storePart_clear bs key, mergedSector, clear, ← offset]
    exact cellGets_puts wf (by omega) (by omega)
  | some k =>
    have fresh : (sectorMeta (storePart tag dpa bs s) (dpa / 64 * 64)).zero = false := by
      rw [sectorMeta_storePart, if_pos start]
    have stored : sectorStored (storePart tag dpa bs s) (dpa / 64 * 64) =
        Config.xts k (sectorTweak dpa) (BitVec.ofNat 512 (leNat (mergedSector s tag dpa bs))) := by
      have read := cellGets_puts_same (leBytes 64 (Config.xts k (sectorTweak dpa) (BitVec.ofNat 512 (leNat (mergedSector s tag dpa bs)))).toNat)
        (dpa / 64 * 64) wf
      rw [length_leBytes] at read
      rw [sectorStored, start, storePart_sealed bs key, cells_putSector, read, sectorBlock_word]
    dsimp only
    rw [fresh, stored, show sectorTweak (dpa / 64 * 64) = sectorTweak dpa by rw [sectorTweak, sectorTweak, start], Equiv.symm_apply_apply,
      sectorBlock_bytes (length_mergedSector s tag inside), if_neg Bool.false_ne_true, show dpa / 64 * 64 % 64 = 0 by omega,
      List.drop_zero, List.take_of_length_le (length_mergedSector s tag inside).le]

/-- A write within a sector is read back. -/
theorem sectorData_storePart {s : State} (tag : BitVec 16) {dpa : Nat} {bs : List Byte} (wf : s.mem.wf = true)
    (inside : dpa % 64 + bs.length ≤ 64) : sectorData (storePart tag dpa bs s) tag dpa bs.length = bs := by
  rw [sectorData_part _ tag inside, wholeSector_storePart tag wf inside, mergedSector, List.append_assoc,
    List.drop_append_of_le_length (by simp; omega), List.drop_eq_nil_of_le (by simp), List.nil_append]
  exact List.take_left

/-- The other bytes of the sector of a write read as they did. -/
theorem sectorData_storePart_beside {s : State} (tag : BitVec 16) {dpa a : Nat} {bs : List Byte} (wf : s.mem.wf = true)
    (inside : dpa % 64 + bs.length ≤ 64) (beside : a < dpa ∨ dpa + bs.length ≤ a) (same : a / 64 = dpa / 64) :
    sectorData (storePart tag dpa bs s) tag a 1 = sectorData s tag a 1 := by
  rw [sectorData_part _ tag (by omega), sectorData_part _ tag (by omega), wholeSector_sector _ tag same, wholeSector_storePart tag wf inside,
    wholeSector_sector s tag same, mergedSector]
  refine List.ext_getElem (by simp; omega) (fun i hi _ => ?_)
  obtain rfl : i = 0 := by simp at hi; omega
  rw [List.getElem_take, List.getElem_take, List.getElem_drop, List.getElem_drop]
  by_cases before : a % 64 < dpa % 64
  · rw [List.getElem_append_left (by simp; omega), List.getElem_append_left (by simp; omega), List.getElem_take]
  · rw [List.getElem_append_right (by simp; omega), List.getElem_drop]
    congr 1
    simp
    omega

/-- A write leaves every byte of other sectors. -/
theorem cellGet_storePart {s : State} (tag : BitVec 16) {dpa a : Nat} {bs : List Byte} (wf : s.mem.wf = true)
    (inside : dpa % 64 + bs.length ≤ 64) (other : a / 64 ≠ dpa / 64) :
    cellGet (storePart tag dpa bs s).mem.cells a = cellGet s.mem.cells a := by
  cases key : tagKey s dpa tag with
  | none =>
    rw [storePart_clear bs key, cells_putSector, cellGet_puts _ _ wf, if_neg (by omega)]
  | some k =>
    rw [storePart_sealed bs key, cells_putSector, cellGet_puts _ _ wf, length_leBytes, if_neg (by omega)]

/-! ### Parts of sectors -/

/-- A stack sector is read with its data where it is no poison and its tag matches. -/
theorem readPart_stack {s : State} {tag : BitVec 16} {dpa : Nat} (n : Nat) (stack : isAs dpa = false) (sound : (sectorMeta s dpa).poison = false)
    (matched : tagMismatch s tag dpa = false) : readPart s tag dpa n = (sectorData s tag dpa n, false) := by
  unfold readPart
  rw [stack, sound, matched]
  rfl

/-- A read of a sector that a write of its tag has just filled. -/
theorem readPart_storePart {s : State} (tag : BitVec 16) {dpa : Nat} {bs : List Byte} (wf : s.mem.wf = true) (stack : isAs dpa = false)
    (inside : dpa % 64 + bs.length ≤ 64) : readPart (storePart tag dpa bs s) tag dpa bs.length = (bs, false) := by
  have stored : sectorMeta (storePart tag dpa bs s) dpa = { tag := tag, zero := false, poison := false } := by
    rw [sectorMeta_storePart, if_pos rfl]
  rw [readPart_stack _ stack (by rw [stored]) (by rw [tagMismatch, stored]; simp), sectorData_storePart tag wf inside]

/-- A write of a stack sector that is not refused stores its bytes. -/
theorem writePart_stack {s t : State} {tag : BitVec 16} {dpa : Nat} {bs : List Byte} (stack : isAs dpa = false)
    (h : writePart tag dpa bs s = (t, .ok)) : t = storePart tag dpa bs s := by
  unfold writePart at h
  rw [stack, if_neg Bool.false_ne_true] at h
  split at h
  · exact (Prod.mk.inj h).1.symm
  · split at h
    · exact absurd (Prod.mk.inj h).2 (by decide)
    · exact (Prod.mk.inj h).1.symm

/-- A state with bytes in an Activation Store, whose words that they fill hold no error. -/
def putAs (dpa : Nat) (bs : List Byte) (s : State) : State :=
  { s with mem := { s.mem with
      cells := cellPuts s.mem.cells dpa bs, asBad := s.mem.asBad.filter (fun w => !(wholeWords dpa bs.length).contains w) } }

/-- A write of an Activation Store that is not refused stores its bytes, and fills every word with an error that it touches (R290). -/
theorem writePart_as {s t : State} {tag : BitVec 16} {dpa : Nat} {bs : List Byte} (store : isAs dpa = true)
    (h : writePart tag dpa bs s = (t, .ok)) :
    t = putAs dpa bs s ∧ ∀ w ∈ asBadWords s dpa bs.length, (wholeWords dpa bs.length).contains w = true := by
  unfold writePart at h
  rw [store, if_pos rfl] at h
  dsimp only at h
  split at h
  next none =>
    refine ⟨(Prod.mk.inj h).1.symm, fun w hw => ?_⟩
    have kept := List.filter_eq_nil_iff.mp (List.isEmpty_iff.mp none) w hw
    simpa using kept
  next => exact absurd (Prod.mk.inj h).2 (by decide)

/-- What was written to an Activation Store is read back. -/
theorem readPart_putAs {s : State} (tag : BitVec 16) {dpa : Nat} {bs : List Byte} (wf : s.mem.wf = true) (store : isAs dpa = true)
    (filled : ∀ w ∈ asBadWords s dpa bs.length, (wholeWords dpa bs.length).contains w = true) :
    readPart (putAs dpa bs s) tag dpa bs.length = (bs, false) := by
  have clean : asBadWords (putAs dpa bs s) dpa bs.length = [] := by
    refine List.filter_eq_nil_iff.mpr (fun w hw bad => ?_)
    obtain ⟨old, left⟩ : w ∈ s.mem.asBad ∧ ¬ (wholeWords dpa bs.length).contains w = true := by
      simpa [putAs] using List.contains_iff_mem.mp bad
    exact left (filled w (List.mem_filter.mpr ⟨hw, List.contains_iff_mem.mpr old⟩))
  unfold readPart
  rw [store, clean]
  exact congrArg (·, false) (cellGets_puts_same bs dpa wf)

/-- A part of a sector that a write stored is read back, and what lies beside it reads as it did. -/
theorem writePart_stored {s t : State} {tag : BitVec 16} {dpa : Nat} {bs : List Byte} (wf : s.mem.wf = true)
    (inside : dpa % 64 + bs.length ≤ 64) (h : writePart tag dpa bs s = (t, .ok)) :
    readPart t tag dpa bs.length = (bs, false) ∧
    (∀ a, a < dpa ∨ dpa + bs.length ≤ a → a / 64 ≠ dpa / 64 ∨ isAs dpa = true → cellGet t.mem.cells a = cellGet s.mem.cells a) ∧
    (isAs dpa = false → ∀ a, a < dpa ∨ dpa + bs.length ≤ a → a / 64 = dpa / 64 → sectorData t tag a 1 = sectorData s tag a 1) := by
  cases store : isAs dpa with
  | true =>
    obtain ⟨rfl, filled⟩ := writePart_as store h
    exact ⟨readPart_putAs tag wf store filled, fun a beside _ => (cellGet_puts bs dpa wf a).trans (if_neg (by omega)),
      fun stack => absurd stack (by decide)⟩
  | false =>
    obtain rfl := writePart_stack store h
    exact ⟨readPart_storePart tag wf store inside, fun a _ other => cellGet_storePart tag wf inside (other.resolve_right (by decide)),
      fun _ a beside same => sectorData_storePart_beside tag wf inside beside same⟩

/-! ### Addresses of jobs (R274, R277) -/

/-- Fewer rights are found where more are. -/
theorem translate_weaken {s : State} {slot : Fin 64} {va d : Nat} {r w r' w' : Bool} (h : translate s slot va r w = some d)
    (reads : r' = true → r = true) (writes : w' = true → w = true) : translate s slot va r' w' = some d := by
  have allowed : ∀ x y : Bool, ((!r || x) && (!w || y)) = true → ((!r' || x) && (!w' || y)) = true := by
    cases r' <;> cases w' <;> cases r <;> cases w <;> simp_all
  unfold translate at h ⊢
  split at h
  · exact absurd h (by simp)
  next low =>
    rw [if_neg low]
    split at h
    next high => rw [if_pos high]; exact h
    next below =>
      rw [if_neg below]
      split at h
      next p _ =>
        split at h
        next ok => exact (if_pos (allowed _ _ ok)).trans h
        next => exact absurd h (by simp)
      next => exact absurd h (by simp)

/-- A job's address and its DPA stand at the same place of their sectors, where pages start at sectors. -/
theorem translate_offset {s : State} {slot : Fin 64} {va d : Nat} {r w : Bool} (h : translate s slot va r w = some d)
    (aligned : ∀ p ∈ (ctl s slot).pages, p.va % 64 = 0) : d % 64 = va % 64 := by
  unfold translate at h
  split at h
  · exact absurd h (by simp)
  · split at h
    · dsimp only at h
      split at h
      · obtain rfl := Option.some.inj h
        unfold asDpa asBase fld
        rw [Nat.shiftRight_zero]
        omega
      · exact absurd h (by simp)
    · split at h
      next p found =>
        have start := aligned p (List.mem_of_find?_eq_some found)
        have inside := List.find?_some found
        simp only [decide_eq_true_eq] at inside
        split at h
        · obtain rfl := Option.some.inj h
          unfold frameBytes
          omega
        · exact absurd h (by simp)
      · exact absurd h (by simp)

/-- A range within a sector is one part. -/
theorem chunks_one {va n : Nat} (pos : 0 < n) (one : va / 64 = (va + n - 1) / 64) : chunks va n = [(va, n)] := by
  have count : (va + n - 1) / 64 - va / 64 + 1 = 1 := by omega
  unfold chunks
  rw [if_neg (by omega)]
  dsimp only
  rw [count]
  simp
  omega

theorem mapped_one {s : State} {slot : Fin 64} {va n : Nat} {r w : Bool} (pos : 0 < n) (one : va / 64 = (va + n - 1) / 64) :
    mapped s slot va n r w = (translate s slot va r w).isSome := by
  unfold mapped
  rw [chunks_one pos one]
  simp

/-- A write within a sector. -/
theorem jobWrite_one {s : State} {slot : Fin 64} {va d : Nat} {bs : List Byte} (pos : 0 < bs.length)
    (one : va / 64 = (va + bs.length - 1) / 64) (at_ : translate s slot va false true = some d) :
    jobWrite slot va bs s =
      (dropLines slot (va / 64) (writePart (jobTag s slot) d bs (countWrites slot va bs.length s)).1,
       (writePart (jobTag s slot) d bs (countWrites slot va bs.length s)).2) := by
  have range : mapped s slot va bs.length false true = true := by rw [mapped_one pos one, at_]; rfl
  rw [jobWrite_eq, range, chunks_one pos one]
  unfold writeChunk
  simp [at_, MStat.and]

/-- A read within a sector. -/
theorem peek_one {s : State} {slot : Fin 64} {va d n : Nat} (pos : 0 < n) (one : va / 64 = (va + n - 1) / 64)
    (at_ : translate s slot va true false = some d) :
    peek s slot va n = ⟨(readPart s (jobTag s slot) d n).1, if (readPart s (jobTag s slot) d n).2 then .integrity else .ok⟩ := by
  have range : mapped s slot va n true false = true := by rw [mapped_one pos one, at_]; rfl
  unfold peek
  rw [range, chunks_one pos one]
  simp [at_]

theorem countWrites_reads (slot : Fin 64) (va n : Nat) (s : State) : SameReads s (countWrites slot va n s) := by
  obtain ⟨q, counted⟩ := countWrites_pmu slot va n s
  rw [counted]
  exact ⟨fun _ => rfl, .refl _, rfl, rfl, rfl⟩

theorem ctl_dropLines (slot : Fin 64) (sector : Nat) (s : State) (i : Fin 64) : ctl (dropLines slot sector s) i = ctl s i := by
  by_cases h : i = slot
  · subst h; simp [ctl, dropLines, modTasks]
  · exact congrArg Job.ctl (modJob_other slot i _ _ h)

/-- The lines and reservations that a write takes away play no part in a read. -/
theorem dropLines_reads (slot : Fin 64) (sector : Nat) (s : State) : SameReads s (dropLines slot sector s) :=
  ⟨ctl_dropLines slot sector s, .refl _, rfl, rfl, rfl⟩

/-- A job reads back what it wrote within one sector. -/
theorem jobWrite_readBack {s t : State} {slot : Fin 64} {va : Nat} {bs : List Byte} (wf : s.mem.wf = true) (pos : 0 < bs.length)
    (one : va / 64 = (va + bs.length - 1) / 64) (aligned : ∀ p ∈ (ctl s slot).pages, p.va % 64 = 0)
    (range : mapped s slot va bs.length true true = true) (h : jobWrite slot va bs s = (t, .ok)) :
    peek t slot va bs.length = ⟨bs, .ok⟩ := by
  rw [mapped_one pos one] at range
  obtain ⟨d, both⟩ := Option.isSome_iff_exists.mp range
  have offset := translate_offset both aligned
  have counted := countWrites_reads slot va bs.length s
  have countedWf : (countWrites slot va bs.length s).mem.wf = true := wf_of_cells counted.mem.1 wf
  rw [jobWrite_one pos one (translate_weaken both (by simp) (by simp))] at h
  obtain ⟨state, status⟩ := Prod.mk.inj h
  obtain ⟨readBack, _, _⟩ := writePart_stored (tag := jobTag s slot) countedWf (by omega) (Prod.ext rfl status)
  have after := dropLines_reads slot (va / 64) (writePart (jobTag s slot) d bs (countWrites slot va bs.length s)).1
  rw [state] at after
  have jobs := writePart_jobs (jobTag s slot) d bs (countWrites slot va bs.length s)
  have ctls : ctl t slot = ctl s slot := by
    rw [after.ctl, ctl, show (writePart (jobTag s slot) d bs (countWrites slot va bs.length s)).1.jobs = _ from jobs]
    exact counted.ctl slot
  have found : translate t slot va true false = some d := by
    rw [← translate_weaken both (r' := true) (w' := false) (by simp) (by simp), translate, translate, ctls]
  rw [peek_one pos one found, show jobTag t slot = jobTag s slot by rw [jobTag, jobTag, ctls], after.readPart, readBack]
  rfl

/-- Settles O7: a write of a part of a sector stores it under its tag's key (`writePart_stored`), and a job's range within one sector is
one part, at the same place of its sector in memory (`translate_offset`). -/
theorem bytesAndJobsReadBackWhatWasWritten : Obligations.BytesAndJobsReadBackWhatWasWritten := by
  unfold Obligations.BytesAndJobsReadBackWhatWasWritten
  refine ⟨fun s t tag dpa bs wf _ inside written => writePart_stored wf inside written, ?_⟩
  intro s t slot va bs wf pos one aligned range written
  exact jobWrite_readBack wf pos one aligned range written

end Sys2Proof.Machine
end

section
/-! SUPPORT. The obligations about the state after reset (spec/08_memory.md R283; spec/16_host_mailbox.md R541). -/

namespace Sys2Proof.Machine

/-- Settles O4: memory holds no byte, and no virtual function is enabled. -/
theorem resetMeetsTheInvariant : Obligations.ResetMeetsTheInvariant := ⟨reset_mem_wf, Nat.zero_le _⟩

theorem reset_job (slot : Fin 64) : State.reset.jobs[slot] = Job.reset := Vector.getElem_replicate _

theorem reset_host (fn : Fin 65) : State.reset.host[fn] = HostFn.reset := Vector.getElem_replicate _

/-- Settles O3: every job slot is as `Job.reset`, and every function's BAR0 as `HostFn.reset`. -/
theorem resetHoldsTheSpecsValues : Obligations.ResetHoldsTheSpecsValues := by
  unfold Obligations.ResetHoldsTheSpecsValues
  refine ⟨rfl, rfl, rfl, rfl, rfl, rfl, rfl, rfl, fun slot => ?_, fun fn => ?_⟩
  · rw [jobSt, ctl, reset_job]
    exact ⟨rfl, rfl, Vector.getElem_replicate _⟩
  · rw [reset_host]
    exact ⟨rfl, rfl, rfl, rfl, rfl, rfl⟩

end Sys2Proof.Machine
end

section
/-! SUPPORT. MAP, UNMAP and AS_GRANT (spec/08_memory.md R275, R276; spec/16_host_mailbox.md R568, R569): what an accepted command that
acts on one slot's control state leaves, and the checks of the three commands. -/

namespace Sys2Proof.Machine

/-! ### Commands that act on one slot's control state -/

/-- An accepted command whose effect on the job slots is an update of one slot's control state. -/
theorem sendCmd_ctl {op : BitVec 16} {c : HostCmd} {s : State} {slot : Fin 64} {f : JobCtl → JobCtl} {go : State → State} (h : Accepts op c s)
    (jobs : ∀ u, (go u).jobs = (modCtl slot f u).jobs)
    (effect : ∀ dma, perform (sent op (withDma c dma)) (atTake op c s) = (go (atTake op c s), resOk)) :
    Answered c stOK (sendCmd op c s) ∧ ctl (sendCmd op c s) slot = f (ctl s slot) ∧
      (∀ j : Fin 64, j ≠ slot → (sendCmd op c s).jobs[j] = s.jobs[j]) ∧ (sendCmd op c s).mem = (go (atTake op c s)).mem := by
  obtain ⟨answered, rest⟩ := sendCmd_answers h effect
  have after : (sendCmd op c s).jobs = (modCtl slot f (atTake op c s)).jobs := (rest .jobs (by decide)).trans (jobs _)
  refine ⟨answered, ?_, fun j other => ?_, rest .mem (by decide)⟩
  · rw [ctl, after]
    exact ctl_modCtl slot f (atTake op c s)
  · rw [after]
    exact modJob_other slot j _ _ other

/-- A frame or mapping payload without RSV bits, whose unused fields are 0 (R568). -/
theorem unusedFault_none {c : Cmd} {fs : List (Nat × Nat)} (h : ∀ f ∈ fs, c.pl f.1 f.2 = 0) : unusedFault c fs = none := by
  have zero : fs.filter (fun f => c.pl f.1 f.2 != 0) = [] := List.filter_eq_nil_iff.mpr (fun f hf => by simp [h f hf])
  rw [unusedFault, zero]
  rfl

/-! ### MAP (R275) -/

/-- Pages that a MAP describes start at multiples of their size. -/
theorem mapPages_aligned {va first n : Nat} {big r w : Bool} (start : va % sizeBytes big = 0) :
    ∀ p ∈ mapPages va first n big r w, p.va % p.bytes = 0 := by
  intro p hp
  obtain ⟨i, _, rfl⟩ := List.mem_map.mp hp
  have size : sizeBytes big = (if big then 512 else 1) * frameBytes := by cases big <;> rfl
  show (va + i * (if big then 512 else 1) * frameBytes) % sizeBytes big = 0
  rw [Nat.mul_assoc, ← size, Nat.add_mul_mod_self_right, start]

/-- A job's control state without the pages that meet a range of its addresses (R276). -/
def JobCtl.unmapped (va len : Nat) (k : JobCtl) : JobCtl := { k with pages := k.pages.filter (fun p => !runsMeet (p.va, p.bytes) (va, len)) }

section
variable {d : Cmd} {u : State}

/-- A MAP that passes its checks adds its pages. -/
theorem cmdMap_adds (st : jobSt u d.slot = .keyed ∨ jobSt u d.slot = .ready ∨ jobSt u d.slot = .paused)
    (unused : unusedFault d [(0, 0), (2, 2), (31, 5), (191, 144)] = none)
    (bands : (d.pl 1 1 == 1) = true → ∀ k, k < d.pl 95 64 → (d.pl 63 32 + 512 * k) / 10240 = (d.pl 63 32 + 512 * k + 511) / 10240)
    (start : d.pl 143 96 % sizeBytes (d.pl 1 1 == 1) = 0)
    (frames : d.pl 63 32 + (if d.pl 1 1 == 1 then 512 else 1) * d.pl 95 64 ≤ totalFrames u)
    (pos : 0 < d.pl 95 64) (most : d.pl 95 64 ≤ 65536)
    (granted : runsOverlap (ctl u d.slot).grants (d.pl 63 32) ((if d.pl 1 1 == 1 then 512 else 1) * d.pl 95 64) =
      (if d.pl 1 1 == 1 then 512 else 1) * d.pl 95 64)
    (free : ∀ j : Fin 64, ∀ p ∈ (ctl u j).pages, runsMeet p.run (d.pl 63 32, (if d.pl 1 1 == 1 then 512 else 1) * d.pl 95 64) = false)
    (apart : ∀ p ∈ (ctl u d.slot).pages, runsMeet (p.va, p.bytes) (d.pl 143 96, d.pl 95 64 * sizeBytes (d.pl 1 1 == 1)) = false)
    (below : d.pl 143 96 + d.pl 95 64 * sizeBytes (d.pl 1 1 == 1) ≤ 0xFFF000000000) :
    cmdMap d u = (modCtl d.slot (fun k => { k with
      pages := k.pages ++ mapPages (d.pl 143 96) (d.pl 63 32) (d.pl 95 64) (d.pl 1 1 == 1) (d.pl 3 3 == 1) (d.pl 4 4 == 1) }) u, resOk) := by
  have state : ¬ (!(jobSt u d.slot == .keyed || jobSt u d.slot == .ready || jobSt u d.slot == .paused)) = true := by
    rcases st with st | st | st <;> rw [st] <;> decide
  have inBand : ¬ ((d.pl 1 1 == 1) && (List.range (min (d.pl 95 64) 65536)).any (fun k =>
      (d.pl 63 32 + 512 * k) / 10240 != (d.pl 63 32 + 512 * k + 511) / 10240)) = true := by
    intro crosses
    obtain ⟨big, some⟩ := Bool.and_eq_true_iff.mp crosses
    obtain ⟨k, hk, differ⟩ := List.any_eq_true.mp some
    exact (bne_iff_ne.mp differ) (bands big k (by rw [List.mem_range] at hk; omega))
  have taken : ¬ (allSlots.any (fun j => (ctl u j).pages.any (fun p => runsMeet p.run (d.pl 63 32, (if d.pl 1 1 == 1 then 512 else 1) * d.pl 95 64))) ||
      (ctl u d.slot).pages.any (fun p => runsMeet (p.va, p.bytes) (d.pl 143 96, d.pl 95 64 * sizeBytes (d.pl 1 1 == 1))) ||
      decide (0xFFF000000000 < d.pl 143 96 + d.pl 95 64 * sizeBytes (d.pl 1 1 == 1))) = true := by
    rw [Bool.or_eq_true, Bool.or_eq_true, decide_eq_true_eq]
    rintro ((held | meets) | above)
    · obtain ⟨j, _, some⟩ := List.any_eq_true.mp held
      obtain ⟨p, hp, meet⟩ := List.any_eq_true.mp some
      exact Bool.false_ne_true ((free j p hp).symm.trans meet)
    · obtain ⟨p, hp, meet⟩ := List.any_eq_true.mp meets
      exact Bool.false_ne_true ((apart p hp).symm.trans meet)
    · omega
  unfold cmdMap
  dsimp only
  rw [if_neg state, unused]
  dsimp only
  rw [if_neg inBand, if_neg (by rw [start]; decide), if_neg (by omega), if_neg (by simp; omega), if_neg (by rw [granted]; simp), if_neg taken]

/-- An UNMAP that passes its checks takes the pages of its range. -/
theorem cmdUnmap_takes (st : jobSt u d.slot = .ready ∨ jobSt u d.slot = .paused)
    (unused : unusedFault d [(0, 0), (2, 2), (3, 3), (4, 4), (31, 5), (63, 32), (191, 144)] = none)
    (start : d.pl 143 96 % sizeBytes (d.pl 1 1 == 1) = 0) (pos : 0 < d.pl 95 64) (most : d.pl 95 64 ≤ 65536)
    (mapped : ∀ k, k < d.pl 95 64 → ∃ p ∈ (ctl u d.slot).pages, p.big = (d.pl 1 1 == 1) ∧ p.va = d.pl 143 96 + k * sizeBytes (d.pl 1 1 == 1))
    (unnamed : windowNames u d.slot (d.pl 143 96) (d.pl 95 64 * sizeBytes (d.pl 1 1 == 1)) = false) :
    cmdUnmap d u = (dropRange d.slot (d.pl 143 96) (d.pl 95 64 * sizeBytes (d.pl 1 1 == 1)) 
      (modCtl d.slot (JobCtl.unmapped (d.pl 143 96) (d.pl 95 64 * sizeBytes (d.pl 1 1 == 1))) u), resOk) := by
  have state : ¬ (!(jobSt u d.slot == .ready || jobSt u d.slot == .paused)) = true := by
    rcases st with st | st <;> rw [st] <;> decide
  have all : ¬ (!((List.range (d.pl 95 64)).all (fun k => (ctl u d.slot).pages.any (fun p =>
      p.big == (d.pl 1 1 == 1) && p.va == d.pl 143 96 + k * sizeBytes (d.pl 1 1 == 1))))) = true := by
    rw [Bool.not_eq_true', Bool.not_eq_false, List.all_eq_true]
    intro k hk
    obtain ⟨p, hp, size, at_⟩ := mapped k (List.mem_range.mp hk)
    exact List.any_eq_true.mpr ⟨p, hp, by rw [size, at_]; simp⟩
  unfold cmdUnmap
  dsimp only
  rw [if_neg state, unused]
  dsimp only
  rw [if_neg (by rw [start]; decide), if_neg (by simp; omega), if_neg all, unnamed, if_neg (by decide)]
  rfl

/-- An AS_GRANT that passes its checks sets the four quotas. -/
theorem cmdAsGrant_sets (rsv : d.pl 63 48 = 0) (st : grantState (jobSt u d.slot) = true)
    (held : ∀ k : Fin 4, (ctl u d.slot).asAct[k].length + (ctl u d.slot).asCache[k].length ≤ d.pl (12 * k.val + 11) (12 * k.val))
    (fits : ∀ k : Fin 4, ((allSlots.filter (· != d.slot)).map (fun j => (ctl u j).asQuota[k])).foldl (· + ·) 0 +
      d.pl (12 * k.val + 11) (12 * k.val) ≤ 3072) :
    cmdAsGrant d u = (modCtl d.slot (fun k => { k with
      asQuota := Vector.ofFn (fun i : Fin 4 => d.pl (12 * i.val + 11) (12 * i.val)) }) u, resOk) := by
  have enough : ¬ (allDies.any (fun k => decide (d.pl (12 * k.val + 11) (12 * k.val) <
      (ctl u d.slot).asAct[k].length + (ctl u d.slot).asCache[k].length))) = true := by
    intro short
    obtain ⟨k, _, less⟩ := List.any_eq_true.mp short
    exact absurd (held k) (Nat.not_le.mpr (of_decide_eq_true less))
  have room : ¬ (allDies.any (fun k => decide (3072 < ((allSlots.filter (· != d.slot)).map (fun j => (ctl u j).asQuota[k])).foldl (· + ·) 0 +
      d.pl (12 * k.val + 11) (12 * k.val)))) = true := by
    intro beyond
    obtain ⟨k, _, more⟩ := List.any_eq_true.mp beyond
    exact absurd (fits k) (Nat.not_le.mpr (of_decide_eq_true more))
  unfold cmdAsGrant
  dsimp only
  rw [if_neg (by rw [rsv]; decide), st, if_neg (by decide), if_neg enough, if_neg room]

end

/-! ### The three commands -/

section
variable (c : HostCmd) (s : State)

theorem perform_map : perform (sent 0x0022 c) s = cmdMap (sent 0x0022 c) s := by
  unfold perform
  rw [sent_opcode]
  rfl

theorem perform_unmap : perform (sent 0x0023 c) s = cmdUnmap (sent 0x0023 c) s := by
  unfold perform
  rw [sent_opcode]
  rfl

theorem perform_asGrant : perform (sent 0x0024 c) s = cmdAsGrant (sent 0x0024 c) s := by
  unfold perform
  rw [sent_opcode]
  rfl

end

/-- Settles O19: each command's own checks pass (`cmdMap_adds`, `cmdUnmap_takes`, `cmdAsGrant_sets`), and its effect is one update of
its slot (`sendCmd_ctl`). -/
theorem mapUnmapAndAsGrantChangeTheJobsMemory : Obligations.MapUnmapAndAsGrantChangeTheJobsMemory := by
  unfold Obligations.MapUnmapAndAsGrantChangeTheJobsMemory
  refine ⟨?_, ?_, ?_⟩
  · intro c s h d i big per va first n st rsv0 rsv2 rsv5 rsv144 pos most start bands frames granted free apart below
    have unused : unusedFault d [(0, 0), (2, 2), (31, 5), (191, 144)] = none :=
      unusedFault_none (by simpa using ⟨rsv0, rsv2, rsv5, rsv144⟩)
    obtain ⟨answered, pages, others, mem⟩ := sendCmd_ctl (go := modCtl i (fun k => { k with
        pages := k.pages ++ mapPages va first n big (d.pl 3 3 == 1) (d.pl 4 4 == 1) })) h (fun _ => rfl)
      (fun dma => (perform_map _ _).trans (cmdMap_adds (d := { d with dma := dma }) (u := atTake 0x0022 c s) st unused bands start frames pos most granted free apart below))
    exact ⟨_, rfl, answered, congrArg JobCtl.pages pages, mapPages_aligned start, others, mem⟩
  · intro c s h d i big va n st rsv0 rsv2 rsv3 rsv4 rsv5 rsv32 rsv144 pos most start mapped unnamed
    have unused : unusedFault d [(0, 0), (2, 2), (3, 3), (4, 4), (31, 5), (63, 32), (191, 144)] = none :=
      unusedFault_none (by simpa using ⟨rsv0, rsv2, rsv3, rsv4, rsv5, rsv32, rsv144⟩)
    obtain ⟨answered, pages, others, mem⟩ := sendCmd_ctl (slot := i) (f := JobCtl.unmapped va (n * sizeBytes big))
      (go := fun u => dropRange i va (n * sizeBytes big) (modCtl i (JobCtl.unmapped va (n * sizeBytes big)) u)) h (fun _ => rfl)
      (fun dma => (perform_unmap _ _).trans (cmdUnmap_takes (d := { d with dma := dma }) (u := atTake 0x0023 c s) st unused start pos most mapped unnamed))
    exact ⟨_, rfl, answered, congrArg JobCtl.pages pages, others, (congrArg Mem.cells mem :)⟩
  · intro c s h d i q rsv st held fits
    obtain ⟨answered, quotas, others, mem⟩ := sendCmd_ctl (go := modCtl i (fun k => { k with asQuota := Vector.ofFn q })) h (fun _ => rfl)
      (fun dma => (perform_asGrant _ _).trans (cmdAsGrant_sets (d := { d with dma := dma }) (u := atTake 0x0024 c s) rsv st held fits))
    refine ⟨_, rfl, answered, fun k => ?_, others, mem⟩
    rw [quotas]
    exact Vector.getElem_ofFn _

end Sys2Proof.Machine
end

section
/-! SUPPORT. The memory controllers and the Activation Stores (spec/08_memory.md R271, R281 to R290): the map of the stacks does not
depend on what they count, and what MEMORY_READ, MEMORY_WRITE and AS_ACCESS leave. -/

namespace Sys2Proof.Machine

/-! ### The map of the stacks in two states -/

/-- The map of the bands and the stacks that are retired, or move, are the same. -/
structure SameMap (s t : State) : Prop where
  st : ∀ k : Fin 20, t.mem.memStacks[k].st = s.mem.memStacks[k].st
  moved : ∀ k : Fin 20, t.mem.memStacks[k].moved = s.mem.memStacks[k].moved
  objs : t.objs = s.objs
  rst : t.rst = s.rst
  sec : t.sec = s.sec

theorem SameMap.of_stacks {s t : State} (same : t.mem.memStacks = s.mem.memStacks) (objs : t.objs = s.objs) (rst : t.rst = s.rst)
    (sec : t.sec = s.sec) : SameMap s t := ⟨fun _ => by rw [same], fun _ => by rw [same], objs, rst, sec⟩

theorem SameMap.servedBy {s t : State} (h : SameMap s t) (dpa : Nat) : servedBy t dpa = servedBy s dpa := by
  obtain ⟨st, moved, objs, rst, sec⟩ := h
  have band : bandDie t = bandDie s := funext fun b => by simp only [bandDie, devFld, objBits, objs, rst, sec]
  have decode : decodeDpa t = decodeDpa s := funext fun d => by simp only [decodeDpa, band]
  have first : withdrawnFirst t = withdrawnFirst s := by simp only [withdrawnFirst, sec]
  have base : grantableBase t = grantableBase s := by simp only [grantableBase, totalFrames, bandCount, sec]
  have apart : withdrawn t = withdrawn s := funext fun d => by rw [withdrawn, withdrawn, first, base]
  have granules : movedGranules t = movedGranules s := funext fun k => by
    simp only [movedGranules, apart, bandCount, sec, show granuleDpa t k = granuleDpa s k from funext fun j => by simp only [granuleDpa, band]]
  have dest : destGranules t = destGranules s := funext fun k => by
    simp only [destGranules, decode, withdrawnCount, first, base]
  simp only [Machine.servedBy, decode, apart, granules, dest, st, moved]

/-- Every sector reads the same for every tag. -/
structure SameSectors (s t : State) : Prop extends SameMap s t where
  cells : t.mem.cells = s.mem.cells
  sectors : t.mem.sectors = s.mem.sectors

section
variable {s t : State} (h : SameSectors s t)
include h

theorem SameSectors.sectorMeta (dpa : Nat) : sectorMeta t dpa = sectorMeta s dpa := by
  simp only [Machine.sectorMeta, h.sectors]

theorem SameSectors.tagMismatch (tag : BitVec 16) (dpa : Nat) : tagMismatch t tag dpa = tagMismatch s tag dpa := by
  simp only [Machine.tagMismatch, h.sectorMeta]

theorem SameSectors.sectorData (tag : BitVec 16) (dpa n : Nat) : sectorData t tag dpa n = sectorData s tag dpa n := by
  simp only [Machine.sectorData, tagKey, sectorStored, h.servedBy, h.sectorMeta, h.cells, h.sec]

theorem SameSectors.wholeSector (tag : BitVec 16) (dpa : Nat) : wholeSector t tag dpa = wholeSector s tag dpa := h.sectorData _ _ _

end

theorem SameSectors.trans {s t u : State} (h : SameSectors s t) (g : SameSectors t u) : SameSectors s u where
  st k := (g.st k).trans (h.st k)
  moved k := (g.moved k).trans (h.moved k)
  objs := g.objs.trans h.objs
  rst := g.rst.trans h.rst
  sec := g.sec.trans h.sec
  cells := g.cells.trans h.cells
  sectors := g.sectors.trans h.sectors

/-- What leaves memory, objects and keys leaves every sector. -/
theorem SameSectors.of_changes {l : List Part} {s t : State} (h : Changes l s t)
    (kept : Part.mem ∉ l ∧ Part.objs ∉ l ∧ Part.rst ∉ l ∧ Part.sec ∉ l) : SameSectors s t := by
  obtain ⟨mem, objs, rst, sec⟩ := kept
  have same : t.mem = s.mem := h .mem mem
  exact ⟨.of_stacks (by rw [same]) (h .objs objs) (h .rst rst) (h .sec sec), by rw [same], by rw [same]⟩

/-- A stack after an update of one. -/
theorem modStack_stack (k j : Fin 20) (f : Stack → Stack) (s : State) :
    (modStack k f s).mem.memStacks[j] = if j = k then f s.mem.memStacks[j] else s.mem.memStacks[j] :=
  vmod_getElem s.mem.memStacks k j f

theorem modStack_same (k : Fin 20) (f : Stack → Stack) (s : State) : (modStack k f s).mem.memStacks[k] = f s.mem.memStacks[k] :=
  vmod_same s.mem.memStacks k f

/-- What a stack counts plays no part in a read. -/
theorem modStack_sectors (k : Fin 20) {f : Stack → Stack} (st : ∀ x, (f x).st = x.st) (moved : ∀ x, (f x).moved = x.moved) (s : State) :
    SameSectors s (modStack k f s) := by
  refine ⟨⟨fun j => ?_, fun j => ?_, rfl, rfl, rfl⟩, rfl, rfl⟩
  · rw [modStack_stack, apply_ite Stack.st, st, ite_self]
  · rw [modStack_stack, apply_ite Stack.moved, moved, ite_self]

theorem traceMem_sectors (what : Nat) (k : Fin 20) (dpa : Nat) (s : State) : SameSectors s (traceMem what k dpa s) :=
  .of_changes (traceMem_changes what k dpa s) (by decide)

/-! ### Requests -/

section
variable {r : MemReq} {s : State} {slot : Fin 64} {d : Nat}

theorem reqDpa_job (job : r.slot = some slot) (write : Bool) : reqDpa s r write = translate s slot r.addr (!write) write := by
  rw [reqDpa, job]

theorem reqTag_job (job : r.slot = some slot) : reqTag s r = jobTag s slot := by
  rw [reqTag, job]

theorem oneSector_spec {n : Nat} (h : oneSector d n = true) : 0 < n ∧ d % 64 + n ≤ 64 ∧ isAs d = false := by
  simpa [oneSector, and_assoc] using h

/-! ### MEMORY_READ (R282, R284, R285) -/

/-- A read that is served: what the code of the sector's stack left, and what the reader sees of it. -/
def servedRead (r : MemReq) (tag : BitVec 16) (d : Nat) (ecc : SectorEcc) (s : State) : State :=
  let seen := decoded d ecc (applyEcc d ecc s)
  emit (.memory (readPart seen tag d r.len).1 (readPart seen tag d r.len).2) (countSeen seen tag d (applyEcc d ecc s))

theorem doMemRead_serves (runs : memRuns s = true) (job : r.slot = some slot) (at_ : translate s slot r.addr true false = some d)
    (there : dpaExists s d = true) (one : oneSector d r.len = true) (ecc : SectorEcc) :
    doMemRead r ecc s = servedRead r (jobTag s slot) d ecc s := by
  unfold doMemRead
  rw [reqDpa_job job, Bool.not_false, at_]
  dsimp only
  rw [runs, there, one, reqTag_job job]
  rfl

theorem countSeen_matched {seen : State} {tag : BitVec 16} (matched : tagMismatch seen tag d = false) : countSeen seen tag d s = s := by
  rw [countSeen, matched]
  rfl

theorem servedRead_clean {tag : BitVec 16} (one : oneSector d r.len = true) (matched : tagMismatch s tag d = false)
    (sound : (sectorMeta s d).poison = false) : servedRead r tag d .clean s = emit (.memory (sectorData s tag d r.len) false) s := by
  obtain ⟨_, _, stack⟩ := oneSector_spec one
  have read := readPart_stack r.len stack sound matched
  unfold servedRead applyEcc decoded
  dsimp only
  rw [read, countSeen_matched matched]

theorem countCorrected_sectors (dpa : Nat) (s : State) : SameSectors s (countCorrected dpa s) :=
  (modStack_sectors (servedBy s dpa) (f := fun k => { k with corrected := satInc k.corrected 1 }) (fun _ => rfl) (fun _ => rfl) s).trans
    (traceMem_sectors _ _ _ _)

/-- A corrected sector is counted on its stack, and nothing leaves the block. -/
theorem countCorrected_counts (dpa : Nat) (s : State) :
    (countCorrected dpa s).mem.memStacks[servedBy s dpa].corrected = satInc s.mem.memStacks[servedBy s dpa].corrected 1 ∧
      (countCorrected dpa s).out = s.out := by
  have traced := traceMem_changes 0 (servedBy s dpa) dpa (modStack (servedBy s dpa) (fun k => { k with corrected := satInc k.corrected 1 }) s)
  refine ⟨?_, traced .out (by decide)⟩
  rw [countCorrected, show (traceMem _ _ _ _).mem = _ from traced .mem (by decide), modStack_same]

theorem servedRead_corrected {tag : BitVec 16} (one : oneSector d r.len = true) (matched : tagMismatch s tag d = false)
    (sound : (sectorMeta s d).poison = false) :
    servedRead r tag d .corrected s = emit (.memory (sectorData s tag d r.len) false) (countCorrected d s) := by
  obtain ⟨_, _, stack⟩ := oneSector_spec one
  have same := countCorrected_sectors d s
  have matched' : tagMismatch (countCorrected d s) tag d = false := (same.tagMismatch tag d).trans matched
  have read := readPart_stack r.len stack (by rw [same.sectorMeta]; exact sound) matched'
  unfold servedRead applyEcc decoded
  dsimp only
  rw [read, countSeen_matched matched', same.sectorData]

/-! ### Poison (R284, R613) -/

/-- The bytes of memory and the metadata of its sectors are the same. -/
def SectorsKept (s t : State) : Prop := t.mem.cells = s.mem.cells ∧ t.mem.sectors = s.mem.sectors

theorem SectorsKept.refl (s : State) : SectorsKept s s := ⟨rfl, rfl⟩

theorem SectorsKept.trans {s t u : State} (h : SectorsKept s t) (g : SectorsKept t u) : SectorsKept s u :=
  ⟨g.1.trans h.1, g.2.trans h.2⟩

theorem SectorsKept.of_changes {l : List Part} {s t : State} (h : Changes l s t) (kept : Part.mem ∉ l) : SectorsKept s t := by
  rw [SectorsKept, show t.mem = s.mem from h .mem kept]
  exact ⟨rfl, rfl⟩

theorem modStack_sectorsKept (k : Fin 20) (f : Stack → Stack) (s : State) : SectorsKept s (modStack k f s) := ⟨rfl, rfl⟩

theorem setStack_sectorsKept (k : Fin 20) (st : StackState) (s : State) : SectorsKept s (setStack k st s) := ⟨rfl, rfl⟩

theorem failStack_sectorsKept (k : Fin 20) (criterion : Nat) (s : State) : SectorsKept s (failStack k criterion s) := by
  have logged : SectorsKept s (logError 0x0B none k.val criterion (modStack k (fun x => { x with reported := true }) s)) :=
    (modStack_sectorsKept k _ s).trans (.of_changes (logError_changes _ _ _ _ _) (by decide))
  unfold failStack
  dsimp only
  split
  · exact .refl s
  · split
    · exact logged.trans (setStack_sectorsKept _ _ _)
    · exact logged

theorem countSeen_sectorsKept (seen : State) (tag : BitVec 16) (d : Nat) (s : State) : SectorsKept s (countSeen seen tag d s) := by
  unfold countSeen
  split
  · exact (modStack_sectorsKept _ _ _).trans (.of_changes (traceMem_changes _ _ _ _) (by decide))
  · exact .refl s

/-- A sector that is marked as poison, without what follows. -/
def markPoison (dpa : Nat) (s : State) : State :=
  { s with mem := { s.mem with sectors := s.mem.sectors.put (dpa / 64) { sectorMeta s dpa with poison := true } } }

theorem poisonOwn_sectorsKept (dpa : Nat) (s : State) : SectorsKept (markPoison dpa s) (poisonOwn dpa s) := by
  have counted : SectorsKept (markPoison dpa s)
      (modStack (servedBy s dpa) (fun x => { x with poisoned := satInc x.poisoned 1 }) (dropCopies dpa (markPoison dpa s))) := ⟨rfl, rfl⟩
  have logged := (counted.trans (.of_changes (traceMem_changes 1 (servedBy s dpa) (dpa / 64 * 64) _) (by decide))).trans
    (.of_changes (logError_changes 0x01 none (servedBy s dpa).val (dpa / 64 * 64) _) (by decide))
  unfold poisonOwn
  dsimp only
  split
  · exact logged.trans (failStack_sectorsKept _ _ _)
  · exact logged

/-- A sector beyond correction is poison, and memory holds the same bytes. -/
theorem poisonOwn_poisons (dpa : Nat) (s : State) : (poisonOwn dpa s).mem.cells = s.mem.cells ∧ (sectorMeta (poisonOwn dpa s) dpa).poison = true := by
  obtain ⟨cells, sectors⟩ := poisonOwn_sectorsKept dpa s
  refine ⟨cells, ?_⟩
  rw [sectorMeta, sectors, AMap.getD, markPoison, AMap.find_put_same]
  rfl

theorem servedRead_uncorrectable (tag : BitVec 16) (one : oneSector d r.len = true) :
    (servedRead r tag d .uncorrectable s).mem.cells = s.mem.cells ∧ (sectorMeta (servedRead r tag d .uncorrectable s) d).poison = true ∧
      (servedRead r tag d .uncorrectable s).out.getLast? = some (.memory (List.replicate r.len 0) true) := by
  obtain ⟨_, _, stack⟩ := oneSector_spec one
  obtain ⟨cells, poison⟩ := poisonOwn_poisons d s
  obtain ⟨cells', sectors'⟩ := countSeen_sectorsKept (poisonOwn d s) tag d (poisonOwn d s)
  have read : readPart (poisonOwn d s) tag d r.len = (List.replicate r.len 0, true) := by
    unfold readPart
    rw [stack, poison]
    rfl
  unfold servedRead applyEcc decoded
  dsimp only
  rw [read]
  refine ⟨cells'.trans cells, ?_, ?_⟩
  · rw [← poison, sectorMeta, sectorMeta]
    exact congrArg (fun m : AMap Nat SectorMeta => (m.getD (d / 64) _).poison) sectors'
  · rw [emit_out, List.getLast?_append]
    rfl

/-! ### MEMORY_WRITE (R283, R285, R286) -/

/-- A write that replaces a whole sector, or meets one that is no poison and whose tag matches, stores its bytes. -/
theorem writePart_stores {tag : BitVec 16} {bs : List Byte} (stack : isAs d = false)
    (allowed : bs.length = 64 ∨ (tagMismatch s tag d = false ∧ (sectorMeta s d).poison = false)) :
    writePart tag d bs s = (storePart tag d bs s, .ok) := by
  unfold writePart
  rw [stack, if_neg Bool.false_ne_true]
  split
  · rfl
  next part =>
    obtain ⟨matched, sound⟩ := allowed.resolve_left part
    rw [sound, matched]
    rfl

theorem doMemWrite_stores {data : List Byte} (runs : memRuns s = true) (job : r.slot = some slot)
    (at_ : translate s slot r.addr false true = some d) (there : dpaExists s d = true) (one : oneSector d data.length = true)
    (allowed : data.length = 64 ∨ (tagMismatch s (jobTag s slot) d = false ∧ (sectorMeta s d).poison = false)) :
    doMemWrite r data .clean s = dropLines slot (r.addr / 64) (storePart (jobTag s slot) d data s) := by
  obtain ⟨_, _, stack⟩ := oneSector_spec one
  have whole : ∀ b : Bool, (if b then s else applyEcc d .clean s) = s := fun b => by cases b <;> rfl
  have seen : ∀ b : Bool, (if b then s else decoded d .clean s) = s := fun b => by cases b <;> rfl
  unfold doMemWrite
  rw [reqDpa_job job, Bool.not_true, at_]
  dsimp only
  rw [runs, there, one, reqTag_job job, whole, seen, writePart_stores stack allowed, job]
  rfl

/-! ### AS_ACCESS (R290) -/

theorem asBadWords_none (n : Nat) (clean : s.mem.asBad = []) : asBadWords s d n = [] := by
  rw [asBadWords, clean]
  exact List.filter_eq_nil_iff.mpr (fun _ _ => by simp)

theorem asClosed_job (job : r.slot = some slot) : asClosed s r d = false := by
  rw [asClosed, job]
  rfl

theorem inWord_spec {n : Nat} (store : isAs d = true) (pos : 0 < n) (inside : d % 8 + n ≤ 8) :
    ¬ (!isAs d || decide (n = 0) || decide (8 < d % 8 + n)) = true := by
  rw [store, Bool.not_true, Bool.false_or, Bool.or_eq_true, decide_eq_true_eq, decide_eq_true_eq]
  omega

theorem doAsAccess_reads (runs : memRuns s = true) (job : r.slot = some slot) (there : dpaExists s d = true) (store : isAs d = true)
    (clean : s.mem.asBad = []) (at_ : translate s slot r.addr true false = some d) (pos : 0 < r.len) (inside : d % 8 + r.len ≤ 8) :
    doAsAccess r none .clean s = emit (.memory (cellGets s.mem.cells d r.len) false) s := by
  have read : readPart s (reqTag s r) d r.len = (cellGets s.mem.cells d r.len, false) := by
    unfold readPart
    rw [store, asBadWords_none _ clean]
    rfl
  have noted : notePart (reqTag s r) d r.len s = s := by
    unfold notePart
    rw [store, asBadWords_none _ clean]
    rfl
  unfold doAsAccess
  dsimp only
  rw [show (none : Option (List Byte)).isSome = false from rfl, reqDpa_job job, Bool.not_false, at_]
  dsimp only
  rw [runs, there, asClosed_job job, if_neg (by decide), if_neg (by decide), if_neg Bool.false_ne_true, if_neg (inWord_spec store pos inside)]
  unfold readWord
  rw [read, noted]

theorem doAsAccess_writes {bs : List Byte} (runs : memRuns s = true) (job : r.slot = some slot) (there : dpaExists s d = true)
    (store : isAs d = true) (clean : s.mem.asBad = []) (at_ : translate s slot r.addr false true = some d) (pos : 0 < bs.length)
    (inside : d % 8 + bs.length ≤ 8) : doAsAccess r (some bs) .clean s = putAs d bs s := by
  have written : writePart (reqTag s r) d bs s = (putAs d bs s, .ok) := by
    unfold writePart
    dsimp only
    rw [store, asBadWords_none _ clean]
    rfl
  unfold doAsAccess
  dsimp only
  rw [show (some bs).isSome = true from rfl, reqDpa_job job, Bool.not_true, at_]
  dsimp only
  rw [runs, there, asClosed_job job, if_neg (by decide), if_neg (by decide), if_neg Bool.false_ne_true, if_neg (inWord_spec store pos inside), ite_self,
    written]
  rfl

end

/-! ### The three commands -/

section
variable (r : MemReq) (s : State) (slot : Fin 64) (d : Nat)

theorem memoryRead_spec (runs : memRuns s = true) (job : r.slot = some slot) (at_ : translate s slot r.addr true false = some d)
    (there : dpaExists s d = true) (one : oneSector d r.len = true) :
    (tagMismatch s (jobTag s slot) d = false → (sectorMeta s d).poison = false →
      Completes (.memoryRead r .clean) s (fun t => t = emit (.memory (sectorData s (jobTag s slot) d r.len) false) s) ∧
      Completes (.memoryRead r .corrected) s (fun t => t.mem.cells = s.mem.cells ∧
        t.out = s.out ++ [.memory (sectorData s (jobTag s slot) d r.len) false] ∧
        t.mem.memStacks[servedBy s d].corrected = satInc s.mem.memStacks[servedBy s d].corrected 1)) ∧
    Completes (.memoryRead r .uncorrectable) s (fun t => t.mem.cells = s.mem.cells ∧ (sectorMeta t d).poison = true ∧
      t.out.getLast? = some (.memory (List.replicate r.len 0) true)) := by
  have served := doMemRead_serves runs job at_ there one
  refine ⟨fun matched sound => ⟨⟨_, rfl, (served .clean).trans (servedRead_clean one matched sound)⟩, ⟨_, rfl, ?_⟩⟩, ⟨_, rfl, ?_⟩⟩
  · obtain ⟨counted, out⟩ := countCorrected_counts d s
    rw [served .corrected, servedRead_corrected one matched sound]
    exact ⟨(countCorrected_sectors d s).cells, congrArg (· ++ _) out, counted⟩
  · rw [served .uncorrectable]
    exact servedRead_uncorrectable _ one

theorem memoryWrite_spec (data : List Byte) (runs : memRuns s = true) (job : r.slot = some slot)
    (at_ : translate s slot r.addr false true = some d) (there : dpaExists s d = true) (one : oneSector d data.length = true)
    (allowed : data.length = 64 ∨ (tagMismatch s (jobTag s slot) d = false ∧ (sectorMeta s d).poison = false)) :
    Completes (.memoryWrite r data .clean) s (fun t => t.mem.cells = (storePart (jobTag s slot) d data s).mem.cells ∧
      sectorMeta t d = { tag := jobTag s slot, zero := false, poison := false } ∧ t.out = s.out ∧
      ∀ k, k / 64 ≠ d / 64 → sectorMeta t k = sectorMeta s k) := by
  have sectors := sectorMeta_storePart s (jobTag s slot) d (bs := data)
  refine ⟨_, rfl, ?_⟩
  rw [doMemWrite_stores runs job at_ there one allowed]
  exact ⟨rfl, (sectors d).trans (if_pos rfl), storePart_changes _ _ _ _ .out (by decide), fun k other => (sectors k).trans (if_neg other)⟩

theorem asAccess_spec (runs : memRuns s = true) (job : r.slot = some slot) (there : dpaExists s d = true) (store : isAs d = true)
    (clean : s.mem.asBad = []) :
    (translate s slot r.addr true false = some d → 0 < r.len → d % 8 + r.len ≤ 8 →
      Completes (.asAccess r none .clean) s (fun t => t = emit (.memory (cellGets s.mem.cells d r.len) false) s)) ∧
    (∀ bs, translate s slot r.addr false true = some d → 0 < bs.length → d % 8 + bs.length ≤ 8 →
      Completes (.asAccess r (some bs) .clean) s (fun t => t.mem.cells = cellPuts s.mem.cells d bs ∧ t.mem.asBad = [] ∧ t.out = s.out)) := by
  refine ⟨fun at_ pos inside => ⟨_, rfl, doAsAccess_reads runs job there store clean at_ pos inside⟩, fun bs at_ pos inside => ⟨_, rfl, ?_⟩⟩
  rw [doAsAccess_writes runs job there store clean at_ pos inside]
  exact ⟨rfl, by rw [putAs, clean]; rfl, rfl⟩

end

end Sys2Proof.Machine
end

section
/-! SUPPORT. The upkeep of the stacks and the rows of prefetchers (spec/08_memory.md R287, R293, R306;
spec/18_service_selftest_conservation.md R613 to R622). -/

namespace Sys2Proof.Machine

/-! ### Stacks that change their state (R613, R619, R633) -/

theorem setStack_same (k : Fin 20) (st : StackState) (s : State) :
    (setStack k st s).mem.memStacks[k] = { s.mem.memStacks[k] with st := st } := modStack_same k (fun x => { x with st := st }) s

theorem setStack_changes (k : Fin 20) (st : StackState) (s : State) : Changes [.mem, .logs, .health, .healthFlash] s (setStack k st s) := by
  intro p hp
  cases p <;> first | exact absurd (by decide) hp | rfl

/-- A stack meets a criterion for the first time: it is reported. -/
def reportStack (k : Fin 20) (criterion : Nat) (s : State) : State :=
  logError 0x0B none k.val criterion (modStack k (fun x => { x with reported := true }) s)

theorem reportStack_mem (k : Fin 20) (criterion : Nat) (s : State) :
    (reportStack k criterion s).mem = (modStack k (fun x => { x with reported := true }) s).mem :=
  logError_changes _ _ _ _ _ .mem (by decide)

theorem reportStack_changes (k : Fin 20) (criterion : Nat) (s : State) : Changes [.mem, .host, .out, .logs] s (reportStack k criterion s) :=
  ((modStack_changes _ _ _).mono (by decide)).trans ((logError_changes _ _ _ _ _).mono (by decide))

theorem failStack_eq (k : Fin 20) (criterion : Nat) (s : State) :
    failStack k criterion s =
      if s.mem.memStacks[k].st ≠ .ok || s.mem.memStacks[k].reported then s
      else if !anyStackBad s then setStack k .failing (reportStack k criterion s) else reportStack k criterion s := rfl

theorem failStack_changes (k : Fin 20) (criterion : Nat) (s : State) :
    Changes [.mem, .host, .out, .logs, .health, .healthFlash] s (failStack k criterion s) := by
  have reported := (reportStack_changes k criterion s).mono (l' := [.mem, .host, .out, .logs, .health, .healthFlash]) (by decide)
  rw [failStack_eq]
  split
  · exact .refl _ s
  · split
    · exact reported.trans ((setStack_changes _ _ _).mono (by decide))
    · exact reported

/-- A stack keeps the times of its failed recalibrations. -/
theorem failStack_calFails (k : Fin 20) (criterion : Nat) (s : State) :
    (failStack k criterion s).mem.memStacks[k].calFails = s.mem.memStacks[k].calFails := by
  have reported : (reportStack k criterion s).mem.memStacks[k].calFails = s.mem.memStacks[k].calFails := by
    rw [reportStack_mem, modStack_same]
  rw [failStack_eq]
  split
  · rfl
  · split
    · rw [setStack_same]; exact reported
    · exact reported

/-- The first stack of a device that meets a criterion is FAILING. -/
theorem failStack_first {k : Fin 20} {s : State} (criterion : Nat) (sound : ∀ j : Fin 20, s.mem.memStacks[j].st = .ok)
    (new : s.mem.memStacks[k].reported = false) : (failStack k criterion s).mem.memStacks[k].st = .failing := by
  have first : anyStackBad s = false := List.any_eq_false.mpr (fun j _ => by rw [sound j]; decide)
  rw [failStack_eq, sound k, new, first, if_neg (by decide), if_pos (by decide), setStack_same]

/-! ### Patrols (R287, R613) -/

theorem patrolScrub_spec (k : Fin 20) (sector : Nat) (s : State) (power : powered s = true) (serves : s.mem.memStacks[k].st ≠ .retired)
    (inside : sector < bandCount s * 16777216) (few : s.mem.memStacks[k].passCorrected ≤ 65536) :
    Completes (.patrolScrub k sector .clean true) s (fun t => t.mem.memStacks[k] = { s.mem.memStacks[k] with
      passCorrected := 0, patrols := satInc s.mem.memStacks[k].patrols 1 } ∧ t.mem.cells = s.mem.cells ∧ t.jobs = s.jobs) := by
  have done : doPatrol k sector .clean true s = modStack k (fun x => { x with passCorrected := 0, patrols := satInc x.patrols 1 }) s := by
    unfold doPatrol applyEcc
    rw [power, decide_eq_false serves, decide_eq_false (Nat.not_le.mpr inside), if_neg (by decide)]
    dsimp only
    rw [if_neg Bool.false_ne_true, if_neg (Nat.not_lt.mpr few), if_pos rfl]
  refine ⟨_, rfl, ?_⟩
  rw [done]
  exact ⟨modStack_same _ _ _, rfl, rfl⟩

/-! ### Recalibrations (R613, R622) -/

/-- The stack takes the trims that are loaded. -/
def withTrims (k : Fin 20) (s : State) : State := modCalib (fun c => { c with memStacks := c.memStacks.set k c.loaded.stackPhy }) s

/-- The failed recalibrations of a stack within 1 s, with one at the present time. -/
def recentFails (k : Fin 20) (s : State) : List Nat :=
  s.mem.memStacks[k].calFails.filter (fun t => decide (s.clock.now < t + 800000000)) ++ [s.clock.now]

/-- A stack's recalibration has failed. -/
def withFails (k : Fin 20) (s : State) : State := modStack k (fun x => { x with calFails := recentFails k s }) (withTrims k s)

section
variable (k : Fin 20) (s : State)

theorem doRecalibrate_eq (ok : Bool) (power : powered s = true) (serves : s.mem.memStacks[k].st ≠ .retired) :
    doRecalibrate k ok s = if ok then withTrims k s
      else if 3 ≤ (recentFails k s).length then failStack k 3 (withFails k s) else withFails k s := by
  unfold doRecalibrate
  rw [power, decide_eq_false serves, if_neg (by decide)]
  rfl

theorem withFails_same : (withFails k s).mem.memStacks[k] = { s.mem.memStacks[k] with calFails := recentFails k s } := modStack_same _ _ _

theorem withFails_st (j : Fin 20) : (withFails k s).mem.memStacks[j].st = s.mem.memStacks[j].st :=
  (modStack_sectors k (f := fun x => { x with calFails := recentFails k s }) (fun _ => rfl) (fun _ => rfl) (withTrims k s)).st j

theorem recalibration_fails (power : powered s = true) (serves : s.mem.memStacks[k].st ≠ .retired) :
    Completes (.stackRecalibration k false) s (fun t => t.mem.memStacks[k].calFails = recentFails k s ∧ t.mem.cells = s.mem.cells ∧
      t.calib.memStacks = s.calib.memStacks.set k s.calib.loaded.stackPhy ∧
      ((recentFails k s).length < 3 → t.mem.memStacks[k].st = s.mem.memStacks[k].st) ∧
      (3 ≤ (recentFails k s).length → (∀ j : Fin 20, s.mem.memStacks[j].st = .ok) → s.mem.memStacks[k].reported = false →
        t.mem.memStacks[k].st = .failing)) := by
  have fails : (withFails k s).mem.memStacks[k].calFails = recentFails k s := by rw [withFails_same]
  refine ⟨_, rfl, ?_⟩
  rw [doRecalibrate_eq k s false power serves, if_neg Bool.false_ne_true]
  by_cases third : 3 ≤ (recentFails k s).length
  · rw [if_pos third]
    have calib : (failStack k 3 (withFails k s)).calib = (withFails k s).calib := failStack_changes _ _ _ .calib (by decide)
    refine ⟨(failStack_calFails _ _ _).trans fails, (failStack_sectorsKept _ _ _).1, congrArg Calib.memStacks calib,
      fun few => absurd third (Nat.not_le.mpr few), fun _ sound new => failStack_first 3 (fun j => (withFails_st k s j).trans (sound j)) ?_⟩
    rw [withFails_same]
    exact new
  · rw [if_neg third]
    exact ⟨fails, rfl, rfl, fun _ => withFails_st k s k, fun many => absurd many third⟩

theorem stackRecalibration_spec (recent : List Nat) (power : powered s = true) (serves : s.mem.memStacks[k].st ≠ .retired)
    (times : recent = s.mem.memStacks[k].calFails.filter (fun t => decide (s.clock.now < t + 800000000)) ++ [s.clock.now]) :
    Completes (.stackRecalibration k true) s (fun t =>
      t = modCalib (fun c => { c with memStacks := c.memStacks.set k c.loaded.stackPhy }) s) ∧
    Completes (.stackRecalibration k false) s (fun t => t.mem.memStacks[k].calFails = recent ∧ t.mem.cells = s.mem.cells ∧
      t.calib.memStacks = s.calib.memStacks.set k s.calib.loaded.stackPhy ∧
      (recent.length < 3 → t.mem.memStacks[k].st = s.mem.memStacks[k].st) ∧
      (3 ≤ recent.length → (∀ j : Fin 20, s.mem.memStacks[j].st = .ok) → s.mem.memStacks[k].reported = false →
        t.mem.memStacks[k].st = .failing)) := by
  subst times
  exact ⟨⟨_, rfl, (doRecalibrate_eq k s true power serves).trans (if_pos rfl)⟩, recalibration_fails k s power serves⟩

/-! ### Migrations (R614 to R617) -/

theorem migrationStart_spec (power : powered s = true) (failing : s.mem.memStacks[k].st = .failing) (free : withdrawnHeld s = false) :
    Completes (.migrationStart k) s (fun t => t.mem.memStacks[k].st = .migrating ∧ t.mem.cells = s.mem.cells ∧ t.jobs = s.jobs) := by
  have starts : doMigration k s = setStack k .migrating s := by
    unfold doMigration
    rw [power, decide_eq_true failing, free, if_pos (by decide)]
  refine ⟨_, rfl, ?_⟩
  rw [starts]
  exact ⟨by rw [setStack_same], rfl, rfl⟩

/-- The next granule of a stack has switched. -/
def granuleMoved (k : Fin 20) (s : State) : State := modStack k (fun x => { x with moved := x.moved + 1 }) s

theorem granuleMoved_same : (granuleMoved k s).mem.memStacks[k] = { s.mem.memStacks[k] with moved := s.mem.memStacks[k].moved + 1 } :=
  modStack_same _ _ _

theorem doGranule_eq (power : powered s = true) (moving : s.mem.memStacks[k].st = .migrating) :
    doGranule k [] s = if (movedGranules s k).length ≤ (granuleMoved k s).mem.memStacks[k].moved then
      logError 0x0C none k.val 0 (setStack k .retired (granuleMoved k s)) else granuleMoved k s := by
  unfold doGranule
  rw [power, decide_eq_false (not_not_intro moving), if_neg (by decide)]
  rfl

theorem granuleMigrate_spec (power : powered s = true) (moving : s.mem.memStacks[k].st = .migrating) :
    Completes (.granuleMigrate k []) s (fun t => t.mem.memStacks[k].moved = s.mem.memStacks[k].moved + 1 ∧ t.mem.cells = s.mem.cells ∧
      t.mem.memStacks[k].st = if (movedGranules s k).length ≤ s.mem.memStacks[k].moved + 1 then .retired else .migrating) := by
  have same := granuleMoved_same k s
  have moved : (granuleMoved k s).mem.memStacks[k].moved = s.mem.memStacks[k].moved + 1 := by rw [same]
  refine ⟨_, rfl, ?_⟩
  rw [doGranule_eq k s power moving, moved]
  by_cases last : (movedGranules s k).length ≤ s.mem.memStacks[k].moved + 1
  · have mem : (logError 0x0C none k.val 0 (setStack k .retired (granuleMoved k s))).mem = (setStack k .retired (granuleMoved k s)).mem :=
      logError_changes _ _ _ _ _ .mem (by decide)
    rw [if_pos last, if_pos last]
    exact ⟨by rw [mem, setStack_same]; exact moved, by rw [mem]; rfl, by rw [mem, setStack_same]⟩
  · rw [if_neg last, if_neg last]
    exact ⟨moved, rfl, by rw [same]; exact moving⟩

end

/-! ### Rows of prefetchers (R277, R293, R306) -/

theorem setPrefetch_same (die : Fin 4) (k : Fin 64) (p : Option Prefetch) (s : State) : (setPrefetch die k p s).mem.prefetch[die][k] = p := by
  rw [setPrefetch, vmod_same]
  exact Vector.getElem_set_self _

/-- Prefetchers and stream cache lines are the same. -/
def LinesKept (s t : State) : Prop := t.mem.prefetch = s.mem.prefetch ∧ t.mem.lines = s.mem.lines

theorem LinesKept.refl (s : State) : LinesKept s s := ⟨rfl, rfl⟩

theorem LinesKept.trans {s t u : State} (h : LinesKept s t) (g : LinesKept t u) : LinesKept s u := ⟨g.1.trans h.1, g.2.trans h.2⟩

theorem LinesKept.of_changes {l : List Part} {s t : State} (h : Changes l s t) (kept : Part.mem ∉ l) : LinesKept s t := by
  rw [LinesKept, show t.mem = s.mem from h .mem kept]
  exact ⟨rfl, rfl⟩

theorem LinesKept.forEach {α : Type} (l : List α) (f : α → State → State) (h : ∀ a t, LinesKept t (f a t)) (s : State) :
    LinesKept s (forEach l f s) :=
  forEach_keeps (P := LinesKept s) l f (fun a t ht => ht.trans (h a t)) s (.refl s)

theorem notePart_lines (tag : BitVec 16) (dpa n : Nat) (s : State) : LinesKept s (notePart tag dpa n s) := by
  unfold notePart
  split
  · exact .forEach _ _ (fun w t => .of_changes (logAsWord_changes w t) (by decide)) s
  · unfold countMismatch
    split
    · exact LinesKept.trans (t := modStack _ _ s) ⟨rfl, rfl⟩ (.of_changes (traceMem_changes _ _ _ _) (by decide))
    · exact .refl s

/-- What is recorded of reads leaves prefetchers and lines. -/
theorem noteReads_lines (slot : Fin 64) (rs : List (Nat × Nat)) (s : State) : LinesKept s (noteReads slot rs s) := by
  unfold noteReads
  refine .forEach _ _ (fun c t => ?_) s
  split
  · exact notePart_lines _ _ _ _
  · exact .refl t

theorem countReads_changes (slot : Fin 64) (die : Fin 4) (xs : List Nat) (s : State) : Changes [.clock] s (countReads slot die xs s) :=
  (pmuCount_changes _ _ _ _ _ _).trans (pmuCount_changes _ _ _ _ _ _)

/-- A stream's next row has landed: its stack sectors `all` are counted, the poisoned ones are recorded, and the others have lines. -/
def landRow (die : Fin 4) (pf : Fin 64) (slot : Fin 64) (q : Prefetch) (all bad new : List Nat) (s : State) : State :=
  let s := noteReads slot (bad.map (fun x => (64 * x, 64))) (setPrefetch die pf (some q) (countReads slot die all s))
  { s with mem := { s.mem with lines := s.mem.lines ++ new.map (fun x => ⟨slot, die, x⟩) } }

theorem landRow_spec (die : Fin 4) (pf : Fin 64) (slot : Fin 64) (q : Prefetch) (all bad new : List Nat) (s : State) :
    (landRow die pf slot q all bad new s).mem.prefetch[die][pf] = some q ∧
    (landRow die pf slot q all bad new s).mem.lines = s.mem.lines ++ new.map (fun x => ⟨slot, die, x⟩) ∧
    (landRow die pf slot q all bad new s).mem.cells = s.mem.cells ∧ (landRow die pf slot q all bad new s).jobs = s.jobs := by
  have mem : (countReads slot die all s).mem = s.mem := countReads_changes slot die all s .mem (by decide)
  have jobs : (countReads slot die all s).jobs = s.jobs := countReads_changes slot die all s .jobs (by decide)
  unfold landRow
  rw [← mem, ← jobs]
  generalize countReads slot die all s = u
  obtain ⟨prefetch, lines⟩ := noteReads_lines slot (bad.map (fun x => (64 * x, 64))) (setPrefetch die pf (some q) u)
  refine ⟨?_, congrArg (· ++ _) lines, noteReads_cells _ _ _, noteReads_changes _ _ _ .jobs (by decide)⟩
  exact (congrArg (fun v : Vector (Vector (Option Prefetch) 64) 4 => v[die][pf]) prefetch).trans (setPrefetch_same _ _ _ _)

section
variable {die : Fin 4} {pf : Fin 64} {s : State} {p q : Prefetch} {all bad new : List Nat}

/-- A row whose sectors can be read lands where it fits, and waits where it does not. -/
theorem doPrefetch_row (serves : s.mem.prefetch[die][pf] = some p) (more : p.next < p.count)
    (hall : all = (newSectors s die p).filter (fun x => inStack s p.task.slot (64 * x)))
    (hbad : bad = all.filter (fun x => (peek s p.task.slot (64 * x) 64).st = .integrity)) (hnew : new = all.filter (fun x => !bad.contains x))
    (hq : q = { p with next := p.next + 1, held := p.held ++ new })
    (reads : (rowSectors p).all (fun x => readable s p.task.slot (64 * x)) = true) :
    doPrefetch die pf s = if !rowFits s die p q then s else landRow die pf p.task.slot q all bad new s := by
  subst hall hbad hnew hq
  unfold doPrefetch
  rw [serves]
  dsimp only
  rw [if_neg (by omega), reads, if_neg (by decide)]
  rfl

theorem doPrefetch_stops (serves : s.mem.prefetch[die][pf] = some p) (more : p.next < p.count)
    (fails : (rowSectors p).all (fun x => readable s p.task.slot (64 * x)) = false) :
    doPrefetch die pf s = setPrefetch die pf (some { p with count := p.next }) s := by
  unfold doPrefetch
  rw [serves]
  dsimp only
  rw [if_neg (by omega), fails, if_pos (by decide)]

end

theorem prefetchFetch_spec (die : Fin 4) (pf : Fin 64) (s : State) (p q : Prefetch) (all bad new : List Nat) (runs : inP0P1 s = true)
    (serves : s.mem.prefetch[die][pf] = some p) (more : p.next < p.count)
    (hall : all = (newSectors s die p).filter (fun x => inStack s p.task.slot (64 * x)))
    (hbad : bad = all.filter (fun x => (peek s p.task.slot (64 * x) 64).st = .integrity)) (hnew : new = all.filter (fun x => !bad.contains x))
    (hq : q = { p with next := p.next + 1, held := p.held ++ new }) :
    ((rowSectors p).all (fun x => readable s p.task.slot (64 * x)) = true → rowFits s die p q = true →
      Completes (.prefetchFetch die pf) s (fun t => t.mem.prefetch[die][pf] = some q ∧
        t.mem.lines = s.mem.lines ++ new.map (fun x => ⟨p.task.slot, die, x⟩) ∧ t.mem.cells = s.mem.cells ∧ t.jobs = s.jobs)) ∧
    ((rowSectors p).all (fun x => readable s p.task.slot (64 * x)) = true → rowFits s die p q = false →
      Completes (.prefetchFetch die pf) s (fun t => t = s)) ∧
    ((rowSectors p).all (fun x => readable s p.task.slot (64 * x)) = false →
      Completes (.prefetchFetch die pf) s (fun t => t = setPrefetch die pf (some { p with count := p.next }) s)) := by
  have row := doPrefetch_row serves more hall hbad hnew hq
  have open_ : (if inP0P1 s then doPrefetch die pf s else s) = doPrefetch die pf s := if_pos runs
  refine ⟨fun reads fits => ⟨_, rfl, ?_⟩, fun reads full => ⟨_, rfl, ?_⟩, fun fails => ⟨_, rfl, open_.trans (doPrefetch_stops serves more fails)⟩⟩
  · rw [open_, row reads, fits, if_neg (by decide)]
    exact landRow_spec _ _ _ _ _ _ _ _
  · rw [open_, row reads, full, if_pos (by decide)]

end Sys2Proof.Machine
end

section
/-! SUPPORT. A tile that arrives for a retained entry (spec/08_memory.md R299, R302): the bytes that a write leaves in memory do not
depend on the lists of a job's entries, and the entry that is found at the address afterwards. -/

namespace Sys2Proof.Machine

/-! ### Writes go by memory, its map and its keys -/

/-- Memory, the map of its bands, its keys, and the pages and tags of the jobs are the same. -/
structure SameStore (s t : State) : Prop extends SameReads s t where
  same : t.mem = s.mem

section
variable {s t : State} (h : SameStore s t)
include h

theorem SameStore.sectorsSame : SameSectors s t where
  st _ := by rw [h.same]
  moved _ := by rw [h.same]
  objs := h.objs
  rst := h.rst
  sec := h.sec
  cells := by rw [h.same]
  sectors := by rw [h.same]

theorem SameStore.putSector_mem (dpa : Nat) (bs : List Byte) (m : SectorMeta) : (putSector dpa bs m t).mem = (putSector dpa bs m s).mem := by
  simp only [putSector, h.same]

theorem SameStore.storePart_mem (tag : BitVec 16) (dpa : Nat) (bs : List Byte) : (storePart tag dpa bs t).mem = (storePart tag dpa bs s).mem := by
  have sectors := h.sectorsSame
  have key : tagKey t dpa tag = tagKey s dpa tag := by simp only [tagKey, sectors.servedBy, h.sec]
  cases k : tagKey s dpa tag with
  | none => rw [storePart_clear bs k, storePart_clear bs (key.trans k), h.putSector_mem]
  | some k' =>
    rw [storePart_sealed bs k, storePart_sealed bs (key.trans k), h.putSector_mem, mergedSector, mergedSector, sectors.wholeSector]

theorem SameStore.countMismatch_mem (tag : BitVec 16) (dpa : Nat) : (countMismatch tag dpa t).mem = (countMismatch tag dpa s).mem := by
  have sectors := h.sectorsSame
  have counted : ∀ u, (countMismatch tag dpa u).mem = if tagMismatch u tag dpa then
      (modStack (servedBy u dpa) (fun k => { k with tagMismatch := satInc k.tagMismatch 1 }) u).mem else u.mem := fun u => by
    unfold countMismatch
    split
    · exact traceMem_changes _ _ _ _ .mem (by decide)
    · rfl
  rw [counted, counted, sectors.tagMismatch, sectors.servedBy, modStack, modStack, h.same]

/-- A write of a part of a sector leaves the same in memory, and ends the same way. -/
theorem SameStore.writePart_mem (tag : BitVec 16) (dpa : Nat) (bs : List Byte) :
    (writePart tag dpa bs t).1.mem = (writePart tag dpa bs s).1.mem := by
  have sectors := h.sectorsSame
  have logged : ∀ (ws : List Nat) u, (forEach ws logAsWord u).mem = u.mem := fun ws u =>
    Changes.forEach ws logAsWord (fun w u => logAsWord_changes w u) u .mem (by decide)
  have words : asBadWords t dpa bs.length = asBadWords s dpa bs.length := by rw [asBadWords, asBadWords, h.same]
  unfold writePart
  dsimp only
  rw [words, sectors.sectorMeta, sectors.tagMismatch]
  split
  · split
    · rw [h.same]
    · rw [logged, logged, h.same]
  · split
    · exact h.storePart_mem _ _ _
    · split
      · exact h.countMismatch_mem _ _
      · exact h.storePart_mem _ _ _

end

/-- What leaves the jobs, the objects and the keys, and the same memory in both states. -/
theorem SameStore.of_changes {l : List Part} {s t s' t' : State} (h : SameStore s t) (hs : Changes l s s') (ht : Changes l t t')
    (kept : Part.jobs ∉ l ∧ Part.objs ∉ l ∧ Part.rst ∉ l ∧ Part.sec ∉ l) (same : t'.mem = s'.mem) : SameStore s' t' := by
  obtain ⟨jobs, objs, rst, sec⟩ := kept
  refine ⟨⟨fun i => ?_, by rw [same]; exact .refl _, ?_, ?_, ?_⟩, same⟩
  · rw [ctl, ctl, show t'.jobs = t.jobs from ht .jobs jobs, show s'.jobs = s.jobs from hs .jobs jobs]
    exact h.ctl i
  · exact (ht .objs objs).trans (h.objs.trans (hs .objs objs).symm)
  · exact (ht .rst rst).trans (h.rst.trans (hs .rst rst).symm)
  · exact (ht .sec sec).trans (h.sec.trans (hs .sec sec).symm)

theorem SameStore.dropLines {s t : State} (h : SameStore s t) (slot : Fin 64) (sector : Nat) :
    SameStore (dropLines slot sector s) (dropLines slot sector t) where
  ctl i := by rw [ctl_dropLines, ctl_dropLines, h.ctl]
  mem := by simp only [Machine.dropLines, modTasks, modJob, h.same]; exact .refl _
  objs := h.objs
  rst := h.rst
  sec := h.sec
  same := by simp only [Machine.dropLines, modTasks, modJob, h.same]

/-- A part of a write in one sector, at the same address in both states. -/
theorem SameStore.writeChunk {slot : Fin 64} {va : Nat} {bs : List Byte} {tag : BitVec 16} {tr : Nat → Option Nat} {a b : State × MStat}
    (h : SameStore a.1 b.1) (c : Nat × Nat) : SameStore (writeChunk slot va bs tag tr a c).1 (writeChunk slot va bs tag tr b c).1 := by
  have part : SameStore _ _ := h.of_changes (writePart_changes tag ((tr c.1).getD 0) ((bs.drop (c.1 - va)).take c.2) a.1)
    (writePart_changes tag ((tr c.1).getD 0) ((bs.drop (c.1 - va)).take c.2) b.1) (by decide) (h.writePart_mem _ _ _)
  exact part.dropLines slot (c.1 / 64)

theorem SameStore.writeChunks {slot : Fin 64} {va : Nat} {bs : List Byte} {tag : BitVec 16} {tr : Nat → Option Nat} (cs : List (Nat × Nat))
    {a b : State × MStat} (h : SameStore a.1 b.1) :
    SameStore (cs.foldl (Machine.writeChunk slot va bs tag tr) a).1 (cs.foldl (Machine.writeChunk slot va bs tag tr) b).1 := by
  induction cs generalizing a b with
  | nil => exact h
  | cons c rest ih => exact ih (h.writeChunk c)

/-- A job's write leaves the same in memory. -/
theorem SameStore.jobWrite {s t : State} (h : SameStore s t) (slot : Fin 64) (va : Nat) (bs : List Byte) :
    SameStore (jobWrite slot va bs s).1 (jobWrite slot va bs t).1 := by
  have tr : (fun a => translate t slot a false true) = (fun a => translate s slot a false true) := funext fun a => h.translate slot a _ _
  have range : mapped t slot va bs.length false true = mapped s slot va bs.length false true := by simp only [mapped, h.translate]
  have counted := h.of_changes (countWrites_changes slot va bs.length s) (countWrites_changes slot va bs.length t) (by decide)
    ((countWrites_changes slot va bs.length t .mem (by decide)).trans
      (h.same.trans (countWrites_changes slot va bs.length s .mem (by decide)).symm))
  rw [jobWrite_eq, jobWrite_eq, range, tr, show jobTag t slot = jobTag s slot by rw [jobTag, jobTag, h.ctl]]
  split
  · exact h
  · exact .writeChunks _ counted

/-! ### Entries -/

/-- The lists of a job's entries play no part in a write. -/
theorem modStash_sameStore (slot : Fin 64) (f : Stash → Stash) (s : State) : SameStore s (modStash slot f s) where
  ctl i := by
    rw [ctl, modStash, modJob, vmod_getElem]
    split <;> rfl
  mem := .refl _
  objs := rfl
  rst := rfl
  sec := rfl
  same := rfl

theorem SameStore.trans {s t u : State} (h : SameStore s t) (g : SameStore t u) : SameStore s u :=
  ⟨h.toSameReads.trans g.toSameReads, g.same.trans h.same⟩

theorem modStash_same (slot : Fin 64) (f : Stash → Stash) (s : State) : (modStash slot f s).jobs[slot].stash = f s.jobs[slot].stash := by
  rw [modStash, modJob, vmod_same]

theorem modTasks_stash (slot : Fin 64) (f : JobTasks → JobTasks) (s : State) (k : Fin 64) :
    (modTasks slot f s).jobs[k].stash = s.jobs[k].stash :=
  modJob_stash slot (f := fun j => { j with tasks := f j.tasks }) (fun _ => rfl) s k

theorem dropLines_stash (slot : Fin 64) (sector : Nat) (s : State) (k : Fin 64) :
    (dropLines slot sector s).jobs[k].stash = s.jobs[k].stash :=
  modTasks_stash slot _ _ k

/-- A job's write leaves the retained entries of every job. -/
theorem jobWrite_stash (slot : Fin 64) (va : Nat) (bs : List Byte) (s : State) (k : Fin 64) :
    (jobWrite slot va bs s).1.jobs[k].stash = s.jobs[k].stash := by
  rw [jobWrite_eq]
  split
  · rfl
  · refine List.foldlRecOn (motive := fun acc : State × MStat => acc.1.jobs[k].stash = s.jobs[k].stash) _ _ ?_ ?_
    · rw [show (countWrites slot va bs.length s).jobs = s.jobs from countWrites_changes slot va bs.length s .jobs (by decide)]
    · intro acc kept c _
      rw [writeChunk, dropLines_stash, writePart_jobs, kept]

/-- The entry at an address after it was put there. -/
theorem setEntry_find (slot : Fin 64) (addr : Nat) (y : REntry) (s : State) :
    (setEntry slot addr (some y) s).jobs[slot].stash.entries.find addr = some y := by
  unfold setEntry
  rw [jobWrite_stash, modStash_same]
  exact AMap.find_put_same _ _ _

/-- An entry that is put in its place leaves in memory what the write of its mirror leaves. -/
theorem setEntry_mem {s t : State} (h : SameStore s t) (slot : Fin 64) (addr now : Nat) (y : REntry) :
    (setEntry slot addr (some y) t).mem = (jobWrite slot addr (leBytes 32 (entryMirror (some y) now)) s).1.mem :=
  ((h.trans (modStash_sameStore slot _ t)).jobWrite slot addr (leBytes 32 (entryMirror (some y) now))).same

theorem dropEntry_find (slot : Fin 64) (addr : Nat) (x : REntry) (s : State) :
    ∃ y, (dropEntry slot addr x s).jobs[slot].stash.entries.find addr = some y ∧ y.st = .absent ∧ y.tiles = [] ∧ y.pages = [] :=
  ⟨_, setEntry_find _ _ _ _, rfl, rfl, rfl⟩

/-! ### STASH_TILE_ARRIVE -/

section
variable (slot : Fin 64) (addr ti tj n : Nat) (raw : Bool) (vals : List (BitVec 32)) (s c : State) (x : REntry) (w : TaskRef) (b : List Block × Cnt)

/-- A tile reaches an entry in WRITING in a state in which it has been counted. -/
theorem doTile_arrives (runs : coresRun s = true) (found : s.jobs[slot].stash.entries.find addr = some x) (open_ : x.st = .writing)
    (writer : x.writer = some w) (home : w.slot = slot) (row : ti < ceilDiv (eRows x.desc) 32) (col : tj < ceilDiv (eCols x.desc) 64)
    (hb : b = tileBlocks x.desc (fun r c =>
      if 32 * ti + r < eRows x.desc ∧ 64 * tj + c < eCols x.desc then f32val (vals.getD (64 * r + c) 0) else .zero false))
    (hc : c = countTask w b.2 s) (size : (n, raw) = arrivedSize x b.1) {t : State}
    (arrives : arriveIn slot addr ti tj b.1 x (n, raw) (placeTile c slot x ti tj n) c = (t, .ok)) :
    doTile slot addr ti tj vals s = t := by
  subst home
  have held : c.jobs[w.slot].stash.entries.find addr = some x := by rw [hc, countTask_stash, found]
  have tile : tileArrive w addr ti tj b.1 c = (t, .ok) := by
    rw [tileArrive_eq, held, arriveAt, open_, writer, if_neg (by simp), ← size, arrives]
  unfold doTile
  dsimp only
  rw [found, Option.map_some, Option.getD_some, runs, if_neg (by simp; omega), ← hb, Option.bind_some, writer]
  dsimp only
  rw [← hc, tile]
  exact if_pos rfl

theorem stashTileArrive_spec (runs : coresRun s = true) (found : s.jobs[slot].stash.entries.find addr = some x) (open_ : x.st = .writing)
    (writer : x.writer = some w) (home : w.slot = slot) (row : ti < ceilDiv (eRows x.desc) 32) (col : tj < ceilDiv (eCols x.desc) 64)
    (hb : b = tileBlocks x.desc (fun r c =>
      if 32 * ti + r < eRows x.desc ∧ 64 * tj + c < eCols x.desc then f32val (vals.getD (64 * r + c) 0) else .zero false))
    (hc : c = countTask w b.2 s) (size : (n, raw) = if x.spill then (entryRaw x.desc, true) else tileBytes x.desc b.1) :
    (placeTile c slot x ti tj n = none → Completes (.stashTileArrive slot addr ti tj vals) s (fun t =>
      ∃ y, t.jobs[slot].stash.entries.find addr = some y ∧ y.st = .absent ∧ y.tiles = [] ∧ y.pages = [])) ∧
    (∀ x' a u, placeTile c slot x ti tj n = some (x', a) →
      storeTileAt slot x' ti tj ⟨a, n, raw⟩ b.1 (if x.gather then c else takeStash slot (x'.pages.length - x.pages.length) c) = (u, .ok) →
      Completes (.stashTileArrive slot addr ti tj vals) s (fun t => ∃ y, t.jobs[slot].stash.entries.find addr = some y ∧
        t.mem = (jobWrite slot addr (leBytes 32 (entryMirror (some y) s.clock.now)) u).1.mem ∧ y.tiles = x'.tiles.put (ti, tj) ⟨a, n, raw⟩ ∧
        y.pages = x'.pages ∧ y.st = if y.tiles.length = entryTiles x.desc then (if x.spill then .spilled else .held) else .writing)) := by
  have arrives {t : State} := doTile_arrives slot addr ti tj n raw vals s c x w b runs found open_ writer home row col hb hc size (t := t)
  refine ⟨fun full => ⟨_, rfl, ?_⟩, fun x' a u placed stored => ⟨_, rfl, ?_⟩⟩
  · rw [arrives (t := dropEntry slot addr x c) (by rw [full]; rfl)]
    exact dropEntry_find _ _ _ _
  · have put : ∃ now, arriveIn slot addr ti tj b.1 x (n, raw) (placeTile c slot x ti tj n) c =
        (setEntry slot addr (some (arrivedEntry ti tj x x' ⟨a, n, raw⟩ now)) (countTile slot raw u), .ok) := by
      refine ⟨(if x.gather then c else takeStash slot (x'.pages.length - x.pages.length) c).clock.now, ?_⟩
      rw [placed, arriveIn]
      dsimp only
      rw [putTile, stored]
    obtain ⟨now, put⟩ := put
    rw [arrives put]
    exact ⟨_, setEntry_find _ _ _ _, setEntry_mem (modStash_sameStore slot _ u) _ _ _ _, rfl, rfl, rfl⟩

end

/-- Settles O48: what each command of the memory controllers, the prefetchers and the retained entries leaves (`memoryRead_spec` to
`stashTileArrive_spec`). -/
theorem memoryIsReadWrittenAndKeptUp : Obligations.MemoryIsReadWrittenAndKeptUp := by
  unfold Obligations.MemoryIsReadWrittenAndKeptUp
  exact ⟨⟨memoryRead_spec, memoryWrite_spec, asAccess_spec⟩, prefetchFetch_spec, patrolScrub_spec, stackRecalibration_spec,
    fun k s power => ⟨migrationStart_spec k s power, granuleMigrate_spec k s power⟩, stashTileArrive_spec⟩

end Sys2Proof.Machine
end

section
/-! SUPPORT. What writes, records and the ends of tasks leave of a job's entries, of its bucket halves and of its watch
(spec/05_tasks_stroke_riggers.md R183 to R212; spec/12_collectives_and_mapping.md R423). -/

namespace Sys2Proof.Machine

/-! ### Jobs of which the dies alone change -/

/-- A job is as it was, but for what it keeps on the dies. -/
def Job.DiesOnly (a b : Job) : Prop := b = { a with tasks := { a.tasks with dies := b.tasks.dies } }

theorem Job.DiesOnly.refl (a : Job) : a.DiesOnly a := rfl

theorem Job.DiesOnly.trans {a b c : Job} (h : a.DiesOnly b) (g : b.DiesOnly c) : a.DiesOnly c := by
  unfold Job.DiesOnly at h g ⊢
  rw [g, h]

theorem Job.DiesOnly.kept {a b : Job} (h : a.DiesOnly b) : b.ctl = a.ctl ∧ b.buckets = a.buckets ∧ b.watch = a.watch ∧ b.upd = a.upd := by
  unfold Job.DiesOnly at h
  rw [h]
  exact ⟨rfl, rfl, rfl, rfl⟩

theorem dropLines_diesOnly (slot : Fin 64) (sector : Nat) (s : State) (i : Fin 64) : (s.jobs[i]).DiesOnly (dropLines slot sector s).jobs[i] := by
  rw [dropLines, modTasks, modJob, vmod_getElem]
  split
  · rfl
  · exact .refl _

/-- A job's write drops reservations of its cores, and leaves everything else of the jobs. -/
theorem jobWrite_diesOnly (slot : Fin 64) (va : Nat) (bs : List Byte) (s : State) (i : Fin 64) :
    (s.jobs[i]).DiesOnly (jobWrite slot va bs s).1.jobs[i] := by
  rw [jobWrite_eq]
  split
  · exact .refl _
  · refine List.foldlRecOn (motive := fun acc : State × MStat => (s.jobs[i]).DiesOnly acc.1.jobs[i]) _ _ ?_ ?_
    · rw [show (countWrites slot va bs.length s).jobs = s.jobs from countWrites_changes slot va bs.length s .jobs (by decide)]
      exact .refl _
    · intro acc kept c _
      refine kept.trans ?_
      have dropped := dropLines_diesOnly slot (c.1 / 64) (writePart (jobTag s slot) ((translate s slot c.1 false true).getD 0)
        ((bs.drop (c.1 - va)).take c.2) acc.1).1 i
      rw [writePart_jobs] at dropped
      exact dropped

/-! ### Entries -/

/-- The run of a matrix task. -/
def Run.isMatrix : Run → Bool
  | .matrix .. => true
  | _ => false

/-- An entry is the same, but that the units of a matrix task may go on otherwise (R102). -/
def Entry.SameStage (a b : Entry) : Prop := b = { a with run := b.run } ∧ (b.run = a.run ∨ (a.run.isMatrix = true ∧ b.run.isMatrix = true))

theorem Entry.SameStage.refl (a : Entry) : a.SameStage a := ⟨rfl, .inl rfl⟩

theorem Entry.SameStage.trans {a b c : Entry} (h : a.SameStage b) (g : b.SameStage c) : a.SameStage c := by
  obtain ⟨rest, run⟩ := h
  obtain ⟨rest', run'⟩ := g
  refine ⟨by rw [rest', rest], ?_⟩
  rcases run' with same' | ⟨matrix, matrix'⟩
  · rw [same']; exact run
  · rcases run with same | ⟨first, _⟩
    · exact .inr ⟨same ▸ matrix, matrix'⟩
    · exact .inr ⟨first, matrix'⟩

theorem Entry.SameStage.kept {a b : Entry} (h : a.SameStage b) : b.st = a.st ∧ b.desc = a.desc ∧ b.reads = a.reads := by
  obtain ⟨rest, _⟩ := h
  rw [rest]
  exact ⟨rfl, rfl, rfl⟩

/-- An entry that is not a matrix task's is the same. -/
theorem Entry.SameStage.eq {a b : Entry} (h : a.SameStage b) (other : a.run.isMatrix = false) : b = a := by
  obtain ⟨rest, same | ⟨matrix, _⟩⟩ := h
  · rw [rest, same]
  · exact absurd (other.symm.trans matrix) Bool.false_ne_true

/-- An entry that does not wait begins no wait. -/
theorem Entry.SameStage.noWait {a b : Entry} (h : a.SameStage b) (none : isWait a.run = false) : isWait b.run = false := by
  obtain ⟨_, same | ⟨_, matrix⟩⟩ := h
  · rw [same]; exact none
  · cases run : b.run with
    | wait n th d => rw [run] at matrix; exact absurd matrix Bool.false_ne_true
    | _ => rfl

theorem failUnstarted_sameStage (e : Entry) : e.SameStage (failUnstarted e) := by
  unfold failUnstarted
  split
  next run => exact ⟨rfl, .inr ⟨by rw [run]; rfl, rfl⟩⟩
  next => exact .refl e

/-- No task of a job waits on a counter. -/
def NoWaits (s : State) (slot : Fin 64) : Prop := ∀ die : Fin 4, ∀ p ∈ (jobDie s slot die).entries, isWait p.2.run = false

theorem isWait_false {r : Run} (h : ∀ n th d, r ≠ .wait n th d) : isWait r = false := by
  cases r with
  | wait n th d => exact absurd rfl (h n th d)
  | _ => rfl

theorem NoWaits.entryOf {s : State} {k : TaskRef} (h : NoWaits s k.slot) : isWait (entryOf s k).run = false := by
  unfold Machine.entryOf entryAt AMap.getD
  cases found : AMap.find (jobDie s k.slot k.die).entries k.index.toNat with
  | none => rfl
  | some e => exact h k.die _ (AMap.mem_of_find found)

/-! ### Operations that leave halves, watches and stages -/

/-- Every bucket half and every watch is the same, and every task is at the same stage. -/
structure StagesKept (s t : State) : Prop where
  buckets : ∀ i : Fin 64, t.jobs[i].buckets = s.jobs[i].buckets
  watch : ∀ i : Fin 64, t.jobs[i].watch = s.jobs[i].watch
  entry : ∀ k : TaskRef, (entryOf s k).SameStage (entryOf t k)
  waits : ∀ i : Fin 64, NoWaits s i → NoWaits t i

theorem StagesKept.trans {s t u : State} (h : StagesKept s t) (g : StagesKept t u) : StagesKept s u :=
  ⟨fun i => (g.buckets i).trans (h.buckets i), fun i => (g.watch i).trans (h.watch i), fun k => (h.entry k).trans (g.entry k),
    fun i none => g.waits i (h.waits i none)⟩

theorem TasksKept.noWaits {s t : State} (h : TasksKept s t) {i : Fin 64} (none : NoWaits s i) : NoWaits t i :=
  fun die => by rw [h i die]; exact none die

theorem StagesKept.of_tasks {s t : State} (tasks : TasksKept s t) (buckets : ∀ i : Fin 64, t.jobs[i].buckets = s.jobs[i].buckets)
    (watch : ∀ i : Fin 64, t.jobs[i].watch = s.jobs[i].watch) : StagesKept s t :=
  ⟨buckets, watch, fun k => by rw [tasks.entryOf k]; exact .refl _, fun _ none => tasks.noWaits none⟩

theorem StagesKept.of_eq {s t : State} (h : t.jobs = s.jobs) : StagesKept s t :=
  .of_tasks (.of_jobs h) (fun i => by rw [h]) (fun i => by rw [h])

theorem StagesKept.refl (s : State) : StagesKept s s := .of_eq rfl

/-- What leaves the jobs leaves their stages. -/
theorem StagesKept.of_changes {l : List Part} {s t : State} (h : Changes l s t) (kept : Part.jobs ∉ l) : StagesKept s t := .of_eq (h .jobs kept)

theorem StagesKept.ite {c : Prop} [Decidable c] {s t u : State} (yes : StagesKept s t) (no : StagesKept s u) :
    StagesKept s (if c then t else u) := by
  split
  · exact yes
  · exact no

theorem StagesKept.forEach {α : Type} (l : List α) (f : α → State → State) (h : ∀ a t, StagesKept t (f a t)) (s : State) :
    StagesKept s (forEach l f s) :=
  forEach_keeps (P := StagesKept s) l f (fun a t ht => ht.trans (h a t)) s (.refl s)

theorem JobsKept.stages {s t : State} (h : JobsKept s t) : StagesKept s t := by
  have kept : ∀ i : Fin 64, t.jobs[i] = { s.jobs[i] with vmt := { s.jobs[i].vmt with txc := t.jobs[i].vmt.txc } } := h
  exact .of_tasks (fun i d => by rw [jobDie, kept i, jobDie]) (fun i => by rw [kept i]) (fun i => by rw [kept i])

section
variable (slot : Fin 64) (die : Fin 4) (s : State)

/-- An update of a field of a job. -/
theorem modJob_field {α : Type} (field : Job → α) {f : Job → Job} (hf : ∀ j, field (f j) = field j) (i : Fin 64) :
    field (modJob slot f s).jobs[i] = field s.jobs[i] := by
  rw [modJob, vmod_getElem]
  split
  · exact hf _
  · rfl

theorem modJob_stages (f : Job → Job) (dies : ∀ (j : Job) (d : Fin 4), ((f j).tasks.dies[d]).entries = j.tasks.dies[d].entries)
    (buckets : ∀ j : Job, (f j).buckets = j.buckets) (watch : ∀ j : Job, (f j).watch = j.watch) : StagesKept s (modJob slot f s) :=
  .of_tasks (modJob_tasks slot dies s) (modJob_field slot s Job.buckets buckets) (modJob_field slot s Job.watch watch)

theorem modCtl_stages (f : JobCtl → JobCtl) : StagesKept s (modCtl slot f s) :=
  modJob_stages slot s (fun j => { j with ctl := f j.ctl }) (fun _ _ => rfl) (fun _ => rfl) (fun _ => rfl)

theorem modVmt_stages (f : JobVmt → JobVmt) : StagesKept s (modVmt slot f s) :=
  modJob_stages slot s (fun j => { j with vmt := f j.vmt }) (fun _ _ => rfl) (fun _ => rfl) (fun _ => rfl)

theorem modStash_stages (f : Stash → Stash) : StagesKept s (modStash slot f s) :=
  modJob_stages slot s (fun j => { j with stash := f j.stash }) (fun _ _ => rfl) (fun _ => rfl) (fun _ => rfl)

theorem modTag_stages (tag : Fin 64) (f : Tag → Tag) : StagesKept s (modTag slot tag f s) :=
  modJob_stages slot s (fun j => { j with tasks := { j.tasks with tags := vmod j.tasks.tags tag f } }) (fun _ _ => rfl) (fun _ => rfl)
    (fun _ => rfl)

theorem modDie_stages (f : JobDie → JobDie) (h : ∀ d : JobDie, (f d).entries = d.entries) : StagesKept s (modDie slot die f s) := by
  refine modJob_stages slot s (fun j => { j with tasks := { j.tasks with dies := vmod j.tasks.dies die f } }) (fun j d => ?_) (fun _ => rfl)
    (fun _ => rfl)
  dsimp only
  rw [vmod_getElem]
  split
  · exact h _
  · rfl

end

/-! ### An entry's update -/

theorem noWaits_modEntry {t : TaskRef} {f : Entry → Entry} {s : State} {i : Fin 64} (h : NoWaits s i)
    (new : i = t.slot → isWait (f (entryOf s t)).run = false) : NoWaits (modEntry t f s) i := fun die p hp => by
  by_cases own : i = t.slot
  · rcases mem_entries_modEntry hp with put | old
    · rw [put]; exact new own
    · exact h die p old
  · rw [jobDie, show (modEntry t f s).jobs[i] = s.jobs[i] from modDie_other _ _ _ own] at hp
    exact h die p hp

theorem modEntry_stages (t : TaskRef) (f : Entry → Entry) (s : State) (h : (entryOf s t).SameStage (f (entryOf s t))) :
    StagesKept s (modEntry t f s) where
  buckets := modJob_field t.slot s Job.buckets (fun _ => rfl)
  watch := modJob_field t.slot s Job.watch (fun _ => rfl)
  entry k := by
    by_cases same : k = t
    · rw [same, entryOf_modEntry]; exact h
    · rw [entryOf_modEntry_other f s same]; exact .refl _
  waits i none := noWaits_modEntry none (fun own => h.noWait (NoWaits.entryOf (own ▸ none)))

/-! ### Records and memory -/

section
variable (slot : Fin 64) (die : Fin 4) (s : State)

theorem setJob_stages (st : JobState) : StagesKept s (setJob slot st s) :=
  (modCtl_stages slot s (fun c => { c with st := st, since := s.clock.now })).trans (.of_changes (setJob_after slot s st) (by decide))

theorem trace_stages (sc : Option (Fin 64)) (cls kind payload : Nat) : StagesKept s (trace sc die cls kind payload s) := by
  unfold trace
  refine .ite ?_ (.refl s)
  unfold queueTrace setStream
  split
  · exact modCtl_stages _ _ _
  · exact .of_eq rfl

theorem jobWrite_stages (va : Nat) (bs : List Byte) : StagesKept s (jobWrite slot va bs s).1 := by
  have kept : ∀ i : Fin 64, (jobWrite slot va bs s).1.jobs[i].buckets = s.jobs[i].buckets ∧ (jobWrite slot va bs s).1.jobs[i].watch = s.jobs[i].watch :=
    fun i => by
      obtain ⟨_, buckets, watch, _⟩ := (jobWrite_diesOnly slot va bs s i).kept
      exact ⟨buckets, watch⟩
  exact .of_tasks ((jobWrite_writes slot va bs).tasks s) (fun i => (kept i).1) (fun i => (kept i).2)

theorem event_stages (r : EvRec) : StagesKept s (event slot die r s) := by
  have dropped : ∀ t, StagesKept t (dropEvent slot die t) := fun t => modDie_stages _ _ _ _ (fun _ => rfl)
  have fired : ∀ t, StagesKept t (fireQueue slot die t) := fun t => by
    unfold fireQueue
    split
    · exact (modDie_stages _ _ _ _ (by exact fun _ => rfl)).trans (.of_changes (fireVector_changes _ _ _) (by decide))
    · exact .refl t
  unfold event
  dsimp only
  split
  · exact .refl s
  · split
    · exact dropped s
    · split
      · exact ((jobWrite_stages _ _ _ _).trans (modDie_stages _ _ _ _ (by exact fun _ => rfl))).trans (fired _)
      · exact (jobWrite_stages _ _ _ _).trans (dropped _)

/-! ### Retained entries -/

theorem setEntry_stages (addr : Nat) (e : Option REntry) : StagesKept s (setEntry slot addr e s) :=
  (modStash_stages slot s _).trans (jobWrite_stages _ _ _ _)

theorem dropEntry_stages (addr : Nat) (e : REntry) : StagesKept s (dropEntry slot addr e s) := by
  unfold dropEntry
  dsimp only
  split
  · exact (modStash_stages slot s _).trans (setEntry_stages _ _ _ _)
  · exact ((modStash_stages slot s _).trans (modStash_stages _ _ _)).trans (setEntry_stages _ _ _ _)

theorem writerEnds_stages (t : TaskRef) : StagesKept s (writerEnds t s) :=
  StagesKept.forEach _ _ (fun _ u => .ite (dropEntry_stages _ u _ _) (modStash_stages _ u _)) s

/-! ### Units -/

theorem addUse_stages (since : Nat) : StagesKept s (addUse slot die since s) := modDie_stages _ _ _ _ (fun _ => rfl)

theorem unbindEngine_stages (e : Fin 68) : StagesKept s (unbindEngine e s) := by
  unfold unbindEngine
  split
  · exact .refl s
  · exact (addUse_stages _ _ s _).trans (.of_eq rfl)

theorem unbindVe_stages (v : Fin 64) : StagesKept s (unbindVe v s) := by
  unfold unbindVe
  split
  · exact .refl s
  · exact (addUse_stages _ _ s _).trans (.of_eq rfl)

theorem freeVe_stages (v : Fin 64) : StagesKept s (freeVe v s) := by
  unfold freeVe
  split <;> exact .of_eq rfl

theorem freeRig_stages (r : Fin 64) : StagesKept s (freeRig r s) := by
  unfold freeRig
  split
  · exact .refl s
  · exact (addUse_stages _ _ s _).trans (.of_eq rfl)

theorem endBound_stages (t : TaskRef) (e : Fin 68) : StagesKept s (endBound t e s) := by
  unfold endBound
  refine .ite (.refl s) ?_
  split
  · exact .of_eq rfl
  · exact unbindEngine_stages _ _

theorem splitMark_stages : StagesKept s (splitMark die s) :=
  StagesKept.forEach _ _ (fun _ u => StagesKept.forEach _ _ (fun _ v => modEntry_stages _ _ v (failUnstarted_sameStage _)) u) s

theorem setEngine_stages (e : Fin 68) (logical : Byte) (st : BitVec 4) : StagesKept s (setEngine e logical st s) := by
  have logged : StagesKept s (logEvent 0x05 none e.val (s.engines[e].st.toNat + st.toNat <<< 4)
      (modEngine e (fun k => { k with logical := logical, st := st }) s)) :=
    (StagesKept.of_changes (modEngine_changes e _ s) (by decide)).trans (.of_changes (logEvent_changes _ _ _ _ _) (by decide))
  unfold setEngine
  dsimp only
  split
  · exact logged
  · exact logged.trans (.of_changes (recordEngine_changes _ _ _ _) (by decide))

theorem fenceIdle_stages (e : Fin 68) : StagesKept s (fenceIdle e s) := by
  have fenced := ((unbindEngine_stages s e).trans (.of_changes (modEngine_changes e (fun k => { k with fence := false }) _) (by decide))).trans
    (setEngine_stages _ e 0xFF meFENCED)
  have noted : ∀ v, StagesKept s (raiseCause pf0 1 (logError 0x04 none e.val v (setEngine e 0xFF meFENCED
      (modEngine e (fun k => { k with fence := false }) (unbindEngine e s))))) :=
    fun v => (fenced.trans (.of_changes (logError_changes _ _ _ _ _) (by decide))).trans (.of_changes (raiseCause_changes _ _ _) (by decide))
  unfold fenceIdle
  dsimp only
  cases spareOf s (engineDie e) with
  | none => exact (noted _).trans (splitMark_stages _ _)
  | some k => exact ((noted _).trans (.of_changes (modEngine_changes k _ _) (by decide))).trans (setEngine_stages _ _ _ _)

theorem dropUnits_stages (p : MatUnit → Bool) (e : Fin 68) : StagesKept s (dropUnits p e s) := by
  have returned : ∀ us, StagesKept s (modPower (Power.giveBack (.matrix e)) (modEngine e (fun k => { k with units := us }) s)) :=
    fun _ => .of_eq rfl
  unfold dropUnits
  dsimp only
  split
  · exact .refl s
  · split
    · exact .of_eq rfl
    · split
      · exact (returned _).trans (fenceIdle_stages _ _)
      · exact returned _

theorem returnStreams_stages (t : TaskRef) : StagesKept s (returnStreams t s) := by
  refine StagesKept.forEach _ _ (fun k u => ?_) s
  split
  · exact .ite (.of_changes (endStream_streams _ _ _).changes (by decide)) (.refl u)
  · exact .refl u

theorem freeUnits_stages (t : TaskRef) : StagesKept s (freeUnits t s) := by
  have begun : StagesKept s (returnStreams t (detachRequests t { s with claims := s.claims.filter (fun c => !(c.task == t)) })) :=
    (StagesKept.of_eq (s := s) (t := { s with claims := s.claims.filter (fun c => !(c.task == t)) }) rfl).trans
      ((modVmt_stages _ _ _).trans (returnStreams_stages _ _))
  have dropped := begun.trans (.forEach (List.finRange 68) _ (fun e u => dropUnits_stages u (fun k => k.task == t) e) _)
  have vesFreed := dropped.trans (.forEach (List.finRange 64) (fun v st => if (st.ves[v].inst.map (·.task)) = some t then freeVe v st else st)
    (fun v u => .ite (freeVe_stages u v) (.refl u)) _)
  have unbound := vesFreed.trans (.forEach (List.finRange 68) _ (fun e u => endBound_stages u t e) _)
  have vesUnbound := unbound.trans (.forEach (List.finRange 64) (fun v st => if st.ves[v].bound = some t then unbindVe v st else st)
    (fun v u => .ite (unbindVe_stages u v) (.refl u)) _)
  have rigsFreed := vesUnbound.trans (.forEach (List.finRange 64) (fun r st => if st.rigs[r].task = some t then freeRig r st else st)
    (fun r u => .ite (freeRig_stages u r) (.refl u)) _)
  exact rigsFreed.trans (modDie_stages _ _ _ _ (fun _ => rfl))

/-! ### What follows the end of a task -/

theorem serveTime_stages : StagesKept s (serveTime slot die s) := modDie_stages _ _ _ _ (fun _ => rfl)

theorem writeBack_stages (t : TaskRef) : StagesKept s (writeBack t s) := by
  unfold writeBack
  split
  · exact modDie_stages _ _ _ _ (fun _ => rfl)
  · exact .refl s

theorem pauseCheck_stages : StagesKept s (pauseCheck slot s) := by
  unfold pauseCheck
  exact .ite ((setJob_stages _ _ _).trans (finishAll_jobsKept _ _ _).stages) (.refl s)

end

end Sys2Proof.Machine
end

section
/-! SUPPORT. Halves of buckets (spec/12_collectives_and_mapping.md R421 to R425): what an INIT and a CLOSE put, what the close of a half
leaves, and a job in which no task waits as it settles. -/

namespace Sys2Proof

/-- The one key of a map takes another value. -/
theorem AMap.put_single {κ α : Type} [DecidableEq κ] (k : κ) (v w : α) : AMap.put [(k, v)] k w = [(k, w)] := by
  simp [AMap.put]

theorem AMap.find_single {κ α : Type} [DecidableEq κ] (k : κ) (v : α) : AMap.find [(k, v)] k = some v := by
  simp [AMap.find]

theorem AMap.find_single_other {κ α : Type} [DecidableEq κ] {k k' : κ} (v : α) (h : k ≠ k') : AMap.find [(k, v)] k' = none := by
  simp [AMap.find, h]

end Sys2Proof

namespace Sys2Proof.Machine

/-! ### Jobs in which no task waits -/

/-- No task of a job waits on a counter, its watch closes no record, and no verdict of it drops. -/
structure Waitless (s : State) (slot : Fin 64) : Prop where
  waits : NoWaits s slot
  closing : s.jobs[slot].watch.st ≠ .closing
  dropping : s.jobs[slot].watch.dropping = false

section
variable {s t : State} {slot : Fin 64}

theorem Calm.waitless (h : Calm s slot) : Waitless s slot := by
  obtain ⟨waits, _, closing, dropping⟩ := h
  exact ⟨fun die p hp => isWait_false (waits die p hp), closing, dropping⟩

theorem Waitless.of_stages (h : Waitless s slot) (kept : StagesKept s t) : Waitless t slot := by
  obtain ⟨waits, closing, dropping⟩ := h
  rw [← kept.watch slot] at closing dropping
  exact ⟨kept.waits slot waits, closing, dropping⟩

theorem Waitless.modEntry (h : Waitless s slot) (k : TaskRef) {f : Entry → Entry} (new : isWait (f (entryOf s k)).run = false) :
    Waitless (modEntry k f s) slot := by
  have watch : (Machine.modEntry k f s).jobs[slot].watch = s.jobs[slot].watch := modJob_field k.slot s Job.watch (by exact fun _ => rfl) slot
  obtain ⟨waits, closing, dropping⟩ := h
  rw [← watch] at closing dropping
  exact ⟨noWaits_modEntry waits (fun _ => new), closing, dropping⟩

theorem modEntry_buckets (k : TaskRef) (f : Entry → Entry) (s : State) (i : Fin 64) : (modEntry k f s).jobs[i].buckets = s.jobs[i].buckets :=
  modJob_field k.slot s Job.buckets (by exact fun _ => rfl) i

theorem NoWaits.readyWait (h : NoWaits s slot) : readyWait s slot = none := by
  have running : ∀ die : Fin 4, ∀ p ∈ (jobDie s slot die).entries, waitEnd s slot p.2.run = none := fun die p hp => by
    have none := h die p hp
    cases run : p.2.run with
    | wait n th d => rw [run] at none; exact absurd none.symm Bool.false_ne_true
    | _ => rfl
  unfold Machine.readyWait
  rw [List.head?_eq_none_iff, List.flatMap_eq_nil_iff]
  intro die _
  rw [List.filterMap_eq_nil_iff]
  intro p hp
  rw [running die p hp]
  exact ite_self _

theorem Waitless.settled (h : Waitless s slot) (halves : fullHalf s slot = none) : Settled s slot := ⟨h.waits.readyWait, halves, h.closing, h.dropping⟩

theorem Waitless.watchCheck (h : Waitless s slot) : watchCheck slot s = s := by
  unfold Machine.watchCheck
  exact if_neg (fun closes => h.closing (eq_of_beq (Bool.and_eq_true_iff.mp closes).1))

theorem Waitless.settleDrops (h : Waitless s slot) (n : Nat) : settleDrops slot n s = s := by
  cases n with
  | zero => rfl
  | succ n =>
    unfold Machine.settleDrops
    exact if_neg (fun drops => Bool.false_ne_true (h.dropping.symm.trans drops.2))

end

/-! ### Halves that are put -/

section
variable (slot : Fin 64) (f : AMap (Nat × Bool) BucketHalf → AMap (Nat × Bool) BucketHalf)

theorem modBuckets_tasks (s : State) : TasksKept s (modBuckets slot f s) :=
  modJob_tasks slot (f := fun j => { j with buckets := f j.buckets }) (fun _ _ => rfl) s

theorem modBuckets_watch (s : State) (i : Fin 64) : (modBuckets slot f s).jobs[i].watch = s.jobs[i].watch :=
  modJob_field slot s Job.watch (f := fun j => { j with buckets := f j.buckets }) (fun _ => rfl) i

theorem modBuckets_same (s : State) : (modBuckets slot f s).jobs[slot].buckets = f s.jobs[slot].buckets :=
  congrArg Job.buckets (vmod_same s.jobs slot _)

theorem Waitless.modBuckets {s : State} {i : Fin 64} (h : Waitless s i) : Waitless (modBuckets slot f s) i := by
  obtain ⟨waits, closing, dropping⟩ := h
  rw [← modBuckets_watch slot f s i] at closing dropping
  exact ⟨(modBuckets_tasks slot f s).noWaits waits, closing, dropping⟩

/-- The same half put into two states of the same stages. -/
theorem StagesKept.modBuckets {s t : State} (h : StagesKept s t) : StagesKept (modBuckets slot f s) (modBuckets slot f t) where
  buckets i := by
    unfold Machine.modBuckets
    rw [modJob, vmod_getElem, modJob, vmod_getElem]
    split
    · exact congrArg f (h.buckets i)
    · exact h.buckets i
  watch i := by rw [modBuckets_watch, modBuckets_watch, h.watch]
  entry k := by rw [(modBuckets_tasks slot f s).entryOf, (modBuckets_tasks slot f t).entryOf]; exact h.entry k
  waits i none := (modBuckets_tasks slot f t).noWaits
    (h.waits i (fun die => by rw [← modBuckets_tasks slot f s i die]; exact none die))

end

/-- The half that an INIT opens (R423). -/
def openedHalf (t : TaskRef) (d : Nat) (s : State) : BucketHalf :=
  { buf := kBuf (bucketAt s t.slot (cDesc d)).1 (halfOf (cStep d)), die := t.die, closer := none, deadline := none }

/-- Beside memory and a record, an INIT puts the half. -/
theorem initApply_stages (t : TaskRef) (d : Nat) (s : State) :
    StagesKept (modBuckets t.slot (fun m => m.put (cDesc d, halfOf (cStep d)) (openedHalf t d s)) s) (initApply t d s) := by
  unfold initApply
  dsimp only
  refine StagesKept.trans (.modBuckets _ _ ?_) (trace_stages _ _ _ _ _ _)
  refine StagesKept.trans (.trans (.ite ?_ ?_) (jobWrite_stages _ _ _ _)) (jobWrite_stages _ _ _ _)
  · exact (jobWrite_stages _ _ _ _).trans (jobWrite_stages _ _ _ _)
  · exact jobWrite_stages _ _ _ _

/-- A half to which a CLOSE came (R425). -/
def closingHalf (t : TaskRef) (k : Nat) (b : BucketHalf) (s : State) : BucketHalf :=
  { b with closer := some t, deadline := if kDeadline k = 0 then none else some (s.clock.now + usTicks (kDeadline k)) }

/-- Beside memory and a record, a CLOSE puts its run and the half. -/
theorem closeOpen_stages (t : TaskRef) (addr k : Nat) (h : Bool) (b : BucketHalf) (s : State) :
    StagesKept (modBuckets t.slot (fun m => m.put (addr, h) (closingHalf t k b s)) (setColl t 0 [] s)) (closeOpen t addr k h b s) :=
  (StagesKept.modBuckets _ _ (jobWrite_stages _ _ _ _)).trans (trace_stages _ _ _ _ _ _)

/-- A half that has closed: no CLOSE waits for it, and it has no deadline (R423). -/
def BucketHalf.closed (b : BucketHalf) : BucketHalf := { b with closer := none, deadline := none }

/-- Beside memory and a record, the close of a half puts the closed half; then the CLOSE that waits for it completes. -/
theorem closeHalf_stages {slot : Fin 64} {addr : Nat} {h : Bool} {b : BucketHalf} {s : State} (how : Nat)
    (found : s.jobs[slot].buckets.find (addr, h) = some b) :
    ∃ v, StagesKept (modBuckets slot (fun m => m.put (addr, h) b.closed) s) v ∧
      closeHalf slot addr h how s = match b.closer with
        | some t => completeCore t true v
        | none => v := by
  unfold closeHalf
  rw [found]
  exact ⟨_, (StagesKept.modBuckets _ _ ((jobWrite_stages _ _ _ _).trans (jobWrite_stages _ _ _ _))).trans (trace_stages _ _ _ _ _ _), rfl⟩

/-! ### A half without a CLOSE -/

/-- A job in which no task waits, with one bucket half, for which no CLOSE waits: every task is at the same stage as before, and the half is
the same or has lost its deadline. -/
structure StaysFree (slot : Fin 64) (k : Nat × Bool) (b : BucketHalf) (s t : State) : Prop where
  waitless : Waitless t slot
  entry : ∀ r : TaskRef, (entryOf s r).SameStage (entryOf t r)
  half : ∃ b', t.jobs[slot].buckets = [(k, b')] ∧ b'.closer = none ∧ (b' = b ∨ b' = b.closed)

section
variable {slot : Fin 64} {k : Nat × Bool} {b : BucketHalf} {s t : State}

theorem StaysFree.refl (waitless : Waitless s slot) (one : s.jobs[slot].buckets = [(k, b)]) (free : b.closer = none) : StaysFree slot k b s s :=
  ⟨waitless, fun _ => .refl _, b, one, free, .inl rfl⟩

theorem StaysFree.of_stages {u : State} (h : StaysFree slot k b s t) (kept : StagesKept t u) : StaysFree slot k b s u := by
  obtain ⟨waitless, entry, b', one, rest⟩ := h
  exact ⟨waitless.of_stages kept, fun r => (entry r).trans (kept.entry r), b', (kept.buckets slot).trans one, rest⟩

/-- The close of a half for which no CLOSE waits. -/
theorem StaysFree.closeHalf (h : StaysFree slot k b s t) (addr : Nat) (side : Bool) (how : Nat) :
    StaysFree slot k b s (closeHalf slot addr side how t) := by
  obtain ⟨waitless, entry, b', one, free, same⟩ := h
  by_cases here : k = (addr, side)
  · subst here
    obtain ⟨v, kept, closed⟩ := closeHalf_stages how (show t.jobs[slot].buckets.find (addr, side) = some b' by rw [one, AMap.find_single])
    rw [closed, free]
    refine StaysFree.of_stages (t := modBuckets slot (fun m => m.put (addr, side) b'.closed) t) ⟨waitless.modBuckets _ _, fun r => ?_, b'.closed, ?_,
      rfl, .inr ?_⟩ kept
    · rw [(modBuckets_tasks slot _ t).entryOf]; exact entry r
    · rw [modBuckets_same, one, AMap.put_single]
    · rcases same with rfl | rfl <;> rfl
  · have none : t.jobs[slot].buckets.find (addr, side) = none := by rw [one, AMap.find_single_other _ here]
    have idle : Machine.closeHalf slot addr side how t = t := by unfold Machine.closeHalf; rw [none]
    rw [idle]
    exact ⟨waitless, entry, b', one, free, same⟩

theorem StaysFree.settleWaits (fuel : Nat) (h : StaysFree slot k b s t) : StaysFree slot k b s (settleWaits slot fuel t) := by
  induction fuel generalizing t with
  | zero => exact h
  | succ n ih =>
    unfold Machine.settleWaits
    rw [h.waitless.waits.readyWait]
    dsimp only
    split
    · exact ih (h.closeHalf _ _ _)
    · exact h

theorem holdCheck_stages (s : State) : StagesKept s (holdCheck s) := (holdCheck_jobsKept s).stages

/-- A job in which no task waits settles, with one half for which no CLOSE waits. -/
theorem StaysFree.settle (h : StaysFree slot k b s t) : StaysFree slot k b s (settle slot t) := by
  have waited := h.settleWaits (waitFuel t slot)
  unfold Machine.settle
  dsimp only
  split
  · rw [waited.waitless.watchCheck, waited.waitless.settleDrops]
    exact waited.of_stages (holdCheck_stages _)
  · exact h.of_stages (holdCheck_stages _)

theorem BucketHalf.closed_eq (free : b.closer = none) (timeless : b.deadline = none) : b.closed = b := by
  unfold BucketHalf.closed
  rw [← free, ← timeless]

/-- A half without a deadline stays the same. -/
theorem StaysFree.buckets (h : StaysFree slot k b s t) (free : b.closer = none) (timeless : b.deadline = none) :
    t.jobs[slot].buckets = [(k, b)] := by
  obtain ⟨_, _, b', one, _, rfl | rfl⟩ := h
  · exact one
  · rw [one, BucketHalf.closed_eq free timeless]

end

end Sys2Proof.Machine
end

section
/-! SUPPORT. INIT, CLOSE and the deadline of a half (spec/12_collectives_and_mapping.md R421 to R425): what the completion and the fault of
a CLOSE leave, and what the three commands leave of the half and of their tasks. -/

namespace Sys2Proof.Machine

/-! ### Ends of tasks -/

section
variable (t : TaskRef) (s : State)

/-- The entry of a task that ended in fault (R209). -/
def Entry.faultEnded (e : Entry) : Entry := { e with st := .faulted, run := .idle, caps := [], reads := [] }

/-- Beside what it frees and records, the fault of a task puts its entry. -/
theorem endFaulted_stages (cause : Nat) (status : BitVec 8) (detail : Nat) :
    ∃ u, StagesKept s u ∧ StagesKept (modEntry t Entry.faultEnded u) (endFaulted t cause status detail s) := by
  refine ⟨_, (freeUnits_stages s t).trans (writerEnds_stages _ t), ?_⟩
  exact (((serveTime_stages _ _ _).trans (event_stages _ _ _ _)).trans (trace_stages _ _ _ _ _ _)).trans
    (.of_changes (pmuCount_changes _ _ _ _ _ _) (by decide))

theorem actInline_none {slot : Fin 64} {d : Nat} (ks : List Nat) (h : ∀ k ∈ ks, succKind (dSucc d k) = 0) (s : State) :
    actInline slot d ks s = (s, none) := by
  induction ks with
  | nil => rfl
  | cons k rest ih =>
    have first : actSucc slot k (dSucc d k) s = (s, none) := by
      unfold actSucc
      rw [h k List.mem_cons_self]
      rfl
    unfold actInline
    rw [first]
    exact ih (fun j hj => h j (List.mem_cons_of_mem _ hj))

theorem actAll_none {slot : Fin 64} {d : Nat} (h : NoSuccessors d) (s : State) : actAll slot d s = (s, none) := by
  obtain ⟨inline, overflow⟩ := h
  unfold actAll
  rw [actInline_none _ (fun k hk => inline k (List.mem_range.mp hk)), overflow]
  rfl

/-- The entry of a task that completed (R186). -/
def Entry.freed (e : Entry) : Entry := { e with st := .free 0, run := .idle, desc := 0, watchRec := none, caps := [], reads := [] }

theorem endEntry_stages (d : Nat) : StagesKept (modEntry t Entry.freed s) (endEntry t d s) := by
  have freed : StagesKept (modEntry t Entry.freed s) (serveTime t.slot t.die (leaveTag t.slot d (modEntry t Entry.freed s))) :=
    (modTag_stages _ _ _ _).trans (serveTime_stages _ _ _)
  unfold endEntry
  dsimp only
  split
  · exact ((freed.trans (event_stages _ _ _ _)).trans (trace_stages _ _ _ _ _ _)).trans (pauseCheck_stages _ _)
  · exact (freed.trans (trace_stages _ _ _ _ _ _)).trans (pauseCheck_stages _ _)

/-- Beside what it frees and records, the completion of a task without successors that reads no retained entry puts its entry. -/
theorem completeCore_stages (succ : NoSuccessors (entryOf s t).desc) (reads : (entryOf s t).reads = []) :
    ∃ u, StagesKept s u ∧ StagesKept (modEntry t Entry.freed u) (completeCore t true s) := by
  have ended : endTaskWork t true s = writerEnds t (freeUnits t (writeBack t s)) := by
    unfold endTaskWork
    simp only [reads, forEach, List.foldl_nil, ite_self]
  rw [completeCore_eq, actAll_none succ, ended]
  exact ⟨_, ((writeBack_stages s t).trans (freeUnits_stages _ t)).trans (writerEnds_stages _ t), endEntry_stages _ _ _⟩

end

/-! ### Entries that an update put -/

section
variable {t : TaskRef} {f : Entry → Entry} {s u v : State} {slot : Fin 64}

/-- A task whose entry is put between operations that leave stages: its stage is that of the put entry. -/
theorem entry_of_put (after : StagesKept (modEntry t f u) v) : (f (entryOf u t)).SameStage (entryOf v t) := by
  have stage := after.entry t
  rwa [entryOf_modEntry] at stage

/-- The rest of the job after an entry that does not wait was put. -/
theorem waitless_of_put (h : Waitless s slot) (before : StagesKept s u) (after : StagesKept (modEntry t f u) v)
    (new : isWait (f (entryOf u t)).run = false) : Waitless v slot :=
  ((h.of_stages before).modEntry t new).of_stages after

theorem buckets_of_put (before : StagesKept s u) (after : StagesKept (modEntry t f u) v) :
    v.jobs[slot].buckets = s.jobs[slot].buckets := by
  rw [after.buckets, modEntry_buckets, before.buckets]

end

/-! ### INIT -/

section
variable (t0 : TaskRef) (s : State) (d : Nat)

theorem setColl_run (stage : Nat) (aux : List Nat) : (entryOf (setColl t0 stage aux s) t0).run = .coll Track.new stage aux := by
  rw [setColl, entryOf_modEntry]

/-- An entry of which the run is a collective step's keeps it where stages are kept. -/
theorem Entry.SameStage.coll {a b : Entry} (h : a.SameStage b) {k : Track} {stage : Nat} {aux : List Nat} (run : a.run = .coll k stage aux) :
    b.run = .coll k stage aux := by
  rw [h.eq (by rw [run]; rfl), run]

theorem Waitless.setColl {s : State} {slot : Fin 64} (h : Waitless s slot) (stage : Nat) (aux : List Nat) :
    Waitless (setColl t0 stage aux s) slot :=
  h.modEntry t0 (f := fun e => { e with run := .coll Track.new stage aux }) rfl

theorem collDone_mem : (collDone t0 s).mem = s.mem := rfl

theorem doInit_eq (start : collStart s t0 1 = some d) (checked : initCheck s t0.slot d = none) :
    doInit t0 s = settle t0.slot (collDone t0 (initApply t0 d s)) := by
  unfold doInit
  rw [start]
  dsimp only
  rw [checked]

theorem collInit_opens (start : collStart s t0 1 = some d) (checked : initCheck s t0.slot d = none) (calm : Calm s t0.slot) :
    Completes (.collInit t0) s (fun t => (entryOf t t0).run = .coll Track.new 1 [] ∧
      t.jobs[t0.slot].buckets.find (cDesc d, halfOf (cStep d)) =
        some { buf := kBuf (bucketAt s t0.slot (cDesc d)).1 (halfOf (cStep d)), die := t0.die, closer := none, deadline := none } ∧
      (fullHalf (collDone t0 (initApply t0 d s)) t0.slot = none → t.mem = (initApply t0 d s).mem)) := by
  have put := initApply_stages t0 d s
  have waitless : Waitless (collDone t0 (initApply t0 d s)) t0.slot :=
    ((calm.waitless.modBuckets _ _).of_stages put).setColl t0 1 []
  have one : (collDone t0 (initApply t0 d s)).jobs[t0.slot].buckets = [((cDesc d, halfOf (cStep d)), openedHalf t0 d s)] := by
    obtain ⟨_, none, _⟩ := calm
    rw [collDone, setColl, modEntry_buckets, put.buckets, modBuckets_same, none]
    rfl
  have stays := (StaysFree.refl waitless one rfl).settle
  refine ⟨_, congrArg Host.Outcome.next (doInit_eq t0 s d start checked), ?_⟩
  refine ⟨(stays.entry t0).coll (setColl_run t0 _ 1 []), ?_, fun halves => ?_⟩
  · rw [stays.buckets rfl rfl, AMap.find_single]
    rfl
  · obtain ⟨_, mem, _⟩ := (waitless.settled halves).settle
    exact mem.trans (collDone_mem t0 _)

/-! ### CLOSE -/

/-- A CLOSE comes to an OPEN half. -/
theorem doClose_open {k : Nat} {b : BucketHalf} (start : collStart s t0 4 = some d) (bucket : bucketAt s t0.slot (cDesc d) = (k, .ok))
    (opened : kState k (halfOf (cStep d)) = 1) (found : s.jobs[t0.slot].buckets.find (cDesc d, halfOf (cStep d)) = some b) :
    doClose t0 s = closeWaits t0.slot (closeOpen t0 (cDesc d) k (halfOf (cStep d)) b s) := by
  unfold doClose
  rw [start]
  dsimp only
  rw [bucket, if_neg (not_not_intro rfl), opened, found]
  rfl

/-- A CLOSE comes to a half that has closed. -/
theorem doClose_closed {k : Nat} (start : collStart s t0 4 = some d) (bucket : bucketAt s t0.slot (cDesc d) = (k, .ok))
    (closed : kState k (halfOf (cStep d)) = 3) : doClose t0 s = collDone t0 s := by
  unfold doClose
  rw [start]
  dsimp only
  rw [bucket, if_neg (not_not_intro rfl), closed]
  rfl

/-! ### A CLOSE that waits (R425) -/

theorem holdCheck_sameWaits : SameWaits s (holdCheck s) := by
  unfold holdCheck
  split
  · exact (SameWaits.of_changes (hold_changes s) (by decide)).trans (finishAll_sameWaits _ _ _)
  · exact ⟨fun _ => .refl _, rfl, rfl, rfl, .of_eq rfl⟩

theorem jobWrite_jobSt (slot i : Fin 64) (va : Nat) (bs : List Byte) : jobSt (jobWrite slot va bs s).1 i = jobSt s i := by
  obtain ⟨ctl, _⟩ := (jobWrite_diesOnly slot va bs s i).kept
  exact congrArg JobCtl.st ctl

theorem trace_jobSt (slot i : Fin 64) (die : Fin 4) (cls kind payload : Nat) : jobSt (trace (some slot) die cls kind payload s) i = jobSt s i := by
  unfold trace
  split
  · exact modJob_field slot s (fun j => j.ctl.st) (by exact fun _ => rfl) i
  · rfl

theorem modBuckets_jobSt (slot i : Fin 64) (f : AMap (Nat × Bool) BucketHalf → AMap (Nat × Bool) BucketHalf) :
    jobSt (modBuckets slot f s) i = jobSt s i :=
  modJob_field slot s (fun j => j.ctl.st) (f := fun j => { j with buckets := f j.buckets }) (fun _ => rfl) i

theorem closeOpen_jobSt (addr k : Nat) (h : Bool) (b : BucketHalf) (i : Fin 64) : jobSt (closeOpen t0 addr k h b s) i = jobSt s i := by
  unfold closeOpen
  dsimp only
  rw [traceBucket, trace_jobSt, modBuckets_jobSt, putBucketStatus, jobWrite_jobSt]
  exact congrArg JobCtl.st (ctl_modEntry t0 _ s i)

/-- The one CLOSE that waits for a half whose count is not reached ends in fault with TIMEOUT. -/
theorem faultClosers_one {slot : Fin 64} {k : Nat × Bool} {b : BucketHalf} (one : s.jobs[slot].buckets = [(k, b)]) (closer : b.closer = some t0)
    (short : halfFull s slot k = false) :
    faultClosers slot s = endFaulted t0 0x04 stTIMEOUT 0 (modBuckets slot (fun m => m.put k { b with closer := none }) s) := by
  have notFull : (if halfFull s slot k then none else b.closer) = some t0 := by rw [short, closer]; rfl
  unfold faultClosers
  rw [one]
  simp only [forEach, List.foldl_cons, List.foldl_nil]
  rw [notFull]
  rfl

theorem fullHalf_one {slot : Fin 64} {k : Nat × Bool} {b : BucketHalf} (one : s.jobs[slot].buckets = [(k, b)]) (none : fullHalf s slot = none) :
    halfFull s slot k = false := by
  unfold fullHalf at none
  rw [one] at none
  simpa using none

/-- A CLOSE of an OPEN half waits while its job runs; in a job that drains it ends in fault. -/
theorem closeWaits_spec {w : State} {k : Nat × Bool} {b : BucketHalf} (waitless : Waitless w t0.slot) (one : w.jobs[t0.slot].buckets = [(k, b)])
    (closer : b.closer = some t0) (run : (entryOf w t0).run = .coll Track.new 0 []) (halves : fullHalf w t0.slot = none) :
    (jobSt w t0.slot = .running → (entryOf (closeWaits t0.slot w) t0).run = .coll Track.new 0 [] ∧
      (closeWaits t0.slot w).jobs[t0.slot].buckets = [(k, b)]) ∧
    (jobSt w t0.slot ≠ .running → (entryOf (closeWaits t0.slot w) t0).st = .faulted) := by
  have held := holdCheck_stages w
  have st := (holdCheck_jobsKept w).jobSt t0.slot
  have one' : (holdCheck w).jobs[t0.slot].buckets = [(k, b)] := (held.buckets t0.slot).trans one
  unfold closeWaits
  dsimp only
  rw [(waitless.settled halves).settle_eq, st]
  refine ⟨fun running => ?_, fun left => ?_⟩
  · rw [if_pos running]
    exact ⟨(held.entry t0).coll run, one'⟩
  · have short := fullHalf_one _ one' ((holdCheck_sameWaits w).fullHalf t0.slot |>.trans halves)
    rw [if_neg left, faultClosers_one t0 _ one' closer short]
    obtain ⟨u, before, after⟩ := endFaulted_stages t0 (modBuckets t0.slot (fun m => m.put k { b with closer := none }) (holdCheck w)) 0x04 stTIMEOUT 0
    have ended := ((waitless_of_put ((waitless.of_stages held).modBuckets _ _) before after rfl).of_stages (pauseCheck_stages t0.slot _))
    have half : (pauseCheck t0.slot (endFaulted t0 0x04 stTIMEOUT 0 (modBuckets t0.slot (fun m => m.put k { b with closer := none })
        (holdCheck w)))).jobs[t0.slot].buckets = [(k, { b with closer := none })] := by
      rw [(pauseCheck_stages _ _).buckets, buckets_of_put before after, modBuckets_same, one', AMap.put_single]
    have stage := ((entry_of_put after).trans ((pauseCheck_stages t0.slot _).entry t0)).trans ((StaysFree.refl ended half rfl).settle.entry t0)
    exact stage.kept.1

theorem collClose_waits {k : Nat} {b : BucketHalf} (start : collStart s t0 4 = some d) (bucket : bucketAt s t0.slot (cDesc d) = (k, .ok))
    (opened : kState k (halfOf (cStep d)) = 1) (one : s.jobs[t0.slot].buckets = [((cDesc d, halfOf (cStep d)), b)]) (waitless : Waitless s t0.slot)
    (halves : fullHalf (closeOpen t0 (cDesc d) k (halfOf (cStep d)) b s) t0.slot = none) :
    (jobSt s t0.slot = .running → Completes (.collClose t0) s (fun t => (entryOf t t0).run = .coll Track.new 0 [] ∧
      t.jobs[t0.slot].buckets = [((cDesc d, halfOf (cStep d)), BucketHalf.mk b.buf b.die (some t0)
        (if kDeadline k = 0 then none else some (s.clock.now + usTicks (kDeadline k))))])) ∧
    (jobSt s t0.slot = .draining → Completes (.collClose t0) s (fun t => (entryOf t t0).st = .faulted)) := by
  have put := closeOpen_stages t0 (cDesc d) k (halfOf (cStep d)) b s
  have half : (closeOpen t0 (cDesc d) k (halfOf (cStep d)) b s).jobs[t0.slot].buckets = [((cDesc d, halfOf (cStep d)), closingHalf t0 k b s)] := by
    rw [put.buckets, modBuckets_same, setColl, modEntry_buckets, one, AMap.put_single]
  have run : (entryOf (closeOpen t0 (cDesc d) k (halfOf (cStep d)) b s) t0).run = .coll Track.new 0 [] := by
    refine (put.entry t0).coll ?_
    rw [(modBuckets_tasks _ _ _).entryOf, setColl_run]
  obtain ⟨waits, faults⟩ := closeWaits_spec t0 (((waitless.setColl t0 0 []).modBuckets _ _).of_stages put) half rfl run halves
  rw [closeOpen_jobSt] at waits faults
  have eq := doClose_open t0 s d start bucket opened (by rw [one, AMap.find_single])
  refine ⟨fun running => ⟨_, congrArg Host.Outcome.next eq, waits running⟩, fun drains => ⟨_, congrArg Host.Outcome.next eq, faults ?_⟩⟩
  rw [drains]
  decide

theorem collClose_done {k : Nat} (start : collStart s t0 4 = some d) (bucket : bucketAt s t0.slot (cDesc d) = (k, .ok))
    (closed : kState k (halfOf (cStep d)) = 3) :
    Completes (.collClose t0) s (fun t => (entryOf t t0).run = .coll Track.new 1 [] ∧ t.mem = s.mem) :=
  ⟨_, congrArg Host.Outcome.next (doClose_closed t0 s d start bucket closed), setColl_run t0 s 1 [], rfl⟩

/-! ### The deadline of a half -/

theorem bucketDeadline_closes (slot : Fin 64) (addr : Nat) (h : Bool) (b : BucketHalf) (one : s.jobs[slot].buckets = [((addr, h), b)])
    (closing : kState (bucketAt s slot addr).1 h = 2) (timed : b.deadline.isSome = true) (applies : depsApply (jobSt s slot) = true)
    (waitless : Waitless s slot)
    (closer : ∀ t0, b.closer = some t0 → t0.slot = slot ∧ NoSuccessors (entryOf s t0).desc ∧ (entryOf s t0).reads = []) :
    Completes (.bucketDeadline slot addr h) s (fun t => t.jobs[slot].buckets = [((addr, h), { b with closer := none, deadline := none })] ∧
      ∀ t0, b.closer = some t0 → (entryOf t t0).st = .free 0) := by
  have found : s.jobs[slot].buckets.find (addr, h) = some b := by rw [one, AMap.find_single]
  have eq : doDeadline slot addr h s = settle slot (closeHalf slot addr h (if halfFull s slot (addr, h) then 1 else 2) s) := by
    unfold doDeadline
    rw [found]
    dsimp only
    rw [closing, timed, applies]
    rfl
  refine ⟨_, congrArg Host.Outcome.next eq, ?_⟩
  obtain ⟨v, put, closed⟩ := closeHalf_stages (if halfFull s slot (addr, h) then 1 else 2) found
  have waitless' : Waitless v slot := (waitless.modBuckets _ _).of_stages put
  have half : v.jobs[slot].buckets = [((addr, h), b.closed)] := by rw [put.buckets, modBuckets_same, one, AMap.put_single]
  rw [closed]
  cases waits : b.closer with
  | none => exact ⟨(StaysFree.refl waitless' half rfl).settle.buckets rfl rfl, fun t0 h => nomatch h⟩
  | some t0 =>
    obtain ⟨rfl, succ, reads⟩ := closer t0 waits
    have stage : (entryOf s t0).SameStage (entryOf v t0) := by
      have stage := put.entry t0
      rwa [(modBuckets_tasks _ _ _).entryOf] at stage
    obtain ⟨_, desc, reads'⟩ := stage.kept
    obtain ⟨u, before, after⟩ := completeCore_stages t0 v (desc ▸ succ) (reads'.trans reads)
    have ended : (completeCore t0 true v).jobs[t0.slot].buckets = [((addr, h), b.closed)] := (buckets_of_put before after).trans half
    have stays := (StaysFree.refl (waitless_of_put waitless' before after rfl) ended rfl).settle
    refine ⟨stays.buckets rfl rfl, fun t1 same => ?_⟩
    obtain rfl := Option.some.inj same
    obtain ⟨st, _⟩ := ((entry_of_put after).trans (stays.entry t0)).kept
    exact st

end

end Sys2Proof.Machine
end

section
/-! SUPPORT. Segments of an UPDATE (spec/09_update_in_stack.md R319 to R330): what their writes leave of claims and counts, and what a start and
an update of a sub-tile leave; the starts of UPDATE and PERMUTE (spec/12_collectives_and_mapping.md R444); and the obligation about
segments and halves of buckets. -/

namespace Sys2Proof.Machine

/-! ### Operations that leave claims and counts of updates -/

/-- The claims of segments and every job's counts of its updates are the same. -/
structure UpdKept (s t : State) : Prop where
  claims : t.claims = s.claims
  upd : ∀ i : Fin 64, t.jobs[i].upd = s.jobs[i].upd

theorem UpdKept.of_jobs {s t : State} (jobs : t.jobs = s.jobs) (claims : t.claims = s.claims) : UpdKept s t :=
  ⟨claims, fun i => by rw [jobs]⟩

theorem UpdKept.refl (s : State) : UpdKept s s := .of_jobs rfl rfl

theorem UpdKept.trans {s t u : State} (h : UpdKept s t) (g : UpdKept t u) : UpdKept s u :=
  ⟨g.claims.trans h.claims, fun i => (g.upd i).trans (h.upd i)⟩

theorem UpdKept.of_changes {l : List Part} {s t : State} (h : Changes l s t) (kept : Part.jobs ∉ l ∧ Part.claims ∉ l) : UpdKept s t :=
  .of_jobs (h .jobs kept.1) (h .claims kept.2)

theorem modJob_updKept (slot : Fin 64) (s : State) (f : Job → Job) (upd : ∀ j, (f j).upd = j.upd) : UpdKept s (modJob slot f s) :=
  ⟨rfl, modJob_field slot s Job.upd upd⟩

theorem modEntry_updKept (t : TaskRef) (f : Entry → Entry) (s : State) : UpdKept s (modEntry t f s) :=
  modJob_updKept t.slot s _ (by exact fun _ => rfl)

theorem trace_updKept (sc : Option (Fin 64)) (die : Fin 4) (cls kind payload : Nat) (s : State) : UpdKept s (trace sc die cls kind payload s) := by
  unfold trace queueTrace setStream
  split
  · split
    · exact modJob_updKept _ s _ (by exact fun _ => rfl)
    · exact .of_jobs rfl rfl
  · exact .refl s

theorem countTask_updKept (t : TaskRef) (c : Cnt) (s : State) : UpdKept s (countTask t c s) := by
  obtain ⟨q, counted⟩ := countTask_pmu t c s
  rw [counted]
  split
  · exact .of_jobs rfl rfl
  · exact ((modJob_updKept t.slot s (fun j => { j with ctl := { j.ctl with counts := j.ctl.counts.add c } }) (fun _ => rfl)).trans
      (modJob_updKept t.slot _ (fun j => { j with watch := j.watch.count (entryOf s t).watchRec c }) (fun _ => rfl))).trans (.of_jobs rfl rfl)

theorem jobWrite_updKept (slot : Fin 64) (va : Nat) (bs : List Byte) (s : State) : UpdKept s (jobWrite slot va bs s).1 where
  claims := jobWrite_changes slot va bs s .claims (by decide)
  upd i := by
    obtain ⟨_, _, _, upd⟩ := (jobWrite_diesOnly slot va bs s i).kept
    exact upd

theorem jobRmw_updKept (slot : Fin 64) (va n : Nat) (f : Nat → Nat) (s : State) : UpdKept s (jobRmw slot va n f s).2.2 := by
  cases m : mapped s slot va n true true with
  | false => rw [jobRmw_unmapped f m]; exact .refl s
  | true =>
    by_cases ok : (peek s slot va n).st = .ok
    · rw [jobRmw_ok f m ok]; exact jobWrite_updKept _ _ _ _
    · rw [jobRmw_fails f m ok]; exact .of_changes (jobRead_changes _ _ _ _) (by decide)

/-! ### Writes of a sub-tile -/

/-- A loop of writes over a state and what they came to leaves claims and counts where its body does. -/
theorem foldl_updKept {α ι : Type} (l : List ι) {step : State × α → ι → State × α} (h : ∀ acc i, UpdKept acc.1 (step acc i).1)
    (s : State) (a : α) : UpdKept s (l.foldl step (s, a)).1 :=
  List.foldlRecOn (motive := fun acc : State × α => UpdKept s acc.1) l step (.refl s) (fun acc kept i _ => kept.trans (h acc i))

theorem putBits_updKept (slot : Fin 64) (a : Arr) (piece r c v : Nat) (s : State) : UpdKept s (putBits slot a piece r c v s).1 := by
  unfold putBits
  dsimp only
  split
  · exact jobRmw_updKept _ _ _ _ _
  · exact jobWrite_updKept _ _ _ _

theorem writeAll_updKept {α : Type} (l : List α) {f : α → State → State × MStat} (h : ∀ x s, UpdKept s (f x s).1) (s : State) :
    UpdKept s (writeAll l f s).1 := by
  unfold writeAll
  refine foldl_updKept l (fun acc x => ?_) s MStat.ok
  exact h x acc.1

theorem putBlockIn_updKept (slot : Fin 64) (a : Arr) (inside : Nat × Nat → Bool) (piece i b : Nat) (blk : Block) (s : State) :
    UpdKept s (putBlockIn slot a inside piece i b blk s).1 := by
  have elems : ∀ l, UpdKept s (writeAll l (fun (p : Nat × Int) st =>
      putBits slot a piece (a.cell i b p.1).1 (a.cell i b p.1).2 (ofSigned (fmtBits a.fmt) p.2) st) s).1 :=
    fun l => writeAll_updKept l (fun _ u => putBits_updKept _ _ _ _ _ _ u) s
  unfold putBlockIn
  dsimp only
  split
  · exact (elems _).trans (jobWrite_updKept _ _ _ _)
  · exact elems _

theorem putVals_updKept (slot : Fin 64) (a : Arr) (i b : Nat) (xs : List Val) (s : State) : UpdKept s (putVals slot a i b xs s).1 := by
  unfold putVals putValsIn
  split
  · exact putBlockIn_updKept _ _ _ _ _ _ _ _
  · exact writeAll_updKept _ (fun (p : Nat × List Int) u => putBlockIn_updKept slot a _ p.1 i b ⟨_, p.2⟩ u) s

theorem writeRow_updKept (slot : Fin 64) (d q g r : Nat) (x : RowStep) (s : State) : UpdKept s (writeRow slot d q g r x s).1 := by
  have masters := fun bs bs' => (jobWrite_updKept slot (masterAt d q r 0) bs s).trans
    (jobWrite_updKept slot (gRem d + 1024 * q + 32 * r) bs' _)
  unfold writeRow
  dsimp only
  split
  · exact ((masters _ _).trans (jobWrite_updKept _ _ _ _)).trans (jobWrite_updKept _ _ _ _)
  · exact masters _ _

/-- The blocks of a sub-tile in one working copy, line by line of the copy (R326). -/
def writeLines (slot : Fin 64) (a : Arr) (first limit b : Nat) (xs : Nat → List Val) (acc : State × MStat × Cnt) : State × MStat × Cnt :=
  (List.range 32).foldl (fun acc i =>
    if first + i < limit then
      let w := putVals slot a (first + i) b (xs i) acc.1
      (w.1, acc.2.1.and w.2.1, acc.2.2.add w.2.2)
    else acc) acc

theorem writeCopies_eq (slot : Fin 64) (cs : Arr × Arr) (d q : Nat) (rows : List RowStep) (s : State) :
    writeCopies slot cs d q rows s =
      let r0 := gRow0 d + 32 * (q / 4)
      let c0 := gCol0 d + 32 * (q % 4)
      let acc : State × MStat × Cnt := (s, .ok, Cnt.none)
      let acc := if gCopyPlain d then
          writeLines slot cs.1 c0 cs.1.cols (r0 / 32) (fun c => (List.range 32).map (fun r => copyVal d q rows r c)) acc
        else acc
      if gCopyTrans d then
        writeLines slot cs.2 r0 cs.2.rows (c0 / 32) (fun r => (List.range 32).map (fun c => copyVal d q rows r c)) acc
      else acc := rfl

theorem writeLines_updKept (slot : Fin 64) (a : Arr) (first limit b : Nat) (xs : Nat → List Val) (acc : State × MStat × Cnt) :
    UpdKept acc.1 (writeLines slot a first limit b xs acc).1 := by
  unfold writeLines
  refine foldl_updKept _ (fun acc i => ?_) acc.1 acc.2
  dsimp only
  split
  · exact putVals_updKept _ _ _ _ _ _
  · exact .refl _

theorem writeCopies_updKept (slot : Fin 64) (cs : Arr × Arr) (d q : Nat) (rows : List RowStep) (s : State) :
    UpdKept s (writeCopies slot cs d q rows s).1 := by
  rw [writeCopies_eq]
  dsimp only
  split
  · refine UpdKept.trans ?_ (writeLines_updKept _ _ _ _ _ _ _)
    split
    · exact writeLines_updKept slot cs.1 _ _ _ _ (s, .ok, Cnt.none)
    · exact .refl s
  · split
    · exact writeLines_updKept slot cs.1 _ _ _ _ (s, .ok, Cnt.none)
    · exact .refl s

/-- The updated rows of a sub-tile in masters, remainders and momentum (R325). -/
def writeRows (slot : Fin 64) (d q g : Nat) (rows : List RowStep) (s : State) : State × MStat :=
  (List.zip (List.range 32) rows).foldl (fun acc x =>
    let r := writeRow slot d q g x.1 x.2 acc.1
    (r.1, acc.2.and r.2)) (s, .ok)

theorem writeRows_updKept (slot : Fin 64) (d q g : Nat) (rows : List RowStep) (s : State) : UpdKept s (writeRows slot d q g rows s).1 := by
  unfold writeRows
  refine foldl_updKept _ (fun acc x => ?_) s MStat.ok
  exact writeRow_updKept _ _ _ _ _ _ acc.1

theorem stepTile_state (slot : Fin 64) (cs : Arr × Arr) (b d q g : Nat) (s : State) :
    (stepTile slot cs b d q g s).s =
      (writeCopies slot cs d q ((List.range 32).map (updateRow s slot b d q g))
        (writeRows slot d q g ((List.range 32).map (updateRow s slot b d q g)) s).1).1 := rfl

/-- The writes of an updated sub-tile leave claims and counts. -/
theorem stepTile_updKept (slot : Fin 64) (cs : Arr × Arr) (b d q g : Nat) (s : State) : UpdKept s (stepTile slot cs b d q g s).s := by
  rw [stepTile_state]
  exact (writeRows_updKept _ _ _ _ _ _).trans (writeCopies_updKept _ _ _ _ _ _)

/-! ### The run of an UPDATE -/

/-- A collective step goes on where tasks keep their entries and the power mode stays. -/
theorem collRun_of_tasks {s t : State} (tasks : TasksKept s t) (power : t.power = s.power) (rst : t.rst = s.rst) (k : TaskRef) :
    collRun t k = collRun s k := by
  unfold collRun inP0P1
  rw [tasks.entryOf k, power, rst]

theorem modUpd_tasks (slot : Fin 64) (f : UpdCounts → UpdCounts) (s : State) : TasksKept s (modUpd slot f s) :=
  modJob_tasks slot (f := fun j => { j with upd := f j.upd }) (fun _ _ => rfl) s

theorem modUpd_same (slot : Fin 64) (f : UpdCounts → UpdCounts) (s : State) : (modUpd slot f s).jobs[slot].upd = f s.jobs[slot].upd :=
  congrArg Job.upd (vmod_same s.jobs slot _)

theorem trace_tasks (sc : Option (Fin 64)) (die : Fin 4) (cls kind payload : Nat) (s : State) : TasksKept s (trace sc die cls kind payload s) := by
  unfold trace queueTrace setStream
  split
  · split
    · exact modCtl_tasks _ _ s
    · exact .of_jobs rfl
  · exact .refl s

/-- A collective step runs: its entry's stage and data, in P0 or P1. -/
theorem collRun_some {s : State} {k : TaskRef} {st : Nat} {aux : List Nat} :
    collRun s k = some (st, aux) ↔
      (entryOf s k).st = .running ∧ (∃ q, (entryOf s k).run = .coll q st aux) ∧ (dOpcode (entryOf s k).desc == 5 && inP0P1 s) = true := by
  unfold collRun
  dsimp only
  split
  next q st' aux' running run =>
    rw [running, run]
    split
    next on =>
      refine ⟨fun h => ?_, ?_⟩
      · obtain ⟨rfl, rfl⟩ := Prod.mk.inj (Option.some.inj h)
        exact ⟨rfl, ⟨q, rfl⟩, on⟩
      · rintro ⟨_, ⟨_, same⟩, _⟩
        obtain ⟨_, rfl, rfl⟩ := Run.coll.inj same
        rfl
    next off => exact ⟨fun h => (nomatch h), fun ⟨_, _, on⟩ => absurd on off⟩
  next other =>
    exact ⟨fun h => (nomatch h), fun ⟨running, ⟨q, run⟩, _⟩ => absurd run (other q st aux running)⟩

/-- The run of a collective step after its stage and its data changed. -/
theorem collRun_modColl {s : State} {k : TaskRef} {st : Nat} {aux : List Nat} (run : collRun s k = some (st, aux))
    (f : Nat → List Nat → Nat × List Nat) : collRun (modColl k f s) k = some (f st aux) := by
  obtain ⟨running, ⟨q, stage⟩, on⟩ := collRun_some.mp run
  refine collRun_some.mpr ?_
  rw [modColl, entryOf_modEntry]
  exact ⟨running, ⟨q, by rw [stage]⟩, on⟩

/-- The trace record of an UPDATE that has ended is all that it adds. -/
theorem updEnd_kept (t : TaskRef) (s : State) : collRun (updEnd t s) t = collRun s t ∧ UpdKept s (updEnd t s) ∧
    entryOf (updEnd t s) t = entryOf s t := by
  have traced : ∀ payload, collRun (trace (some t.slot) t.die 2 0x29 payload s) t = collRun s t := fun payload =>
    collRun_of_tasks (trace_tasks _ _ _ _ _ s) (trace_changes _ _ _ _ _ s .power (by decide)) (trace_changes _ _ _ _ _ s .rst (by decide)) t
  unfold updEnd
  split
  · exact ⟨rfl, .refl s, rfl⟩
  · split
    · exact ⟨traced _, trace_updKept _ _ _ _ _ s, (trace_tasks _ _ _ _ _ s).entryOf t⟩
    · exact ⟨rfl, .refl s, rfl⟩

/-! ### SEGMENT_START (R327, R328, R330) -/

section
variable {slot : Fin 64} {die : Fin 4} {k : BitVec 16} {s : State} {seg : Nat} {aux : List Nat} {d h : Nat}

/-- A segment that passes its checks, and whose header no other task has claimed, is acted on by its tag. -/
theorem doSegment_tag {t : TaskRef} (run : collRun s t = some (seg, aux)) (update : cOp (entryOf s t).desc = 5) (left : seg < uCount (updDesc s t))
    (room : dieSegs s t.die < 64) (claims : s.claims.length < 256) (found : segAt s t seg = (d, .ok))
    (checked : segCheck s t.slot (uBase (updDesc s t) + 64 * seg) d (updGroup s t (gGroup d)) = none)
    (mine : ∀ c ∈ s.claims, c.slot = t.slot → c.header = gHdr d → c.task = t) : doSegment t s = segTag t seg d s := by
  have starts : ¬ (decide (cOp (entryOf s t).desc ≠ 5) || decide (uCount (updDesc s t) ≤ seg) ||
      decide (64 ≤ dieSegs s t.die ∨ 256 ≤ s.claims.length)) = true := by
    simp [update]
    omega
  have unclaimed : ¬ (s.claims.any (fun c => c.slot == t.slot && c.header == gHdr d && c.task != t)) = true := by
    simp only [List.any_eq_true, Bool.and_eq_true, beq_iff_eq, bne_iff_ne, not_exists, not_and, and_imp, not_not]
    exact fun c hc own header => mine c hc own header
  unfold doSegment
  rw [run]
  dsimp only
  rw [if_neg starts, found, if_neg (not_not_intro rfl), checked]
  exact if_neg unclaimed

/-- What a task captures of a segment that it starts: its descriptor and those of its working copies (R86, R326). -/
def segCaps (s : State) (t : TaskRef) (seg d : Nat) (e : Entry) : Entry :=
  let plain := (readDesc s t.slot (gPlain d) 32).1
  let trans := (readDesc s t.slot (gTrans d) 32).1
  { e with caps := ((e.caps.put (uBase (updDesc s t) + 64 * seg) d).put (copyKey seg false) plain).put (copyKey seg true) trans }

/-- Done sub-tiles of a segment are counted as skipped (R329). -/
def countSkipped (slot : Fin 64) (d h : Nat) (s : State) : State :=
  modUpd slot (fun u => { u with subtilesSkipped := satInc u.subtilesSkipped ((realTiles d).filter (fun q => bitAt (hDone h) q)).length }) s

/-- A claim is added (R330). -/
def addClaim (c : Claim) (s : State) : State := { s with claims := s.claims ++ [c] }

/-- A segment of which a sub-tile is left is claimed. -/
theorem segClaim_eq (t : TaskRef) (s : State) (part : ((realTiles d).filter (fun q => bitAt (hDone h) q)).length ≠ (realTiles d).length) :
    segClaim t seg d h s = modColl t (fun st aux => (st + 1, aux ++ [seg, 1, 0, 0]))
      (addClaim ⟨t.slot, gHdr d, t⟩ (modEntry t (segCaps (countSkipped t.slot d h s) t seg d) (countSkipped t.slot d h s))) := by
  unfold segClaim
  exact if_neg part

theorem addClaim_upd (c : Claim) (s : State) (i : Fin 64) : (addClaim c s).jobs[i].upd = s.jobs[i].upd := rfl

theorem claimed_spec (t : TaskRef) (run : collRun s t = some (seg, aux))
    (part : ((realTiles d).filter (fun q => bitAt (hDone h) q)).length ≠ (realTiles d).length) :
    (segClaim t seg d h s).claims = s.claims ++ [⟨t.slot, gHdr d, t⟩] ∧
    collRun (segClaim t seg d h s) t = some (seg + 1, aux ++ [seg, 1, 0, 0]) ∧ (segClaim t seg d h s).mem = s.mem ∧
    (segClaim t seg d h s).jobs[t.slot].upd.subtilesSkipped =
      satInc s.jobs[t.slot].upd.subtilesSkipped ((realTiles d).filter (fun q => bitAt (hDone h) q)).length := by
  rw [segClaim_eq t s part]
  refine ⟨modEntry_changes t _ _ .claims (by decide), ?_, modEntry_changes t _ _ .mem (by decide), ?_⟩
  · refine collRun_modColl (collRun_some.mpr ?_) _
    obtain ⟨running, stage, on⟩ := collRun_some.mp run
    have entry : ∀ u, entryOf (addClaim ⟨t.slot, gHdr d, t⟩ (modEntry t (segCaps u t seg d) (countSkipped t.slot d h s))) t =
        segCaps u t seg d (entryOf s t) := fun u =>
      (entryOf_modEntry t _ _).trans (congrArg _ ((modUpd_tasks _ _ _).entryOf t))
    rw [entry]
    exact ⟨running, stage, on⟩
  · rw [modColl, (modEntry_updKept t _ _).upd, addClaim_upd, (modEntry_updKept t _ _).upd, countSkipped, modUpd_same]

/-- A segment with the tag of the UPDATE's step (R328). -/
theorem segTag_starts {t : TaskRef} (header : jobNat s t.slot (gHdr d) 64 = (h, .ok)) (tag : hTag h = uStep (updDesc s t))
    (buffer : segBuffer s t d = none) : segTag t seg d s = segClaim t seg d h s := by
  unfold segTag
  dsimp only
  rw [header, if_neg (not_not_intro rfl), if_pos tag, buffer]

/-- A segment with the tag of the step after it. -/
theorem segTag_skips {t : TaskRef} (header : jobNat s t.slot (gHdr d) 64 = (h, .ok)) (tag : hTag h ≠ uStep (updDesc s t))
    (next : hTag h = (uStep (updDesc s t) + 1) % 2 ^ 64) :
    segTag t seg d s =
      updEnd t (modColl t (fun st aux => (st + 1, aux)) (modUpd t.slot (fun u => { u with segsSkipped := satInc u.segsSkipped 1 }) s)) := by
  unfold segTag
  dsimp only
  rw [header, if_neg (not_not_intro rfl), if_neg tag, if_pos next]

theorem skipped_spec {t : TaskRef} (run : collRun s t = some (seg, aux)) {v : State}
    (skips : v = updEnd t (modColl t (fun st aux => (st + 1, aux)) (modUpd t.slot (fun u => { u with segsSkipped := satInc u.segsSkipped 1 }) s))) :
    v.claims = s.claims ∧ collRun v t = some (seg + 1, aux) ∧ v.jobs[t.slot].upd.segsSkipped = satInc s.jobs[t.slot].upd.segsSkipped 1 := by
  obtain ⟨run', kept, _⟩ := updEnd_kept t
    (modColl t (fun st aux => (st + 1, aux)) (modUpd t.slot (fun u => { u with segsSkipped := satInc u.segsSkipped 1 }) s))
  subst skips
  refine ⟨kept.claims, ?_, ?_⟩
  · rw [run']
    refine collRun_modColl ?_ _
    rw [collRun_of_tasks (modUpd_tasks _ _ s) rfl rfl, run]
  · rw [kept.upd, modColl, (modEntry_updKept t _ _).upd, modUpd_same]

theorem segmentStart_acts (run : collRun s ⟨slot, die, k⟩ = some (seg, aux)) (update : cOp (entryOf s ⟨slot, die, k⟩).desc = 5)
    (left : seg < uCount (updDesc s ⟨slot, die, k⟩)) (room : dieSegs s die < 64) (claims : s.claims.length < 256)
    (found : segAt s ⟨slot, die, k⟩ seg = (d, .ok))
    (checked : segCheck s slot (uBase (updDesc s ⟨slot, die, k⟩) + 64 * seg) d (updGroup s ⟨slot, die, k⟩ (gGroup d)) = none)
    (mine : ∀ c ∈ s.claims, c.slot = slot → c.header = gHdr d → c.task = ⟨slot, die, k⟩) (header : jobNat s slot (gHdr d) 64 = (h, .ok)) :
    (hTag h = uStep (updDesc s ⟨slot, die, k⟩) → segBuffer s ⟨slot, die, k⟩ d = none →
      ((realTiles d).filter (fun q => bitAt (hDone h) q)).length ≠ (realTiles d).length →
      Completes (.segmentStart slot die k) s (fun t => t.claims = s.claims ++ [⟨slot, gHdr d, ⟨slot, die, k⟩⟩] ∧
        collRun t ⟨slot, die, k⟩ = some (seg + 1, aux ++ [seg, 1, 0, 0]) ∧ t.mem = s.mem ∧
        t.jobs[slot].upd.subtilesSkipped = satInc s.jobs[slot].upd.subtilesSkipped ((realTiles d).filter (fun q => bitAt (hDone h) q)).length)) ∧
    (hTag h ≠ uStep (updDesc s ⟨slot, die, k⟩) → hTag h = (uStep (updDesc s ⟨slot, die, k⟩) + 1) % 2 ^ 64 →
      Completes (.segmentStart slot die k) s (fun t => t.claims = s.claims ∧ collRun t ⟨slot, die, k⟩ = some (seg + 1, aux) ∧
        t.jobs[slot].upd.segsSkipped = satInc s.jobs[slot].upd.segsSkipped 1)) := by
  have acts := doSegment_tag run update left room claims found checked mine
  refine ⟨fun tag buffer part => ?_, fun tag next => ?_⟩
  · exact ⟨_, congrArg Host.Outcome.next (acts.trans (segTag_starts header tag buffer)), claimed_spec ⟨slot, die, k⟩ run part⟩
  · exact ⟨_, congrArg Host.Outcome.next (acts.trans (segTag_skips header tag next)), skipped_spec run rfl⟩

end

/-! ### SUBTILE_UPDATE (R325, R329) -/

theorem peek_modUpd (slot : Fin 64) (f : UpdCounts → UpdCounts) (s : State) (i : Fin 64) (va len : Nat) :
    peek (modUpd slot f s) i va len = peek s i va len :=
  SameReads.peek (t := modUpd slot f s)
    ⟨fun i => modJob_field slot s Job.ctl (f := fun j => { j with upd := f j.upd }) (fun _ => rfl) i, .refl _, rfl, rfl, rfl⟩ i va len

theorem peek_withPmu (p : Vector PmuCtr 32) (s : State) (i : Fin 64) (va len : Nat) : peek (withPmu p s) i va len = peek s i va len :=
  SameReads.peek (t := withPmu p s) ⟨fun _ => rfl, .refl _, rfl, rfl, rfl⟩ i va len

/-- What conversions come to plays no part in a job's reads. -/
theorem peek_countTask (t : TaskRef) (c : Cnt) (s : State) (i : Fin 64) (va len : Nat) : peek (countTask t c s) i va len = peek s i va len := by
  have counted : SameWaits s (modCtl t.slot (fun k => { k with counts := k.counts.add c }) s) := by
    refine ⟨fun i => ?_, rfl, rfl, rfl, .of_eq rfl⟩
    rw [modCtl, modJob, vmod_getElem]
    split
    · exact ⟨rfl, rfl, rfl, rfl, rfl, rfl⟩
    · exact .refl _
  have watched : ∀ f u, peek (modWatch t.slot f u) i va len = peek u i va len := fun f u =>
    SameReads.peek (t := modWatch t.slot f u)
      ⟨fun i => modJob_field t.slot u Job.ctl (f := fun j => { j with watch := f j.watch }) (fun _ => rfl) i, .refl _, rfl, rfl, rfl⟩ i va len
  obtain ⟨q, eq⟩ := countTask_pmu t c s
  rw [eq, peek_withPmu]
  split
  · rfl
  · rw [countedJob, watched, counted.peek]

/-- The counts of an updated sub-tile, after the write of its done bit. -/
def tileNoted (t : TaskRef) (d q k : Nat) (x : TileStep) (s : State) : State :=
  let s := modUpd t.slot (fun u => { u with
    mastersNonfinite := satInc u.mastersNonfinite x.nonf, mastersClipped := satInc u.mastersClipped x.clipped
    gradNonfinite := satInc u.gradNonfinite x.gradNonf }) s
  let s := countTask t x.cnt s
  let s := pmuCount (dieOfStack (stackOfVa s t.slot (gMaster d + 4096 * q))) (some t.slot) 0x072 0 1 s
  modColl t (fun st aux => (st, (aux.set (4 * k + 2) (aux.getD (4 * k + 2) 0 + x.clipped)).set (4 * k + 3) (aux.getD (4 * k + 3) 0 + x.nonf))) s

section
variable (t : TaskRef) (seg d q k : Nat) (x : TileStep) (u : State)

theorem tileNoted_peek (i : Fin 64) (va len : Nat) : peek (tileNoted t d q k x u) i va len = peek u i va len := by
  have counted : ∀ die w, peek (pmuCount die (some t.slot) 0x072 0 1 w) i va len = peek w i va len := fun die w => by
    obtain ⟨p, eq⟩ := pmuCount_pmu die (some t.slot) 0x072 0 1 w
    rw [eq, peek_withPmu]
  unfold tileNoted
  dsimp only
  rw [modColl, (modEntry_reads t _ _).peek, counted, peek_countTask, peek_modUpd]

theorem tileNoted_changes : Changes [.jobs, .clock] u (tileNoted t d q k x u) := by
  unfold tileNoted
  dsimp only
  exact ((((modJob_changes t.slot _ u).mono (by decide)).trans (countTask_changes _ _ _)).trans
    ((pmuCount_changes _ _ _ _ _ _).mono (by decide))).trans ((modEntry_changes t _ _).mono (by decide))

theorem tileNoted_upd : (tileNoted t d q k x u).jobs[t.slot].upd = { u.jobs[t.slot].upd with
    mastersNonfinite := satInc u.jobs[t.slot].upd.mastersNonfinite x.nonf
    mastersClipped := satInc u.jobs[t.slot].upd.mastersClipped x.clipped
    gradNonfinite := satInc u.jobs[t.slot].upd.gradNonfinite x.gradNonf } := by
  have counted : ∀ die w, UpdKept w (pmuCount die (some t.slot) 0x072 0 1 w) := fun die w =>
    .of_changes (pmuCount_changes _ _ _ _ _ _) (by decide)
  unfold tileNoted
  dsimp only
  rw [modColl, (modEntry_updKept t _ _).upd, (counted _ _).upd, (countTask_updKept t _ _).upd, modUpd_same]

/-- A sub-tile that is not the last of its segment: its done bit is written, and its counts are kept. -/
theorem tileDone_eq (written : jobWrite t.slot (gHdr d) (leBytes 64 (setFld (setFld (jobNat x.s t.slot (gHdr d) 64).1 (304 + q) (304 + q) 1) 511 448
      x.s.clock.now)) x.s = (u, .ok)) (more : (realTiles d).all (fun q => bitAt (hDone (jobNat u t.slot (gHdr d) 64).1) q) = false) :
    tileDone t seg d q k x = tileNoted t d q k x u := by
  have same : jobNat (tileNoted t d q k x u) t.slot (gHdr d) 64 = jobNat u t.slot (gHdr d) 64 := by
    rw [jobNat, jobNat, tileNoted_peek]
  have unfinished : ¬ (realTiles d).all (fun r => bitAt (hDone (jobNat (tileNoted t d q k x u) t.slot (gHdr d) 64).1) r) = true := by
    rw [same, more]
    exact Bool.false_ne_true
  unfold tileDone
  dsimp only
  rw [written, if_neg (not_not_intro rfl)]
  exact if_neg unfinished

end

theorem doSubtile_eq {t : TaskRef} {s : State} {st seg q i d : Nat} {aux : List Nat} (run : collRun s t = some (st, aux))
    (update : cOp (entryOf s t).desc = 5) (found : sgFind aux seg = some i) (hd : d = (segAt s t seg).1) (real : realTile d q = true)
    (todo : bitAt (hDone (jobNat s t.slot (gHdr d) 64).1) q = false) (header : (jobNat s t.slot (gHdr d) 64).2 = .ok)
    (readable : tileReadable s t.slot (segCopies s t seg) (bufAt s t.slot (gBuf d)).1 d q (updGroup s t (gGroup d)) = .ok)
    (ok : (stepTile t.slot (segCopies s t seg) (bufAt s t.slot (gBuf d)).1 d q (updGroup s t (gGroup d)) s).st = .ok) :
    doSubtile t seg q s =
      tileDone t seg d q i (stepTile t.slot (segCopies s t seg) (bufAt s t.slot (gBuf d)).1 d q (updGroup s t (gGroup d)) s) := by
  subst hd
  unfold doSubtile
  rw [run]
  dsimp only
  rw [found]
  dsimp only
  rw [if_neg (by simp [update, real, todo]), readable, header]
  exact if_pos ok

theorem subtileUpdate_steps (slot : Fin 64) (die : Fin 4) (k : BitVec 16) (seg : Nat) (q : Fin 16) (s u : State) (st : Nat) (aux : List Nat)
    (i d b g : Nat) (cs : Arr × Arr) (x : TileStep) (run : collRun s ⟨slot, die, k⟩ = some (st, aux))
    (update : cOp (entryOf s ⟨slot, die, k⟩).desc = 5) (found : sgFind aux seg = some i) (hcs : cs = segCopies s ⟨slot, die, k⟩ seg)
    (hd : d = (segAt s ⟨slot, die, k⟩ seg).1) (hg : g = updGroup s ⟨slot, die, k⟩ (gGroup d)) (hb : b = (bufAt s slot (gBuf d)).1)
    (real : realTile d q.val = true) (todo : bitAt (hDone (jobNat s slot (gHdr d) 64).1) q.val = false)
    (header : (jobNat s slot (gHdr d) 64).2 = .ok) (readable : tileReadable s slot cs b d q.val g = .ok)
    (hx : x = stepTile slot cs b d q.val g s) (ok : x.st = .ok)
    (written : jobWrite slot (gHdr d) (leBytes 64 (setFld (setFld (jobNat x.s slot (gHdr d) 64).1 (304 + q.val) (304 + q.val) 1) 511 448
      x.s.clock.now)) x.s = (u, .ok)) (more : (realTiles d).all (fun q => bitAt (hDone (jobNat u slot (gHdr d) 64).1) q) = false) :
    Completes (.subtileUpdate slot die k seg q) s (fun t => t.mem = u.mem ∧ t.claims = s.claims ∧
      t.jobs[slot].upd.mastersClipped = satInc s.jobs[slot].upd.mastersClipped x.clipped ∧
      t.jobs[slot].upd.mastersNonfinite = satInc s.jobs[slot].upd.mastersNonfinite x.nonf ∧
      t.jobs[slot].upd.gradNonfinite = satInc s.jobs[slot].upd.gradNonfinite x.gradNonf) := by
  subst hcs hb hg
  have steps := doSubtile_eq (t := ⟨slot, die, k⟩) run update found hd real todo header readable (hx ▸ ok)
  rw [← hx, tileDone_eq ⟨slot, die, k⟩ seg d q.val i x u written more] at steps
  have kept : UpdKept s u := by
    have first := stepTile_updKept slot (segCopies s ⟨slot, die, k⟩ seg) (bufAt s slot (gBuf d)).1 d q.val
      (updGroup s ⟨slot, die, k⟩ (gGroup d)) s
    rw [← hx] at first
    have last := jobWrite_updKept slot (gHdr d) (leBytes 64 (setFld (setFld (jobNat x.s slot (gHdr d) 64).1 (304 + q.val) (304 + q.val) 1) 511 448
      x.s.clock.now)) x.s
    rw [written] at last
    exact first.trans last
  have noted := tileNoted_changes ⟨slot, die, k⟩ d q.val i x u
  have upd := tileNoted_upd ⟨slot, die, k⟩ d q.val i x u
  dsimp only at upd
  rw [kept.upd slot] at upd
  refine ⟨_, congrArg Host.Outcome.next steps, noted .mem (by decide), (noted .claims (by decide)).trans kept.claims, ?_⟩
  rw [upd]
  exact ⟨rfl, rfl, rfl⟩

/-! ### UPDATE and PERMUTE (R327, R444) -/

theorem collUpdate_starts (t0 : TaskRef) (s : State) (d : Nat) (start : collStart s t0 5 = some d) :
    Completes (.collUpdate t0) s (fun t => (entryOf t t0).run = .coll Track.new 0 [] ∧ t.claims = s.claims) := by
  have eq : doUpdate t0 s = updEnd t0 (setColl t0 0 [] s) := by
    unfold doUpdate
    rw [start]
  obtain ⟨_, kept, entry⟩ := updEnd_kept t0 (setColl t0 0 [] s)
  exact ⟨_, congrArg Host.Outcome.next eq, by rw [entry, setColl_run], kept.claims⟩

theorem collPermute_starts (t0 : TaskRef) (s : State) (d : Nat) (start : collStart s t0 7 = some d) :
    Completes (.collPermute t0) s (fun t => (entryOf t t0).run = .coll Track.new 0 [] ∧ t.mem = s.mem) := by
  have eq : doPermute t0 s = setColl t0 0 [] s := by
    unfold doPermute
    rw [start]
  exact ⟨_, congrArg Host.Outcome.next eq, setColl_run t0 s 0 [], rfl⟩

/-- Settles O49: segments act by their tags (`segmentStart_acts`), a sub-tile by its rows and copies (`subtileUpdate_steps`); a half opens, waits,
closes and times out in a job in which no task waits (`Waitless`). That a CLOSE whose row comes only once its job is DRAINING ends in fault is
the model's reading of R425 (notes/assumptions/48). -/
theorem segmentsAndBucketsTakeSteps : Obligations.SegmentsAndBucketsTakeSteps := by
  unfold Obligations.SegmentsAndBucketsTakeSteps
  refine ⟨⟨fun slot die k s seg aux d h => segmentStart_acts, subtileUpdate_steps⟩, fun t0 s d => collInit_opens t0 s d,
    fun t0 s d k start bucket => ⟨fun b opened one waits closing dropping halves => ?_, collClose_done t0 s d start bucket⟩,
    fun slot addr h s b one closing timed applies waits ending dropping closer => ?_,
    fun t0 s d => ⟨collUpdate_starts t0 s d, collPermute_starts t0 s d⟩⟩
  · exact collClose_waits t0 s d start bucket opened one ⟨fun die p hp => isWait_false (waits die p hp), closing, dropping⟩ halves
  · exact bucketDeadline_closes s slot addr h b one closing timed applies ⟨fun die p hp => isWait_false (waits die p hp), ending, dropping⟩ closer

end Sys2Proof.Machine
end
section
/-! SUPPORT. What the transport leaves as frames are sent, records are written and counters count (spec/10_fabric_transport.md R336 to R342,
spec/11_ports_discovery_routing.md R399 to R405): the flows of every job, its tasks, memory, the reply cache and the hold. -/

namespace Sys2Proof.Machine

/-! ### Sending leaves flows, tasks and memory -/

/-- A job is as it was, but for its transmit count and the records that wait in its trace streams. -/
def Job.SameTraffic (a b : Job) : Prop :=
  b = { a with vmt := { a.vmt with txc := b.vmt.txc }, ctl := { a.ctl with streams := b.ctl.streams } }

theorem Job.SameTraffic.refl (a : Job) : a.SameTraffic a := rfl

theorem Job.SameTraffic.trans {a b c : Job} (h : a.SameTraffic b) (g : b.SameTraffic c) : a.SameTraffic c := by
  unfold Job.SameTraffic at h g ⊢
  rw [g, h]

theorem Job.SameTraffic.kept {a b : Job} (h : a.SameTraffic b) : b.ctl.st = a.ctl.st ∧ b.totals = a.totals := by
  unfold Job.SameTraffic at h
  rw [h]
  exact ⟨rfl, rfl⟩

theorem JobKept.sameTraffic {a b : Job} (h : JobKept a b) : a.SameTraffic b := by
  unfold JobKept at h
  rw [h]
  rfl

/-- Routes, the reply cache and the hold are the same: ports, their counts and the congestion of paths may differ. -/
def Fabric.SameTables (a b : Fabric) : Prop :=
  b.cache = a.cache ∧ b.hold = a.hold ∧ b.staleUntil = a.staleUntil ∧ b.accepting = a.accepting

theorem Fabric.SameTables.refl (a : Fabric) : a.SameTables a := ⟨rfl, rfl, rfl, rfl⟩

theorem Fabric.SameTables.trans {a b c : Fabric} (h : a.SameTables b) (g : b.SameTables c) : a.SameTables c := by
  obtain ⟨cache, hold, stale, accepting⟩ := h
  obtain ⟨cache', hold', stale', accepting'⟩ := g
  exact ⟨cache'.trans cache, hold'.trans hold, stale'.trans stale, accepting'.trans accepting⟩

/-- Flows and transport counts of every job, the reply cache, the hold, objects, keys and the time are the same. -/
structure TablesKept (s t : State) : Prop where
  vmt : ∀ i : Fin 64, t.jobs[i].vmt = { s.jobs[i].vmt with txc := t.jobs[i].vmt.txc }
  fabric : s.fabric.SameTables t.fabric
  now : t.clock.now = s.clock.now
  objs : t.objs = s.objs
  rst : t.rst = s.rst
  sec : SecKept s t

theorem TablesKept.refl (s : State) : TablesKept s s := ⟨fun _ => rfl, .refl _, rfl, rfl, rfl, .of_eq rfl⟩

theorem TablesKept.trans {s t u : State} (h : TablesKept s t) (g : TablesKept t u) : TablesKept s u where
  vmt i := by rw [g.vmt i, h.vmt i]
  fabric := h.fabric.trans g.fabric
  now := g.now.trans h.now
  objs := g.objs.trans h.objs
  rst := g.rst.trans h.rst
  sec := h.sec.trans g.sec

/-- What leaves flows, the fabric, objects, keys and the time. -/
theorem TablesKept.of_changes {l : List Part} {s t : State} (h : Changes l s t)
    (kept : Part.fabric ∉ l ∧ Part.objs ∉ l ∧ Part.rst ∉ l ∧ Part.sec ∉ l) (vmt : ∀ i : Fin 64, t.jobs[i].vmt = s.jobs[i].vmt)
    (now : t.clock.now = s.clock.now) : TablesKept s t := by
  obtain ⟨fabric, objs, rst, sec⟩ := kept
  exact ⟨fun i => by rw [vmt i], by rw [show t.fabric = s.fabric from h .fabric fabric]; exact .refl _, now, h .objs objs, h .rst rst,
    .of_eq (h .sec sec)⟩

/-- Beside the tables of the transport, every task is at the same stage. -/
structure FlowsKept (s t : State) : Prop extends TablesKept s t where
  stages : StagesKept s t

theorem FlowsKept.trans {s t u : State} (h : FlowsKept s t) (g : FlowsKept t u) : FlowsKept s u :=
  ⟨h.toTablesKept.trans g.toTablesKept, h.stages.trans g.stages⟩

theorem FlowsKept.refl (s : State) : FlowsKept s s := ⟨.refl s, .refl s⟩

/-- Two states differ in what frames that were sent, counters and records leave behind: beside ports and counts, transmit counts and trace
streams of jobs, and the count of MGMT frames. -/
structure LinksOnly (s t : State) : Prop where
  job : ∀ i : Fin 64, (s.jobs[i]).SameTraffic t.jobs[i]
  mem : t.mem = s.mem
  fabric : s.fabric.SameTables t.fabric
  now : t.clock.now = s.clock.now
  objs : t.objs = s.objs
  rst : t.rst = s.rst
  sec : SecKept s t

theorem LinksOnly.refl (s : State) : LinksOnly s s := ⟨fun _ => rfl, rfl, .refl _, rfl, rfl, rfl, .of_eq rfl⟩

theorem LinksOnly.trans {s t u : State} (h : LinksOnly s t) (g : LinksOnly t u) : LinksOnly s u :=
  ⟨fun i => (h.job i).trans (g.job i), g.mem.trans h.mem, h.fabric.trans g.fabric, g.now.trans h.now, g.objs.trans h.objs, g.rst.trans h.rst,
    h.sec.trans g.sec⟩

theorem LinksOnly.forEach {α : Type} (l : List α) (f : α → State → State) (h : ∀ a t, LinksOnly t (f a t)) (s : State) :
    LinksOnly s (forEach l f s) :=
  forEach_keeps (P := LinksOnly s) l f (fun a t ht => ht.trans (h a t)) s (.refl s)

theorem LinksOnly.ite {c : Prop} [Decidable c] {s t u : State} (yes : LinksOnly s t) (no : LinksOnly s u) : LinksOnly s (if c then t else u) := by
  split
  · exact yes
  · exact no

/-- What sends frames at most. -/
theorem LinksOnly.of_sends {l : List Part} {s t : State} (h : Changes l s t)
    (kept : Part.mem ∉ l ∧ Part.clock ∉ l ∧ Part.objs ∉ l ∧ Part.rst ∉ l) (jobs : JobsKept s t) (fabric : s.fabric.SameTables t.fabric)
    (sec : SecKept s t) : LinksOnly s t := by
  obtain ⟨mem, clock, objs, rst⟩ := kept
  exact ⟨fun i => (jobs i).sameTraffic, h .mem mem, fabric, congrArg Clock.now (h .clock clock), h .objs objs, h .rst rst, sec⟩

/-- What leaves jobs, memory, ports, the clock, objects and keys. -/
theorem LinksOnly.of_changes {l : List Part} {s t : State} (h : Changes l s t)
    (kept : Part.jobs ∉ l ∧ Part.mem ∉ l ∧ Part.fabric ∉ l ∧ Part.clock ∉ l ∧ Part.objs ∉ l ∧ Part.rst ∉ l ∧ Part.sec ∉ l) :
    LinksOnly s t := by
  obtain ⟨jobs, mem, fabric, clock, objs, rst, sec⟩ := kept
  exact .of_sends h ⟨mem, clock, objs, rst⟩ (.of_eq (h .jobs jobs)) (by rw [show t.fabric = s.fabric from h .fabric fabric]; exact .refl _)
    (.of_eq (h .sec sec))

section
variable {s t : State} (h : LinksOnly s t)
include h

theorem LinksOnly.sameWaits : SameWaits s t where
  job i := by
    have kept := h.job i
    unfold Job.SameTraffic at kept
    rw [kept]
    exact ⟨rfl, rfl, rfl, rfl, rfl, rfl⟩
  mem := h.mem
  objs := h.objs
  rst := h.rst
  sec := h.sec

theorem LinksOnly.flows : FlowsKept s t where
  vmt i := by rw [h.job i]
  stages := .of_tasks (fun i d => by rw [h.sameWaits.jobDie]) (fun i => (h.sameWaits.job i).buckets) (fun i => (h.sameWaits.job i).watch)
  fabric := h.fabric
  now := h.now
  objs := h.objs
  rst := h.rst
  sec := h.sec

theorem LinksOnly.jobSt (i : Fin 64) : jobSt t i = jobSt s i := (h.job i).kept.1

theorem LinksOnly.totals (i : Fin 64) : t.jobs[i].totals = s.jobs[i].totals := (h.job i).kept.2

end

section
variable (p : Fin 32) (s : State)

theorem modPort_links (f : Port → Port) : LinksOnly s (modPort p f s) :=
  .of_sends (modPort_changes p f s) (by decide) (.of_eq rfl) ⟨rfl, rfl, rfl, rfl⟩ (.of_eq rfl)

theorem modPortErr_links (f : PortErr → PortErr) : LinksOnly s (modPortErr p f s) :=
  .of_sends (modPortErr_changes p f s) (by decide) (.of_eq rfl) ⟨rfl, rfl, rfl, rfl⟩ (.of_eq rfl)

theorem freeHeld_links (f : QueuedFrame) : LinksOnly s (freeHeld f s) := by
  unfold freeHeld
  split
  · exact .refl s
  · exact modPort_links _ _ _

theorem emitFrame_links (f : QueuedFrame) : LinksOnly s (emitFrame p f s) := by
  have tables : s.fabric.SameTables (emitFrame p f s).fabric := by
    unfold emitFrame
    dsimp only
    split
    · split
      · exact .refl _
      · exact ⟨rfl, rfl, rfl, rfl⟩
    · exact ⟨rfl, rfl, rfl, rfl⟩
    · exact ⟨rfl, rfl, rfl, rfl⟩
  exact .of_sends (emitFrame_changes p f s) (by decide) (emitFrame_jobsKept p f s) tables (.of_eq (emitFrame_changes p f s .sec (by decide)))

theorem putFrame_links (f : QueuedFrame) : LinksOnly s (putFrame p f s) := by
  have sent : ∀ t, LinksOnly t (freeHeld f (emitFrame p f t)) := fun t => (emitFrame_links p t f).trans (freeHeld_links _ f)
  unfold putFrame
  dsimp only
  split
  · exact (modPort_links _ _ _).trans (sent _)
  · exact sent _

theorem drainN_links (n : Nat) : LinksOnly s (drainN p n s) := by
  induction n generalizing s with
  | zero => exact .refl s
  | succ n ih =>
    unfold drainN
    split
    · exact .refl s
    · exact ((modPort_links _ _ _).trans (putFrame_links _ _ _)).trans (ih _)

theorem enqueue_links (f : QueuedFrame) : LinksOnly s (enqueue p f s) := (modPort_links p s _).trans (drainN_links p _ _)

theorem sendTo_links (k : FrameKind) (data : List Nat) (dst : BitVec 18) (path : Nat) : LinksOnly s (sendTo p k data dst path s) :=
  .ite (enqueue_links _ _ _) (emitFrame_links _ _ _)

theorem sendMgmtOn_links (k : FrameKind) (dst : BitVec 18) (path : Nat) (body : List Byte) : LinksOnly s (sendMgmtOn p k dst path body s) := by
  unfold sendMgmtOn
  refine .ite (.refl s) ?_
  refine LinksOnly.trans (t := { s with sec := { s.sec with mgmtSent := s.sec.mgmtSent + 1 } }) ?_ (sendTo_links _ _ _ _ _ _)
  exact ⟨fun _ => rfl, rfl, .refl _, rfl, rfl, rfl, rfl⟩

theorem pfcCheck_links (prio : Nat) : LinksOnly s (pfcCheck p prio s) := by
  have told : ∀ data f, LinksOnly s (sendOther p .pfc data (modPort p f s)) := fun data f => (modPort_links p s f).trans (sendTo_links _ _ _ _ _ _)
  exact .ite (told _ _) (.ite (told _ _) (.refl s))

theorem rxFillTo_links (vl : BitVec 3) (f : Nat → Nat) : LinksOnly s (rxFillTo p vl f s) :=
  .ite ((modPort_links p s _).trans (pfcCheck_links _ _ _)) (.refl s)

theorem freeRx_links (vl : BitVec 3) (transit : Bool) (bytes : Nat) : LinksOnly s (freeRx p vl transit bytes s) :=
  .ite (modPort_links p s _) (.refl s)

/-- A frame that a port accepts leaves flows, tasks and memory. -/
theorem atPort_links (a : Arrival) : LinksOnly s (atPort a s) :=
  (((modPortErr_links a.port s _).trans (rxFillTo_links _ _ _ _)).trans (modPortErr_links _ _ _)).trans (freeRx_links _ _ _ _ _)

end

section
variable (s : State)

theorem pmuCount_links (die : Fin 4) (slot : Option (Fin 64)) (event bit n : Nat) : LinksOnly s (pmuCount die slot event bit n s) := by
  unfold pmuCount
  exact ⟨fun _ => rfl, rfl, .refl _, rfl, rfl, rfl, .of_eq rfl⟩

theorem trace_links (sc : Option (Fin 64)) (die : Fin 4) (cls kind payload : Nat) : LinksOnly s (trace sc die cls kind payload s) := by
  unfold trace queueTrace setStream
  refine .ite ?_ (.refl s)
  split
  · refine ⟨fun i => ?_, rfl, .refl _, rfl, rfl, rfl, .of_eq rfl⟩
    rw [modCtl, modJob, vmod_getElem]
    split <;> rfl
  · exact ⟨fun _ => rfl, rfl, .refl _, rfl, rfl, rfl, .of_eq rfl⟩

theorem answer_links (fn : Fin 65) (mb : Fin 16) (mgmt : Option (Fin 32 × BitVec 18)) (img : BitVec 2048) (final : Bool) :
    LinksOnly s (answer fn mb mgmt img final s) := by
  unfold answer
  split
  · exact sendMgmtOn_links _ _ _ _ _ _
  · exact .of_changes (writeReply_changes _ _ _ _ _) (by decide)

theorem finishAll_links (f : BgCmd → Bool) (b : ReplyBody) : LinksOnly s (finishAll f b s) :=
  .forEach _ _ (fun c t => LinksOnly.trans (t := { t with cox := { t.cox with running := t.cox.running.filter (fun d => !(d == c)) } })
    ⟨fun _ => rfl, rfl, .refl _, rfl, rfl, rfl, .of_eq rfl⟩ (answer_links _ _ _ _ _ _)) s

theorem holdCheck_links : LinksOnly s (holdCheck s) := by
  unfold holdCheck
  refine .ite ?_ (.refl s)
  exact (LinksOnly.of_changes (hold_changes s) (by decide)).trans (finishAll_links _ _ _)

/-- A job in which nothing waits and no bucket is open settles with at most an entry into P2. -/
theorem settle_links {slot : Fin 64} (waitless : Waitless s slot) (none : s.jobs[slot].buckets = []) : LinksOnly s (settle slot s) := by
  have halves : fullHalf s slot = Option.none := by
    unfold fullHalf
    rw [none]
    rfl
  rw [(waitless.settled halves).settle_eq]
  exact holdCheck_links s

theorem sendPacket_links (slot : Fin 64) (x1 : Bool) (k : Nat) (op : Byte) (ce : Bool) (pkt : Packet) :
    LinksOnly s (sendPacket slot x1 k op ce pkt s) := .ite (.refl s) (enqueue_links _ _ _)

theorem sendAnswer_links (slot : Fin 64) (x1 : Bool) (op : Byte) (ce : Bool) (pkt : Packet) : LinksOnly s (sendAnswer slot x1 op ce pkt s) := by
  unfold sendAnswer
  refine .ite (.refl s) ?_
  split
  · exact (pmuCount_links s _ _ _ _ _).trans (sendPacket_links _ _ _ _ _ _ _)
  · exact .refl s

theorem sendMgmt_links (dst : BitVec 18) (kind : FrameKind) (body : List Byte) : LinksOnly s (sendMgmt dst kind body s).1 := by
  unfold sendMgmt
  split
  · exact sendMgmtOn_links _ _ _ _ _ _
  · exact .refl s

theorem transmit_links (slot : Fin 64) (peer : BitVec 18) (o : Outstanding) (payload : Option (List Byte)) :
    LinksOnly s (transmit slot peer o payload s) := by
  unfold transmit
  split
  · exact (pmuCount_links s _ _ _ _ _).trans (sendPacket_links _ _ _ _ _ _ _)
  · exact .refl s

theorem ceEcho_links (peer : BitVec 18) (o : Outstanding) (tryN : Option Nat) (echo : Bool) : LinksOnly s (ceEcho peer o tryN echo s) := by
  unfold ceEcho
  split
  · exact .refl s
  · exact .ite ⟨fun _ => rfl, rfl, ⟨rfl, rfl, rfl, rfl⟩, rfl, rfl, rfl, .of_eq rfl⟩ (.refl s)

end

/-! ### Flows -/

section
variable {s t : State} (h : TablesKept s t) (slot : Fin 64) (peer : BitVec 18)
include h

theorem TablesKept.flowOf : flowOf t slot peer = flowOf s slot peer := by
  unfold Machine.flowOf
  rw [h.vmt slot]

theorem TablesKept.hasFlow : hasFlow t slot peer = hasFlow s slot peer := by
  unfold Machine.hasFlow
  rw [h.vmt slot]

theorem TablesKept.counts : t.jobs[slot].vmt.counts = s.jobs[slot].vmt.counts := by rw [h.vmt slot]

theorem TablesKept.outOf (seq : BitVec 32) : outOf t slot peer seq = outOf s slot peer seq := by
  unfold Machine.outOf
  rw [h.flowOf]

theorem TablesKept.cacheFree : cacheFree t slot = cacheFree s slot := by
  obtain ⟨cache, _⟩ := h.fabric
  have macBase : t.sec.macBase = s.sec.macBase := by rw [h.sec]
  have most : cacheJobMax t = cacheJobMax s := by simp only [cacheJobMax, devFld, objBits, h.objs, h.rst, macBase]
  unfold Machine.cacheFree
  rw [cache, most]

end

end Sys2Proof.Machine
end
section
/-! SUPPORT. Updates of flows, counts and tracks (spec/10_fabric_transport.md R336 to R339, R352), and jobs that settle as they are. -/

namespace Sys2Proof.Machine

/-! ### Updates of a flow -/

section
variable (slot : Fin 64) (peer : BitVec 18) (s : State)

/-- Flows go by the table of the job's flows. -/
theorem flowOf_of_flows {s t : State} (h : t.jobs[slot].vmt.flows = s.jobs[slot].vmt.flows) : flowOf t slot peer = flowOf s slot peer := by
  unfold flowOf
  rw [h]

theorem hasFlow_of_flows {s t : State} (h : t.jobs[slot].vmt.flows = s.jobs[slot].vmt.flows) : hasFlow t slot peer = hasFlow s slot peer := by
  unfold hasFlow
  rw [h]

theorem modVmt_vmt (f : JobVmt → JobVmt) : (modVmt slot f s).jobs[slot].vmt = f s.jobs[slot].vmt := by
  rw [modVmt, modJob, vmod_same]

@[simp] theorem flowOf_modFlow (f : Flow → Flow) : flowOf (modFlow slot peer f s) slot peer = f (flowOf s slot peer) := by
  unfold flowOf
  rw [modFlow, modVmt_vmt, AMap.getD, AMap.find_put_same]
  rfl

@[simp] theorem hasFlow_modFlow (f : Flow → Flow) : hasFlow (modFlow slot peer f s) slot peer = true := by
  unfold hasFlow
  rw [modFlow, modVmt_vmt, AMap.find_put_same]
  rfl

theorem modFlow_counts (f : Flow → Flow) : (modFlow slot peer f s).jobs[slot].vmt.counts = s.jobs[slot].vmt.counts := by
  rw [modFlow, modVmt_vmt]

theorem modFlow_stages (f : Flow → Flow) : StagesKept s (modFlow slot peer f s) := modVmt_stages _ _ _

theorem modJob_sameWaits (f : Job → Job) (h : ∀ j : Job, j.SameWaits (f j)) : SameWaits s (modJob slot f s) := by
  refine ⟨fun i => ?_, rfl, rfl, rfl, .of_eq rfl⟩
  rw [modJob, vmod_getElem]
  split
  · exact h _
  · exact .refl _

theorem modVmt_sameWaits (f : JobVmt → JobVmt) : SameWaits s (modVmt slot f s) :=
  modJob_sameWaits slot s _ (fun _ => ⟨rfl, rfl, rfl, rfl, rfl, rfl⟩)

theorem modFlow_sameWaits (f : Flow → Flow) : SameWaits s (modFlow slot peer f s) := modVmt_sameWaits slot s _

theorem modVmt_jobSt (f : JobVmt → JobVmt) (i : Fin 64) : jobSt (modVmt slot f s) i = jobSt s i :=
  modJob_field slot s (fun j => j.ctl.st) (f := fun j => { j with vmt := f j.vmt }) (fun _ => rfl) i

theorem modVmt_totals (f : JobVmt → JobVmt) (i : Fin 64) : (modVmt slot f s).jobs[i].totals = s.jobs[i].totals :=
  modJob_field slot s Job.totals (f := fun j => { j with vmt := f j.vmt }) (fun _ => rfl) i

/-! ### Counts -/

@[simp] theorem flowOf_modCounts (f : VmtCounts → VmtCounts) : flowOf (modCounts slot f s) slot peer = flowOf s slot peer :=
  flowOf_of_flows slot peer (by rw [modCounts, modVmt_vmt])

theorem modCounts_counts (f : VmtCounts → VmtCounts) : (modCounts slot f s).jobs[slot].vmt.counts = f s.jobs[slot].vmt.counts := by
  rw [modCounts, modVmt_vmt]

theorem modTotals_totals (f : Totals → Totals) : (modTotals slot f s).jobs[slot].totals = f s.jobs[slot].totals := by
  rw [modTotals, modJob, vmod_same]

/-- Counts of a job's totals leave its flows and the stages of its tasks. -/
theorem modJob_flows (f : Job → Job) (vmt : ∀ j : Job, (f j).vmt = j.vmt)
    (dies : ∀ (j : Job) (d : Fin 4), ((f j).tasks.dies[d]).entries = j.tasks.dies[d].entries)
    (buckets : ∀ j : Job, (f j).buckets = j.buckets) (watch : ∀ j : Job, (f j).watch = j.watch) : FlowsKept s (modJob slot f s) where
  vmt i := by rw [modJob_field slot s Job.vmt vmt i]
  stages := modJob_stages slot s f dies buckets watch
  fabric := .refl _
  now := rfl
  objs := rfl
  rst := rfl
  sec := .of_eq rfl

theorem modTotals_flows (f : Totals → Totals) : FlowsKept s (modTotals slot f s) :=
  modJob_flows slot s (fun j => { j with totals := f j.totals }) (fun _ => rfl) (fun _ _ => rfl) (fun _ => rfl) (fun _ => rfl)

theorem modTotals_sameWaits (f : Totals → Totals) : SameWaits s (modTotals slot f s) :=
  modJob_sameWaits slot s _ (fun _ => ⟨rfl, rfl, rfl, rfl, rfl, rfl⟩)

/-- An entry's update leaves flows and totals. -/
theorem modEntry_vmt (k : TaskRef) (f : Entry → Entry) (i : Fin 64) : (modEntry k f s).jobs[i].vmt = s.jobs[i].vmt :=
  modJob_field k.slot s Job.vmt (by exact fun _ => rfl) i

theorem modEntry_totals (k : TaskRef) (f : Entry → Entry) (i : Fin 64) : (modEntry k f s).jobs[i].totals = s.jobs[i].totals :=
  modJob_field k.slot s Job.totals (by exact fun _ => rfl) i

theorem flowOf_modEntry (k : TaskRef) (f : Entry → Entry) : flowOf (modEntry k f s) slot peer = flowOf s slot peer :=
  flowOf_of_flows slot peer (by rw [modEntry_vmt])

end

/-! ### Jobs at rest -/

/-- No task of a job waits on a counter, none of its buckets is open, its watch closes no record and no verdict of it drops. -/
structure AtRest (s : State) (slot : Fin 64) : Prop where
  waitless : Waitless s slot
  buckets : s.jobs[slot].buckets = []

section
variable {s t : State} {slot : Fin 64}

theorem Calm.atRest (h : Calm s slot) : AtRest s slot := by
  have waitless := h.waitless
  obtain ⟨_, none, _⟩ := h
  exact ⟨waitless, none⟩

theorem AtRest.of_stages (h : AtRest s slot) (kept : StagesKept s t) : AtRest t slot :=
  ⟨h.waitless.of_stages kept, (kept.buckets slot).trans h.buckets⟩

theorem AtRest.modEntry (h : AtRest s slot) (k : TaskRef) {f : Entry → Entry} (new : isWait (f (entryOf s k)).run = false) :
    AtRest (modEntry k f s) slot := ⟨h.waitless.modEntry k new, (modEntry_buckets k f s slot).trans h.buckets⟩

/-- A job at rest settles with at most an entry into P2. -/
theorem AtRest.settle (h : AtRest s slot) : LinksOnly s (settle slot s) := settle_links s h.waitless h.buckets

end

/-! ### Tracks (R352) -/

@[simp] theorem Run.track_onTrack (r : Run) (f : Track → Track) : (r.onTrack f).track = r.track.map f := by
  cases r <;> rfl

theorem Run.onTrack_isWait (r : Run) (f : Track → Track) : isWait (r.onTrack f) = isWait r := by
  cases r <;> rfl

/-- A run with a track is no matrix task's, so its entry keeps it where stages are kept. -/
theorem Entry.SameStage.track {a b : Entry} (h : a.SameStage b) {k : Track} (track : a.run.track = some k) : b = a := by
  refine h.eq ?_
  cases run : a.run with
  | matrix => rw [run] at track; exact nomatch track
  | _ => rfl

section
variable (t : TaskRef) (s : State)

theorem entryOf_onTrack (f : Track → Track) : entryOf (onTrack t f s) t = { entryOf s t with run := (entryOf s t).run.onTrack f } := by
  rw [onTrack, entryOf_modEntry]

theorem onTrack_flowOf (f : Track → Track) (slot : Fin 64) (peer : BitVec 18) : flowOf (onTrack t f s) slot peer = flowOf s slot peer :=
  flowOf_modEntry slot peer s t _

/-- A change of a track begins no wait. -/
theorem AtRest.onTrack {slot : Fin 64} {s : State} (h : AtRest s slot) (same : t.slot = slot) (f : Track → Track) :
    AtRest (onTrack t f s) slot := by
  subst same
  refine h.modEntry t ?_
  rw [Run.onTrack_isWait]
  exact h.waitless.waits.entryOf

/-- A task that is not to fault for its requests (R352). -/
theorem faultIfFailed_none (h : ∀ k, (entryOf s t).run.track = some k → k.fail = none ∨ k.left ≠ 0) : faultIfFailed t s = s := by
  unfold faultIfFailed
  dsimp only
  split
  next track =>
    split
    next fail =>
      rcases h _ track with none | left
      · exact absurd (none.symm.trans fail) (by simp)
      · exact if_neg left
    next => rfl
  next => rfl

/-- What follows an answer of a task that is no PERMUTE and is not to fault. -/
theorem afterAnswer_none (r : TxReq) (h : ∀ k, r.task = some k → isPermute (entryOf s k).desc = false ∧
    ∀ x, (entryOf s k).run.track = some x → x.fail = none ∨ x.left ≠ 0) : afterAnswer r s = s := by
  unfold afterAnswer
  split
  · rfl
  next k task =>
    obtain ⟨permute, track⟩ := h k task
    rw [permute]
    exact faultIfFailed_none k s track

end

end Sys2Proof.Machine
end
section
/-! SUPPORT. The issue of requests (spec/10_fabric_transport.md R336, R337, R350 to R353): a request that is issued takes the next sequence
number of its flow, and the requests of a copy task are issued in order; and the obligation about copy tasks. -/

namespace Sys2Proof.Machine

/-! ### Objects -/

section
variable {s t : State} (objs : t.objs = s.objs) (rst : t.rst = s.rst) (sec : SecKept s t)
include objs rst sec

/-- Objects do not go by the count of MGMT frames. -/
theorem objBits_congr (k : ObjKey) : objBits t k = objBits s k := by
  have macBase : t.sec.macBase = s.sec.macBase := by rw [sec]
  unfold objBits
  rw [objs, rst, macBase]

theorem ownNode_congr : ownNode t = ownNode s := by
  unfold ownNode devFld
  rw [objBits_congr objs rst sec]

theorem nodeValid_congr : nodeValid t = nodeValid s := by
  unfold nodeValid devFld
  rw [objBits_congr objs rst sec]

end

/-! ### Requests that are issued -/

/-- Requests were issued to a peer, and job memory reads as before: what the issue of further requests goes by. -/
structure IssuedTo (s t : State) (slot : Fin 64) (peer : BitVec 18) (rs : List TxReq) : Prop where
  issued : Issued s t slot peer rs
  waiting : (flowOf t slot peer).waiting = (flowOf s slot peer).waiting
  hasFlow : hasFlow s slot peer = true → hasFlow t slot peer = true
  stages : StagesKept s t
  reads : ∀ (i : Fin 64) (va len : Nat), peek t i va len = peek s i va len
  cells : t.mem.cells = s.mem.cells
  objs : t.objs = s.objs
  rst : t.rst = s.rst
  sec : SecKept s t

section
variable {s t u : State} {slot : Fin 64} {peer : BitVec 18}

theorem Issued.nil (h : flowOf t slot peer = flowOf s slot peer) : Issued s t slot peer [] := by
  refine ⟨?_, [], ?_, rfl, fun k o found => ?_⟩
  · rw [h]; exact (BitVec.add_zero _).symm
  · rw [h, List.append_nil]
  · exact nomatch found

/-- What was issued first stands first. -/
theorem Issued.trans {rs rs' : List TxReq} (h : Issued s t slot peer rs) (g : Issued t u slot peer rs') : Issued s u slot peer (rs ++ rs') := by
  obtain ⟨next, os, out, reqs, seqs⟩ := h
  obtain ⟨next', os', out', reqs', seqs'⟩ := g
  have length : os.length = rs.length := by rw [← reqs, List.length_map]
  refine ⟨?_, os ++ os', ?_, ?_, fun k o found => ?_⟩
  · rw [next', next, List.length_append, BitVec.ofNat_add, BitVec.add_assoc]
  · rw [out', out, List.append_assoc]
  · rw [List.map_append, reqs, reqs']
  · rcases Nat.lt_or_ge k os.length with first | second
    · rw [List.getElem?_append_left first] at found
      exact seqs k o found
    · rw [List.getElem?_append_right second] at found
      obtain ⟨seq, tryN⟩ := seqs' _ o found
      refine ⟨?_, tryN⟩
      rw [seq, next, BitVec.add_assoc, ← BitVec.ofNat_add, ← length, Nat.add_sub_cancel' second]

/-- Requests are issued from and to states whose flows are the same. -/
theorem Issued.of_flows {s' t' : State} {rs : List TxReq} (h : Issued s t slot peer rs) (before : flowOf s' slot peer = flowOf s slot peer)
    (after : flowOf t' slot peer = flowOf t slot peer) : Issued s' t' slot peer rs := by
  unfold Issued
  rw [before, after]
  exact h

theorem IssuedTo.trans {rs rs' : List TxReq} (h : IssuedTo s t slot peer rs) (g : IssuedTo t u slot peer rs') :
    IssuedTo s u slot peer (rs ++ rs') where
  issued := h.issued.trans g.issued
  waiting := g.waiting.trans h.waiting
  hasFlow has := g.hasFlow (h.hasFlow has)
  stages := h.stages.trans g.stages
  reads i va len := (g.reads i va len).trans (h.reads i va len)
  cells := g.cells.trans h.cells
  objs := g.objs.trans h.objs
  rst := g.rst.trans h.rst
  sec := h.sec.trans g.sec

/-- A read on demand opens streams alone. -/
theorem StreamsOnly.issuedTo (h : StreamsOnly s t) : IssuedTo s t slot peer [] := by
  have jobs : t.jobs = s.jobs := h.changes .jobs (by decide)
  have flows : t.jobs[slot].vmt.flows = s.jobs[slot].vmt.flows := by rw [jobs]
  have flow := flowOf_of_flows slot peer flows
  exact ⟨.nil flow, congrArg Flow.waiting flow, fun has => (hasFlow_of_flows slot peer flows).trans has, .of_eq jobs, h.reads.peek, h.stored.1,
    h.changes .objs (by decide), h.changes .rst (by decide), .of_eq (h.changes .sec (by decide))⟩

/-- The Copy Engine's read of the source of a request, when it is in order. -/
theorem copyRead_streams (k : TaskRef) (va len : Nat) (s : State) : StreamsOnly s (copyRead k va len .ok s) := by
  unfold copyRead
  dsimp only
  rw [if_neg (by decide)]
  split
  · exact .refl s
  · exact demandRead_streams _ _ _ _

theorem claimFlow_of_hasFlow (h : hasFlow s slot peer = true) : claimFlow slot peer s = some s := if_pos h

end

section
variable (slot : Fin 64) (peer : BitVec 18) (r : TxReq) (s : State)

/-- Beside what a transmission sends and counts, a request that gets its sequence number joins its flow. -/
theorem firstTransmit_links : ∃ (o : Outstanding) (f : Flow → Flow) (g : Totals → Totals),
    (o.seq = (flowOf s slot peer).txNext ∧ o.req = r ∧ o.tryN = 0) ∧
    (∀ k : Flow, (f k).txNext = k.txNext + 1 ∧ (f k).out = k.out ++ [o] ∧ (f k).waiting = k.waiting) ∧
    LinksOnly (modTotals slot g (modFlow slot peer f s)) (firstTransmit slot peer r s) := by
  have noted : ∀ (b : Bool) (o : Outstanding), (o.noteTx b).seq = o.seq ∧ (o.noteTx b).req = o.req ∧ (o.noteTx b).tryN = o.tryN := fun b o => by
    cases b <;> exact ⟨rfl, rfl, rfl⟩
  have counted : ∀ u, ∃ g : Totals → Totals,
      countProduced slot r (modTotals slot (fun t => { t with reqSent := t.reqSent + 1 }) u) = modTotals slot g u := fun u => by
      unfold countProduced
      split
      · refine ⟨fun t => { t with reqSent := t.reqSent + 1, produced := t.produced + 1 }, ?_⟩
        unfold modTotals modJob vmod
        simp
      · exact ⟨_, rfl⟩
  have sends : ∀ (c : Bool) (o : Outstanding) payload u,
      LinksOnly u (transmit slot peer o payload (if c then pmuCount r.die (some slot) 0x060 0 1 u else u)) := fun c o payload u => by
    cases c with
    | false => exact transmit_links u slot peer o payload
    | true => exact (pmuCount_links u r.die (some slot) 0x060 0 1).trans (transmit_links _ slot peer o payload)
  unfold firstTransmit
  extract_lets seq x1 path charge o payload sentOnce join count
  obtain ⟨g, counts⟩ := counted join
  have sent := counts.subst (motive := fun u => LinksOnly u _) (sends payload.isSome sentOnce payload count)
  refine ⟨sentOnce, _, g, noted payload.isSome o, ?_, sent⟩
  exact fun k => ⟨rfl, rfl, rfl⟩

/-- A request that gets its sequence number is issued, and memory stays. -/
theorem firstTransmit_issues : IssuedTo s (firstTransmit slot peer r s) slot peer [r] ∧ (firstTransmit slot peer r s).mem = s.mem := by
  obtain ⟨o, f, g, ⟨seq, req, tryN⟩, joins, sent⟩ := firstTransmit_links slot peer r s
  have same : SameWaits s (firstTransmit slot peer r s) :=
    ((modVmt_sameWaits slot s _).trans (modTotals_sameWaits slot _ g)).trans sent.sameWaits
  have flow : flowOf (firstTransmit slot peer r s) slot peer = f (flowOf s slot peer) := by
    rw [sent.flows.flowOf, (modTotals_flows slot _ g).flowOf, flowOf_modFlow]
  obtain ⟨next, out, waiting⟩ := joins (flowOf s slot peer)
  have issued : Issued s (firstTransmit slot peer r s) slot peer [r] := by
    unfold Issued
    rw [flow]
    refine ⟨next, [o], out, by rw [List.map_singleton, req], fun k o' found => ?_⟩
    obtain ⟨rfl, rfl⟩ : k = 0 ∧ o' = o := by
      cases k with
      | zero => exact ⟨rfl, (Option.some.inj found).symm⟩
      | succ k => exact nomatch found
    exact ⟨seq.trans (BitVec.add_zero _).symm, tryN⟩
  refine ⟨⟨issued, by rw [flow, waiting], fun _ => ?_, ?_, same.peek, by rw [same.mem], same.objs, same.rst, same.sec⟩, same.mem⟩
  · rw [sent.flows.hasFlow, (modTotals_flows slot _ g).hasFlow, hasFlow_modFlow]
  · exact ((modFlow_stages slot peer s f).trans (modTotals_flows slot _ g).stages).trans sent.flows.stages

/-- A request to another node, on a flow with room on which nothing waits, whose payload can be read, is issued at once. -/
theorem issue_issues (other : nodeValid s = true → peer ≠ ownNode s) (has : hasFlow s slot peer = true) (none : (flowOf s slot peer).waiting = [])
    (room : (flowOf s slot peer).out.length < 4096) (readable : (reqPayload s slot r).2 = .ok) :
    IssuedTo s (issue slot peer r s) slot peer [r] := by
  have takes : ∀ u, StreamsOnly s u → (nodeValid u && peer == ownNode u) = false ∧ claimFlow slot peer u = some u ∧
      (decide ((flowOf u slot peer).out.length < 4096) && (flowOf u slot peer).waiting.isEmpty) = true := fun u streams => by
    have began := streams.issuedTo (slot := slot) (peer := peer)
    have flow : flowOf u slot peer = flowOf s slot peer :=
      flowOf_of_flows slot peer (by rw [show u.jobs = s.jobs from streams.changes .jobs (by decide)])
    refine ⟨?_, claimFlow_of_hasFlow (began.hasFlow has), ?_⟩
    · rw [nodeValid_congr began.objs began.rst began.sec, ownNode_congr began.objs began.rst began.sec]
      cases valid : nodeValid s with
      | false => rfl
      | true => exact beq_false_of_ne (other valid)
    · rw [flow, none, decide_eq_true room]
      rfl
  have begins : ∃ u, StreamsOnly s u ∧ issue slot peer r s = firstTransmit slot peer r u := by
    cases source : r.source with
    | none =>
      obtain ⟨away, claim, free⟩ := takes s (.refl s)
      exact ⟨s, .refl s, by simp [issue, source, readable, away, claim, free]⟩
    | some va =>
      cases task : r.task with
      | none =>
        obtain ⟨away, claim, free⟩ := takes s (.refl s)
        exact ⟨s, .refl s, by simp [issue, source, task, readable, away, claim, free]⟩
      | some k =>
        obtain ⟨away, claim, free⟩ := takes _ (copyRead_streams k va r.len s)
        exact ⟨_, copyRead_streams k va r.len s, by simp [issue, source, task, readable, away, claim, free]⟩
  obtain ⟨u, streams, eq⟩ := begins
  rw [eq]
  exact streams.issuedTo.trans (firstTransmit_issues slot peer r u).1

/-- Requests that a job can issue are issued in order. -/
theorem issues_all (rs : List TxReq) (can : CanIssue s slot peer rs) :
    IssuedTo s (forEach (rs.map (fun r => (peer, r))) (fun r st => issue slot r.1 r.2 st) s) slot peer rs := by
  induction rs generalizing s with
  | nil => exact (StreamsOnly.refl s).issuedTo
  | cons r rest ih =>
    obtain ⟨other, has, none, room, readable⟩ := can
    have first := issue_issues slot peer r s other has none (by simp at room; omega) (readable r List.mem_cons_self)
    refine first.trans (ih (issue slot peer r s) ⟨fun valid => ?_, first.hasFlow has, first.waiting.trans none, ?_, fun r' member => ?_⟩)
    · rw [nodeValid_congr first.objs first.rst first.sec] at valid
      rw [ownNode_congr first.objs first.rst first.sec]
      exact other valid
    · obtain ⟨_, os, out, reqs, _⟩ := first.issued
      have one : os.length = 1 := by rw [← List.length_map (f := Outstanding.req), reqs]; rfl
      simp only [List.length_cons] at room
      rw [out, List.length_append, one]
      omega
    · have read := readable r' (List.mem_cons_of_mem _ member)
      unfold reqPayload at read ⊢
      split at read
      · rfl
      · rw [first.reads]; exact read

end

/-! ### Copy tasks (R349 to R352) -/

section
variable (t0 : TaskRef) (s : State)

/-- A copy task starts: its track counts its requests, which are issued in order. -/
theorem runCopy_issues {peer : BitVec 18} {rs : List TxReq} (can : CanIssue s t0.slot peer rs) (rest : AtRest s t0.slot) :
    Issued s (runCopy t0 peer rs s) t0.slot peer rs ∧ (entryOf (runCopy t0 peer rs s) t0).run = .copy ⟨rs.length, rs.length, none⟩ ∧
    (runCopy t0 peer rs s).mem.cells = s.mem.cells := by
  obtain ⟨u, started⟩ : ∃ u, onTrack t0 (fun k => { k with
      left := k.left + (rs.map (fun r => (peer, r))).length
      issued := k.issued + (rs.map (fun r => (peer, r))).length }) (modEntry t0 (fun e => { e with run := .copy Track.new }) s) = u := ⟨_, rfl⟩
  have reads : SameReads s u := by
    rw [← started]
    exact (modEntry_reads t0 _ s).trans (modEntry_reads t0 _ _)
  have flow : flowOf u t0.slot peer = flowOf s t0.slot peer := by rw [← started, onTrack_flowOf, flowOf_modEntry]
  have run : (entryOf u t0).run = .copy ⟨rs.length, rs.length, none⟩ := by
    rw [← started, entryOf_onTrack, entryOf_modEntry]
    simp [Run.onTrack, Track.new]
  have rest' : AtRest u t0.slot := by
    rw [← started]
    exact (rest.modEntry t0 rfl).onTrack t0 rfl _
  have can' : CanIssue u t0.slot peer rs := by
    obtain ⟨other, has, none, room, readable⟩ := can
    have vmt : u.jobs[t0.slot].vmt.flows = s.jobs[t0.slot].vmt.flows := by rw [← started, onTrack, modEntry_vmt, modEntry_vmt]
    refine ⟨?_, (hasFlow_of_flows _ _ vmt).trans has, by rw [flow]; exact none, by rw [flow]; exact room, fun r member => ?_⟩
    · rw [nodeValid_congr reads.objs reads.rst (.of_eq reads.sec), ownNode_congr reads.objs reads.rst (.of_eq reads.sec)]
      exact other
    · have read := readable r member
      unfold reqPayload at read ⊢
      split at read
      · rfl
      · rw [reads.peek]; exact read
  have issued := issues_all t0.slot peer u rs can'
  have eq : runCopy t0 peer rs s = settle t0.slot (faultIfFailed t0
      (forEach (rs.map (fun r => (peer, r))) (fun r st => issue t0.slot r.1 r.2 st) u)) := by rw [← started]; rfl
  have entry := (issued.stages.entry t0).track (k := ⟨rs.length, rs.length, none⟩) (by rw [run]; rfl)
  rw [eq, faultIfFailed_none t0 _ (fun k track => .inl (by rw [entry, run] at track; rw [← Option.some.inj track]))]
  have settled := (rest'.of_stages issued.stages).settle
  refine ⟨issued.issued.of_flows flow.symm (settled.flows.flowOf _ _), ?_, by rw [settled.mem, issued.cells, reads.mem.1]⟩
  rw [(settled.flows.stages.entry t0).track (k := ⟨rs.length, rs.length, none⟩) (by rw [entry, run]; rfl), entry, run]

theorem doCopy_issues {op d : Nat} {f : Nat → List TxReq} (start : copyStart s t0 op = some d) (can : CanIssue s t0.slot (yNode d) (f d))
    (calm : Calm s t0.slot) : Issued s (doCopy t0 op f s) t0.slot (yNode d) (f d) ∧
    (entryOf (doCopy t0 op f s) t0).run = .copy ⟨(f d).length, (f d).length, none⟩ ∧ (doCopy t0 op f s).mem.cells = s.mem.cells := by
  unfold doCopy
  rw [start]
  exact runCopy_issues t0 s can calm.atRest

/-- A FENCE whose covered requests are all answered completes. -/
theorem copyFence_completes {cov : List (Fin 64 × BitVec 18 × BitVec 32)} (st : (entryOf s t0).st = .running)
    (run : (entryOf s t0).run = .fence cov) (met : fenceMet s cov = true) (succ : NoSuccessors (entryOf s t0).desc)
    (reads : (entryOf s t0).reads = []) (calm : Calm s t0.slot) :
    Completes (.copyFence t0) s (fun t => (entryOf t t0).st = .free 0 ∧ (entryOf t t0).desc = 0) := by
  have eq : doFence t0 s = settle t0.slot (completeCore t0 true s) := by
    unfold doFence
    dsimp only
    rw [st, run]
    exact if_pos met
  obtain ⟨u, before, after⟩ := completeCore_stages t0 s succ reads
  have rest : AtRest (completeCore t0 true s) t0.slot :=
    ⟨waitless_of_put calm.waitless before after rfl, (buckets_of_put before after).trans calm.atRest.buckets⟩
  have stage := (entry_of_put after).trans (rest.settle.flows.stages.entry t0)
  obtain ⟨st', desc, _⟩ := stage.kept
  exact ⟨_, congrArg Host.Outcome.next eq, st', desc⟩

theorem copyFence_waits {cov : List (Fin 64 × BitVec 18 × BitVec 32)} (run : (entryOf s t0).run = .fence cov) (unmet : fenceMet s cov = false) :
    Completes (.copyFence t0) s (fun t => t = s) := by
  have eq : doFence t0 s = s := by
    unfold doFence
    dsimp only
    rw [run]
    split
    next covered _ same =>
      cases same
      rw [unmet]
      rfl
    next => rfl
  exact ⟨_, congrArg Host.Outcome.next eq, rfl⟩

end

/-- A waiting request gets its sequence number (R337). -/
theorem flowRequestIssue_issues (slot : Fin 64) (peer : BitVec 18) (s : State) (r : TxReq) (rest : List TxReq)
    (waits : (flowOf s slot peer).waiting = r :: rest) (room : (flowOf s slot peer).out.length < 4096) (readable : (reqPayload s slot r).2 = .ok) :
    Completes (.flowRequestIssue slot peer) s (fun t => Issued s t slot peer [r] ∧ (flowOf t slot peer).waiting = rest ∧ t.mem = s.mem) := by
  obtain ⟨u, taken⟩ : ∃ u, modFlow slot peer (fun k => { k with waiting := rest }) s = u := ⟨_, rfl⟩
  have flow : flowOf u slot peer = { flowOf s slot peer with waiting := rest } := by rw [← taken, flowOf_modFlow]
  have same : SameWaits s u := by rw [← taken]; exact modVmt_sameWaits _ _ _
  have readable' : (reqPayload u slot r).2 = .ok := by
    unfold reqPayload at readable ⊢
    split at readable
    · rfl
    · rw [same.peek]; exact readable
  have eq : doIssue slot peer s = firstTransmit slot peer r u := by
    unfold doIssue
    dsimp only
    rw [waits]
    dsimp only
    rw [if_neg (Nat.not_le.mpr room), taken, if_neg (not_not_intro readable')]
  obtain ⟨issued, mem⟩ := firstTransmit_issues slot peer r u
  refine ⟨_, congrArg Host.Outcome.next eq, ?_, by rw [issued.waiting, flow], mem.trans same.mem⟩
  have joined := issued.issued
  unfold Issued at joined ⊢
  rw [flow] at joined
  exact joined

/-- Settles O52: the requests of a copy task are issued one by one (`issue_issues`), each at its place in the flow (`firstTransmit_links`);
a FENCE completes as any task without successors does, and a waiting request is issued as a new one is. -/
theorem copyTasksIssueTheirRequests : Obligations.CopyTasksIssueTheirRequests := by
  unfold Obligations.CopyTasksIssueTheirRequests
  refine ⟨fun c op f t0 s d row start can calm => ?_, fun t0 s cov st run => ⟨fun met succ reads calm =>
    copyFence_completes t0 s st run met succ reads calm, copyFence_waits t0 s run⟩, flowRequestIssue_issues⟩
  have issued := doCopy_issues t0 s start can calm
  rcases row with ⟨rfl, rfl, rfl⟩ | ⟨rfl, rfl, rfl⟩ | ⟨rfl, rfl, rfl⟩ | ⟨rfl, rfl, rfl⟩ <;> exact ⟨_, rfl, issued⟩

end Sys2Proof.Machine
end
section
/-! SUPPORT. What a request leaves of the transport when it is applied to memory (spec/10_fabric_transport.md R344 to R347,
spec/09_update_in_stack.md R311 to R317): flows, the reply cache, the hold and the time; and jobs at rest stay at rest. -/

namespace Sys2Proof.Machine

/-! ### The time -/

section
variable (slot : Fin 64) (tag : BitVec 16) (dpa : Nat) (s : State)

theorem countMismatch_now : (countMismatch tag dpa s).clock.now = s.clock.now := by
  unfold countMismatch
  split
  · exact (trace_links _ _ _ _ _ _).now
  · rfl

theorem logAsWords_now (l : List Nat) : (forEach l logAsWord s).clock.now = s.clock.now :=
  forEach_keeps (P := fun t => t.clock.now = s.clock.now) l logAsWord
    (fun w t same => (congrArg Clock.now (logAsWord_changes w t .clock (by decide))).trans same) s rfl

theorem noteReads_now (rs : List (Nat × Nat)) : (noteReads slot rs s).clock.now = s.clock.now := by
  have part : ∀ d n t, (notePart (jobTag s slot) d n t).clock.now = t.clock.now := fun d n t => by
    unfold notePart
    split
    · exact logAsWords_now t _
    · exact countMismatch_now _ d t
  unfold noteReads
  refine forEach_keeps (P := fun t => t.clock.now = s.clock.now) _ _ (fun c t same => ?_) s rfl
  split
  · exact (part _ _ t).trans same
  · exact same

theorem writePart_now (bs : List Byte) : (writePart tag dpa bs s).1.clock.now = s.clock.now := by
  have stored : ∀ b, (storePart tag dpa b s).clock.now = s.clock.now := fun b =>
    congrArg Clock.now (storePart_changes tag dpa b s .clock (by decide))
  unfold writePart
  dsimp only
  split
  · split
    · rfl
    · exact logAsWords_now s _
  · split
    · exact stored _
    · split
      · exact countMismatch_now tag dpa s
      · exact stored _

theorem jobWrite_now (va : Nat) (bs : List Byte) : (jobWrite slot va bs s).1.clock.now = s.clock.now := by
  rw [jobWrite_eq]
  split
  · rfl
  · refine List.foldlRecOn (motive := fun acc : State × MStat => acc.1.clock.now = s.clock.now) _ _ ?_ (fun acc same c _ => ?_)
    · obtain ⟨q, counted⟩ := countWrites_pmu slot va bs.length s
      rw [counted]
      rfl
    · exact (writePart_now _ _ acc.1 _).trans same

end

/-! ### Memory -/

section
variable (slot : Fin 64) (s : State)

theorem jobWrite_flows (va : Nat) (bs : List Byte) : FlowsKept s (jobWrite slot va bs s).1 where
  toTablesKept := .of_changes (jobWrite_changes slot va bs s) (by decide) (fun i => by rw [jobWrite_diesOnly slot va bs s i])
    (jobWrite_now slot s va bs)
  stages := jobWrite_stages slot s va bs

theorem jobWrite_totals (va : Nat) (bs : List Byte) (i : Fin 64) : (jobWrite slot va bs s).1.jobs[i].totals = s.jobs[i].totals := by
  rw [jobWrite_diesOnly slot va bs s i]

theorem jobRead_flows (va len : Nat) : FlowsKept s (jobRead s slot va len).2 where
  toTablesKept := by
    refine .of_changes (jobRead_changes s slot va len) (by decide)
      (fun i => by rw [show (jobRead s slot va len).2.jobs = s.jobs from jobRead_changes s slot va len .jobs (by decide)]) ?_
    unfold jobRead
    dsimp only
    split
    · exact noteReads_now slot s _
    · rfl
  stages := .of_changes (jobRead_changes s slot va len) (by decide)

theorem jobRmw_flows (va n : Nat) (f : Nat → Nat) : FlowsKept s (jobRmw slot va n f s).2.2 := by
  cases range : mapped s slot va n true true with
  | false => rw [jobRmw_unmapped f range]; exact .refl s
  | true =>
    by_cases ok : (peek s slot va n).st = .ok
    · rw [jobRmw_ok f range ok]; exact jobWrite_flows slot s _ _
    · rw [jobRmw_fails f range ok]; exact jobRead_flows slot s va n

theorem signalCounter_flows (n : Nat) : FlowsKept s (signalCounter slot n s).1 := by
  have added : FlowsKept s (addCounter slot n s).1 := jobRmw_flows slot s _ _ _
  unfold signalCounter
  dsimp only
  split
  · dsimp only
    exact added.trans (modTotals_flows slot _ _)
  · exact added

end

/-! ### Contributions -/

/-- The tables of the transport are the same, and a job at rest stays so. -/
structure TrafficKept (s t : State) : Prop extends TablesKept s t where
  rest : ∀ i : Fin 64, AtRest s i → AtRest t i

theorem TrafficKept.refl (s : State) : TrafficKept s s := ⟨.refl s, fun _ h => h⟩

theorem TrafficKept.trans {s t u : State} (h : TrafficKept s t) (g : TrafficKept t u) : TrafficKept s u :=
  ⟨h.toTablesKept.trans g.toTablesKept, fun i rest => g.rest i (h.rest i rest)⟩

theorem FlowsKept.traffic {s t : State} (h : FlowsKept s t) : TrafficKept s t := ⟨h.toTablesKept, fun _ rest => rest.of_stages h.stages⟩

section
variable (slot : Fin 64) (s : State)

/-- Counts of a job outside its transport, its tasks and the stage of its watch. -/
theorem modJob_traffic (f : Job → Job) (vmt : ∀ j : Job, (f j).vmt = j.vmt) (tasks : ∀ j : Job, (f j).tasks = j.tasks)
    (buckets : ∀ j : Job, (f j).buckets = j.buckets) (st : ∀ j : Job, (f j).watch.st = j.watch.st)
    (dropping : ∀ j : Job, (f j).watch.dropping = j.watch.dropping) : TrafficKept s (modJob slot f s) where
  toTablesKept := ⟨fun i => by rw [modJob_field slot s Job.vmt vmt i], .refl _, rfl, rfl, rfl, .of_eq rfl⟩
  rest i h := by
    obtain ⟨⟨waits, closing, drops⟩, none⟩ := h
    refine ⟨⟨(modJob_tasks slot (fun j d => by rw [tasks]) s).noWaits waits, ?_, ?_⟩, ?_⟩
    · rw [modJob_field slot s (fun j => j.watch.st) st i]; exact closing
    · rw [modJob_field slot s (fun j => j.watch.dropping) dropping i]; exact drops
    · rw [modJob_field slot s Job.buckets buckets i]; exact none

theorem modUpd_traffic (f : UpdCounts → UpdCounts) : TrafficKept s (modUpd slot f s) :=
  modJob_traffic slot s (fun j => { j with upd := f j.upd }) (fun _ => rfl) (fun _ => rfl) (fun _ => rfl) (fun _ => rfl) (fun _ => rfl)

/-- A count for no record goes to the tally of the watch. -/
theorem countConv_traffic (die : Fin 4) (c : Cnt) : TrafficKept s (countConv slot die none c s) := by
  have counted : ∀ u, TrafficKept u (modCtl slot (fun k => { k with counts := k.counts.add c }) u) := fun u =>
    modJob_traffic slot u (fun j => { j with ctl := { j.ctl with counts := j.ctl.counts.add c } }) (fun _ => rfl) (fun _ => rfl) (fun _ => rfl)
      (fun _ => rfl) (fun _ => rfl)
  have tallied : ∀ u, TrafficKept u (modWatch slot (fun w => w.count none c) u) := fun u =>
    modJob_traffic slot u (fun j => { j with watch := j.watch.count none c }) (fun _ => rfl) (fun _ => rfl) (fun _ => rfl) (fun _ => rfl)
      (fun _ => rfl)
  unfold countConv
  split
  · exact .refl s
  · exact (((counted s).trans (tallied _)).trans (pmuCount_links _ _ _ _ _ _).flows.traffic).trans (pmuCount_links _ _ _ _ _ _).flows.traffic

theorem bookUnit_traffic (k : Fin 20) (q : AccSum) : TrafficKept s (bookUnit slot k q s) := by
  have malformed : FlowsKept s (modStack k (fun x => { x with malformed := satInc x.malformed q.bad }) s) :=
    ⟨.of_changes (modStack_changes _ _ _) (by decide) (fun _ => rfl) rfl, .of_eq rfl⟩
  exact ((malformed.traffic.trans (countConv_traffic slot _ _ _)).trans (pmuCount_links _ _ _ _ _ _).flows.traffic).trans
    (pmuCount_links _ _ _ _ _ _).flows.traffic

theorem applyUnit_traffic (d fmt : Nat) (p : List Byte) (n off i : Nat) (acc : State × AccSum) :
    TrafficKept acc.1 (applyUnit slot d fmt p n off i acc).1 := by
  have votes : TrafficKept acc.1 (applyVotes slot d p off i acc.1).1 := (jobWrite_flows slot acc.1 _ _).traffic
  have block : TrafficKept acc.1 (applyBlock slot d fmt p n off i acc.1).1 :=
    ((jobWrite_flows slot acc.1 _ _).trans (jobWrite_flows slot _ _ _)).traffic
  unfold applyUnit
  dsimp only
  split
  · exact votes.trans (bookUnit_traffic slot _ _ _)
  · exact block.trans (bookUnit_traffic slot _ _ _)

theorem applyContribution_traffic (addr fmt off : Nat) (p : List Byte) : TrafficKept s (applyContribution slot addr fmt off p s) := by
  unfold applyContribution
  refine TrafficKept.trans ?_ (modUpd_traffic slot _ _)
  refine TrafficKept.trans ?_ (jobWrite_flows slot _ _ _).traffic
  exact List.foldlRecOn (motive := fun acc : State × AccSum => TrafficKept s acc.1) _ _ (.refl s)
    (fun acc kept i _ => kept.trans (applyUnit_traffic slot _ _ _ _ _ _ acc))

theorem lateContribution_traffic (addr fmt off : Nat) (p : List Byte) : TrafficKept s (lateContribution slot addr fmt off p s) := by
  have totals : ∀ f u, TrafficKept u (modTotals slot f u) := fun f u => (modTotals_flows slot u f).traffic
  have status : ∀ x d u, TrafficKept u (putBucketStatus slot x d u) := fun x d u => (jobWrite_flows slot u x _).traffic
  have late : ∀ d f, TrafficKept s (modUpd slot f (putBufStatus slot addr d s)) := fun d f =>
    (jobWrite_flows slot s addr _).traffic.trans (modUpd_traffic slot _ f)
  unfold lateContribution
  dsimp only
  split
  · exact (late _ _).trans (totals _ _)
  · split
    · exact (late _ _).trans (totals _ _)
    · split
      · exact (((late _ _).trans (status _ _ _)).trans (applyContribution_traffic slot _ _ _ _ _)).trans (totals _ _)
      · exact ((late _ _).trans (status _ _ _)).trans (totals _ _)

theorem contribute_traffic (addr fmt off : Nat) (p : List Byte) : TrafficKept s (contribute slot addr fmt off p s).1 := by
  unfold contribute
  dsimp only
  split
  · exact .refl s
  · split
    · split
      · dsimp only
        exact (applyContribution_traffic slot s addr fmt off p).trans (modTotals_flows slot _ _).traffic
      · exact .refl s
    · exact lateContribution_traffic slot s addr fmt off p

/-! ### Requests -/

theorem markLanded_flows (va n : Nat) : FlowsKept s (markLanded slot va n s) := by
  unfold markLanded
  split
  · exact .refl s
  · exact modJob_flows slot s (fun j => { j with landed := runsInsert (runsRemove j.landed va n) (va, n) }) (fun _ => rfl) (fun _ _ => rfl)
      (fun _ => rfl) (fun _ => rfl)

theorem applyBody_traffic (op : Byte) (p : Packet) (pl : Place) : TrafficKept s (applyBody slot op p pl s).1 := by
  unfold applyBody
  dsimp only
  split
  · exact (jobRead_flows slot s _ _).traffic
  · split
    · exact (jobRmw_flows slot s _ _ _).traffic
    · split
      · split
        · split
          · exact ((jobWrite_flows slot s _ _).trans (markLanded_flows slot _ _ _)).traffic
          · exact (jobWrite_flows slot s _ _).traffic
        · exact (jobWrite_flows slot s _ _).traffic
      · split
        · exact contribute_traffic slot s _ _ _ _
        · exact (signalCounter_flows slot s _).traffic

theorem applyRequest_traffic (op : Byte) (p : Packet) (pl : Place) : TrafficKept s (applyRequest slot op p pl s).1 := by
  have body := applyBody_traffic slot s op p pl
  unfold applyRequest
  dsimp only
  split
  · exact body
  · split
    · exact body.trans (signalCounter_flows slot _ _).traffic
    · exact body

end

end Sys2Proof.Machine
end
section
/-! SUPPORT. Arriving packets (spec/10_fabric_transport.md R338, R342, R360 to R366): the way of a packet to its job, its checks, the answers to
it and its place in the flow; and the obligation about requests. -/

namespace Sys2Proof.Machine

/-! ### The way to a job -/

section
variable {s t : State} (h : LinksOnly s t)
include h

theorem LinksOnly.objBits (k : ObjKey) : objBits t k = objBits s k := objBits_congr h.objs h.rst h.sec k

theorem LinksOnly.portEntry (p : Fin 32) : portEntry t p = portEntry s p := h.objBits _

theorem LinksOnly.ioDie (p : Fin 32) : ioDie t p = ioDie s p := by
  unfold Machine.ioDie
  rw [h.portEntry]

theorem LinksOnly.forOther (a : Arrival) : forOther t a = forOther s a := by
  unfold Machine.forOther
  rw [nodeValid_congr h.objs h.rst h.sec, ownNode_congr h.objs h.rst h.sec]

theorem LinksOnly.accepting : t.fabric.accepting = s.fabric.accepting := by
  obtain ⟨_, _, _, accepting⟩ := h.fabric
  exact accepting

theorem LinksOnly.jobKeys : t.sec.jobKeys = s.sec.jobKeys := by rw [h.sec]

theorem LinksOnly.check1 (op : Byte) (p : Packet) : check1 t op p = check1 s op p := by
  simp only [Machine.check1, slotOfJobId, nodeValid_congr h.objs h.rst h.sec, ownNode_congr h.objs h.rst h.sec, h.jobKeys, h.now]

theorem LinksOnly.openArrival (slot : Fin 64) (a : Arrival) : openArrival t slot a = openArrival s slot a := by
  unfold Machine.openArrival
  rw [h.jobKeys]

end

section
variable {s : State} {a : Arrival} {op : Byte} {slot : Fin 64}

/-- Of the frame that arrived, only the payload differs in the packet that a job takes. -/
theorem openArrival_opened (s : State) (slot : Fin 64) (a : Arrival) :
    ∃ payload, openArrival s slot a = { a with pkt := { a.pkt with payload := payload } } := by
  unfold openArrival
  split
  · exact ⟨_, rfl⟩
  · exact ⟨a.pkt.payload, rfl⟩

/-- A frame that no fault of it or of its port drops goes on. -/
theorem receiveVmt_whole (fec : a.fecBad = 0) (faulty : frameFaulty s a = false) (lane : a.pkt.vl ≠ 7)
    (whole : a.fcsOk = true ∨ relays s a = true) (f : Arrival → Fin 64 → State → State) :
    receiveVmt a op f s = receiveWhole a op f (rxFillTo a.port a.shim.vl (fun b => b + arrivalBytes s a) (countFec a s)) := by
  have stands : ¬ (frameFaulty (countFec a s) a || decide (a.pkt.vl = 7)) = true := by
    rw [decide_eq_false lane, Bool.or_false, show frameFaulty (countFec a s) a = false from faulty]
    exact Bool.false_ne_true
  have goesOn : ¬ (!a.fcsOk && !relays (countFec a s) a) = true := by
    rcases whole with fcs | relayed
    · rw [fcs]; exact Bool.false_ne_true
    · rw [show relays (countFec a s) a = true from relayed, Bool.not_true, Bool.and_false]; exact Bool.false_ne_true
  unfold receiveVmt
  dsimp only
  rw [if_neg (not_not_intro fec), if_neg stands, if_neg goesOn]
  rfl

/-- A frame that reaches a job is handed to it as its port took it. -/
theorem receiveVmt_reaches (h : Reaches s a op slot) (f : Arrival → Fin 64 → State → State) :
    receiveVmt a op f s = f (openArrival s slot a) slot (atPort a s) := by
  obtain ⟨fec, fcs, faulty, lane, accepting, mine, job⟩ := h
  obtain ⟨v, counted⟩ : ∃ v, countRx a.port (rxFillTo a.port a.shim.vl (fun b => b + arrivalBytes s a) (countFec a s)) = v := ⟨_, rfl⟩
  have port : atPort a s = freeCredits a v := by rw [← counted]; rfl
  have entered : LinksOnly s v := by
    rw [← counted]
    exact ((modPortErr_links a.port s _).trans (rxFillTo_links _ _ _ _)).trans (modPortErr_links _ _ _)
  have taken := atPort_links s a
  rw [port] at taken ⊢
  rw [receiveVmt_whole fec faulty lane (.inl fcs)]
  unfold receiveWhole
  dsimp only
  rw [counted, entered.accepting, accepting, if_neg (by decide), entered.forOther, mine, if_neg (by decide), taken.check1, job]
  exact congrArg (fun b => f b slot (freeCredits a v)) (taken.openArrival slot a)

end

/-! ### The checks (R360) -/

section
variable {s t : State} (h : SameWaits s t)
include h

theorem SameWaits.objBits (k : ObjKey) : objBits t k = objBits s k := objBits_congr h.objs h.rst h.sec k

/-- The checks go by objects, the pages of the job and its buffers. -/
theorem SameWaits.checkRequest {slot : Fin 64} (st : jobSt t slot = jobSt s slot) (src : BitVec 18) (op : Byte) (p : Packet) :
    checkRequest t slot src op p = checkRequest s slot src op p := by
  have buf : ∀ addr, bufAt t slot addr = bufAt s slot addr := fun addr => by simp only [bufAt, jobNat, h.peek]
  have range : ∀ w, reach t slot op p w = reach s slot op p w := fun w => by simp only [reach, reachUnit, buf]
  have window : findWindow t slot src op p = findWindow s slot src op p := by simp only [findWindow, h.objs, range]
  have rights : ∀ va n r w, mapped t slot va n r w = mapped s slot va n r w := fun va n r w => by simp only [mapped, h.translate]
  have counters : ctrCount t slot = ctrCount s slot := by simp only [ctrCount, jobFld, h.objBits]
  have planes : ∀ w va, check7acc t slot w p va = check7acc s slot w p va := fun w va => by
    unfold check7acc
    rw [buf]
  have last : ∀ w, check7 t slot w op p = check7 s slot w op p := fun w => by
    unfold check7
    dsimp only
    rw [counters, range, rights, planes]
  simp only [Machine.checkRequest, st, window, last]

end

/-! ### Answers -/

/-- An answer to a request leaves memory, W and what is disposed of its flow, and the hold; a job at rest stays so. -/
structure AnswerOnly (slot : Fin 64) (peer : BitVec 18) (s t : State) : Prop where
  mem : t.mem = s.mem
  rxW : (flowOf t slot peer).rxW = (flowOf s slot peer).rxW
  disposed : (flowOf t slot peer).disposed = (flowOf s slot peer).disposed
  hold : t.fabric.hold = s.fabric.hold
  rest : AtRest s slot → AtRest t slot

section
variable {slot : Fin 64} {peer : BitVec 18} {s t u : State}

theorem AnswerOnly.trans (h : AnswerOnly slot peer s t) (g : AnswerOnly slot peer t u) : AnswerOnly slot peer s u :=
  ⟨g.mem.trans h.mem, g.rxW.trans h.rxW, g.disposed.trans h.disposed, g.hold.trans h.hold, fun rest => g.rest (h.rest rest)⟩

theorem LinksOnly.answerOnly (h : LinksOnly s t) : AnswerOnly slot peer s t := by
  obtain ⟨_, hold, _⟩ := h.fabric
  have flow := h.flows.flowOf slot peer
  exact ⟨h.mem, congrArg Flow.rxW flow, congrArg Flow.disposed flow, hold, fun rest => rest.of_stages h.flows.stages⟩

end

section
variable (slot : Fin 64) (peer : BitVec 18) (s : State)

theorem modFlow_answerOnly (f : Flow → Flow) (rxW : ∀ k : Flow, (f k).rxW = k.rxW) (disposed : ∀ k : Flow, (f k).disposed = k.disposed) :
    AnswerOnly slot peer s (modFlow slot peer f s) :=
  ⟨rfl, by rw [flowOf_modFlow, rxW], by rw [flowOf_modFlow, disposed], rfl, fun rest => rest.of_stages (modFlow_stages slot peer s f)⟩

theorem modCounts_answerOnly (f : VmtCounts → VmtCounts) : AnswerOnly slot peer s (modCounts slot f s) :=
  ⟨rfl, by rw [flowOf_modCounts], by rw [flowOf_modCounts], rfl, fun rest => rest.of_stages (modVmt_stages slot s _)⟩

theorem cachePut_answerOnly (k : CacheKey) (ans : CachedAnswer) : AnswerOnly slot peer s (cachePut k ans s) :=
  ⟨rfl, rfl, rfl, rfl, fun rest => rest.of_stages (.of_eq rfl)⟩

theorem sendResp_links (a : Arrival) (bytes : List Byte) (poison : Bool) : LinksOnly s (sendResp slot a bytes poison s) :=
  sendAnswer_links _ _ _ _ _ _

/-- An answer is kept in the reply cache under its time. -/
theorem cachePut_find (k : CacheKey) (ans : CachedAnswer) :
    (cachePut k ans s).fabric.cache.find k = some ⟨ans, s.clock.now⟩ := AMap.find_put_same _ _ _

theorem dropContribution_flows (op : Byte) : FlowsKept s (dropContribution slot op s) := by
  unfold dropContribution
  split
  · exact modTotals_flows slot s _
  · exact .refl s

theorem dropContribution_mem (op : Byte) : (dropContribution slot op s).mem = s.mem := by
  unfold dropContribution
  split <;> rfl

end

/-- A request was refused with a code that the reply cache keeps. -/
structure RefusedWith (slot : Fin 64) (a : Arrival) (code : Byte) (s t : State) : Prop where
  answers : AnswerOnly slot a.pkt.src s t
  cached : t.fabric.cache.find (keyOf slot a.pkt) = some ⟨.refuse code, s.clock.now⟩
  unnoted : a.pkt.seq ∈ (flowOf t slot a.pkt.src).unnoted
  counted : t.jobs[slot].vmt.counts.refusedOut = satInc s.jobs[slot].vmt.counts.refusedOut 1

section
variable {slot : Fin 64} {a : Arrival} {code : Byte} {s : State} (code_ne : code ≠ rfBUSY) (free : cacheFree s slot = true)
include code_ne free

theorem refuseCached_refuses : ∃ t, refuseCached slot a code s = (t, true) ∧ RefusedWith slot a code s t := by
  obtain ⟨u, cached⟩ : ∃ u, cachePut (keyOf slot a.pkt) (.refuse code) s = u := ⟨_, rfl⟩
  obtain ⟨v, noted⟩ : ∃ v, modFlow slot a.pkt.src (fun f => { f with unnoted := f.unnoted ++ [a.pkt.seq] }) u = v := ⟨_, rfl⟩
  obtain ⟨w, counted⟩ : ∃ w, modCounts slot (fun k => { k with refusedOut := satInc k.refusedOut 1 }) v = w := ⟨_, rfl⟩
  have sent : LinksOnly w (sendRefuse slot a code v) := by
    rw [← counted]
    exact sendAnswer_links _ _ _ _ _ _
  have kept : AnswerOnly slot a.pkt.src s w := by
    have first : AnswerOnly slot a.pkt.src s u := by rw [← cached]; exact cachePut_answerOnly slot _ s _ _
    have second : AnswerOnly slot a.pkt.src u v := by rw [← noted]; exact modFlow_answerOnly slot _ u _ (fun _ => rfl) (fun _ => rfl)
    have third : AnswerOnly slot a.pkt.src v w := by rw [← counted]; exact modCounts_answerOnly slot _ v _
    exact (first.trans second).trans third
  have entry : w.fabric.cache.find (keyOf slot a.pkt) = some ⟨.refuse code, s.clock.now⟩ := by
    rw [← counted, ← noted, ← cached]
    exact cachePut_find s _ _
  have busy : ¬ (decide (code = rfBUSY) || !cacheFree s slot) = true := by
    rw [decide_eq_false code_ne, free]
    exact Bool.false_ne_true
  refine ⟨sendRefuse slot a code v, ?_, kept.trans sent.answerOnly, ?_, ?_, ?_⟩
  · unfold refuseCached
    rw [if_neg busy]
    dsimp only
    rw [cached, noted]
  · obtain ⟨cache, _⟩ := sent.fabric
    rw [cache, entry]
  · rw [sent.flows.flowOf, ← counted, flowOf_modCounts, ← noted, flowOf_modFlow]
    exact List.mem_append_right _ List.mem_cons_self
  · rw [sent.flows.counts, ← counted, modCounts_counts, ← noted, modFlow_counts, ← cached]
    rfl

theorem refuse_refuses (op : Byte) : ∃ t, refuse slot a op code s = (t, true) ∧ RefusedWith slot a code s t := by
  obtain ⟨t, refused, answers, cached, unnoted, counted⟩ := refuseCached_refuses (a := a) code_ne free
  have dropped := dropContribution_flows slot t op
  obtain ⟨cache, hold, _⟩ := dropped.fabric
  have flow := dropped.flowOf slot a.pkt.src
  have kept : AnswerOnly slot a.pkt.src t (dropContribution slot op t) :=
    ⟨dropContribution_mem slot t op, congrArg Flow.rxW flow, congrArg Flow.disposed flow, hold, fun rest => rest.of_stages dropped.stages⟩
  refine ⟨dropContribution slot op t, ?_, answers.trans kept, ?_, ?_, ?_⟩
  · unfold refuse
    rw [refused]
    rfl
  · rw [cache, cached]
  · rw [flow]; exact unnoted
  · rw [dropped.counts, counted]

end

/-! ### Order (R338, R363) -/

/-- A request is the next of its flow, nothing is held, and its job is at rest. -/
structure ComesNext (s : State) (slot : Fin 64) (a : Arrival) : Prop where
  next : a.pkt.seq = (flowOf s slot a.pkt.src).rxW + 1
  disposed : (flowOf s slot a.pkt.src).disposed = []
  hold : s.fabric.hold = []
  rest : AtRest s slot

section
variable {s t : State} {slot : Fin 64} {a : Arrival}

theorem ComesNext.answer (h : ComesNext s slot a) (g : AnswerOnly slot a.pkt.src s t) : ComesNext t slot a :=
  ⟨by rw [g.rxW]; exact h.next, g.disposed.trans h.disposed, g.hold.trans h.hold, g.rest h.rest⟩

theorem ComesNext.traffic (h : ComesNext s slot a) (g : TrafficKept s t) : ComesNext t slot a := by
  obtain ⟨_, hold, _⟩ := g.fabric
  have flow := g.flowOf slot a.pkt.src
  exact ⟨by rw [flow]; exact h.next, by rw [flow]; exact h.disposed, hold.trans h.hold, g.rest slot h.rest⟩

theorem heldAt_none (hold : s.fabric.hold = []) (slot : Fin 64) (peer : BitVec 18) (seq : BitVec 32) : heldAt s slot peer seq = none := by
  unfold heldAt
  rw [hold]
  rfl

/-- W moves to a request that comes next and is disposed of. -/
theorem ComesNext.settle_disposeAnd (h : ComesNext s slot a) (t : State) (settled : t = settle slot (disposeAnd slot a.pkt.src a.pkt.seq s)) :
    flowOf t slot a.pkt.src = { flowOf s slot a.pkt.src with rxW := a.pkt.seq, disposed := [], ackDue := true } ∧ t.mem = s.mem ∧
    t.fabric.cache = s.fabric.cache ∧ t.jobs[slot].vmt.counts = s.jobs[slot].vmt.counts := by
  obtain ⟨next, disposed, hold, rest⟩ := h
  obtain ⟨u, gone⟩ : ∃ u, dispose slot a.pkt.src a.pkt.seq s = u := ⟨_, rfl⟩
  obtain ⟨v, moved⟩ : ∃ v, modFlow slot a.pkt.src (fun f => advanceW f.disposed.length f) u = v := ⟨_, rfl⟩
  have advanced : disposeAnd slot a.pkt.src a.pkt.seq s = v := by
    unfold disposeAnd
    rw [hold, gone]
    unfold advance
    dsimp only
    rw [moved, heldAt_none (by rw [← moved, ← gone]; exact hold)]
  have flow : flowOf v slot a.pkt.src = { flowOf s slot a.pkt.src with rxW := a.pkt.seq, disposed := [], ackDue := true } := by
    rw [← moved, flowOf_modFlow, ← gone, dispose, flowOf_modFlow, disposed]
    simp [advanceW, next]
  have rest' : AtRest v slot := by
    rw [← moved, ← gone]
    exact (rest.of_stages (modFlow_stages slot _ s _)).of_stages (modFlow_stages slot _ _ _)
  have quiet := rest'.settle
  obtain ⟨cache, _⟩ := quiet.fabric
  rw [settled, advanced, quiet.flows.flowOf, flow, quiet.mem, cache, quiet.flows.counts, ← moved, modFlow_counts, ← gone, dispose, modFlow_counts]
  exact ⟨rfl, rfl, rfl, rfl⟩

end

/-! ### A request that comes next -/

section
variable {s u : State} {slot : Fin 64} {a : Arrival} {op : Byte} {pl : Place} {v : Served}
  (applied : applyRequest slot op a.pkt pl s = (u, v))
include applied

theorem serve_data {bs : List Byte} {p : Bool} (data : v = .data bs p ∨ v = .done) :
    ∃ t, serve slot a op pl s = (t, true) ∧ AnswerOnly slot a.pkt.src u t ∧ t.fabric.cache = u.fabric.cache := by
  unfold serve
  rw [applied]
  rcases data with rfl | rfl
  · have sent := sendResp_links slot u a bs p
    obtain ⟨cache, _⟩ := sent.fabric
    exact ⟨_, rfl, sent.answerOnly, cache⟩
  · exact ⟨_, rfl, modFlow_answerOnly slot _ u _ (fun _ => rfl) (fun _ => rfl), rfl⟩

theorem serve_old {x : BitVec 64} (old : v = .old x) :
    ∃ t, serve slot a op pl s = (t, true) ∧ AnswerOnly slot a.pkt.src u t ∧
      t.fabric.cache.find (keyOf slot a.pkt) = some ⟨.old x, u.clock.now⟩ := by
  unfold serve
  rw [applied, old]
  have sent := sendResp_links slot (cachePut (keyOf slot a.pkt) (.old x) u) a (leBytes 8 x.toNat) false
  obtain ⟨cache, _⟩ := sent.fabric
  exact ⟨_, rfl, (cachePut_answerOnly slot _ u _ _).trans sent.answerOnly, by rw [cache, cachePut_find]⟩

theorem serve_refused {code : Byte} (refused : v = .refused code) (code_ne : code ≠ rfBUSY) (free : cacheFree u slot = true) :
    ∃ t, serve slot a op pl s = (t, true) ∧ RefusedWith slot a code u t := by
  unfold serve
  rw [applied, refused]
  dsimp only
  split
  · exact refuse_refuses code_ne free op
  · exact refuseCached_refuses code_ne free

end

/-- A request that fails a check is disposed of once it is refused. -/
theorem fresh_refused {s t : State} {slot : Fin 64} {a : Arrival} {op : Byte} {code : Byte}
    (checked : checkRequest s slot a.pkt.src op a.pkt = .error code) (refused : refuse slot a op code s = (t, true)) :
    fresh slot a op s = disposeAnd slot a.pkt.src a.pkt.seq t := by
  unfold fresh
  dsimp only
  rw [checked]
  dsimp only
  rw [refused]
  rfl

section
variable {s : State} {slot : Fin 64} {a : Arrival} {op : Byte} (h : ComesNext s slot a)
include h

/-- Check 2 passes a request that comes next. -/
theorem ComesNext.check2 : check2 slot a op s = fresh slot a op s := by
  have ahead : a.pkt.seq - (flowOf s slot a.pkt.src).rxW = 1 := by rw [h.next, BitVec.add_comm, BitVec.add_sub_cancel]
  have later : seqLater a.pkt.seq (flowOf s slot a.pkt.src).rxW = true := by
    unfold seqLater
    rw [ahead]
    decide
  unfold Machine.check2
  dsimp only
  rw [later, h.disposed, ahead, heldAt_none h.hold]
  rfl

theorem ComesNext.fresh_served {pl : Place} {t : State} (checked : checkRequest s slot a.pkt.src op a.pkt = .ok pl)
    (room : op = opATOMIC → cacheFree s slot = true) (served : serve slot a op pl s = (t, true)) :
    fresh slot a op s = disposeAnd slot a.pkt.src a.pkt.seq t := by
  have inOrder : ¬ (a.pkt.fin && (flowOf s slot a.pkt.src).rxW + 1 != a.pkt.seq) = true := by
    rw [← h.next, bne_self_eq_false, Bool.and_false]
    exact Bool.false_ne_true
  have keeps : ¬ (decide (op = opATOMIC) && !cacheFree s slot) = true := by
    by_cases atomic : op = opATOMIC
    · rw [room atomic, Bool.not_true, Bool.and_false]; exact Bool.false_ne_true
    · rw [decide_eq_false atomic, Bool.false_and]; exact Bool.false_ne_true
  unfold fresh
  dsimp only
  rw [checked]
  dsimp only
  rw [if_neg inOrder, if_neg keeps, served]
  rfl

end

/-- What a target makes of a request that has come next and that it disposes of, in terms of the state that its answer left. -/
theorem ComesNext.disposes {s v t : State} {slot : Fin 64} {a : Arrival} (h : ComesNext s slot a) (answers : AnswerOnly slot a.pkt.src s v)
    (done : t = settle slot (disposeAnd slot a.pkt.src a.pkt.seq v)) :
    t.mem = s.mem ∧ Disposed t a slot ∧ t.fabric.cache = v.fabric.cache ∧
    (flowOf t slot a.pkt.src).unnoted = (flowOf v slot a.pkt.src).unnoted ∧ t.jobs[slot].vmt.counts = v.jobs[slot].vmt.counts := by
  obtain ⟨flow, mem, cache, counts⟩ := (h.answer answers).settle_disposeAnd t done
  unfold Disposed
  rw [flow]
  exact ⟨mem.trans answers.mem, ⟨rfl, rfl, rfl⟩, cache, rfl, counts⟩

/-- The request that a target takes from a frame that reaches a job. -/
theorem doRequest_reaches {s : State} {slot : Fin 64} {a : Arrival} {op : Byte} (reaches : Reaches s a op slot) (next : NextInOrder s a slot)
    (calm : Calm s slot) :
    doRequest a op s = settle slot (fresh slot (openArrival s slot a) op (atTarget a slot s)) ∧
    ComesNext (atTarget a slot s) slot (openArrival s slot a) := by
  obtain ⟨has, disposed, seq, hold⟩ := next
  have port := atPort_links s a
  obtain ⟨_, hold', _⟩ := port.fabric
  obtain ⟨payload, opened⟩ := openArrival_opened s slot a
  have flow : flowOf (atTarget a slot s) slot a.pkt.src = { flowOf s slot a.pkt.src with ioDie := ioDie s a.port } := by
    rw [atTarget, flowOf_modFlow, port.flows.flowOf]
  have comes : ComesNext (atTarget a slot s) slot (openArrival s slot a) := by
    rw [opened]
    exact ⟨by rw [flow]; exact seq, by rw [flow]; exact disposed, hold'.trans hold,
      (calm.atRest.of_stages port.flows.stages).of_stages (modFlow_stages slot _ _ _)⟩
  refine ⟨?_, comes⟩
  have claims : claimFlow slot (openArrival s slot a).pkt.src (atPort a s) = some (atPort a s) := by
    rw [opened]
    exact claimFlow_of_hasFlow ((port.flows.hasFlow slot a.pkt.src).trans has)
  have target : modFlow slot (openArrival s slot a).pkt.src
      (fun f => { f with ioDie := ioDie (atPort a s) (openArrival s slot a).port }) (atPort a s) = atTarget a slot s := by
    rw [port.ioDie, opened]
    rfl
  rw [doRequest, receiveVmt_reaches reaches]
  unfold request
  rw [claims]
  dsimp only
  rw [target, comes.check2]

/-- Opcodes that no lane takes are reserved. -/
theorem checkRequest_reserved (s : State) (slot : Fin 64) (src : BitVec 18) {op : Byte} (p : Packet)
    (other : op ∉ [opLOAD, opSTORE, opATOMIC, opACCUMULATE, opSIGNAL]) : checkRequest s slot src op p = .error rfBAD_FIELD := by
  have lane : laneOk op p.vl = false := by
    simp only [List.mem_cons, List.not_mem_nil, or_false, not_or] at other
    obtain ⟨load, store, atomic, accumulate, signal⟩ := other
    simp [laneOk, load, store, atomic, accumulate, signal]
  have fails : check3 op p = false := by
    unfold check3
    rw [lane]
    rfl
  unfold checkRequest
  rw [fails]
  rfl

section
variable {s : State} {slot : Fin 64} {a : Arrival} {op : Byte} {pl : Place} {u : State} {v : Served} (h : ComesNext s slot a)
include h

/-- A request that passes its checks is applied and disposed of. -/
theorem ComesNext.serves {t : State} (done : t = settle slot (fresh slot a op s)) (checked : checkRequest s slot a.pkt.src op a.pkt = .ok pl)
    (applied : applyRequest slot op a.pkt pl s = (u, v)) (room : op = opATOMIC → cacheFree s slot = true) :
    ((∃ bs p, v = .data bs p) ∨ v = .done → t.mem = u.mem ∧ Disposed t a slot ∧ t.fabric.cache = s.fabric.cache) ∧
    (∀ x, v = .old x → t.mem = u.mem ∧ Disposed t a slot ∧ t.fabric.cache.find (keyOf slot a.pkt) = some ⟨.old x, s.clock.now⟩) ∧
    (∀ code, v = .refused code → code ≠ rfBUSY → cacheFree s slot = true →
      t.mem = u.mem ∧ Disposed t a slot ∧ t.fabric.cache.find (keyOf slot a.pkt) = some ⟨.refuse code, s.clock.now⟩) := by
  have kept : TrafficKept s u := by
    have left := applyRequest_traffic slot s op a.pkt pl
    rw [applied] at left
    exact left
  obtain ⟨cache, _⟩ := kept.fabric
  have comes := h.traffic kept
  refine ⟨fun data => ?_, fun x old => ?_, fun code refused code_ne free => ?_⟩
  · obtain ⟨w, served, answers, same⟩ : ∃ w, serve slot a op pl s = (w, true) ∧
        AnswerOnly slot a.pkt.src u w ∧ w.fabric.cache = u.fabric.cache := by
      rcases data with ⟨bs, p, rfl⟩ | rfl
      · exact serve_data applied (.inl rfl)
      · exact serve_data (bs := []) (p := false) applied (.inr rfl)
    obtain ⟨mem, disposed, tables, _⟩ := comes.disposes answers rfl
    rw [done, h.fresh_served checked room served]
    exact ⟨mem, disposed, (tables.trans same).trans cache⟩
  · obtain ⟨w, served, answers, entry⟩ := serve_old applied old
    obtain ⟨mem, disposed, tables, _⟩ := comes.disposes answers rfl
    rw [done, h.fresh_served checked room served]
    exact ⟨mem, disposed, by rw [tables, entry, kept.now]⟩
  · obtain ⟨w, served, refusal⟩ := serve_refused applied refused code_ne ((kept.cacheFree slot).trans free)
    obtain ⟨mem, disposed, tables, _⟩ := comes.disposes refusal.answers rfl
    rw [done, h.fresh_served checked room served]
    exact ⟨mem, disposed, by rw [tables, refusal.cached, kept.now]⟩

/-- A request that fails a check is refused and disposed of. -/
theorem ComesNext.refuses {t : State} {code : Byte} (done : t = settle slot (fresh slot a op s))
    (checked : checkRequest s slot a.pkt.src op a.pkt = .error code) (code_ne : code ≠ rfBUSY) (free : cacheFree s slot = true) :
    t.mem = s.mem ∧ Disposed t a slot ∧ t.fabric.cache.find (keyOf slot a.pkt) = some ⟨.refuse code, s.clock.now⟩ ∧
    a.pkt.seq ∈ (flowOf t slot a.pkt.src).unnoted ∧ t.jobs[slot].vmt.counts.refusedOut = satInc s.jobs[slot].vmt.counts.refusedOut 1 := by
  obtain ⟨w, refused, refusal⟩ := refuse_refuses (a := a) code_ne free op
  obtain ⟨mem, disposed, tables, unnoted, counts⟩ := h.disposes refusal.answers rfl
  rw [done, fresh_refused checked refused]
  exact ⟨mem, disposed, by rw [tables, refusal.cached], by rw [unnoted]; exact refusal.unnoted, by rw [counts, refusal.counted]⟩

end

/-- Settles O53: a frame that reaches a job is handed to it as its port took it (`doRequest_reaches`), where its checks stand as they stood
before (`SameWaits.checkRequest`); the request is applied or refused, which leaves the order of its flow, and W then moves to it
(`ComesNext.settle_disposeAnd`). -/
theorem vmtRequestsAreAppliedOrRefused : Obligations.VmtRequestsAreAppliedOrRefused := by
  unfold Obligations.VmtRequestsAreAppliedOrRefused
  rintro c a b op s slot row reaches next calm rfl
  obtain ⟨runs, comes⟩ := doRequest_reaches reaches next calm
  have completes : ∀ P : State → Prop, P (settle slot (fresh slot (openArrival s slot a) op (atTarget a slot s))) → Completes c s P :=
      fun P holds => by
    rw [← runs] at holds
    rcases row with ⟨rfl, rfl⟩ | ⟨rfl, rfl⟩ | ⟨rfl, rfl⟩ | ⟨rfl, rfl⟩ | ⟨rfl, rfl⟩ | rfl <;> exact ⟨_, rfl, holds⟩
  have port := atPort_links s a
  obtain ⟨tables, _⟩ := port.fabric
  have free : cacheFree (atTarget a slot s) slot = cacheFree s slot := port.flows.cacheFree slot
  have counts : (atTarget a slot s).jobs[slot].vmt.counts = s.jobs[slot].vmt.counts := (modFlow_counts slot _ _ _).trans (port.flows.counts slot)
  have checks : ∀ p, checkRequest (atTarget a slot s) slot a.pkt.src op p = checkRequest s slot a.pkt.src op p := fun p =>
    (port.sameWaits.trans (modVmt_sameWaits slot _ _)).checkRequest ((modVmt_jobSt slot _ _ slot).trans (port.jobSt slot)) _ op p
  have now : (atTarget a slot s).clock.now = s.clock.now := port.now
  obtain ⟨payload, opened⟩ := openArrival_opened s slot a
  rw [opened] at comes completes ⊢
  refine ⟨fun pl u v checked applied room => ?_, fun code checked code_ne cacheFree => ?_, checkRequest_reserved s slot _ _⟩
  · obtain ⟨data, old, refused⟩ := comes.serves rfl ((checks _).trans checked) applied (fun atomic => free.trans (room atomic))
    refine ⟨fun h => ?_, fun x h => ?_, fun code h code_ne room => ?_⟩
    · obtain ⟨mem, disposed, cache⟩ := data h
      exact completes _ ⟨mem, disposed, cache.trans tables⟩
    · obtain ⟨mem, disposed, cache⟩ := old x h
      exact completes _ ⟨mem, disposed, by rw [← now]; exact cache⟩
    · obtain ⟨mem, disposed, cache⟩ := refused code h code_ne (free.trans room)
      exact completes _ ⟨mem, disposed, by rw [← now]; exact cache⟩
  · obtain ⟨mem, disposed, cache, unnoted, counted⟩ := comes.refuses rfl ((checks _).trans checked) code_ne (free.trans cacheFree)
    rw [counts] at counted
    exact completes _ ⟨mem.trans port.mem, disposed, by rw [← now]; exact cache, unnoted, counted⟩

end Sys2Proof.Machine
end
section
/-! SUPPORT. Answers that end requests (spec/10_fabric_transport.md R351, R352, R360, R364, R366, R369): RESP, REFUSE and ACK arrive at their
source, and ACKs are sent. -/

namespace Sys2Proof.Machine

/-! ### Requests that wait for their answers -/

section
variable {s t : State} {slot : Fin 64} {peer : BitVec 18} {seq : BitVec 32} {o : Outstanding}

theorem outOf_of_out (h : (flowOf t slot peer).out = (flowOf s slot peer).out) : outOf t slot peer seq = outOf s slot peer seq := by
  unfold outOf
  rw [h]

/-- A request is found by its sequence number. -/
theorem outOf_seq (h : outOf s slot peer seq = some o) : o.seq = seq := by
  have found := List.find?_some h
  exact eq_of_beq found

theorem outOf_dropped (h : (flowOf t slot peer).out = (flowOf s slot peer).out.filter (fun x => x.seq != seq)) : outOf t slot peer seq = none := by
  unfold outOf
  rw [h, List.find?_eq_none]
  intro x member same
  obtain ⟨_, other⟩ := List.mem_filter.mp member
  rw [eq_of_beq same, bne_self_eq_false] at other
  exact Bool.false_ne_true other

/-- A request that has ended stays so as others end. -/
theorem outOf_filter {p : Outstanding → Bool} (h : (flowOf t slot peer).out = (flowOf s slot peer).out.filter p)
    (ended : outOf s slot peer seq = none) : outOf t slot peer seq = none := by
  unfold outOf at ended ⊢
  rw [List.find?_eq_none] at ended ⊢
  rw [h]
  exact fun x member => ended x (List.mem_filter.mp member).1

end

/-! ### The end of a request (R352) -/

/-- A request has ended, with nothing that landed: it stands in its flow no more, and the track of its task takes note of its outcome. -/
structure Ends (slot : Fin 64) (peer : BitVec 18) (o : Outstanding) (status : Option (BitVec 8)) (s t : State) : Prop where
  flow : flowOf t slot peer = { flowOf s slot peer with out := (flowOf s slot peer).out.filter (fun x => x.seq != o.seq) }
  counts : t.jobs[slot].vmt.counts = s.jobs[slot].vmt.counts
  reported : t.jobs[slot].vmt.reported = s.jobs[slot].vmt.reported
  own : ∀ k, o.req.task = some k → entryOf t k = { entryOf s k with run := (entryOf s k).run.onTrack (Track.answered o.req.pos status) }
  other : ∀ k, o.req.task ≠ some k → entryOf t k = entryOf s k
  rest : AtRest s slot → AtRest t slot

theorem SameWaits.entryOf {s t : State} (h : SameWaits s t) (k : TaskRef) : entryOf t k = entryOf s k :=
  TasksKept.entryOf (s := s) (t := t) (fun i d => by rw [h.jobDie]) k

section
variable (slot : Fin 64) (peer : BitVec 18) (o : Outstanding) (s : State)

theorem countEnd_flows (status : Option (BitVec 8)) (failed : Bool) : FlowsKept s (countEnd slot status failed s) := modTotals_flows slot s _

theorem countEnd_sameWaits (status : Option (BitVec 8)) (failed : Bool) : SameWaits s (countEnd slot status failed s) := modTotals_sameWaits slot s _

theorem dropOut_stages (seq : BitVec 32) : StagesKept s (dropOut slot peer seq s) := modFlow_stages slot peer s _

theorem dropOut_flow (seq : BitVec 32) :
    flowOf (dropOut slot peer seq s) slot peer = { flowOf s slot peer with out := (flowOf s slot peer).out.filter (fun x => x.seq != seq) } := by
  rw [dropOut, flowOf_modFlow]

/-- Nothing lands of an answer that fails, nor where the request has no destination. -/
theorem landAnswer_none (r : TxReq) (a : Answer) (nothing : a.status.isSome = true ∨ r.dest = .none) : landAnswer slot r a s = (s, a.status) := by
  unfold landAnswer
  cases status : a.status with
  | some c => rfl
  | none =>
    rcases nothing with failed | none
    · rw [status] at failed; exact nomatch failed
    · rw [none]

/-- A request that ends stands in its flow no more, and is counted. -/
def takenOff (status : Option (BitVec 8)) (failed : Bool) : State := countEnd slot status failed (dropOut slot peer o.seq s)

variable (status : Option (BitVec 8)) (failed : Bool)

theorem takenOff_flow : flowOf (takenOff slot peer o s status failed) slot peer =
    { flowOf s slot peer with out := (flowOf s slot peer).out.filter (fun x => x.seq != o.seq) } := by
  rw [takenOff, (countEnd_flows slot _ status failed).flowOf, dropOut_flow]

theorem takenOff_counts : (takenOff slot peer o s status failed).jobs[slot].vmt.counts = s.jobs[slot].vmt.counts := by
  rw [takenOff, (countEnd_flows slot _ status failed).counts, dropOut, modFlow_counts]

theorem takenOff_reported : (takenOff slot peer o s status failed).jobs[slot].vmt.reported = s.jobs[slot].vmt.reported := by
  rw [takenOff, (countEnd_flows slot _ status failed).vmt slot, dropOut, modFlow, modVmt_vmt]

theorem takenOff_entryOf (k : TaskRef) : entryOf (takenOff slot peer o s status failed) k = entryOf s k := by
  have dropped : SameWaits s (dropOut slot peer o.seq s) := modFlow_sameWaits slot peer s _
  exact (dropped.trans (countEnd_sameWaits slot _ status failed)).entryOf k

theorem takenOff_rest (rest : AtRest s slot) : AtRest (takenOff slot peer o s status failed) slot :=
  (rest.of_stages (dropOut_stages slot peer s o.seq)).of_stages (countEnd_flows slot _ status failed).stages

end

section
variable {slot : Fin 64} {peer : BitVec 18} {o : Outstanding} {s t : State}

/-- A task that takes note of an answer is not to fault while it is no PERMUTE and has no failure, or further requests. -/
def GoesOn (s : State) (o : Outstanding) (status : Option (BitVec 8)) (slot : Fin 64) : Prop :=
  ∀ k, o.req.task = some k → k.slot = slot ∧ isPermute (entryOf s k).desc = false ∧
    ∀ x, (entryOf s k).run.track = some x → (x.answered o.req.pos status).fail = none ∨ (x.answered o.req.pos status).left ≠ 0

/-- The end of a request of no task. -/
theorem endRequest_untasked (a : Answer) (failed : Bool) (nothing : a.status.isSome = true ∨ o.req.dest = .none) (task : o.req.task = none) :
    endRequest slot peer o a failed s = takenOff slot peer o s a.status failed := by
  have finished : finishRequest slot o.req a failed (dropOut slot peer o.seq s) = takenOff slot peer o s a.status failed := by
    unfold finishRequest
    dsimp only
    rw [landAnswer_none slot _ o.req a nothing, task]
    rfl
  rw [endRequest, finished]
  exact afterAnswer_none _ o.req (fun k own => nomatch task.symm.trans own)

/-- The end of a request of a task that goes on. -/
theorem endRequest_tasked (a : Answer) (failed : Bool) (nothing : a.status.isSome = true ∨ o.req.dest = .none) (on : GoesOn s o a.status slot)
    {k : TaskRef} (task : o.req.task = some k) :
    endRequest slot peer o a failed s = onTrack k (Track.answered o.req.pos a.status) (takenOff slot peer o s a.status failed) := by
  have finished : finishRequest slot o.req a failed (dropOut slot peer o.seq s) =
      onTrack k (Track.answered o.req.pos a.status) (takenOff slot peer o s a.status failed) := by
    unfold finishRequest
    dsimp only
    rw [landAnswer_none slot _ o.req a nothing, task]
    rfl
  obtain ⟨_, permute, fails⟩ := on k task
  rw [endRequest, finished]
  refine afterAnswer_none _ o.req (fun k' own => ?_)
  obtain rfl := Option.some.inj (task.symm.trans own)
  rw [entryOf_onTrack, takenOff_entryOf]
  refine ⟨permute, fun x track => ?_⟩
  rw [Run.track_onTrack] at track
  obtain ⟨y, before, rfl⟩ := Option.map_eq_some_iff.mp track
  exact fails y before

/-- A request whose answer lands nothing ends, and its task goes on. -/
theorem endRequest_ends (a : Answer) (failed : Bool) (nothing : a.status.isSome = true ∨ o.req.dest = .none) (on : GoesOn s o a.status slot) :
    Ends slot peer o a.status s (endRequest slot peer o a failed s) := by
  have flow := takenOff_flow slot peer o s a.status failed
  have counts := takenOff_counts slot peer o s a.status failed
  have reported := takenOff_reported slot peer o s a.status failed
  have entries := takenOff_entryOf slot peer o s a.status failed
  have rest := takenOff_rest slot peer o s a.status failed
  cases task : o.req.task with
  | none =>
    rw [endRequest_untasked a failed nothing task]
    exact ⟨flow, counts, reported, fun k own => (nomatch task.symm.trans own), fun k _ => entries k, rest⟩
  | some k =>
    obtain ⟨same, _⟩ := on k task
    rw [endRequest_tasked a failed nothing on task]
    refine ⟨by rw [onTrack_flowOf, flow], by rw [onTrack, modEntry_vmt, counts], by rw [onTrack, modEntry_vmt, reported], fun k' own => ?_,
      fun k' other => ?_, fun h => (rest h).onTrack k same _⟩
    · obtain rfl := Option.some.inj (task.symm.trans own)
      rw [entryOf_onTrack, entries]
    · rw [onTrack, entryOf_modEntry_other _ _ (fun own => other (task.trans (by rw [own]))), entries]

theorem Ends.outOf_none {status : Option (BitVec 8)} (h : Ends slot peer o status s t) : outOf t slot peer o.seq = none :=
  outOf_dropped (s := s) (by rw [h.flow])

theorem Ends.track {status : Option (BitVec 8)} (h : Ends slot peer o status s t) {k : TaskRef} {x : Track} (own : o.req.task = some k)
    (before : (entryOf s k).run.track = some x) : (entryOf t k).run.track = some (x.answered o.req.pos status) := by
  rw [h.own k own, Run.track_onTrack, before]
  rfl

end

/-! ### Packets that answer -/

section
variable (a : Arrival) (slot : Fin 64) (s : State)

theorem handle_resp : handle a opRESP slot s = settle slot (takeResp slot a s) := if_pos rfl

theorem handle_refuse : handle a opREFUSE slot s = settle slot (takeRefuse slot a s) := by
  unfold handle
  rw [if_neg (by decide), if_pos rfl]

theorem handle_ack : handle a opACK slot s = settle slot (takeAck slot a s) := by
  unfold handle
  rw [if_neg (by decide), if_neg (by decide), if_pos rfl]

end

/-! ### RESP (R351, R352) -/

section
variable {s u : State} {slot : Fin 64} {a : Arrival} {o : Outstanding} {tk : TaskRef} {k : Track}

/-- The state in which the answer of a LOAD lands, as its port took it. -/
theorem atAnswer_kept (slot : Fin 64) (a : Arrival) (o : Outstanding) (s : State) :
    StagesKept s (atAnswer a slot o s) ∧
    (flowOf (atAnswer a slot o s) slot a.pkt.src).out = (flowOf s slot a.pkt.src).out.filter (fun x => x.seq != o.seq) ∧
    (atAnswer a slot o s).jobs[slot].totals.reqApplied = s.jobs[slot].totals.reqApplied + 1 := by
  obtain ⟨v, echoed⟩ : ∃ v, ceEcho a.pkt.src o (some a.pkt.tryN.toNat) a.shim.ceEcho (atPort a s) = v := ⟨_, rfl⟩
  have arrived : LinksOnly s v := by
    rw [← echoed]
    exact (atPort_links s a).trans (ceEcho_links _ _ _ _ _)
  have ends : atAnswer a slot o s = countEnd slot none false (dropOut slot a.pkt.src o.seq v) := by rw [← echoed]; rfl
  have counted := countEnd_flows slot (dropOut slot a.pkt.src o.seq v) none false
  refine ⟨?_, ?_, ?_⟩
  · rw [ends]
    exact (arrived.flows.stages.trans (dropOut_stages slot _ v _)).trans counted.stages
  · rw [ends, counted.flowOf, dropOut_flow, arrived.flows.flowOf]
  · rw [ends, countEnd, modTotals_totals, dropOut, modFlow, modVmt_totals, arrived.totals]
    rfl

/-- A RESP with the bytes that a LOAD asked for ends it. -/
theorem takeResp_load {b : Arrival} (out : outOf s slot b.pkt.src b.pkt.seq = some o) (load : o.req.opcode = opLOAD)
    (length : b.pkt.payload.length = o.req.len) :
    takeResp slot b s = endRequest slot b.pkt.src o ⟨none, b.pkt.payload, b.pkt.poison⟩ false
      (ceEcho b.pkt.src o (some b.pkt.tryN.toNat) b.shim.ceEcho s) := by
  have atomic : (o.req.opcode == opATOMIC) = false := by rw [load]; decide
  have fits : ¬ (!(false && b.pkt.payload.length == 8) && !(o.req.opcode == opLOAD && b.pkt.payload.length == o.req.len)) = true := by
    simp [load, length]
  unfold takeResp
  dsimp only
  rw [out]
  dsimp only
  rw [atomic, if_neg fits, if_neg (by decide)]

theorem finishRequest_lands {r : TxReq} {va : Nat} {data : List Byte} (dest : r.dest = .land va) (task : r.task = some tk)
    (landed : jobWrite slot va data (countEnd slot none false s) = (u, .ok)) :
    finishRequest slot r ⟨none, data, false⟩ false s = onTrack tk (Track.answered r.pos none) u := by
  have lands : landAnswer slot r ⟨none, data, false⟩ (countEnd slot none false s) = (u, none) := by
    unfold landAnswer
    dsimp only
    rw [dest]
    dsimp only
    rw [landed]
    rfl
  unfold finishRequest
  dsimp only
  rw [lands, task]

/-- The data of a LOAD lands, and its task takes note of it. -/
theorem takeResp_lands {va : Nat} {b : Arrival} {payload : List Byte} (opened : b = { a with pkt := { a.pkt with payload := payload } })
    (out : outOf s slot a.pkt.src a.pkt.seq = some o) (load : o.req.opcode = opLOAD) (length : payload.length = o.req.len)
    (dest : o.req.dest = .land va) (poison : a.pkt.poison = false) (task : o.req.task = some tk) (clean : Clean s tk)
    (track : (entryOf s tk).run.track = some k) (landed : jobWrite slot va payload (atAnswer a slot o s) = (u, .ok)) :
    takeResp slot b (atPort a s) = onTrack tk (Track.answered o.req.pos none) u ∧ entryOf u tk = entryOf s tk := by
  obtain ⟨permute, ok⟩ := clean
  obtain ⟨stages, _⟩ := atAnswer_kept slot a o s
  have written : StagesKept (atAnswer a slot o s) u := by
    have kept := jobWrite_stages slot (atAnswer a slot o s) va payload
    rw [landed] at kept
    exact kept
  have entry : entryOf u tk = entryOf s tk := ((stages.trans written).entry tk).track track
  refine ⟨?_, entry⟩
  subst opened
  rw [takeResp_load (b := { a with pkt := { a.pkt with payload := payload } }) (((atPort_links s a).flows.outOf slot _ _).trans out) load length]
  dsimp only
  rw [poison, endRequest, finishRequest_lands dest task landed]
  refine afterAnswer_none _ _ (fun k' own => ?_)
  obtain rfl := Option.some.inj (task.symm.trans own)
  rw [entryOf_onTrack, entry]
  refine ⟨permute, fun x after => .inl ?_⟩
  rw [Run.track_onTrack, track] at after
  obtain rfl := Option.some.inj after
  exact ok k track

/-- RESP of a LOAD whose data lands. -/
theorem vmtResp_lands {va : Nat} {payload : List Byte} (reaches : Reaches s a opRESP slot) (calm : Calm s slot)
    (opened : openArrival s slot a = { a with pkt := { a.pkt with payload := payload } })
    (out : outOf s slot a.pkt.src a.pkt.seq = some o) (load : o.req.opcode = opLOAD) (length : payload.length = o.req.len)
    (dest : o.req.dest = .land va) (poison : a.pkt.poison = false) (task : o.req.task = some tk) (own : tk.slot = slot) (clean : Clean s tk)
    (track : (entryOf s tk).run.track = some k) (landed : jobWrite slot va payload (atAnswer a slot o s) = (u, .ok)) :
    Completes (.vmtResp a) s (fun t => t.mem = u.mem ∧ (entryOf t tk).run.track = some { k with left := k.left - 1 } ∧
      (flowOf t slot a.pkt.src).out = (flowOf s slot a.pkt.src).out.filter (fun x => x.seq != a.pkt.seq) ∧
      t.jobs[slot].totals.reqApplied = s.jobs[slot].totals.reqApplied + 1) := by
  obtain ⟨taken, entry⟩ := takeResp_lands opened out load length dest poison task clean track landed
  obtain ⟨w, noted⟩ : ∃ w, onTrack tk (Track.answered o.req.pos none) u = w := ⟨_, rfl⟩
  have runs : receiveVmt a opRESP (fun a => handle a opRESP) s = settle slot w := by
    rw [receiveVmt_reaches reaches, handle_resp, taken, noted]
  obtain ⟨stages, answered, applied⟩ := atAnswer_kept slot a o s
  have written : FlowsKept (atAnswer a slot o s) u ∧ u.jobs[slot].totals = (atAnswer a slot o s).jobs[slot].totals := by
    have kept := jobWrite_flows slot (atAnswer a slot o s) va payload
    have totals := jobWrite_totals slot (atAnswer a slot o s) va payload slot
    rw [landed] at kept totals
    exact ⟨kept, totals⟩
  obtain ⟨kept, totals⟩ := written
  have rest : AtRest w slot := by
    rw [← noted]
    exact ((calm.atRest.of_stages stages).of_stages kept.stages).onTrack tk own _
  have track' : (entryOf w tk).run.track = some { k with left := k.left - 1 } := by
    rw [← noted, entryOf_onTrack, entry, Run.track_onTrack, track]
    rfl
  have settled := rest.settle
  refine ⟨settle slot w, congrArg Host.Outcome.next runs, ?_, ?_, ?_, ?_⟩
  · rw [settled.mem, ← noted]; rfl
  · rw [(settled.flows.stages.entry tk).track track', track']
  · rw [settled.flows.flowOf, ← noted, onTrack_flowOf, kept.flowOf, answered, outOf_seq out]
  · rw [settled.totals, ← noted, onTrack, modEntry_totals, totals, applied]

end

end Sys2Proof.Machine
end
section
/-! SUPPORT. Refusals, acknowledgements and what ends with them (spec/10_fabric_transport.md R360, R364, R369). -/

namespace Sys2Proof.Machine

/-! ### Outstanding requests that change -/

section
variable {s : State} {slot : Fin 64} {peer : BitVec 18} {seq : BitVec 32} {o : Outstanding}

/-- A request that changes under its sequence number is found changed. -/
theorem outOf_modOut (f : Outstanding → Outstanding) (out : outOf s slot peer seq = some o) (same : (f o).seq = seq) :
    outOf (modOut slot peer seq f s) slot peer seq = some (f o) := by
  have mapped : ∀ l : List Outstanding, l.find? (fun x => x.seq == seq) = some o →
      (l.map (fun x => if x.seq = seq then f x else x)).find? (fun x => x.seq == seq) = some (f o) := fun l => by
    induction l with
    | nil => exact fun found => nomatch found
    | cons x rest ih =>
      intro found
      by_cases first : x.seq = seq
      · rw [List.find?_cons_of_pos (by simp [first])] at found
        obtain rfl := Option.some.inj found
        rw [List.map_cons, if_pos first, List.find?_cons_of_pos (by simp [same])]
      · rw [List.find?_cons_of_neg (by simp [first])] at found
        rw [List.map_cons, if_neg first, List.find?_cons_of_neg (by simp [first])]
        exact ih found
  unfold outOf at out ⊢
  rw [modOut, flowOf_modFlow]
  exact mapped _ out

theorem modOut_stages (f : Outstanding → Outstanding) : StagesKept s (modOut slot peer seq f s) := modFlow_stages slot peer s _

end

/-! ### REFUSE (R360, R364, R369) -/

section
variable {s : State} {slot : Fin 64} {a : Arrival} {o : Outstanding}

theorem noteAnswer_notes (slot : Fin 64) (peer : BitVec 18) (seq : BitVec 32) (s : State) :
    seq ∈ (flowOf (noteAnswer slot peer seq s) slot peer).notes ∧
    (flowOf (noteAnswer slot peer seq s) slot peer).out = (flowOf s slot peer).out := by
  rw [noteAnswer, flowOf_modFlow]
  refine ⟨?_, rfl⟩
  dsimp only
  split
  next noted => exact List.contains_iff_mem.mp noted
  next => exact List.mem_append_right _ List.mem_cons_self

/-- A refusal with a code is noted for the next ACK and traced, and its ECN echo is taken. -/
def refusalNoted (slot : Fin 64) (a : Arrival) (o : Outstanding) (code : Byte) (s : State) : State :=
  ceEcho a.pkt.src o (some a.pkt.tryN.toNat) a.shim.ceEcho
    (trace (some slot) o.req.die 4 0x39 (o.seq.toNat <<< 32 + code.toNat <<< 24 + a.pkt.src.toNat) (noteAnswer slot a.pkt.src a.pkt.seq s))

theorem refusalNoted_links (slot : Fin 64) (a : Arrival) (o : Outstanding) (code : Byte) (s : State) :
    LinksOnly (noteAnswer slot a.pkt.src a.pkt.seq s) (refusalNoted slot a o code s) := (trace_links _ _ _ _ _ _).trans (ceEcho_links _ _ _ _ _)

/-- A refusal counts by its code. -/
def countRefusal (slot : Fin 64) (code : Byte) (s : State) : State :=
  modCounts slot (fun k => if code == rfSTALE then { k with stale := satInc k.stale 1 } else { k with refusedIn := satInc k.refusedIn 1 }) s

theorem countRefusal_stages (slot : Fin 64) (code : Byte) (s : State) : StagesKept s (countRefusal slot code s) := by
  unfold countRefusal modCounts
  exact modVmt_stages slot s _

/-- After a refusal a request waits, or ends with the status of its code. -/
theorem takeRefuse_takes {code : Byte} (coded : code = a.pkt.payload.getD 0 0) (has : hasFlow s slot a.pkt.src = true)
    (length : a.pkt.payload.length = 8) (out : outOf s slot a.pkt.src a.pkt.seq = some o) :
    takeRefuse slot a s = if code = rfBUSY then takeBusy slot a.pkt.src o (refusalNoted slot a o code s)
      else endRequest slot a.pkt.src o ⟨some (refuseStatus code), [], false⟩ (code == rfSTALE)
        (countRefusal slot code (refusalNoted slot a o code s)) := by
  have out' : outOf (noteAnswer slot a.pkt.src a.pkt.seq s) slot a.pkt.src a.pkt.seq = some o := by
    obtain ⟨_, same⟩ := noteAnswer_notes slot a.pkt.src a.pkt.seq s
    rw [outOf_of_out same, out]
  have taken : ¬ (!hasFlow s slot a.pkt.src || decide (a.pkt.payload.length ≠ 8)) = true := by
    simp [has, length]
  unfold takeRefuse
  dsimp only
  rw [if_neg taken, out', coded]
  rfl

/-- A request that is answered BUSY at a time waits for a number of ticks. -/
def Outstanding.backOff (now wait : Nat) (o : Outstanding) : Outstanding :=
  { o with busyCount := o.busyCount + 1, busySince := now, busyUntil := some (now + wait) }

theorem takeBusy_waits {peer : BitVec 18} (first : o.busyCount = 0) :
    takeBusy slot peer o s = modOut slot peer o.seq (Outstanding.backOff s.clock.now (busyBaseNs s * 800 / 1000))
      (modCounts slot (fun k => { k with busy := satInc k.busy 1 }) s) := by
  obtain ⟨u, counted⟩ : ∃ u, modCounts slot (fun k => { k with busy := satInc k.busy 1 }) s = u := ⟨_, rfl⟩
  have now : u.clock.now = s.clock.now := by rw [← counted]; rfl
  have base : busyBaseNs u = busyBaseNs s := by rw [← counted]; rfl
  unfold takeBusy
  dsimp only
  rw [counted, first, if_pos rfl, Nat.sub_self, if_neg (Nat.not_lt_zero _), now, base]
  simp only [Nat.zero_min, Nat.pow_zero, Nat.mul_one]
  rfl

end

section
variable {s : State} {slot : Fin 64} {a : Arrival} {o : Outstanding} {code : Byte} (reaches : Reaches s a opREFUSE slot)
  (coded : code = (openArrival s slot a).pkt.payload.getD 0 0) (length : (openArrival s slot a).pkt.payload.length = 8)
  (has : hasFlow s slot a.pkt.src = true) (out : outOf s slot a.pkt.src a.pkt.seq = some o)
include reaches coded length has out

/-- What a refusal comes to, in terms of the state in which it was noted: there its job is at rest, and its request waits. -/
theorem vmtRefuse_takes : ∃ v, receiveVmt a opREFUSE (fun a => handle a opREFUSE) s = settle slot (
      if code = rfBUSY then takeBusy slot a.pkt.src o v
      else endRequest slot a.pkt.src o ⟨some (refuseStatus code), [], false⟩ (code == rfSTALE) (countRefusal slot code v)) ∧
    StagesKept s v ∧ a.pkt.seq ∈ (flowOf v slot a.pkt.src).notes ∧ outOf v slot a.pkt.src a.pkt.seq = some o ∧ v.clock.now = s.clock.now ∧
    busyBaseNs v = busyBaseNs s := by
  obtain ⟨payload, opened⟩ := openArrival_opened s slot a
  rw [opened] at coded length
  have port := atPort_links s a
  obtain ⟨notes, same⟩ := noteAnswer_notes slot a.pkt.src a.pkt.seq (atPort a s)
  have noted := refusalNoted_links slot { a with pkt := { a.pkt with payload := payload } } o code (atPort a s)
  have taken := takeRefuse_takes (a := { a with pkt := { a.pkt with payload := payload } }) coded
    ((port.flows.hasFlow slot a.pkt.src).trans has) length ((port.flows.outOf slot a.pkt.src a.pkt.seq).trans out)
  refine ⟨_, by rw [receiveVmt_reaches reaches, handle_refuse, opened, taken],
    (port.flows.stages.trans (modFlow_stages slot _ _ _)).trans noted.flows.stages, ?_, ?_, noted.now.trans port.now, ?_⟩
  · rw [noted.flows.flowOf]; exact notes
  · rw [noted.flows.outOf]
    exact (outOf_of_out same).trans ((port.flows.outOf slot a.pkt.src a.pkt.seq).trans out)
  · unfold busyBaseNs devFld
    rw [noted.objBits]
    exact congrArg (fld · 15 0) (port.objBits _)

section
variable (calm : Calm s slot)
include calm

/-- A refusal with another code than BUSY ends its request. -/
theorem vmtRefuse_ends {tk : TaskRef} {k : Track} (other : code ≠ rfBUSY) (task : o.req.task = some tk) (own : tk.slot = slot) (clean : Clean s tk)
    (track : (entryOf s tk).run.track = some k) (left : 2 ≤ k.left) :
    Completes (.vmtRefuse a) s (fun t =>
      (entryOf t tk).run.track = some { k with left := k.left - 1, fail := some (o.req.pos, refuseStatus code) } ∧
      outOf t slot a.pkt.src a.pkt.seq = none ∧ a.pkt.seq ∈ (flowOf t slot a.pkt.src).notes) := by
  obtain ⟨permute, ok⟩ := clean
  obtain ⟨v, runs, stages, notes, out', _⟩ := vmtRefuse_takes reaches coded length has out
  obtain ⟨w, counted⟩ : ∃ w, countRefusal slot code v = w := ⟨_, rfl⟩
  obtain ⟨u, ended⟩ : ∃ u, endRequest slot a.pkt.src o ⟨some (refuseStatus code), [], false⟩ (code == rfSTALE) w = u := ⟨_, rfl⟩
  rw [if_neg other, counted, ended] at runs
  have stages' : StagesKept s w := by
    rw [← counted]
    exact stages.trans (countRefusal_stages slot code v)
  have flow : flowOf w slot a.pkt.src = flowOf v slot a.pkt.src := by
    rw [← counted, countRefusal, flowOf_modCounts]
  have entry : entryOf w tk = entryOf s tk := (stages'.entry tk).track track
  have ends : Ends slot a.pkt.src o (some (refuseStatus code)) w u := by
    rw [← ended]
    refine endRequest_ends ⟨some (refuseStatus code), [], false⟩ _ (.inl rfl) (fun k' mine => ?_)
    obtain rfl := Option.some.inj (task.symm.trans mine)
    rw [entry]
    refine ⟨own, permute, fun x running => .inr ?_⟩
    obtain rfl := Option.some.inj (track.symm.trans running)
    exact Nat.sub_ne_zero_of_lt left
  have settled := (ends.rest (calm.atRest.of_stages stages')).settle
  have fail : k.fail = none := ok k track
  have answered : (entryOf u tk).run.track = some { k with left := k.left - 1, fail := some (o.req.pos, refuseStatus code) } := by
    rw [ends.track task (by rw [entry, track])]
    simp [Track.answered, fail]
  refine ⟨_, congrArg Host.Outcome.next runs, ?_, ?_, ?_⟩
  · rw [(settled.flows.stages.entry tk).track answered, answered]
  · rw [settled.flows.outOf, ← outOf_seq out, ends.outOf_none]
  · rw [settled.flows.flowOf, ends.flow, flow]; exact notes

/-- A first refusal with BUSY makes its request wait. -/
theorem vmtRefuse_waits (busy : code = rfBUSY) (first : o.busyCount = 0) :
    Completes (.vmtRefuse a) s (fun t => outOf t slot a.pkt.src a.pkt.seq = some { o with
      busyCount := 1, busySince := s.clock.now, busyUntil := some (s.clock.now + busyBaseNs s * 800 / 1000) } ∧
      a.pkt.seq ∈ (flowOf t slot a.pkt.src).notes) := by
  obtain ⟨v, runs, stages, notes, out', now, base⟩ := vmtRefuse_takes reaches coded length has out
  obtain ⟨w, counted⟩ : ∃ w, modCounts slot (fun k => { k with busy := satInc k.busy 1 }) v = w := ⟨_, rfl⟩
  rw [if_pos busy, takeBusy_waits first, counted, now, base, outOf_seq out] at runs
  have flow : flowOf w slot a.pkt.src = flowOf v slot a.pkt.src := by rw [← counted, flowOf_modCounts]
  have seq : o.seq = a.pkt.seq := outOf_seq out
  obtain ⟨u, changed⟩ : ∃ u, modOut slot a.pkt.src a.pkt.seq (Outstanding.backOff s.clock.now (busyBaseNs s * 800 / 1000)) w = u := ⟨_, rfl⟩
  rw [changed] at runs
  have waits : outOf u slot a.pkt.src a.pkt.seq = some (o.backOff s.clock.now (busyBaseNs s * 800 / 1000)) := by
    rw [← changed]
    exact outOf_modOut _ ((outOf_of_out (congrArg Flow.out flow)).trans out') seq
  have stages' : StagesKept s u := by
    rw [← changed, ← counted]
    exact (stages.trans (modVmt_stages slot v _)).trans (modOut_stages _)
  have settled := (calm.atRest.of_stages stages').settle
  refine ⟨_, congrArg Host.Outcome.next runs, ?_, ?_⟩
  · rw [settled.flows.outOf, waits, Outstanding.backOff, first]
  · rw [settled.flows.flowOf, ← changed, modOut, flowOf_modFlow, flow]
    exact notes

end

end

/-! ### ACK (R364) -/

section
variable {s t : State} {slot : Fin 64} {peer : BitVec 18} {o : Outstanding}

/-- A task without failure stays so as a request of its ends well. -/
theorem Ends.clean (h : Ends slot peer o none s t) {k : TaskRef} (clean : Clean s k) : Clean t k := by
  by_cases own : o.req.task = some k
  · obtain ⟨permute, ok⟩ := clean
    refine ⟨by rw [h.own k own]; exact permute, fun x after => ?_⟩
    rw [h.own k own, Run.track_onTrack] at after
    obtain ⟨y, before, rfl⟩ := Option.map_eq_some_iff.mp after
    exact ok y before
  · unfold Clean
    rw [h.other k own]
    exact clean

/-- The requests that an ACK answers end one after the other. -/
def endAll (slot : Fin 64) (peer : BitVec 18) (l : List Outstanding) (s : State) : State :=
  forEach l (fun o st => endRequest slot peer o ⟨none, [], false⟩ false st) s

theorem endAll_ends (l : List Outstanding) (s : State)
    (h : ∀ o ∈ l, o.req.dest = .none ∧ ∀ k, o.req.task = some k → k.slot = slot ∧ Clean s k) :
    (AtRest s slot → AtRest (endAll slot peer l s) slot) ∧
    (∀ seq, outOf s slot peer seq = none → outOf (endAll slot peer l s) slot peer seq = none) ∧
    ∀ o ∈ l, outOf (endAll slot peer l s) slot peer o.seq = none := by
  induction l generalizing s with
  | nil => exact ⟨id, fun _ => id, fun o member => nomatch member⟩
  | cons x rest ih =>
    obtain ⟨dest, tasks⟩ := h x List.mem_cons_self
    have ends := endRequest_ends (s := s) (peer := peer) ⟨none, [], false⟩ false (.inr dest) (fun k own => by
      obtain ⟨mine, permute, ok⟩ := tasks k own
      exact ⟨mine, permute, fun y track => .inl (ok y track)⟩)
    obtain ⟨atRest, stays, all⟩ := ih (endRequest slot peer x ⟨none, [], false⟩ false s) (fun o member => by
      obtain ⟨none, later⟩ := h o (List.mem_cons_of_mem _ member)
      refine ⟨none, fun k own => ?_⟩
      obtain ⟨mine, clean⟩ := later k own
      exact ⟨mine, ends.clean clean⟩)
    refine ⟨fun before => atRest (ends.rest before), fun seq ended => stays seq (outOf_filter (by rw [ends.flow]) ended), fun o member => ?_⟩
    rcases List.mem_cons.mp member with rfl | later
    · exact stays o.seq ends.outOf_none
    · exact all o later

/-- An ACK without notes ends the requests that it answers, once its ECN echo is taken. -/
theorem takeAck_ends {a : Arrival} {aw : BitVec 32} {bits : Nat} (has : hasFlow s slot a.pkt.src = true) (ok : ackOk a.pkt.payload = true)
    (upTo : aw = BitVec.ofNat 32 (leNat (a.pkt.payload.take 4))) (bitmap : bits = leNat ((a.pkt.payload.drop 8).take 8))
    (none : ackNotes a.pkt.payload = []) :
    ∃ v, LinksOnly s v ∧ takeAck slot a s = endAll slot a.pkt.src (ackedBy (flowOf s slot a.pkt.src) aw bits) v := by
  have taken : ¬ (!hasFlow s slot a.pkt.src || !ackOk a.pkt.payload) = true := by
    rw [has, ok]
    exact Bool.false_ne_true
  subst upTo bitmap
  unfold takeAck
  dsimp only
  rw [if_neg taken, none]
  refine ⟨_, ?_, rfl⟩
  split
  · exact ceEcho_links _ _ _ _ _
  · exact .refl s

theorem vmtAck_ends {a : Arrival} {aw : BitVec 32} (reaches : Reaches s a opACK slot) (calm : Calm s slot) (has : hasFlow s slot a.pkt.src = true)
    (ok : ackOk (openArrival s slot a).pkt.payload = true) (upTo : aw = BitVec.ofNat 32 (leNat ((openArrival s slot a).pkt.payload.take 4)))
    (noNotes : ackNotes (openArrival s slot a).pkt.payload = [])
    (h : ∀ o ∈ ackedBy (flowOf s slot a.pkt.src) aw (leNat (((openArrival s slot a).pkt.payload.drop 8).take 8)), o.req.dest = .none ∧
      ∀ k, o.req.task = some k → k.slot = slot ∧ Clean s k) :
    Completes (.vmtAck a) s (fun t => ∀ o ∈ ackedBy (flowOf s slot a.pkt.src) aw (leNat (((openArrival s slot a).pkt.payload.drop 8).take 8)),
      outOf t slot a.pkt.src o.seq = none) := by
  obtain ⟨payload, opened⟩ := openArrival_opened s slot a
  rw [opened] at ok upTo noNotes h ⊢
  have port := atPort_links s a
  obtain ⟨v, echoed, taken⟩ := takeAck_ends (a := { a with pkt := { a.pkt with payload := payload } })
    ((port.flows.hasFlow slot a.pkt.src).trans has) ok upTo rfl noNotes
  rw [port.flows.flowOf] at taken
  have same := port.trans echoed
  obtain ⟨rest, _, all⟩ := endAll_ends (slot := slot) (peer := a.pkt.src) _ v (fun o member => by
    obtain ⟨none, tasks⟩ := h o member
    refine ⟨none, fun k own => ?_⟩
    obtain ⟨mine, clean⟩ := tasks k own
    unfold Clean
    rw [same.sameWaits.entryOf k]
    exact ⟨mine, clean⟩)
  have settled := (rest (calm.atRest.of_stages same.flows.stages)).settle
  refine ⟨_, congrArg Host.Outcome.next (by rw [receiveVmt_reaches reaches, handle_ack, opened, taken]), fun o member => ?_⟩
  rw [settled.flows.outOf]
  exact all o member

/-- An ACK that is due takes the first 32 notes. -/
theorem ackSend_sends (slot : Fin 64) (peer : BitVec 18) (s : State) (due : (flowOf s slot peer).ackDue = true) :
    Completes (.ackSend slot peer) s (fun t => (flowOf t slot peer).notes = (flowOf s slot peer).notes.drop 32 ∧
      (flowOf t slot peer).ceEcho = false ∧ (flowOf t slot peer).ackDue = decide (32 < (flowOf s slot peer).notes.length) ∧
      (flowOf t slot peer).out = (flowOf s slot peer).out ∧ t.mem = s.mem) := by
  obtain ⟨u, noted⟩ : ∃ u, modFlow slot peer (fun k => { k with
    notes := k.notes.drop 32, ackDue := !(k.notes.drop 32).isEmpty, ceEcho := false }) s = u := ⟨_, rfl⟩
  have sent : LinksOnly u (sendAck slot peer s) := by
    rw [← noted]
    exact sendAnswer_links _ _ _ _ _ _
  refine ⟨_, congrArg Host.Outcome.next (if_pos due), ?_⟩
  dsimp only
  rw [sent.flows.flowOf, sent.mem, ← noted, flowOf_modFlow]
  refine ⟨rfl, rfl, ?_, rfl, rfl⟩
  rw [Bool.eq_iff_iff]
  simp

theorem ackSend_idle (slot : Fin 64) (peer : BitVec 18) (s : State) (idle : (flowOf s slot peer).ackDue = false) :
    Completes (.ackSend slot peer) s (fun t => t = s) :=
  ⟨s, congrArg Host.Outcome.next (if_neg (by rw [idle]; exact Bool.false_ne_true)), rfl⟩

end

end Sys2Proof.Machine
end
section
/-! SUPPORT. The timers of the transport (spec/10_fabric_transport.md R362, R365, R366, R369, R370): requests are tried again, fail as
unreachable or come out of their backoff, and entries of the reply cache and of the hold expire. -/

namespace Sys2Proof.Machine

/-! ### Tries (R365) -/

section
variable {s : State} {slot : Fin 64} {peer : BitVec 18} {seq : BitVec 32} {o o' : Outstanding}

/-- The move of a request to another path is counted and traced. -/
theorem countMove_kept (slot : Fin 64) (peer : BitVec 18) (o : Outstanding) (new : Nat) (s : State) :
    StagesKept s (countMove slot peer o new s) ∧ flowOf (countMove slot peer o new s) slot peer = flowOf s slot peer ∧
    (countMove slot peer o new s).jobs[slot].vmt.counts.retransmits = s.jobs[slot].vmt.counts.retransmits := by
  unfold countMove
  split
  · exact ⟨.refl s, rfl, rfl⟩
  · have traced : ∀ payload u, LinksOnly u (trace (some slot) o.req.die 4 0x38 payload u) := fun payload u => trace_links u _ _ _ _ _
    refine ⟨StagesKept.trans (modVmt_stages slot s _) (traced _ _).flows.stages, ?_, ?_⟩
    · rw [(traced _ _).flows.flowOf, flowOf_modCounts]
    · rw [(traced _ _).flows.counts, modCounts_counts]

theorem noteTx_kept (sent : Bool) (o : Outstanding) :
    (o.noteTx sent).seq = o.seq ∧ (o.noteTx sent).req = o.req ∧ (o.noteTx sent).tryN = o.tryN ∧ (o.noteTx sent).path = o.path ∧
    (o.noteTx sent).busyUntil = o.busyUntil ∧ (o.noteTx sent).lastTx = o.lastTx := by
  cases sent <;> exact ⟨rfl, rfl, rfl, rfl, rfl, rfl⟩

theorem retryOf_seq (retry : retryOf s peer o = some o') : o'.seq = o.seq := by
  unfold retryOf at retry
  split at retry
  · obtain ⟨k, _, rfl⟩ := Option.map_eq_some_iff.mp retry
    rfl
  · rw [← Option.some.inj retry]

/-- An unanswered request is tried again. -/
theorem retransmit_retries (out : outOf s slot peer seq = some o) (calm : Calm s slot) (awake : o.busyUntil = none)
    (retry : retryOf s peer o = some o') :
    Completes (.retransmitTimeout slot peer seq) s (fun t => outOf t slot peer seq = some (o'.noteTx (sendable s slot peer o').isSome) ∧
      t.jobs[slot].vmt.counts.retransmits = if o.sent && (sendable s slot peer o').isSome
        then satInc s.jobs[slot].vmt.counts.retransmits 1 else s.jobs[slot].vmt.counts.retransmits) := by
  obtain ⟨u, moved⟩ : ∃ u, countMove slot peer o o'.path s = u := ⟨_, rfl⟩
  obtain ⟨v, changed⟩ : ∃ v, modOut slot peer seq (fun _ => o'.noteTx (sendable s slot peer o').isSome) u = v := ⟨_, rfl⟩
  obtain ⟨w, counted⟩ : ∃ w, (if o.sent && (sendable s slot peer o').isSome then
      pmuCount o.req.die (some slot) 0x061 0 1 (modCounts slot (fun k => { k with retransmits := satInc k.retransmits 1 }) v)
      else v) = w := ⟨_, rfl⟩
  have runs : doRetransmit slot peer seq s = transmit slot peer o' (sendable s slot peer o') w := by
    unfold doRetransmit
    rw [out]
    dsimp only
    rw [awake, retry]
    dsimp only
    rw [moved, changed, counted]
    rfl
  obtain ⟨stages, flow, retransmits⟩ := countMove_kept slot peer o o'.path s
  rw [moved] at stages flow retransmits
  have out' : outOf v slot peer seq = some (o'.noteTx (sendable s slot peer o').isSome) := by
    rw [← changed]
    refine outOf_modOut _ ((outOf_of_out (congrArg Flow.out flow)).trans out) ?_
    rw [(noteTx_kept _ _).1, retryOf_seq retry, outOf_seq out]
  have retransmits' : v.jobs[slot].vmt.counts.retransmits = s.jobs[slot].vmt.counts.retransmits := by
    rw [← changed, modOut, modFlow_counts, retransmits]
  have stages' : StagesKept s v := by
    rw [← changed]
    exact stages.trans (modOut_stages _)
  have counts : StagesKept v w ∧ outOf w slot peer seq = outOf v slot peer seq ∧
      w.jobs[slot].vmt.counts.retransmits = if o.sent && (sendable s slot peer o').isSome
        then satInc v.jobs[slot].vmt.counts.retransmits 1 else v.jobs[slot].vmt.counts.retransmits := by
    rw [← counted]
    split
    · have event : ∀ x, LinksOnly x (pmuCount o.req.die (some slot) 0x061 0 1 x) := fun x => pmuCount_links x _ _ _ _ _
      refine ⟨(modVmt_stages slot v _).trans (event _).flows.stages, ?_, ?_⟩
      · exact ((event _).flows.outOf slot peer seq).trans (outOf_of_out (congrArg Flow.out (flowOf_modCounts slot peer v _)))
      · rw [(event _).flows.counts, modCounts_counts]
    · exact ⟨.refl v, rfl, rfl⟩
  obtain ⟨stages'', same, sum⟩ := counts
  have sent := transmit_links w slot peer o' (sendable s slot peer o')
  have settled := (calm.atRest.of_stages ((stages'.trans stages'').trans sent.flows.stages)).settle
  refine ⟨_, congrArg (fun x => Host.Outcome.next (settle slot x)) runs, ?_, ?_⟩
  · rw [settled.flows.outOf, sent.flows.outOf, same, out']
  · rw [settled.flows.counts, sent.flows.counts, sum, retransmits']

/-- A request comes out of its BUSY backoff and is sent again. -/
theorem busyResend_sends (out : outOf s slot peer seq = some o) (waits : o.busyUntil.isSome = true) :
    Completes (.busyResend slot peer seq) s (fun t => ∃ o', outOf t slot peer seq = some o' ∧ o'.seq = o.seq ∧ o'.req = o.req ∧
      o'.tryN = o.tryN ∧ o'.path = livePath s peer o ∧ o'.busyUntil = none ∧ o'.lastTx = s.clock.now) := by
  obtain ⟨o', again⟩ : ∃ o' : Outstanding, { o with busyUntil := none, path := livePath s peer o, lastTx := s.clock.now } = o' := ⟨_, rfl⟩
  obtain ⟨u, moved⟩ : ∃ u, countMove slot peer o (livePath s peer o) s = u := ⟨_, rfl⟩
  obtain ⟨v, changed⟩ : ∃ v, modOut slot peer seq (fun _ => o'.noteTx (sendable s slot peer o').isSome) u = v := ⟨_, rfl⟩
  have runs : doBusyResend slot peer seq s = transmit slot peer o' (sendable s slot peer o') v := by
    unfold doBusyResend
    rw [out]
    dsimp only
    rw [if_neg (by rw [Option.isNone_iff_eq_none]; intro none; rw [none] at waits; exact nomatch waits), again, moved, changed]
  obtain ⟨_, flow, _⟩ := countMove_kept slot peer o (livePath s peer o) s
  rw [moved] at flow
  obtain ⟨seq', req, tryN, path, busy, last⟩ := noteTx_kept (sendable s slot peer o').isSome o'
  have out' : outOf v slot peer seq = some (o'.noteTx (sendable s slot peer o').isSome) := by
    rw [← changed]
    refine outOf_modOut _ ((outOf_of_out (congrArg Flow.out flow)).trans out) ?_
    rw [seq', ← again, ← outOf_seq out]
  have sent := transmit_links v slot peer o' (sendable s slot peer o')
  refine ⟨_, congrArg Host.Outcome.next runs, _, (sent.flows.outOf slot peer seq).trans out', ?_⟩
  rw [seq', req, tryN, path, busy, last, ← again]
  exact ⟨rfl, rfl, rfl, rfl, rfl, rfl⟩

end

/-! ### Unreachable peers (R370) -/

section
variable {s t : State}

/-- The choice of a path goes by ports, routes and objects. -/
theorem choosePath_congr (fabric : t.fabric = s.fabric) (objs : t.objs = s.objs) (rst : t.rst = s.rst) (sec : SecKept s t) (x1 : Bool)
    (dst : BitVec 18) (vl : BitVec 3) : choosePath t x1 dst vl = choosePath s x1 dst vl := by
  have ports : ∀ p, port t p = port s p := fun p => by unfold port; rw [fabric]
  have kinds : ∀ p, portEntry t p = portEntry s p := fun p => objBits_congr objs rst sec _
  have entries : ∀ k, pathEntry t x1 dst k = pathEntry s x1 dst k := fun k => by unfold pathEntry; rw [fabric]
  have usable : ∀ e, pathUsable t dst e = pathUsable s dst e := fun e => by
    unfold pathUsable isCrew isUplink
    dsimp only
    rw [ports, kinds]
  have last : ∀ p, chosenLast t p = chosenLast s p := fun p => by
    unfold chosenLast swapping
    rw [ports]
  have score : pathScore t x1 dst vl = pathScore s x1 dst vl := funext fun k => by
    unfold pathScore
    rw [ports, entries, fabric]
  simp only [choosePath, entries, usable, last, score]

end

section
variable (slot : Fin 64) (peer : BitVec 18) (s : State)

theorem sendMgmt_sent (dst : BitVec 18) (kind : FrameKind) (body : List Byte) :
    (sendMgmt dst kind body s).2 = (s.sec.mgmtKey.isSome && (choosePath s false dst 0).isSome) := by
  unfold sendMgmt
  cases s.sec.mgmtKey <;> cases choosePath s false dst 0 <;> rfl

/-- A peer is reported as unreachable, when a report can be sent. -/
theorem reportUnreachable_reports : StagesKept s (reportUnreachable slot peer s) ∧
    flowOf (reportUnreachable slot peer s) slot peer = flowOf s slot peer ∧
    (reportUnreachable slot peer s).jobs[slot].vmt.counts = s.jobs[slot].vmt.counts ∧
    (peer ∈ (reportUnreachable slot peer s).jobs[slot].vmt.reported ↔ peer ∈ s.jobs[slot].vmt.reported ∨
      (devFld s oVMT_CFG 0 109 109 ≠ 0 ∧ s.sec.mgmtKey.isSome = true ∧
        (choosePath s false (BitVec.ofNat 18 (devFld s oVMT_CFG 0 127 110)) 0).isSome = true)) := by
  obtain ⟨u, logged⟩ : ∃ u, raiseCause pf0 3 (logError 0x07 (some slot) peer.toNat (s.jobs[slot].vmt.jobId.getD 0).toNat s) = u := ⟨_, rfl⟩
  have noted : Changes [.host, .out, .logs] s u := by
    rw [← logged]
    exact (logError_changes _ _ _ _ s).trans ((raiseCause_changes pf0 3 _).mono (by decide))
  have jobs : u.jobs = s.jobs := noted .jobs (by decide)
  have objs : u.objs = s.objs := noted .objs (by decide)
  have rst : u.rst = s.rst := noted .rst (by decide)
  have sec : u.sec = s.sec := noted .sec (by decide)
  have cfg : ∀ hi lo, devFld u oVMT_CFG 0 hi lo = devFld s oVMT_CFG 0 hi lo := fun hi lo => by
    unfold devFld
    rw [objBits_congr objs rst (.of_eq sec)]
  have path : ∀ dst, choosePath u false dst 0 = choosePath s false dst 0 := fun dst =>
    choosePath_congr (noted .fabric (by decide)) objs rst (.of_eq sec) _ _ _
  have same : StagesKept s u ∧ flowOf u slot peer = flowOf s slot peer ∧ u.jobs[slot].vmt.counts = s.jobs[slot].vmt.counts ∧
      u.jobs[slot].vmt.reported = s.jobs[slot].vmt.reported :=
    ⟨.of_eq jobs, flowOf_of_flows slot peer (by rw [jobs]), by rw [jobs], by rw [jobs]⟩
  obtain ⟨stages, flow, counts, reported⟩ := same
  obtain ⟨dst, target⟩ : ∃ dst, BitVec.ofNat 18 (devFld s oVMT_CFG 0 127 110) = dst := ⟨_, rfl⟩
  unfold reportUnreachable
  dsimp only
  rw [logged, cfg, cfg, target]
  split
  next quiet =>
    refine ⟨stages, flow, counts, ?_⟩
    rw [reported]
    refine ⟨.inl, fun cause => ?_⟩
    rcases cause with before | ⟨on, _⟩
    · exact before
    · rw [decide_eq_false on, Bool.or_false] at quiet
      exact List.contains_iff_mem.mp quiet
  next news =>
    obtain ⟨new, on⟩ : peer ∉ s.jobs[slot].vmt.reported ∧ devFld s oVMT_CFG 0 109 109 ≠ 0 := by simpa using news
    obtain ⟨r, told⟩ : ∃ r, sendMgmt dst .unreachable (leBytes 4 (s.jobs[slot].vmt.jobId.getD 0).toNat ++ leBytes 4 (ownNode u).toNat ++
      leBytes 4 peer.toNat ++ leBytes 8 u.clock.now) u = r := ⟨_, rfl⟩
    have sent : LinksOnly u r.1 := by
      rw [← told]
      exact sendMgmt_links u _ _ _
    have goes : r.2 = (s.sec.mgmtKey.isSome && (choosePath s false dst 0).isSome) := by rw [← told, sendMgmt_sent, sec, path]
    have reported' : r.1.jobs[slot].vmt.reported = s.jobs[slot].vmt.reported := by rw [sent.flows.vmt slot, reported]
    rw [told]
    split
    next yes =>
      rw [goes, Bool.and_eq_true] at yes
      refine ⟨(stages.trans sent.flows.stages).trans (modVmt_stages slot _ _), ?_, ?_, ?_⟩
      · rw [flowOf_of_flows (s := r.1) slot peer (by rw [modVmt_vmt]), sent.flows.flowOf, flow]
      · rw [modVmt_vmt, sent.flows.counts, counts]
      · rw [modVmt_vmt]
        exact ⟨fun _ => .inr ⟨on, yes⟩, fun _ => List.mem_append_right _ List.mem_cons_self⟩
    next no =>
      rw [goes, Bool.and_eq_true] at no
      refine ⟨stages.trans sent.flows.stages, (sent.flows.flowOf slot peer).trans flow, (sent.flows.counts slot).trans counts, ?_⟩
      rw [reported']
      exact ⟨.inl, fun cause => cause.elim id (fun ⟨_, sends⟩ => absurd sends no)⟩

end

section
variable {s : State} {slot : Fin 64} {peer : BitVec 18} {seq : BitVec 32} {o : Outstanding}

/-- An entry whose run has a track is the one from which its stage was kept. -/
theorem Entry.SameStage.of_track {a b : Entry} (h : a.SameStage b) {k : Track} (track : b.run.track = some k) : b = a := by
  obtain ⟨rest, same | ⟨_, matrix⟩⟩ := h
  · rw [rest, same]
  · cases run : b.run with
    | matrix => rw [run] at track; exact nomatch track
    | _ => rw [run] at matrix; exact absurd matrix Bool.false_ne_true

/-- A request whose paths have had their transmissions fails as unreachable. -/
theorem retransmit_fails (out : outOf s slot peer seq = some o) (calm : Calm s slot) (awake : o.busyUntil = none) (lost : retryOf s peer o = none)
    (tasks : ∀ k, o.req.task = some k → k.slot = slot ∧ isPermute (entryOf s k).desc = false ∧
      ∀ x, (entryOf s k).run.track = some x → 2 ≤ x.left) :
    Completes (.retransmitTimeout slot peer seq) s (fun t => outOf t slot peer seq = none ∧
      t.jobs[slot].vmt.counts.unreachable = satInc s.jobs[slot].vmt.counts.unreachable 1 ∧
      (peer ∈ t.jobs[slot].vmt.reported ↔ peer ∈ s.jobs[slot].vmt.reported ∨ (devFld s oVMT_CFG 0 109 109 ≠ 0 ∧
        s.sec.mgmtKey.isSome = true ∧ (choosePath s false (BitVec.ofNat 18 (devFld s oVMT_CFG 0 127 110)) 0).isSome = true))) := by
  obtain ⟨u, counted⟩ : ∃ u, modCounts slot (fun k => { k with unreachable := satInc k.unreachable 1 }) s = u := ⟨_, rfl⟩
  obtain ⟨stages, _, counts, reported⟩ := reportUnreachable_reports slot peer u
  obtain ⟨v, told⟩ : ∃ v, reportUnreachable slot peer u = v := ⟨_, rfl⟩
  obtain ⟨w, ended⟩ : ∃ w, endRequest slot peer o ⟨some stUNREACHABLE, [], false⟩ true v = w := ⟨_, rfl⟩
  rw [told] at stages counts reported
  have runs : doRetransmit slot peer seq s = w := by
    unfold doRetransmit
    rw [out]
    dsimp only
    rw [awake, lost]
    dsimp only
    unfold unreachable
    dsimp only
    rw [counted, told, ended]
    rfl
  have kept : StagesKept s v := by
    refine StagesKept.trans ?_ stages
    rw [← counted]
    exact modVmt_stages slot s _
  have ends : Ends slot peer o (some stUNREACHABLE) v w := by
    rw [← ended]
    refine endRequest_ends ⟨some stUNREACHABLE, [], false⟩ true (.inl rfl) (fun k own => ?_)
    obtain ⟨mine, permute, more⟩ := tasks k own
    obtain ⟨_, desc, _⟩ := (kept.entry k).kept
    refine ⟨mine, by rw [desc]; exact permute, fun x running => .inr ?_⟩
    rw [(kept.entry k).of_track running] at running
    exact Nat.sub_ne_zero_of_lt (more x running)
  have settled := (ends.rest (calm.atRest.of_stages kept)).settle
  refine ⟨_, congrArg (fun x => Host.Outcome.next (settle slot x)) runs, ?_, ?_, ?_⟩
  · rw [settled.flows.outOf, ← outOf_seq out, ends.outOf_none]
  · rw [settled.flows.counts, ends.counts, counts, ← counted, modCounts_counts]
  · rw [settled.flows.vmt slot]
    dsimp only
    rw [ends.reported, reported, ← counted, modCounts, modVmt_vmt]
    rfl

end

/-! ### Expiries (R362, R366) -/

section
variable (slot : Fin 64) (peer : BitVec 18) (seq : BitVec 32) (s : State)

theorem replyCacheExpiry_frees (kept : (s.fabric.cache.find ⟨slot, peer, seq⟩).isSome = true) :
    Completes (.replyCacheExpiry slot peer seq) s (fun t =>
      t.fabric.cache.find ⟨slot, peer, seq⟩ = none ∧ seq ∉ (flowOf t slot peer).unnoted ∧ t.mem = s.mem) := by
  refine ⟨_, congrArg Host.Outcome.next (if_pos kept), AMap.find_del_same _ _, ?_, rfl⟩
  rw [freeNoted, flowOf_modFlow]
  simp

theorem holdExpiry_refuses (h : Held) (held : heldAt s slot peer seq = some h) :
    Completes (.holdExpiry slot peer seq) s (fun t => t.fabric.hold = s.fabric.hold.filter (fun x => !(x == h)) ∧ t.mem = s.mem ∧
      t.jobs[slot].vmt.counts.refusedOut = satInc s.jobs[slot].vmt.counts.refusedOut 1) := by
  obtain ⟨u, counted⟩ : ∃ u, modCounts slot (fun k => { k with refusedOut := satInc k.refusedOut 1 }) (unhold h s) = u := ⟨_, rfl⟩
  have runs : doHoldExpiry slot peer seq s = sendRefuse slot h.arr rfBUSY (unhold h s) := by
    unfold doHoldExpiry
    rw [held]
    rfl
  have sent : LinksOnly u (sendRefuse slot h.arr rfBUSY (unhold h s)) := by
    rw [← counted]
    exact sendAnswer_links _ _ _ _ _ _
  obtain ⟨_, hold, _⟩ := sent.fabric
  refine ⟨_, congrArg Host.Outcome.next runs, ?_, ?_, ?_⟩
  · rw [hold, ← counted]; rfl
  · rw [sent.mem, ← counted]; rfl
  · rw [sent.flows.counts, ← counted, modCounts_counts]; rfl

end

end Sys2Proof.Machine
end
section
/-! SUPPORT. A frame that a relay sends on (spec/10_fabric_transport.md R396 to R398, spec/11_ports_discovery_routing.md R399 to R402); and the
obligation about answers and timers. -/

namespace Sys2Proof.Machine

/-! ### A frame that its port sends at once -/

section
variable {s t : State} {p : Fin 32} {f : QueuedFrame}

/-- What an update of a port leaves of another field at every port. -/
theorem port_field {α : Type} (field : Port → α) (q : Fin 32) {g : Port → Port} (kept : ∀ x, field (g x) = field x) (s : State) (p : Fin 32) :
    field (port (modPort q g s) p) = field (port s p) := by
  unfold port modPort
  rw [vmod_getElem]
  split
  · exact kept _
  · rfl

/-- What stands around a packet goes by objects and the partner's address. -/
theorem hdrOf_congr {op : Byte} {pkt : Packet} (body : f.body = .vmt op pkt) (objs : t.objs = s.objs) (rst : t.rst = s.rst) (sec : t.sec = s.sec)
    (mac : (port t p).peerMac = (port s p).peerMac) : hdrOf t p f = hdrOf s p f := by
  have bits : ∀ k, objBits t k = objBits s k := objBits_congr objs rst (.of_eq sec)
  have entry : portEntry t p = portEntry s p := bits _
  have fields : ∀ id sub hi lo, devFld t id sub hi lo = devFld s id sub hi lo := fun id sub hi lo => congrArg (fld · hi lo) (bits _)
  have own : ownNode t = ownNode s := ownNode_congr objs rst (.of_eq sec)
  unfold hdrOf
  rw [body]
  dsimp only
  unfold hdrTo isUplink portMac pfcPri dscpOf nodeAddress
  dsimp only
  rw [entry, own, mac, fields, fields, fields, fields, fields, fields, fields]

/-- Whether a port can send goes by objects, its state, credits and pauses. -/
theorem canSend_congr (objs : t.objs = s.objs) (rst : t.rst = s.rst) (sec : t.sec = s.sec) (st : (port t p).st = (port s p).st)
    (swap : (port t p).swap = (port s p).swap) (credSent : (port t p).credSent = (port s p).credSent)
    (credBack : (port t p).credBack = (port s p).credBack) (paused : (port t p).paused = (port s p).paused) : canSend t p f = canSend s p f := by
  have bits : ∀ k, objBits t k = objBits s k := objBits_congr objs rst (.of_eq sec)
  have entry : portEntry t p = portEntry s p := bits _
  have lacks : short t p f = short s p f := by
    unfold short isCrew
    dsimp only
    rw [entry, credSent, credBack]
  have pauses : ∀ vl, lanePaused t p vl = lanePaused s p vl := fun vl => by
    unfold lanePaused isUplink pfcPri devFld
    rw [entry, bits, paused]
  have swaps : swapping t p = swapping s p := by unfold swapping; rw [swap]
  unfold canSend
  rw [st, swaps, lacks, pauses]

/-- Every lane but those of higher rank and the reserved one has a turn in the round robin. -/
theorem lane_ranked_or_turned (vl : BitVec 3) (lane : vl ≠ 7) : vlRank vl ∈ [0, 1, 2] ∨ (vlRank vl ∉ [0, 1, 2] ∧ ∃ k, rrLane k = vl) := by
  revert vl
  decide

theorem rrTurns_all (s : State) (p : Fin 32) (k : Fin 4) : ∃ n, (k, n) ∈ rrTurns s p := by
  have turns : ∀ turn k : Fin 4, k ∈ [turn + 1, turn + 2, turn + 3, turn] := by decide
  exact ⟨rrWeight s k, List.mem_append_right _ (List.mem_map_of_mem (f := fun k => (k, rrWeight s k)) (turns (port s p).rrTurn k))⟩

/-- A packet that waits alone at a port that can send it goes next. -/
theorem nextFrame_alone {op : Byte} {pkt : Packet} (body : f.body = .vmt op pkt) (lane : f.shim.vl ≠ 7) (queue : (port s p).queue = [f])
    (can : canSend s p f = true) : ∃ turn left, nextFrame s p = some (f, turn, left) := by
  have laned : f.laned = true := by unfold QueuedFrame.laned; rw [body]
  have first : (firstFrames (port s p).queue).filter (canSend s p) = [f] := by
    rw [queue]
    simp [firstFrames, laned, can]
  unfold nextFrame
  dsimp only
  rw [first]
  rcases lane_ranked_or_turned f.shim.vl lane with ranked | ⟨unranked, k, turn⟩
  · have found : [0, 1, 2].findSome? (fun k => [f].find? (fun f => vlRank f.shim.vl == k)) = some f := by
      simp only [List.mem_cons, List.not_mem_nil, or_false] at ranked
      rcases ranked with zero | one | two
      · simp [zero]
      · simp [one]
      · simp [two]
    rw [found]
    exact ⟨_, _, rfl⟩
  · have none : [0, 1, 2].findSome? (fun k => [f].find? (fun f => vlRank f.shim.vl == k)) = none := by
      simp only [List.mem_cons, List.not_mem_nil, or_false, not_or] at unranked
      obtain ⟨zero, one, two⟩ := unranked
      simp [zero, one, two]
    rw [none]
    dsimp only
    obtain ⟨n, member⟩ := rrTurns_all s p k
    cases found : (rrTurns s p).findSome? (fun t => ([f].find? (fun f => f.shim.vl == rrLane t.1)).map (fun f => (f, t.1, t.2 - 1))) with
    | none =>
      have never := List.findSome?_eq_none_iff.mp found (k, n) member
      simp [turn] at never
    | some r =>
      obtain ⟨t, _, picked⟩ := List.exists_of_findSome?_eq_some found
      obtain ⟨g, chosen, rfl⟩ := Option.map_eq_some_iff.mp picked
      obtain rfl := List.mem_singleton.mp (List.mem_of_find?_eq_some chosen)
      exact ⟨_, _, rfl⟩

/-- A packet that is put on the wire leaves the device. -/
theorem putFrame_emits {op : Byte} {pkt : Packet} (body : f.body = .vmt op pkt) (s : State) :
    .vmt p (hdrOf s p f) f.shim op pkt (!f.badFcs) ∈ (putFrame p f s).out := by
  have leaves : ∀ u, .vmt p (hdrOf u p f) f.shim op pkt (!f.badFcs) ∈ (freeHeld f (emitFrame p f u)).out := fun u => by
    have emitted : .vmt p (hdrOf u p f) f.shim op pkt (!f.badFcs) ∈ (emitFrame p f u).out := by
      unfold emitFrame
      rw [body]
      exact List.mem_append_right _ List.mem_cons_self
    unfold freeHeld
    split
    · exact emitted
    · exact emitted
  have under : ∀ u, hdrOf u p f = hdrOf s p f → .vmt p (hdrOf s p f) f.shim op pkt (!f.badFcs) ∈ (freeHeld f (emitFrame p f u)).out :=
    fun u same => same ▸ leaves u
  unfold putFrame
  dsimp only
  split
  · exact under _ (hdrOf_congr body rfl rfl rfl (port_field Port.peerMac p (by exact fun _ => rfl) s p))
  · exact leaves s

/-- A packet that comes to a port at which nothing waits, and that can send it, leaves the device at once. -/
theorem enqueue_emits {op : Byte} {pkt : Packet} (body : f.body = .vmt op pkt) (lane : f.shim.vl ≠ 7) (queue : (port s p).queue = [])
    (can : canSend s p f = true) : .vmt p (hdrOf s p f) f.shim op pkt (!f.badFcs) ∈ (enqueue p f s).out := by
  obtain ⟨u, queued⟩ : ∃ u, modPort p (fun q => { q with queue := q.queue ++ [f] }) s = u := ⟨_, rfl⟩
  have waits : (port u p).queue = [f] := by
    rw [← queued, port_modPort]
    dsimp only
    rw [queue]
    rfl
  have can' : canSend u p f = true := by
    have same : ∀ {α : Type} (field : Port → α), (∀ x l, field { x with queue := l } = field x) → field (port u p) = field (port s p) :=
      fun field kept => by
        rw [← queued]
        exact port_field field p (fun x => kept x _) s p
    rw [canSend_congr (s := s) (by rw [← queued]; rfl) (by rw [← queued]; rfl) (by rw [← queued]; rfl) (same Port.st fun _ _ => rfl)
      (same Port.swap fun _ _ => rfl) (same Port.credSent fun _ _ => rfl) (same Port.credBack fun _ _ => rfl) (same Port.paused fun _ _ => rfl)]
    exact can
  obtain ⟨turn, left, next⟩ := nextFrame_alone body lane waits can'
  obtain ⟨v, taken⟩ : ∃ v, modPort p (fun q => { q with queue := q.queue.erase f, rrTurn := turn, rrLeft := left }) u = v := ⟨_, rfl⟩
  have drained : enqueue p f s = putFrame p f v := by
    unfold enqueue drainPort
    rw [queued, waits]
    change drainN p (0 + 1) u = _
    rw [drainN, next]
    dsimp only
    rw [taken]
    rfl
  have header : hdrOf v p f = hdrOf s p f := by
    rw [← taken, ← queued]
    refine hdrOf_congr body rfl rfl rfl ?_
    rw [port_field Port.peerMac p (by exact fun _ => rfl), port_field Port.peerMac p (by exact fun _ => rfl)]
  rw [drained, ← header]
  exact putFrame_emits body v

end

/-! ### The relay (R397, R398) -/

section
variable {a : Arrival} {op : Byte} {s : State} {k : Nat} {p : Fin 32} {f : QueuedFrame}

/-- The receive credits of a frame are held while it waits to be relayed. -/
def holdCredits (a : Arrival) (n : Nat) (s : State) : State :=
  modPort a.port (fun q => { q with
    credIn := vmod q.credIn (creditIdx a.shim.vl a.shim.transit) (fun c => c + BitVec.ofNat 32 n)
    credHeld := vmod q.credHeld (creditIdx a.shim.vl a.shim.transit) (fun c => c + BitVec.ofNat 32 n) }) s

/-- A frame as a relay sends it on by a port. -/
def relayed (a : Arrival) (op : Byte) (s : State) (p : Fin 32) : QueuedFrame :=
  { shim := { a.shim with hop := 1, transit := true }, body := .vmt op a.pkt, bytes := frameSize (portEntry s p) a.pkt.payload.length
    held := some (a.port, creditIdx a.shim.vl a.shim.transit, frameCredits (arrivalBytes s a)), badFcs := !a.fcsOk }

theorem relay_enqueues (up : (port s a.port).st = .up) (crew : isCrew s a.port = true) (on : pRelay (portEntry s a.port) = true)
    (hop : a.shim.hop = 0) (path : relayPath s (ioDie s a.port) a.pkt.dst a.pkt.vl = some k) :
    relay a op s = enqueue (pePort (pathEntry s (ioDie s a.port) a.pkt.dst k)) (relayed a op s (pePort (pathEntry s (ioDie s a.port) a.pkt.dst k)))
      (holdCredits a (frameCredits (arrivalBytes s a)) s) := by
  have goes : ((port s a.port).st == .up && isCrew s a.port && pRelay (portEntry s a.port) && decide (a.shim.hop = 0)) = true := by
    rw [up, crew, on, hop]
    rfl
  unfold relay
  rw [if_pos goes, path]
  rfl

/-- A frame of a crew port fills no buffer. -/
theorem rxFillTo_crew (crew : isCrew s a.port = true) (vl : BitVec 3) (g : Nat → Nat) : rxFillTo a.port vl g s = s := by
  have kind : pKind (portEntry s a.port) = 1 := eq_of_beq crew
  refine if_neg ?_
  unfold isUplink
  rw [kind]
  decide

theorem frameFaulty_lane (faulty : frameFaulty s a = false) : a.shim.vl = a.pkt.vl := by
  unfold frameFaulty at faulty
  simp only [Bool.or_eq_false_iff, bne_eq_false_iff_eq] at faulty
  obtain ⟨⟨_, lane⟩, _⟩ := faulty
  exact lane

/-- A frame that a relay takes is handed to its port, its credits held. -/
theorem receiveVmt_relays (fec : a.fecBad = 0) (faulty : frameFaulty s a = false) (lane : a.pkt.vl ≠ 7) (accepting : s.fabric.accepting = true)
    (other : forOther s a = true) (up : (port s a.port).st = .up) (crew : isCrew s a.port = true) (on : pRelay (portEntry s a.port) = true)
    (hop : a.shim.hop = 0) (path : relayPath s (ioDie s a.port) a.pkt.dst a.pkt.vl = some k) (g : Arrival → Fin 64 → State → State) :
    receiveVmt a op g s = enqueue (pePort (pathEntry s (ioDie s a.port) a.pkt.dst k))
      (relayed a op s (pePort (pathEntry s (ioDie s a.port) a.pkt.dst k)))
      (holdCredits a (frameCredits (arrivalBytes s a)) (countRx a.port (countFec a s))) := by
  have relays' : relays s a = true := by
    unfold relays
    rw [other, up, crew, on, hop, path]
    rfl
  have onward := relay_enqueues (op := op) (s := countRx a.port (countFec a s)) up crew on hop path
  have taken : (countRx a.port (countFec a s)).fabric.accepting = true := accepting
  have other' : forOther (countRx a.port (countFec a s)) a = true := other
  rw [receiveVmt_whole fec faulty lane (.inr relays'), rxFillTo_crew (s := countFec a s) crew]
  unfold receiveWhole
  dsimp only
  rw [taken, other', onward]
  rfl

theorem relayFrame_emits (fec : a.fecBad = 0) (faulty : frameFaulty s a = false) (lane : a.pkt.vl ≠ 7) (accepting : s.fabric.accepting = true)
    (other : forOther s a = true) (up : (port s a.port).st = .up) (crew : isCrew s a.port = true) (on : pRelay (portEntry s a.port) = true)
    (hop : a.shim.hop = 0) (path : relayPath s (ioDie s a.port) a.pkt.dst a.pkt.vl = some k)
    (out : p = pePort (pathEntry s (ioDie s a.port) a.pkt.dst k)) (queue : (port s p).queue = []) (frame : f = relayed a op s p)
    (can : canSend s p f = true) :
    Completes (.relayFrame a op) s (fun t => .vmt p (hdrOf s p f) f.shim op a.pkt a.fcsOk ∈ t.out ∧ t.mem = s.mem) := by
  obtain ⟨u, held⟩ : ∃ u, holdCredits a (frameCredits (arrivalBytes s a)) (countRx a.port (countFec a s)) = u := ⟨_, rfl⟩
  have runs : receiveVmt a op (fun a => handle a op) s = enqueue p f u := by
    rw [receiveVmt_relays fec faulty lane accepting other up crew on hop path, held, ← out, ← frame]
  have lane' : f.shim.vl ≠ 7 := by
    rw [frame]
    exact (frameFaulty_lane faulty).trans_ne lane
  have field : ∀ {α : Type} (field : Port → α), (∀ x i h, field { x with credIn := i, credHeld := h } = field x) →
      field (port u p) = field (port s p) := fun field kept => by
    rw [← held]
    exact port_field field a.port (fun x => kept x _ _) _ p
  have can' : canSend u p f = true := by
    rw [canSend_congr (s := s) (by rw [← held]; rfl) (by rw [← held]; rfl) (by rw [← held]; rfl) (field Port.st fun _ _ _ => rfl)
      (field Port.swap fun _ _ _ => rfl) (field Port.credSent fun _ _ _ => rfl) (field Port.credBack fun _ _ _ => rfl)
      (field Port.paused fun _ _ _ => rfl)]
    exact can
  have body : f.body = .vmt op a.pkt := by rw [frame]; rfl
  have header : hdrOf u p f = hdrOf s p f := by
    refine hdrOf_congr body ?_ ?_ ?_ (field Port.peerMac fun _ _ _ => rfl)
    all_goals
      rw [← held]
      rfl
  have fcs : (!f.badFcs) = a.fcsOk := by rw [frame, relayed, Bool.not_not]
  have emits := enqueue_emits body lane' ((field Port.queue fun _ _ _ => rfl).trans queue) can'
  rw [header, fcs] at emits
  refine ⟨_, congrArg Host.Outcome.next runs, emits, ?_⟩
  rw [(enqueue_links p u f).mem, ← held]
  rfl

end

/-- Settles O54: an answer ends its request in the state in which its port took it (`endRequest_ends`, `takeResp_lands`, `endAll_ends`), and its
job, at rest, settles as it is (`AtRest.settle`); a timer tries again, gives up or frees an entry; and a relay's port sends a frame at once
when nothing waits at it (`enqueue_emits`). -/
theorem vmtAnswersAndTimersEndRequests : Obligations.VmtAnswersAndTimersEndRequests := by
  unfold Obligations.VmtAnswersAndTimersEndRequests
  refine ⟨⟨?_, ?_, ?_, fun slot peer s => ⟨ackSend_sends slot peer s, ackSend_idle slot peer s⟩⟩, ?_,
    fun slot peer seq s => ⟨replyCacheExpiry_frees slot peer seq s, holdExpiry_refuses slot peer seq s⟩, ?_⟩
  · rintro a b s u slot o va tk k reaches calm rfl out load length dest poison task own clean track landed
    obtain ⟨payload, opened⟩ := openArrival_opened s slot a
    rw [opened] at length landed
    exact vmtResp_lands reaches calm opened out load length dest poison task own clean track landed
  · rintro a b s slot o tk k code reaches calm rfl length coded has out
    exact ⟨vmtRefuse_ends reaches coded length has out calm, vmtRefuse_waits reaches coded length has out calm⟩
  · rintro a b s slot aw reaches calm rfl has ok upTo noNotes ends
    exact vmtAck_ends reaches calm has ok upTo noNotes ends
  · intro slot peer seq s o out calm
    exact ⟨fun o' => retransmit_retries out calm, retransmit_fails out calm, busyResend_sends out⟩
  · intro a op s k p f fec faulty lane accepting other up crew on hop path out queue frame can
    exact relayFrame_emits fec faulty lane accepting other up crew on hop path out queue frame can

end Sys2Proof.Machine
end
